-- ==== Sys2Proof/Word.lean ====
section
/-!
DEFINITION. The words of the register window: 32-bit words and the bit fields of them (R6 to R10).
-/
namespace Sys2Proof

/-- A 32-bit register word. -/
abbrev Word := BitVec 32

/-- One byte. -/
abbrev Byte := BitVec 8

/-- A bit field of a register word: its lowest bit and its width. -/
structure Fld where
  lo : Nat
  w : Nat
deriving DecidableEq, Repr

/-- The bits of a field, in place. -/
def Fld.mask (f : Fld) : Word := (BitVec.allOnes f.w).setWidth 32 <<< f.lo

/-- The value of a field of a word. -/
def Word.fld (v : Word) (f : Fld) : Nat := (v.extractLsb' f.lo f.w).toNat

/-- The word with one field replaced; a value too wide for the field keeps its low bits. -/
def Word.setFld (v : Word) (f : Fld) (x : Nat) : Word :=
  (v &&& ~~~ f.mask) ||| ((BitVec.ofNat f.w x).setWidth 32 <<< f.lo)

/-- An exact fraction: an amplitude, a weight, a level. -/
structure Frac where
  num : Int
  den : Nat
deriving DecidableEq, Repr, Inhabited

/-- The tag of a sample (R14): U, O, C and P in bits 0 to 3. -/
abbrev Tag := BitVec 4

/-- A sample of a lane in Q1.31, with its tag (R14). -/
structure Smp where
  v : Word
  tag : Tag
deriving DecidableEq, Repr, Inhabited

end Sys2Proof
end

