-- ==== Sys2Proof/Syntax.lean ====
section
/-!
DEFINITION. The commands that the block takes: one constructor of Instr for each row of the table of operations and
events, with its operands, and the types of those operands.
-/
namespace Sys2Proof

/-- An agent of the register window (R415): 0 PCIe, 1 SPI, 2 SMBus, 3 CMD ring, 4 management, 5 to 12 PARAM of
controller 0 to 7, 13 MC firmware, 14 JTAG. -/
abbrev Agent := Fin 15

/-- The direction of the H-F link. -/
inductive LinkWay where
  | hToF | fToH
deriving DecidableEq, Repr, Inhabited

/-- What a flit carries (R19). -/
inductive FlitKind where
  | sample | command | commit | event | result | training
deriving DecidableEq, Repr, Inhabited

/-- A flit that a sender keeps: its sequence number and what it carries. -/
structure Flit where
  seq : Nat
  kind : FlitKind
deriving DecidableEq, Repr, Inhabited

/-- Where a descriptor comes from: ring 0, ring 3, a PARAM queue, SMBus command 0x13, or a HEALTH request of a
controller with MGMT (R351, R415). -/
inductive Origin where
  | cmd | mcmd | param (i : Fin 8) | smbus | health (i : Fin 8)
deriving DecidableEq, Repr, Inhabited

/-- A descriptor (R345), with the payload bytes that a host or a PARAM message supplies. -/
structure Desc where
  op : Nat
  flags : Nat
  tag : Nat
  target : Nat
  block : Nat
  payAddr : Nat
  payLen : Nat
  inl : Nat
  payload : List Byte
deriving DecidableEq, Repr, Inhabited

/-- A descriptor by its origin and its ordinal there. -/
structure DescId where
  org : Origin
  ord : Nat
deriving DecidableEq, Repr, Inhabited

/-- The completion status codes (R349). -/
inductive Status where
  | done | refusedBusy | aborted | badOpcode | badParam | denied | lockAbandoned | lockNotHeld | faulted
  | superseded | timeout | notPresent
deriving DecidableEq, Repr, Inhabited

/-- What a failed DMA read was for (R332). -/
inductive DmaTarget where
  | payload (org : Origin) (ord : Nat)
  | fetch (mgmt : Bool)
  | statusBlock
deriving DecidableEq, Repr, Inhabited

/-- An SPI transaction after its address (R333): words written, with a last word cut by SPI_CS_N, or words read. -/
inductive SpiOp where
  | write (words : List Word) (cut : Bool)
  | read (n : Nat) (cut : Bool)
deriving DecidableEq, Repr, Inhabited

/-- A STR_IN entry that a doorbell announces: data block, channel count, and its samples, channel by channel for each
sample (R341). -/
structure StrEntry where
  k : Nat
  count : Nat
  data : List Word
deriving DecidableEq, Repr, Inhabited

/-- A hub stage (R370): the input stage of a lane, a mix bus, the stage of a sink. -/
inductive Stg where
  | lane (l : Fin 128)
  | bus (b : Fin 16)
  | sink (id : Nat)
deriving DecidableEq, Repr, Inhabited

/-- Where an uncorrectable word lies (the rows of R367). -/
inductive ErrPlace where
  /-- A word covered by R225, of a data block of cluster n that has not annealed. -/
  | parison (n : Fin 8)
  /-- Any other word of cluster n in use. -/
  | cluster (n : Fin 8)
  | stage (stg : Stg)
  | netBuffer
  | history (c : Fin 16)
  | coefBank (c : Fin 16) (bank : Bool)
  /-- The i-th entry of the F event store. -/
  | eventStore (i : Nat)
  | gather (n : Nat)
  /-- The i-th node of Tether gain memory. -/
  | tetherGain (i : Nat)
  | hubState
  /-- A word that no owner uses. -/
  | unused
deriving DecidableEq, Repr, Inhabited

/-- What a scrubber finds in a word. -/
inductive ScrubFind where
  | good | single | double (place : ErrPlace)
deriving DecidableEq, Repr, Inhabited

/-- How a flash operation ends (R425, R429). -/
inductive FlashResult where
  | ok | fail (region : Fin 2) | timeout
deriving DecidableEq, Repr, Inhabited

/-- An M-to-H frame. -/
inductive MFrame where
  | bad
  | good
deriving DecidableEq, Repr, Inhabited

/-- The write that arms a SYNC or moves an armed one (R72): of FLT_SYNC_CTL, or of a half of FLT_SYNC_AT. -/
inductive ArmWrite where
  | ctl (v : Word) | atLo (v : Word) | atHi (v : Word)
deriving DecidableEq, Repr, Inhabited

/-- A ratio tracker: of a port direction, or of a network listener (R90, R100). -/
inductive Tracker where
  | sap (d : Fin 8) | listener (s : Fin 16)
deriving DecidableEq, Repr, Inhabited

/-- A route multiplexer: of a lane, of a bus input, of a sink (R128). -/
inductive MuxId where
  | lane (l : Fin 128) | input (b : Fin 16) (i : Fin 32) | sink (id : Fin 320)
deriving DecidableEq, Repr, Inhabited

/-- A sink ID (R108); a reserved ID is ill-formed (WellFormed). -/
abbrev SinkId := Fin 320

/-- What the Tether scrubber finds in the three copies of a node (R267). -/
inductive NodeFind where
  | good | single | minority | uncorrectable | threeWay
deriving DecidableEq, Repr, Inhabited

/-- A detector frame as measured (R300, R302): band energies in 0.01 dBFS, the largest in-band bin over the mean in 0.01
dB, whether it holds switch-window samples, and the array time in ns of its first sample at the lane. -/
structure FrameMeas where
  alm : Int
  tonal : Int
  low : Int
  sh : Int
  sw : Bool
  ts : Nat
deriving DecidableEq, Repr, Inhabited


/-- What a data block produces that leaves its cluster (R165): the event of a record at a sample, or the readings of a METER
record, peak and RMS for each of its channels. -/
inductive RecFx where
  | event (r : Fin 512) (smp : Fin 16)
  | meter (r : Fin 512) (vals : List (Word × Word))
deriving DecidableEq, Repr, Inhabited

/-- The format of an AAF frame (R182). -/
inductive AafFmt where
  | int32 (depth : Nat) | int24 | other
deriving DecidableEq, Repr, Inhabited

/-- An AAF frame of a listener's stream ID (R182, R184): sample rate in kHz, channels and samples per frame, tv, AVTP
sequence number, avtp_timestamp, and the received words of each sample's channels, their top bits in place (R183). -/
structure AafFrame where
  fmt : AafFmt
  khz : Nat
  chans : Nat
  count : Nat
  tv : Bool
  seq : Nat
  ts : Word
  data : List (List Word)
deriving DecidableEq, Repr, Inhabited

/-- A MAC address. -/
abbrev Mac := BitVec 48

/-- A Zhevdom message (R190). -/
structure ZvMsg where
  src : Mac
  version : Nat
  flags : Nat
  dest : Nat
  sender : Nat
  seq : Nat
  payload : List Byte
deriving DecidableEq, Repr, Inhabited

/-- A frame that a switch port receives (R176): addresses, priority code point of a tagged frame, EtherType, FCS good, the
egress ports that have no buffer for it, and the Zhevdom message with its TYPE where it is one. -/
structure EthFrame where
  dst : Mac
  src : Mac
  pcp : Option (Fin 8)
  etype : Nat
  good : Bool
  full : BitVec 3
  zv : Option (Nat × ZvMsg)
deriving DecidableEq, Repr, Inhabited

/-- What M measured over an integration second (R383, R394): levels in 0.01 dB, a sample at HR full scale, its oscillator
cycles, the die temperature in 0.1 °C. -/
structure SecondMeas where
  laeq : Nat
  lceq : Nat
  lzeq : Nat
  lafmax : Nat
  lafmin : Nat
  lasmax : Nat
  lcpeak : Nat
  overload : Bool
  cycles : Nat
  temp : Int
deriving DecidableEq, Repr, Inhabited

/-- A MUART request (R389): the level of VER_EN at its first byte, its CRC good, its payload. -/
structure MuartReq where
  ver : Bool
  crcOk : Bool
  payload : List Byte
deriving DecidableEq, Repr, Inhabited

/-- What the part measures over a block and the commit point takes: the mean power of each PWR channel in mW, cycles and
stall cycles of each engine's slot, (requester, grants, wait, longest) of the arbiter, the read-outs of measured fields as
(address, word), the 64 words at 384 kHz that each front-end channel's FIR has taken (R62), and the 16 samples that each
source behind a serial port or a rate converter has delivered (R97). -/
structure BlockInputs where
  powers : List Nat
  slots : List (Nat × Nat)
  arb : List (Nat × Nat × Nat × Nat)
  meas : List (Nat × Word)
  chains : List (Nat × List Word)
  sources : List (Nat × List Smp)
deriving DecidableEq, Repr, Inhabited

/-- The commands of the block: one constructor for each row of the spec's table of operations and events. -/
inductive Instr where
  /-- COMMIT_POINT (R33). -/
  | commitPoint (m : BlockInputs)
  /-- SCHEDULE_STAGE (R199). -/
  | scheduleStage (i : Fin 8) (id : Nat)
  /-- FLIT_RECEIVED (R19). -/
  | flitReceived (dir : LinkWay) (seq : Fin 256) (crcOk : Bool) (kind : FlitKind)
  /-- LINK_REPLAY (R19). -/
  | linkReplay (dir : LinkWay) (first : Fin 256)
  /-- LINK_SAMPLE_SUBSTITUTE (R21). -/
  | linkSampleSubstitute (n : Nat)
  /-- F_LINK_DOWN (R22). -/
  | fLinkDown
  /-- H_LINK_DOWN (R373). -/
  | hLinkDown
  /-- DIE_LINK_UP (R373). -/
  | dieLinkUp
  /-- LINK_RETRAIN_TIMEOUT (R373). -/
  | linkRetrainTimeout
  /-- PARITY_WORD_REPLACED (R23). -/
  | parityWordReplaced (d : Fin 2) (up : Bool)
  /-- DIE_LINK_PARITY (R23). -/
  | dieLinkParity (d : Fin 2) (up : Bool)
  /-- LINK_PARITY_TRIP (R24). -/
  | linkParityTrip (d : Fin 2) (up : Bool)
  /-- COLLECTOR_SPACE_RETURN (R469). -/
  | collectorSpaceReturn
  /-- BLOCK_SLIP (R29). -/
  | blockSlip
  /-- AUDIO_PLL_REF_LOST (R46). -/
  | audioPllRefLost
  /-- AUDIO_PLL_LOCKED (R105). -/
  | audioPllLocked
  /-- PARISON_ESCAPE (R42). -/
  | parisonEscape (n : Fin 8)
  /-- AFE_MODE_CHANGE (R53). -/
  | afeModeChange (a : Agent) (n : Fin 8) (v : Word)
  /-- AFE_GAIN_WRITE (R54). -/
  | afeGainWrite (a : Agent) (n : Fin 8) (v : Word)
  /-- GAIN_STEP (R54). -/
  | gainStep (n : Fin 8)
  /-- AFE_ZC_TIMEOUT (R54). -/
  | afeZcTimeout (n : Fin 8)
  /-- MICBIAS_OVERCURRENT (R56). -/
  | micbiasOvercurrent (j : Fin 2)
  /-- PDM_STUCK (R59). -/
  | pdmStuck (k : Fin 4)
  /-- PDM_WIRE_TOGGLE (R59). -/
  | pdmWireToggle (k : Fin 4)
  /-- JACK_INSERTED (R60). -/
  | jackInserted (j : Fin 2) (ts : Nat)
  /-- JACK_REMOVED (R60). -/
  | jackRemoved (j : Fin 2) (ts : Nat)
  /-- MODULATOR_RELEASE (R76). -/
  | modulatorRelease (c : Fin 16)
  /-- CHAIN_SETTLED (R74). -/
  | chainSettled (c : Fin 16)
  /-- FLT_COEF_WIN_WRITE (R68). -/
  | fltCoefWinWrite (a : Agent) (i : Fin 128) (v : Word)
  /-- FLT_SWAP_GO (R69). -/
  | fltSwapGo (a : Agent) (c : Fin 16) (v : Word)
  /-- BANK_FADE_END (R71). -/
  | bankFadeEnd (c : Fin 16)
  /-- SYNC_BALL_EDGE (R72). -/
  | syncBallEdge
  /-- FLT_SW_SYNC (R72). -/
  | fltSwSync (a : Agent) (v : Word)
  /-- SYNC_ARM (R72). -/
  | syncArm (a : Agent) (w : ArmWrite)
  /-- INPUT_OVER_RANGE (R77). -/
  | inputOverRange (c : Fin 16) (k : Nat) (smp : Fin 16)
  /-- MODULATOR_OVERLOAD (R78). -/
  | modulatorOverload (n : Fin 8)
  /-- MODULATOR_RESET_END (R78). -/
  | modulatorResetEnd (n : Fin 8) (persists : Bool)
  /-- INPUT_THRESHOLD_UP (R80). -/
  | inputThresholdUp (c : Fin 16) (m : Fin 2) (k : Nat) (smp : Fin 16)
  /-- INPUT_THRESHOLD_DOWN (R80). -/
  | inputThresholdDown (c : Fin 16) (m : Fin 2) (k : Nat) (smp : Fin 16)
  /-- FLT_CNT_CLR (R10). -/
  | fltCntClr (a : Agent) (v : Word)
  /-- SAP_START (R93). -/
  | sapStart (a : Agent) (d : Fin 8) (v : Word)
  /-- SAP_FIRST_FRAME (R93). -/
  | sapFirstFrame (d : Fin 8) (rate : Nat)
  /-- SAP_SLOT_START (R93). -/
  | sapSlotStart (d : Fin 8) (i : Fin 16) (timeout : Bool)
  /-- SAP_STOP (R94). -/
  | sapStop (a : Agent) (d : Fin 8) (v : Word)
  /-- SAP_STOPPED (R94). -/
  | sapStopped (d : Fin 8)
  /-- SAP_SHADOW_APPLY (R91). -/
  | sapShadowApply (d : Fin 8) (n : Nat) (frame : Nat)
  /-- SAP_HOLD_RELEASE (R91). -/
  | sapHoldRelease (a : Agent) (d : Fin 8) (v : Word)
  /-- SAP_CLOCK_LOST (R88). -/
  | sapClockLost (d : Fin 8)
  /-- SAP_CLOCK_RESTORED (R88). -/
  | sapClockRestored (d : Fin 8) (rate : Nat)
  /-- SAP_FRAME_ERROR (R89). -/
  | sapFrameError (d : Fin 8)
  /-- SAP_SLIP (R99). -/
  | sapSlip (d : Fin 8)
  /-- SRC_MODE_CHANGE (R96). -/
  | srcModeChange (a : Agent) (d : Fin 8) (v : Word)
  /-- SRC_LOCKED (R100). -/
  | srcLocked (t : Tracker) (rate : Nat)
  /-- SRC_UNLOCKED (R101). -/
  | srcUnlocked (t : Tracker)
  /-- LANE_SILENT (R112). -/
  | laneSilent (l : Fin 128) (k : Nat) (smp : Fin 16)
  /-- LANE_ACTIVE (R112). -/
  | laneActive (l : Fin 128) (k : Nat) (smp : Fin 16)
  /-- LANE_PEAK (R113). -/
  | lanePeak (l : Fin 128) (k : Nat) (smp : Fin 16)
  /-- ROUTE_FADE_END (R129). -/
  | routeFadeEnd (m : MuxId)
  /-- SPLIT_FILL_END (R130). -/
  | splitFillEnd (l : Fin 128)
  /-- SINK_START_CROSSING (R131). -/
  | sinkStartCrossing (id : SinkId) (k : Nat) (smp : Fin 16)
  /-- SINK_START_TIMEOUT (R131). -/
  | sinkStartTimeout (id : SinkId)
  /-- SINK_STOP_CROSSING (R132). -/
  | sinkStopCrossing (id : SinkId) (k : Nat) (smp : Fin 16)
  /-- SINK_STOP_TIMEOUT (R132). -/
  | sinkStopTimeout (id : SinkId)
  /-- SINK_STOP_FADE_END (R132). -/
  | sinkStopFadeEnd (id : SinkId)
  /-- PRESET_GO (R135). -/
  | presetGo (a : Agent) (v : Word)
  /-- QUIET_REQUEST (R136). -/
  | quietRequest
  /-- QUIET_ENTRY_ABANDON (R136). -/
  | quietEntryAbandon
  /-- QUIET_ENTERED (R419). -/
  | quietEntered
  /-- QUIET_WAKE (R137). -/
  | quietWake (host : Bool)
  /-- OUT_READY (R247). -/
  | outReady
  /-- CONCEALED_OUT (R127). -/
  | concealedOut (id : Fin 22)
  /-- MP_CNT_CLR (R10). -/
  | mpCntClr (a : Agent) (v : Word)
  /-- ENGINE_MODE_WRITE (R152). -/
  | engineModeWrite (a : Agent) (n : Fin 8) (v : Word)
  /-- ENGINE_RENDER_START (R211). -/
  | engineRenderStart (n : Fin 8)
  /-- ENGINE_RENDER_DONE (R143). -/
  | engineRenderDone (n : Fin 8) (words : Nat) (fx : List RecFx)
  /-- ENGINE_DEADLINE_MISS (R167). -/
  | engineDeadlineMiss (n : Fin 8)
  /-- ARB_MASK_CHANGE (R173). -/
  | arbMaskChange (r : Fin 12)
  /-- ARB_SNAP (R174). -/
  | arbSnap (a : Agent) (v : Word)
  /-- ENG_CNT_CLR (R10). -/
  | engCntClr (a : Agent) (v : Word)
  /-- NET_LINK_UP (R175). -/
  | netLinkUp (p : Fin 2) (mbps : Nat) (full : Bool)
  /-- NET_LINK_DOWN (R175). -/
  | netLinkDown (p : Fin 2)
  /-- MDIO_GO (R175). -/
  | mdioGo (a : Agent) (v : Word)
  /-- MDIO_DONE (R175). -/
  | mdioDone (data : BitVec 16)
  /-- FRAME_RECEIVE (R176). -/
  | frameReceive (p : Fin 3) (f : EthFrame)
  /-- FDB_AGEING (R176). -/
  | fdbAgeing (m : Mac)
  /-- PDELAY_TIMER (R178). -/
  | pdelayTimer (p : Fin 2) (delay : Option Nat)
  /-- PTP_SYNC (R179). -/
  | ptpSync (p : Fin 2) (gm : BitVec 64) (hops : Nat) (off : Int)
  /-- SYNC_TIMEOUT (R179). -/
  | syncTimeout
  /-- HOLDOVER_EXPIRE (R179). -/
  | holdoverExpire
  /-- ANNOUNCE_TIMEOUT (R179). -/
  | announceTimeout (other : Bool)
  /-- BLOCK_COUNTER_RELOAD (R181). -/
  | blockCounterReload
  /-- LISTENER_FRAME (R184). -/
  | listenerFrame (st : Fin 16) (f : AafFrame)
  /-- STREAM_LOST (R186). -/
  | streamLost (st : Fin 16)
  /-- TALKER_FRAME_SEND (R187). -/
  | talkerFrameSend (st : Fin 16) (k : Nat) (smp : Fin 16) (room : Bool)
  /-- ZV_DISCOVER (R195). -/
  | zvDiscover (m : ZvMsg)
  /-- DISCOVER_REPLY_SEND (R195). -/
  | discoverReplySend (i : Nat)
  /-- ZV_ADDRESS (R195). -/
  | zvAddress (m : ZvMsg)
  /-- ZV_PARAM (R196). -/
  | zvParam (m : ZvMsg)
  /-- ZV_SCHEDULE (R197). -/
  | zvSchedule (m : ZvMsg)
  /-- ZV_PRIORITY (R200). -/
  | zvPriority (m : ZvMsg)
  /-- ZV_HEALTH (R201). -/
  | zvHealth (m : ZvMsg)
  /-- HEALTH_REPORT (R201). -/
  | healthReport
  /-- BRIDLE_SLEW_END (R205). -/
  | bridleSlewEnd
  /-- NET_CNT_CLR (R10). -/
  | netCntClr (a : Agent) (v : Word)
  /-- GROUP_MUTED (R236). -/
  | groupMuted (g : Fin 16) (j : Nat)
  /-- GROUP_UNMUTED (R236). -/
  | groupUnmuted (g : Fin 16) (j : Nat)
  /-- LOAD_TEST_DONE (R253). -/
  | loadTestDone (m : Fin 8) (r : Nat)
  /-- SOFTSTART_END (R244). -/
  | softstartEnd (m : Fin 8)
  /-- PWR_STOP_GAIN_ZERO (R245). -/
  | pwrStopGainZero (c : Fin 16)
  /-- PWR_STOPPED (R245). -/
  | pwrStopped (m : Fin 8)
  /-- RESTART_RAMP_START (R246). -/
  | restartRampStart (c : Fin 16) (crossing : Bool)
  /-- PWR_CLR_FAULT (R252). -/
  | pwrClrFault (a : Agent) (m : Fin 8) (v : Word)
  /-- PWR_DIAG_GO (R253). -/
  | pwrDiagGo (a : Agent) (m : Fin 8) (v : Word)
  /-- PWR_CURRENT_LIMIT (R251). -/
  | pwrCurrentLimit (m : Fin 8)
  /-- PWR_SUSTAINED_TRIP (R251). -/
  | pwrSustainedTrip (m : Fin 8) (trace : List Word)
  /-- PWR_SHORT_TRIP (R252). -/
  | pwrShortTrip (m : Fin 8) (trace : List Word)
  /-- RETRY_ATTEMPT (R252). -/
  | retryAttempt (c : Fin 16)
  /-- RETRY_COUNT_RESET (R252). -/
  | retryCountReset (c : Fin 16)
  /-- PWR_DC_FAULT (R251). -/
  | pwrDcFault (m : Fin 8)
  /-- PDIE_THERMAL_WARN (R251). -/
  | pdieThermalWarn (d : Fin 2)
  /-- PDIE_FOLDBACK (R251). -/
  | pdieFoldback (d : Fin 2)
  /-- PDIE_SHUTDOWN (R251). -/
  | pdieShutdown (d : Fin 2)
  /-- PDIE_THERMAL_RECOVER (R251). -/
  | pdieThermalRecover (d : Fin 2)
  /-- PVDD_UNDER (R251). -/
  | pvddUnder (rail : Fin 2)
  /-- PVDD_OVER (R251). -/
  | pvddOver (rail : Fin 2)
  /-- PVDD_OK (R251). -/
  | pvddOk (rail : Fin 2)
  /-- OFFSET_CAL_DONE (R248). -/
  | offsetCalDone (m : Fin 8) (trim : BitVec 16)
  /-- EXT_READY (R255). -/
  | extReady (e : Fin 8)
  /-- EXT_FAULT (R256). -/
  | extFault (e : Fin 8)
  /-- EXT_CLR_FAULT (R252). -/
  | extClrFault (a : Agent) (e : Fin 8) (v : Word)
  /-- LO_ENABLE (R257). -/
  | loEnable (j : Fin 5)
  /-- LO_READY (R257). -/
  | loReady (j : Fin 5)
  /-- LO_OVERCURRENT (R257). -/
  | loOvercurrent (j : Fin 4)
  /-- HP_OVERCURRENT (R258). -/
  | hpOvercurrent
  /-- HP_JACK_INSERT (R259). -/
  | hpJackInsert
  /-- HP_PROBE_DONE (R259). -/
  | hpProbeDone (zl : Nat) (zr : Nat)
  /-- HP_REMOVED (R259). -/
  | hpRemoved (ts : Nat)
  /-- PWR_CNT_CLR (R10). -/
  | pwrCntClr (a : Agent) (v : Word)
  /-- TTH_GWIN_WRITE (R265). -/
  | tthGwinWrite (a : Agent) (v : Word)
  /-- TETHER_SCRUB (R267). -/
  | tetherScrub (set_ : Fin 3) (node : Fin 384) (f : NodeFind)
  /-- TETHER_VOTE_MASKED (R268). -/
  | tetherVoteMasked (o : Fin 24) (w0 : BitVec 24) (w1 : BitVec 24) (w2 : BitVec 24)
  /-- TETHER_FAULT (R268). -/
  | tetherFault (o : Fin 24) (w0 : BitVec 24) (w1 : BitVec 24) (w2 : BitVec 24)
  /-- TTH_CLR_FAULT (R269). -/
  | tthClrFault (a : Agent) (o : Fin 24) (v : Word)
  /-- TAKEOVER_REQUEST (R274). -/
  | takeoverRequest
  /-- HUB_POWER_GOOD_LOW (R274). -/
  | hubPowerGoodLow
  /-- PRIO_BALL_CHANGE (R281). -/
  | prioBallChange (active : Bool)
  /-- TTH_PLAY_GO (R285). -/
  | tthPlayGo (a : Agent) (v : Word)
  /-- TTH_PLAY_STOP (R285). -/
  | tthPlayStop (a : Agent) (v : Word)
  /-- MESSAGE_FRAME_DECODE (R284). -/
  | messageFrameDecode
  /-- MESSAGE_END (R285). -/
  | messageEnd
  /-- MESSAGE_GAP_END (R285). -/
  | messageGapEnd
  /-- TONE_CFG_WRITE (R288). -/
  | toneCfgWrite (a : Agent) (freq : Bool) (v : Word)
  /-- PSAP_LOCK (R289). -/
  | psapLock
  /-- SERVO_OPEN (R291). -/
  | servoOpen (m : Fin 8)
  /-- SERVO_CLOSE (R291). -/
  | servoClose (a : Agent) (m : Fin 8) (v : Word)
  /-- TETHER_BOOT (R292). -/
  | tetherBoot
  /-- TTH_MAINT_WRITE (R294). -/
  | tthMaintWrite (a : Agent) (v : Word)
  /-- SELFTEST_DONE (R294). -/
  | selftestDone (failed : BitVec 24)
  /-- TTH_CNT_CLR (R10). -/
  | tthCntClr (a : Agent) (v : Word)
  /-- LCLK_CALIBRATE (R297). -/
  | lclkCalibrate (err : BitVec 20)
  /-- DETECTOR_FRAME (R300). -/
  | detectorFrame (f : FrameMeas)
  /-- WAKE_OUTPUTS_READY (R307). -/
  | wakeOutputsReady (idx : Nat)
  /-- HUB_READY (R307). -/
  | hubReady
  /-- GATHER_SEGMENT_COMPLETE (R308). -/
  | gatherSegmentComplete (xs : List (BitVec 16))
  /-- GTH_GO_WRITE (R309). -/
  | gthGoWrite (a : Agent) (v : Word)
  /-- GTH_STOP_WRITE (R309). -/
  | gthStopWrite (a : Agent) (v : Word)
  /-- SNS_SW_TRIGGER (R317). -/
  | snsSwTrigger (a : Agent) (c : Fin 2) (v : Word)
  /-- SENSE_TIMER_TICK (R317). -/
  | senseTimerTick (t : Fin 4)
  /-- SENSE_PWM_EVENT (R319). -/
  | sensePwmEvent (m : Fin 8) (centre : Bool)
  /-- SENSE_GPIO_EDGE (R317). -/
  | senseGpioEdge (g : Fin 16) (rising : Bool)
  /-- SENSE_CONVERSION_DONE (R315). -/
  | senseConversionDone (c : Fin 2) (raw : Int)
  /-- SENSE_PAUSE (R320). -/
  | sensePause (a : Agent) (c : Fin 2) (v : Word)
  /-- SENSE_RESUME (R320). -/
  | senseResume (a : Agent) (c : Fin 2) (v : Word)
  /-- SENSE_DISABLE (R320). -/
  | senseDisable (a : Agent) (c : Fin 2) (v : Word)
  /-- SNS_INJ_GO (R321). -/
  | snsInjGo (a : Agent) (c : Fin 2) (v : Word)
  /-- SNS_CAL_GO (R326). -/
  | snsCalGo (a : Agent) (c : Fin 2) (v : Word)
  /-- REF_BUFFER_ENABLE (R324). -/
  | refBufferEnable (a : Agent) (on : Bool)
  /-- REF_READY (R324). -/
  | refReady
  /-- SNS_CAL_TABLE_WRITE (R325). -/
  | snsCalTableWrite (a : Agent) (gain : Bool) (v : Word)
  /-- TDAC_SWITCH_WRITE (R330). -/
  | tdacSwitchWrite (a : Agent) (v : Word)
  /-- SNS_CNT_CLR (R10). -/
  | snsCntClr (a : Agent) (v : Word)
  /-- DMA_ERROR (R332). -/
  | dmaError (t : DmaTarget)
  /-- SPI_TRANSACTION (R333). -/
  | spiTransaction (addr : Nat) (op : SpiOp)
  /-- SMB_SET_POINTER (R334). -/
  | smbSetPointer (p : Nat) (pecOk : Bool)
  /-- SMB_READ_REGISTER (R334). -/
  | smbReadRegister
  /-- SMB_READ_HEALTH (R334). -/
  | smbReadHealth
  /-- SMB_SUBMIT (R334). -/
  | smbSubmit (d : Desc) (pecOk : Bool)
  /-- SMB_READ_MCPL (R334). -/
  | smbReadMcpl
  /-- SMB_ALERT_RESPONSE (R334). -/
  | smbAlertResponse
  /-- SMB_DESCRIPTOR_DONE (R334). -/
  | smbDescriptorDone
  /-- RING_ENABLE (R336). -/
  | ringEnable (a : Agent) (r : Fin 16)
  /-- RING_DISABLE_DRAIN (R354). -/
  | ringDisableDrain (a : Agent) (r : Fin 16)
  /-- RING_DISABLE_ABORT (R354). -/
  | ringDisableAbort (a : Agent) (r : Fin 16) (tags : List Nat)
  /-- RING_DRAIN_DONE (R354). -/
  | ringDrainDone (r : Fin 16)
  /-- DOORBELL_RING (R337). -/
  | doorbellRing (a : Agent) (r : Fin 16) (v : Word) (entries : List StrEntry)
  /-- VECTOR_REARM (R340). -/
  | vectorRearm (a : Agent) (k : Fin 16) (v : Word)
  /-- VECTOR_FIRE (R340). -/
  | vectorFire (k : Fin 16)
  /-- DESCRIPTOR_FETCH (R346). -/
  | descriptorFetch (mgmt : Bool) (bytes : List Byte) (payload : List Byte)
  /-- COMPLETION_POST (R347). -/
  | completionPost (org : Origin)
  /-- FUNCTION_LEVEL_RESET (R355). -/
  | functionLevelReset
  /-- PCIE_LINK_DOWN (R355). -/
  | pcieLinkDown
  /-- PCIE_LINK_UP (R411). -/
  | pcieLinkUp (bme : Bool) (msix : Bool) (fmask : Bool) (vmask : BitVec 16)
  /-- LANE_SOURCE (R128). -/
  | laneSource (org : Origin) (d : Desc)
  /-- LANE_TRIM (R125). -/
  | laneTrim (org : Origin) (d : Desc)
  /-- LANE_DETECT (R112). -/
  | laneDetect (org : Origin) (d : Desc)
  /-- BUS_INPUT (R128). -/
  | busInput (org : Origin) (d : Desc)
  /-- BUS_CFG (R118). -/
  | busCfg (org : Origin) (d : Desc)
  /-- SINK (R131). -/
  | sink (org : Origin) (d : Desc)
  /-- SINK_DYNAMICS (R124). -/
  | sinkDynamics (org : Origin) (d : Desc)
  /-- PRESET_STORE (R134). -/
  | presetStore (org : Origin) (d : Desc)
  /-- PRESET_APPLY (R135). -/
  | presetApply (org : Origin) (d : Desc)
  /-- FILTER_SWAP (R69). -/
  | filterSwap (org : Origin) (d : Desc)
  /-- FILTER_COEF (R68). -/
  | filterCoef (org : Origin) (d : Desc)
  /-- FRONT_END_SYNC (R72). -/
  | frontEndSync (org : Origin) (d : Desc)
  /-- REG_WRITE (R353). -/
  | regWrite (org : Origin) (d : Desc)
  /-- REG_WRITE_MASKED (R353). -/
  | regWriteMasked (org : Origin) (d : Desc)
  /-- REG_WRITE_RUN (R353). -/
  | regWriteRun (org : Origin) (d : Desc)
  /-- GENERATOR (R470). -/
  | generator (org : Origin) (d : Desc)
  /-- PROG_LOAD (R151). -/
  | progLoad (org : Origin) (d : Desc)
  /-- PROG_START (R152). -/
  | progStart (org : Origin) (d : Desc)
  /-- ENGINE_MODE (R152). -/
  | engineMode (org : Origin) (d : Desc)
  /-- PARAM_WRITE (R155). -/
  | paramWrite (org : Origin) (d : Desc)
  /-- IR_LOAD (R164). -/
  | irLoad (org : Origin) (d : Desc)
  /-- RUNAHEAD_SET (R209). -/
  | runaheadSet (org : Origin) (d : Desc)
  /-- RUNAHEAD_STATUS (R238). -/
  | runaheadStatus (org : Origin) (d : Desc)
  /-- GATHER_START (R309). -/
  | gatherStart (org : Origin) (d : Desc)
  /-- GATHER_STOP (R309). -/
  | gatherStop (org : Origin) (d : Desc)
  /-- HOST_STREAM_START (R342). -/
  | hostStreamStart (org : Origin) (d : Desc)
  /-- HOST_STREAM_STOP (R342). -/
  | hostStreamStop (org : Origin) (d : Desc)
  /-- TETHER_GAINS (R266). -/
  | tetherGains (org : Origin) (d : Desc)
  /-- TETHER_MODE (R273). -/
  | tetherMode (org : Origin) (d : Desc)
  /-- TETHER_FAULT_CLEAR (R269). -/
  | tetherFaultClear (org : Origin) (d : Desc)
  /-- TETHER_SELFTEST (R294). -/
  | tetherSelftest (org : Origin) (d : Desc)
  /-- MESSAGE_PLAY (R285). -/
  | messagePlay (org : Origin) (d : Desc)
  /-- MESSAGE_STOP (R285). -/
  | messageStop (org : Origin) (d : Desc)
  /-- SENSE_TRIGGER (R317). -/
  | senseTrigger (org : Origin) (d : Desc)
  /-- SENSE_INJECT (R323). -/
  | senseInject (org : Origin) (d : Desc)
  /-- SENSE_CALIBRATE (R326). -/
  | senseCalibrate (org : Origin) (d : Desc)
  /-- OUTPUT_OFFSET_CAL (R248). -/
  | outputOffsetCal (org : Origin) (d : Desc)
  /-- OUTPUT_CLEAR_FAULT (R252). -/
  | outputClearFault (org : Origin) (d : Desc)
  /-- LOCK_ACQUIRE (R357). -/
  | lockAcquire (org : Origin) (d : Desc)
  /-- LOCK_RELEASE (R359). -/
  | lockRelease (org : Origin) (d : Desc)
  /-- LOCK_DISCARD (R359). -/
  | lockDiscard (org : Origin) (d : Desc)
  /-- LOCK_RENEW (R361). -/
  | lockRenew (org : Origin) (d : Desc)
  /-- LEASE_EXPIRY (R360). -/
  | leaseExpiry (k : Fin 32)
  /-- LCK_OWNER_RESET (R356). -/
  | lckOwnerReset (a : Agent) (owner : Fin 64)
  /-- LCK_CNT_CLR (R10). -/
  | lckCntClr (a : Agent) (v : Word)
  /-- PERSIST (R432). -/
  | persist (org : Origin) (d : Desc)
  /-- JOURNAL_READ (R352). -/
  | journalRead (org : Origin) (d : Desc)
  /-- FIRMWARE_WRITE (R413). -/
  | firmwareWrite (org : Origin) (d : Desc)
  /-- FIRMWARE_SELECT (R413). -/
  | firmwareSelect (org : Origin) (d : Desc)
  /-- POWER_MODE (R420). -/
  | powerMode (org : Origin) (d : Desc)
  /-- MESSAGE_STORE (R287). -/
  | messageStore (org : Origin) (d : Desc)
  /-- TETHER_IMAGE_STORE (R293). -/
  | tetherImageStore (org : Origin) (d : Desc)
  /-- METROLOGY_READ (R396). -/
  | metrologyRead (org : Origin) (d : Desc)
  /-- NOP (R352). -/
  | nop (org : Origin) (d : Desc)
  /-- HIF_CNT_CLR (R10). -/
  | hifCntClr (a : Agent) (v : Word)
  /-- MEM_SINGLE_BIT_ERROR (R364). -/
  | memSingleBitError (st : Fin 28) (addr : Nat)
  /-- MEM_UNCORRECTABLE (R367). -/
  | memUncorrectable (st : Fin 28) (addr : Nat) (place : ErrPlace)
  /-- STAGE_RESUME (R370). -/
  | stageResume (g : Stg)
  /-- SRAM_SCRUB (R364). -/
  | sramScrub (st : Fin 28) (addr : Nat) (find : ScrubFind)
  /-- DRAM_SCRUB (R364). -/
  | dramScrub (addr : Nat) (find : ScrubFind)
  /-- HUB_RESET (R372). -/
  | hubReset
  /-- MC_WATCHDOG_EXPIRE (R372). -/
  | mcWatchdogExpire
  /-- SYSPLL_LOCK_LOSS (R372). -/
  | syspllLockLoss
  /-- MLINK_FRAME (R374). -/
  | mlinkFrame (f : MFrame)
  /-- MLINK_SECOND_MARKER (R395). -/
  | mlinkSecondMarker
  /-- EVT_DETAIL_SELECT (R375). -/
  | evtDetailSelect (a : Agent) (v : Word)
  /-- MEM_INJECT (R417). -/
  | memInject (a : Agent) (v : Word)
  /-- MEM_CNT_CLR (R10). -/
  | memCntClr (a : Agent) (v : Word)
  /-- M_START (R385). -/
  | mStart (cause : Fin 2)
  /-- M_SUPPLY_REMOVE (R387). -/
  | mSupplyRemove
  /-- M_READ_REQUEST (R380). -/
  | mReadRequest
  /-- INTEGRATION_SECOND (R383). -/
  | integrationSecond (m : SecondMeas) (ver : Bool)
  /-- MINUTE_CLOSE (R387). -/
  | minuteClose (vbak : Nat)
  /-- CALENDAR_TICK (R404). -/
  | calendarTick
  /-- CALENDAR_TRIM (R400). -/
  | calendarTrim (temp : Int)
  /-- CALENDAR_STOP (R401). -/
  | calendarStop
  /-- MUART_GAP_TIMEOUT (R389). -/
  | muartGapTimeout
  /-- STATUS (R390). -/
  | status (r : MuartReq)
  /-- READ (R390). -/
  | read (r : MuartReq)
  /-- ACK (R390). -/
  | ack (r : MuartReq)
  /-- HEAD (R390). -/
  | head (r : MuartReq)
  /-- SET_TIME (R403). -/
  | setTime (r : MuartReq)
  /-- SETTINGS (R390). -/
  | settings (r : MuartReq)
  /-- CAL_READ (R390). -/
  | calRead (r : MuartReq)
  /-- CAL_SET (R390). -/
  | calSet (r : MuartReq)
  /-- CAL_MEASURE (R390). -/
  | calMeasure (r : MuartReq)
  /-- CAL_MEASURE_DONE (R390). -/
  | calMeasureDone (vals : List Nat)
  /-- CAL_COMMIT (R390). -/
  | calCommit (r : MuartReq)
  /-- SEAL (R393). -/
  | seal (r : MuartReq)
  /-- CAL_CHECK (R390). -/
  | calCheck (r : MuartReq)
  /-- CAL_CHECK_DONE (R390). -/
  | calCheckDone (vals : List Nat)
  /-- CAL_TIME_READ (R404). -/
  | calTimeRead (a : Agent)
  /-- LO_LATCH_READ (R441). -/
  | loLatchRead (a : Agent) (addr : Nat)
  /-- POWER_ON (R411). -/
  | powerOn (vsys : Nat) (testen : Bool)
  /-- RESET_N (R408). -/
  | resetN (testen : Bool)
  /-- VSYS_FAIL (R407). -/
  | vsysFail
  /-- BOOT_ROM_START (R413). -/
  | bootRomStart (readErrA : Bool) (readErrB : Bool)
  /-- BOOTSEAL (R417). -/
  | bootseal (a : Agent)
  /-- JOURNAL_RESTORE_DONE (R435). -/
  | journalRestoreDone
  /-- RECOVERY_GO (R414). -/
  | recoveryGo (a : Agent) (v : Word)
  /-- RECOVERY_DONE (R414). -/
  | recoveryDone (ok : Bool)
  /-- LISTEN_OUTPUTS_ZERO (R421). -/
  | listenOutputsZero (idx : Nat)
  /-- LISTEN_RAIL_REMOVE (R421). -/
  | listenRailRemove
  /-- LISTEN_ENTRY_CANCEL (R423). -/
  | listenEntryCancel (source : Fin 4)
  /-- GPIO_WAKE (R419). -/
  | gpioWake (k : Fin 4)
  /-- JOURNAL_COMPACT (R430). -/
  | journalCompact (j : Fin 2)
  /-- JOURNAL_COMPACT_DONE (R430). -/
  | journalCompactDone (j : Fin 2)
  /-- JNL_COMPACT_GO (R430). -/
  | jnlCompactGo (a : Agent) (v : Word)
  /-- JNL_CNT_CLR (R10). -/
  | jnlCntClr (a : Agent) (v : Word)
  /-- REGISTER_WRITE (R437). -/
  | registerWrite (a : Agent) (addr : BitVec 17) (v : Word) (be : Fin 16)
  /-- COMMIT_HOLD_SET (R443). -/
  | commitHoldSet (a : Agent)
  /-- COMMIT_HOLD_RELEASE (R443). -/
  | commitHoldRelease (a : Agent)
  /-- MIRROR_REFRESH (R439). -/
  | mirrorRefresh (a : Agent) (v : Word)
  /-- MIRROR_REFRESH_ARRIVE (R439). -/
  | mirrorRefreshArrive
  /-- F_WRITE_APPLY (R440). -/
  | fWriteApply
  /-- GLB_CNT_CLR (R10). -/
  | glbCntClr (a : Agent) (v : Word)
  /-- TST_SEL_WRITE (R461). -/
  | tstSelWrite (a : Agent) (k : Fin 3) (v : Word)
  /-- TST_CNT_CLR (R10). -/
  | tstCntClr (a : Agent) (v : Word)
  /-- JTAG_REGWIN (R465). -/
  | jtagRegwin (w : BitVec 50)
  /-- JTAG_TAP_RESET (R463). -/
  | jtagTapReset
  /-- AUDIO_PLL_REF_RETURN (R105). -/
  | audioPllRefReturn
  /-- HUB_POWER_GOOD_HIGH (R274). -/
  | hubPowerGoodHigh
  /-- VIO_GOOD_CHANGE (R406). -/
  | vioGoodChange (good : Bool) (mv : Nat)
  /-- RAIL_FAULT (R410). -/
  | railFault (i : Fin 16) (mv : Nat)
  /-- RESTART_RAMP_END (R246). -/
  | restartRampEnd (c : Fin 16)
  /-- MESSAGE_STOP_FADE_END (R285). -/
  | messageStopFadeEnd
  /-- FLASH_OPERATION_DONE (R429). -/
  | flashOperationDone (res : FlashResult)
  /-- METROLOGY_READ_TIMEOUT (R396). -/
  | metrologyReadTimeout
  /-- PDIE_COOLING (R251). -/
  | pdieCooling (d : Fin 2) (temp : Int)
  /-- JTAG_UPDATE_IR (R464). -/
  | jtagUpdateIr (irH : BitVec 8) (irF : BitVec 6) (irM : BitVec 4)
deriving DecidableEq, Repr, Inhabited

end Sys2Proof
end

