-- ==== Sys2Proof/Decode.lean ====
section
/-!
DEFINITION. The decoder of command words. The block takes commands, not words: no row of the table of operations has bits,
so no word spells a command.
-/
namespace Sys2Proof

/-- The command that a word spells by the table's bits: none, since no row has any. -/
def decodeTableWord (_nbits _w : Nat) : Option Instr := none

end Sys2Proof
end

