-- ==== Sys2Proof/Config.lean ====
section
/-!
DEFINITION. What an implementation fixes and the spec leaves open: constants and functions with no body, so that no
proof can see a value of them.
-/
namespace Sys2Proof

/-- The ordering code of the part: 0 IMA, 1 CMA, 2 IMX, 3 CMX (R2, GLB_ORDER). -/
opaque Config.orderCode : BitVec 2

/-- GLB_ORDER as the ordering code gives it: METRO set on an MX part, GRADE set on a C part. -/
def Config.orderWord : Word :=
  (Config.orderCode.setWidth 32) ||| ((Config.orderCode.setWidth 32 &&& 1) <<< 2)
    ||| ((Config.orderCode.setWidth 32 &&& 2) <<< 2)

/-- The die identity (R445). -/
opaque Config.dieId : BitVec 64

/-- GLB_ROM_VER (R445). -/
opaque Config.romVer : Word

/-- GLB_FUSE[0] to GLB_FUSE[3]. -/
opaque Config.fuse : Nat → Word

/-- PROT_MSIG as the factory leaves it. -/
opaque Config.msigFactory : Nat → Word

/-- MLK_ROM. -/
opaque Config.mlkRom : Word

/-- The default coefficient h[i] of the analogue (false) or PDM (true) channels (R67). -/
opaque Config.defaultCoef : Bool → Nat → Word

/-- Whether a read-out whose exact value lies strictly between two codes shows the upper one, where the spec states no
rounding: by the numbers that give the exact value. -/
opaque Config.roundUp : Nat → Nat → Bool

/-- DRAM bytes per block of a record with the DRAM flag whose TYPE the spec gives no figure for: by TYPE, channels and state
bytes. -/
opaque Config.dramBytes : Nat → Nat → Nat → Nat

/-- The energy mean of levels in 0.01 dB that are not all equal, in whole 0.01 dB, for which the spec states no rounding. -/
opaque Config.energyMean : List Nat → Nat

/-- Where the part puts the frames of a message, by its number and frames, which the spec does not state. -/
opaque Config.messagePlace : Nat → Nat → Nat

/-- Whether a measured bit clock that does not divide 196.608 MHz exactly counts as one that does (R103): by the measured frame
rate in 0.25 Hz and the frame length. -/
opaque Config.nearInteger : Nat → Nat → Bool

/-- A free value of a width: what a command leaves where the spec states no value. -/
opaque Config.freeValue : (w : Nat) → Nat → BitVec w

/-- The amplitude of −num/den dB for num above 0, as the pair that `unitOf` makes a fraction between 0 and 1 of. -/
opaque Config.atten : Nat → Nat → Nat × Nat

/-- The raised-cosine weight w of sample i of a fade of length F (R70), as a pair for `unitOf`. -/
opaque Config.rise : Nat → Nat → Nat × Nat

/-- 1/√n for an n that is no square (R118), as a pair for `unitOf`. -/
opaque Config.rootInv : Nat → Nat × Nat

/-- The level in dB of a magnitude in units of 2^−31 (R122). -/
opaque Config.level : Nat → Frac

/-- The share by which a one-pole smoothing of a time constant in 0.1 ms moves in one sample (R122), as a pair for
`unitOf`. -/
opaque Config.pole : Nat → Nat × Nat

/-- The gain that the limiter computes, by RELEASE, look-ahead, ceiling, the magnitudes in its look-ahead, newest first, and
its last gain (R123), as a pair for a fraction above 0 and at most 1. -/
opaque Config.limGain : Nat → Nat → Frac → List Nat → Frac → Nat × Nat

/-- A sine of unit amplitude at a phase in units of 1/1,536,000 of a cycle (R470), as a pair for a fraction between −1
and 1. -/
opaque Config.sine : Nat → Int × Nat

/-- The phase at which the sine of a generator begins, in units of 1/1,536,000 of a cycle, by generator and data block; the
spec states none. -/
opaque Config.startPhase : Nat → Nat → Nat

/-- Sample n of the sequence of a noise generator, white or pink, by its seed, in Q1.31 at a level of 0 dBFS (R470). -/
opaque Config.noise : Bool → Word → Nat → Int

/-- The fractional-delay interpolator at a phase above 0, on 8 line samples, newest first (R163). -/
opaque Config.interp : Nat → List Word → Int

/-- What a line gives at a delay that the range of its record does not allow (R163): by MAXD and the delay. -/
opaque Config.beyond : Nat → Nat → Int

/-- A catalogue block whose arithmetic the spec does not state (R159): the exact output of an output channel at a sample, by
TYPE, ARG, parameter words, the words of its inputs and what it keeps inside. -/
opaque Config.blockOut : Nat → Nat → List Word → List (List Word) → Nat → Nat → Nat → Int

/-- What such a block keeps inside after a data block (R142). -/
opaque Config.blockNext : Nat → Nat → List Word → List (List Word) → Nat → Nat

/-- How many records an engine that missed its deadline had run, by engine and data block (R167). -/
opaque Config.recordsRun : Nat → Nat → Nat

end Sys2Proof
end

