-- ==== Sys2Proof/Machine/Mem.lean ====
section
/-!
DEFINITION. Byte memory as plain data: (address, byte) pairs, addresses strictly rising, no entry equal to what an
unlisted address reads as. The byte that an unlisted address reads as is a parameter: the local ring window reads 0,
erased flash reads 0xFF.
-/
namespace Sys2Proof.Machine

/-- A byte memory. -/
abbrev Mem := List Host.Cell

/-- The byte at an address. -/
def Mem.get (d : Byte) : Mem → Nat → Byte
  | [], _ => d
  | (b, v) :: rest, a => if b = a then v else Mem.get d rest a

/-- The memory without an entry for an address. -/
def Mem.erase : Mem → Nat → Mem
  | [], _ => []
  | (b, v) :: rest, a => if b = a then Mem.erase rest a else (b, v) :: Mem.erase rest a

/-- The memory with an entry put in address order. -/
def Mem.insert : Mem → Nat → Byte → Mem
  | [], a, v => [(a, v)]
  | (b, w) :: rest, a, v => if a < b then (a, v) :: (b, w) :: rest else (b, w) :: Mem.insert rest a v

/-- The memory after a write of one byte. -/
def Mem.set (d : Byte) (m : Mem) (a : Nat) (v : Byte) : Mem :=
  if v = d then m.erase a else (m.erase a).insert a v

/-- The memory after a write of bytes from an address on. -/
def Mem.setMany (d : Byte) : Mem → Nat → List Byte → Mem
  | m, _, [] => m
  | m, a, v :: vs => Mem.setMany d (m.set d a v) (a + 1) vs

/-- `n` bytes from an address on. -/
def Mem.getMany (d : Byte) (m : Mem) (a : Nat) : Nat → List Byte
  | 0 => []
  | n + 1 => m.get d a :: Mem.getMany d m (a + 1) n

/-- The addresses are strictly rising from a bound. -/
def Mem.sortedFrom : Nat → Mem → Bool
  | _, [] => true
  | n, (b, _) :: rest => decide (n ≤ b) && Mem.sortedFrom (b + 1) rest

/-- No entry equals the byte that an unlisted address reads as. -/
def Mem.tight (d : Byte) : Mem → Bool
  | [] => true
  | (_, v) :: rest => decide (v ≠ d) && Mem.tight d rest

/-- The canonical form. -/
def Mem.wf (d : Byte) (m : Mem) : Bool := Mem.sortedFrom 0 m && Mem.tight d m

/-- A number as little-endian bytes (R7). -/
def leBytes : Nat → Nat → List Byte
  | 0, _ => []
  | n + 1, x => BitVec.ofNat 8 x :: leBytes n (x / 256)

/-- The number that little-endian bytes spell (R7). -/
def leNat : List Byte → Nat
  | [] => 0
  | b :: bs => b.toNat + 256 * leNat bs

end Sys2Proof.Machine
end

