-- ==== Sys2Proof/Machine/RegMap.lean ====
section
/-!
DEFINITION. The register map (chapter 16, R433 to R435, and the field tables of every chapter): the address of each
register, the place of each field, its access code (R10) and its reset value.
-/
namespace Sys2Proof.Machine

/-- The access codes of R10. -/
inductive Acc where
  | ro | rw | w1c | wo | rws | rwb
deriving DecidableEq, Repr

/-- One field of a register: its place, its access code and its reset value. -/
structure FieldDef where
  fld : Fld
  acc : Acc
  reset : Nat
deriving DecidableEq, Repr

/-- One register or array of registers: first address, up to two dimensions (stride and count), its fields. -/
structure RegDef where
  base : Nat
  s1 : Nat
  n1 : Nat
  s2 : Nat
  n2 : Nat
  fields : List FieldDef
deriving DecidableEq, Repr

/-! The address of every register (R434). -/

namespace R

def GLB_ID : Nat := 0x00000
def GLB_ORDER : Nat := 0x00004
def GLB_DIE_ID_LO : Nat := 0x00008
def GLB_DIE_ID_HI : Nat := 0x0000C
def GLB_ROM_VER : Nat := 0x00010
def GLB_FW_VER : Nat := 0x00014
def GLB_CTL : Nat := 0x00018
def GLB_STS : Nat := 0x0001C
def GLB_COMMIT_CTL : Nat := 0x00020
def GLB_COMMIT_STS : Nat := 0x00024
def GLB_COMMIT_BLK_LO : Nat := 0x00028
def GLB_COMMIT_BLK_HI : Nat := 0x0002C
def GLB_ACC_ERR_ADDR : Nat := 0x00030
def GLB_ACC_ERR : Nat := 0x00034
def GLB_MIRROR_BLK : Nat := 0x00038
def GLB_MIRROR_STS : Nat := 0x0003C
def GLB_SCRATCH (i : Nat) : Nat := 0x00040 + 0x4 * i
def GLB_FUSE (i : Nat) : Nat := 0x00080 + 0x4 * i
def CLK_MODE_CTL : Nat := 0x01000
def CLK_MODE_STS : Nat := 0x01004
def CLK_WAKE_CFG : Nat := 0x01008
def CLK_WAKE_STS : Nat := 0x0100C
def CLK_SUPPLY_STS : Nat := 0x01010
def CLK_SYSPLL_STS : Nat := 0x01014
def CLK_BOOT_STS : Nat := 0x01018
def CLK_BOOTSEAL : Nat := 0x0101C
def CLK_PROT_VIOL : Nat := 0x01020
def CLK_PROT_ADDR : Nat := 0x01024
def CLK_HIST_HEAD : Nat := 0x01028
def CLK_MODE_CNT : Nat := 0x0102C
def CLK_RECOVERY : Nat := 0x01030
def CLK_MODE_TIME : Nat := 0x01034
def CLK_RAIL (i : Nat) : Nat := 0x01040 + 0x4 * i
def CLK_APLL_CFG : Nat := 0x01080
def CLK_APLL_STS : Nat := 0x01084
def CLK_HIST_LO (i : Nat) : Nat := 0x01100 + 0x8 * i
def CLK_HIST_HI (i : Nat) : Nat := 0x01104 + 0x8 * i
def HIF_RING_BASE_LO (i : Nat) : Nat := 0x02000 + 0x20 * i
def HIF_RING_BASE_HI (i : Nat) : Nat := 0x02004 + 0x20 * i
def HIF_RING_CFG (i : Nat) : Nat := 0x02008 + 0x20 * i
def HIF_RING_CTL (i : Nat) : Nat := 0x0200C + 0x20 * i
def HIF_RING_STS (i : Nat) : Nat := 0x02010 + 0x20 * i
def HIF_RING_IDX (i : Nat) : Nat := 0x02014 + 0x20 * i
def HIF_RING_CHAN (i : Nat) : Nat := 0x02018 + 0x20 * i
def HIF_RING_CNT (i : Nat) : Nat := 0x0201C + 0x20 * i
def HIF_VEC_CFG (i : Nat) : Nat := 0x02200 + 0x10 * i
def HIF_VEC_STS (i : Nat) : Nat := 0x02204 + 0x10 * i
def HIF_VEC_CNT (i : Nat) : Nat := 0x02208 + 0x10 * i
def HIF_GLB_CTL : Nat := 0x02300
def HIF_GLB_STS : Nat := 0x02304
def HIF_SB_LO : Nat := 0x02308
def HIF_SB_HI : Nat := 0x0230C
def HIF_SB_SEQ : Nat := 0x02310
def HIF_EVT_SEQ : Nat := 0x02314
def HIF_CMD_SEQ : Nat := 0x02318
def HIF_MCMD_SEQ : Nat := 0x0231C
def HIF_PCIE_STS : Nat := 0x02320
def HIF_PCIE_ERR : Nat := 0x02324
def HIF_SPI_CFG : Nat := 0x02328
def HIF_SMB_CFG : Nat := 0x0232C
def HIF_SMB_STS : Nat := 0x02330
def HIF_ALERT : Nat := 0x02334
def HIF_TRACE_CNT : Nat := 0x02338
def HIF_DESC_CNT : Nat := 0x0233C
def PROT_RD (i j : Nat) : Nat := 0x03000 + 0x20 * i + 0x4 * j
def PROT_WR (i j : Nat) : Nat := 0x03010 + 0x20 * i + 0x4 * j
def PROT_AGENT (i : Nat) : Nat := 0x03300 + 0x4 * i
def PROT_TMUX_EN (i j : Nat) : Nat := 0x03380 + 0x20 * i + 0x4 * j
def PROT_MSIG (i : Nat) : Nat := 0x03400 + 0x4 * i
def PROT_FLASH_WP (i : Nat) : Nat := 0x03440 + 0x4 * i
def NET_LS_ID_LO (i : Nat) : Nat := 0x04000 + 0x40 * i
def NET_LS_ID_HI (i : Nat) : Nat := 0x04004 + 0x40 * i
def NET_LS_DMAC_LO (i : Nat) : Nat := 0x04008 + 0x40 * i
def NET_LS_DMAC_HI (i : Nat) : Nat := 0x0400C + 0x40 * i
def NET_LS_CFG (i : Nat) : Nat := 0x04010 + 0x40 * i
def NET_LS_OFS (i : Nat) : Nat := 0x04014 + 0x40 * i
def NET_LS_STS (i : Nat) : Nat := 0x04018 + 0x40 * i
def NET_LS_FRAMES (i : Nat) : Nat := 0x0401C + 0x40 * i
def NET_LS_ERR (i : Nat) : Nat := 0x04020 + 0x40 * i
def NET_LS_TS (i : Nat) : Nat := 0x04024 + 0x40 * i
def NET_TK_ID_LO (i : Nat) : Nat := 0x04400 + 0x40 * i
def NET_TK_ID_HI (i : Nat) : Nat := 0x04404 + 0x40 * i
def NET_TK_DMAC_LO (i : Nat) : Nat := 0x04408 + 0x40 * i
def NET_TK_DMAC_HI (i : Nat) : Nat := 0x0440C + 0x40 * i
def NET_TK_CFG (i : Nat) : Nat := 0x04410 + 0x40 * i
def NET_TK_OFS (i : Nat) : Nat := 0x04414 + 0x40 * i
def NET_TK_STS (i : Nat) : Nat := 0x04418 + 0x40 * i
def NET_TK_FRAMES (i : Nat) : Nat := 0x0441C + 0x40 * i
def NET_TK_ERR (i : Nat) : Nat := 0x04420 + 0x40 * i
def NET_TK_TS (i : Nat) : Nat := 0x04424 + 0x40 * i
def NET_FDB_LO (i : Nat) : Nat := 0x04800 + 0x8 * i
def NET_FDB_HI (i : Nat) : Nat := 0x04804 + 0x8 * i
def NET_PORT_CFG (i : Nat) : Nat := 0x04C00 + 0x40 * i
def NET_PORT_STS (i : Nat) : Nat := 0x04C04 + 0x40 * i
def NET_PORT_SHP_A (i : Nat) : Nat := 0x04C08 + 0x40 * i
def NET_PORT_SHP_B (i : Nat) : Nat := 0x04C0C + 0x40 * i
def NET_PORT_CNT (i j : Nat) : Nat := 0x04C10 + 0x40 * i + 0x4 * j
def NET_GLB_CTL : Nat := 0x04D00
def NET_GLB_STS : Nat := 0x04D04
def NET_MAC_LO : Nat := 0x04D08
def NET_MAC_HI : Nat := 0x04D0C
def NET_MDIO_CTL : Nat := 0x04D10
def NET_MDIO_DATA : Nat := 0x04D14
def NET_ZV_CFG : Nat := 0x04D18
def NET_ZV_ADDR : Nat := 0x04D1C
def NET_ZV_CNT : Nat := 0x04D20
def NET_ZV_MCAST_LO : Nat := 0x04D24
def NET_ZV_MCAST_HI : Nat := 0x04D28
def NET_ZV_HEALTH : Nat := 0x04D2C
def NET_ZV_CTRL_LO (i : Nat) : Nat := 0x04E00 + 0x8 * i
def NET_ZV_CTRL_HI (i : Nat) : Nat := 0x04E04 + 0x8 * i
def ARR_TIME_LO : Nat := 0x05000
def ARR_TIME_HI : Nat := 0x05004
def ARR_BLK_LO : Nat := 0x05008
def ARR_BLK_HI : Nat := 0x0500C
def ARR_PTP_CFG : Nat := 0x05010
def ARR_PTP_STS : Nat := 0x05014
def ARR_PTP_OFS : Nat := 0x05018
def ARR_PTP_GM_LO : Nat := 0x0501C
def ARR_PTP_GM_HI : Nat := 0x05020
def ARR_PDELAY (i : Nat) : Nat := 0x05024 + 0x4 * i
def ARR_BRIDLE_CFG : Nat := 0x0502C
def ARR_BRIDLE_STS : Nat := 0x05030
def ARR_SCHED_STS : Nat := 0x05034
def ARR_CNT : Nat := 0x05038
def ARR_AG_SUM : Nat := 0x0503C
def ARR_AG_CFG (i : Nat) : Nat := 0x05040 + 0x4 * i
def ARR_LANE_AG (i : Nat) : Nat := 0x05200 + 0x4 * i
def SAP_CFG (i : Nat) : Nat := 0x06000 + 0x100 * i
def SAP_FMT (i : Nat) : Nat := 0x06004 + 0x100 * i
def SAP_MASK (i : Nat) : Nat := 0x06008 + 0x100 * i
def SAP_STS (i : Nat) : Nat := 0x0600C + 0x100 * i
def SAP_FRAME_CNT (i : Nat) : Nat := 0x06010 + 0x100 * i
def SAP_FRAME_APPLIED (i : Nat) : Nat := 0x06014 + 0x100 * i
def SAP_RATE (i : Nat) : Nat := 0x06018 + 0x100 * i
def SAP_ERR_CNT (i : Nat) : Nat := 0x0601C + 0x100 * i
def SAP_SLOT (i j : Nat) : Nat := 0x06020 + 0x100 * i + 0x4 * j
def SAP_SLOT_ACT (i j : Nat) : Nat := 0x06060 + 0x100 * i + 0x4 * j
def SAP_SLOT_LVL (i j : Nat) : Nat := 0x060A0 + 0x100 * i + 0x4 * j
def AFE_IN_CFG (i : Nat) : Nat := 0x07000 + 0x4 * i
def AFE_IN_GAIN (i : Nat) : Nat := 0x07020 + 0x4 * i
def AFE_IN_STS (i : Nat) : Nat := 0x07040 + 0x4 * i
def AFE_MICBIAS_CFG : Nat := 0x07060
def AFE_PDM_CFG : Nat := 0x07064
def AFE_PDM_STS : Nat := 0x07068
def AFE_JD_CFG (i : Nat) : Nat := 0x0706C + 0x4 * i
def AFE_JD_STS : Nat := 0x07074
def AFE_ZC_CFG : Nat := 0x07078
def AFE_OVL_CFG : Nat := 0x0707C
def AFE_LO_CFG (i : Nat) : Nat := 0x07100 + 0x4 * i
def AFE_HP_CFG : Nat := 0x07110
def AFE_HP_JD_CFG : Nat := 0x07114
def AFE_HP_STS : Nat := 0x07118
def AFE_HP_IMP : Nat := 0x0711C
def AFE_LSN_CFG : Nat := 0x07200
def AFE_LSN_STS : Nat := 0x07204
def AFE_ALM_BAND : Nat := 0x07208
def AFE_ALM_THR : Nat := 0x0720C
def AFE_GB_THR : Nat := 0x07210
def AFE_GTH_CFG : Nat := 0x07214
def AFE_GTH_IDX : Nat := 0x07218
def AFE_LCLK_CAL : Nat := 0x0721C
def AFE_LSN_LOG_LO (i : Nat) : Nat := 0x07300 + 0x8 * i
def AFE_LSN_LOG_HI (i : Nat) : Nat := 0x07304 + 0x8 * i
def AFE_GTH_WIN (i : Nat) : Nat := 0x07800 + 0x4 * i
def SNS_ENTRY (i j : Nat) : Nat := 0x08000 + 0x400 * i + 0x4 * j
def SNS_LIM (i j : Nat) : Nat := 0x08040 + 0x400 * i + 0x4 * j
def SNS_RES (i j : Nat) : Nat := 0x08080 + 0x400 * i + 0x4 * j
def SNS_RES_TS (i j : Nat) : Nat := 0x080C0 + 0x400 * i + 0x4 * j
def SNS_LAST (i j : Nat) : Nat := 0x08100 + 0x400 * i + 0x4 * j
def SNS_LAST_TS (i j : Nat) : Nat := 0x08180 + 0x400 * i + 0x4 * j
def SNS_CFG (i : Nat) : Nat := 0x08200 + 0x400 * i
def SNS_STS (i : Nat) : Nat := 0x08204 + 0x400 * i
def SNS_TRIG (i : Nat) : Nat := 0x08208 + 0x400 * i
def SNS_INJ (i : Nat) : Nat := 0x0820C + 0x400 * i
def SNS_INJ_RES (i : Nat) : Nat := 0x08210 + 0x400 * i
def SNS_CNT (i : Nat) : Nat := 0x08214 + 0x400 * i
def SNS_CAL_CTL (i : Nat) : Nat := 0x08218 + 0x400 * i
def SNS_CAL_TGT (i : Nat) : Nat := 0x0821C + 0x400 * i
def SNS_IN_CFG (i : Nat) : Nat := 0x08800 + 0x4 * i
def SNS_TMR (i : Nat) : Nat := 0x08880 + 0x4 * i
def SNS_GLB_CTL : Nat := 0x08900
def SNS_GLB_STS : Nat := 0x08904
def SNS_REF : Nat := 0x08908
def SNS_SHARED : Nat := 0x0890C
def SNS_PLAUS_STS : Nat := 0x08910
def SNS_PLAUS_CNT : Nat := 0x08914
def SNS_TDAC : Nat := 0x08918
def SNS_TDAC_SW : Nat := 0x0891C
def SNS_CAL_ADDR : Nat := 0x08920
def SNS_CAL_OFS : Nat := 0x08924
def SNS_CAL_GAIN : Nat := 0x08928
def SNS_EVT_CFG : Nat := 0x0892C
def FLT_CH_CFG (i : Nat) : Nat := 0x09000 + 0x40 * i
def FLT_SWAP (i : Nat) : Nat := 0x09004 + 0x40 * i
def FLT_BANK_STS (i : Nat) : Nat := 0x09008 + 0x40 * i
def FLT_BANK_BLK_LO (i : Nat) : Nat := 0x0900C + 0x40 * i
def FLT_BANK_BLK_HI (i : Nat) : Nat := 0x09010 + 0x40 * i
def FLT_SWAP_CNT (i : Nat) : Nat := 0x09014 + 0x40 * i
def FLT_THR_LVL (i j : Nat) : Nat := 0x09018 + 0x40 * i + 0x4 * j
def FLT_THR_HOLD (i j : Nat) : Nat := 0x09020 + 0x40 * i + 0x4 * j
def FLT_THR_STS (i : Nat) : Nat := 0x09028 + 0x40 * i
def FLT_OVR_STS (i : Nat) : Nat := 0x0902C + 0x40 * i
def FLT_OVR_CNT (i : Nat) : Nat := 0x09030 + 0x40 * i
def FLT_DELAY (i : Nat) : Nat := 0x09034 + 0x40 * i
def FLT_SETTLE (i : Nat) : Nat := 0x09038 + 0x40 * i
def FLT_COEF_WIN (i : Nat) : Nat := 0x09400 + 0x4 * i
def FLT_GLB_CTL : Nat := 0x09600
def FLT_GLB_STS : Nat := 0x09604
def FLT_COEF_SEL : Nat := 0x09608
def FLT_COEF_CRC : Nat := 0x0960C
def FLT_SYNC_CTL : Nat := 0x09610
def FLT_SYNC_STS : Nat := 0x09614
def FLT_SYNC_BLK_LO : Nat := 0x09618
def FLT_SYNC_BLK_HI : Nat := 0x0961C
def FLT_SYNC_AT_LO : Nat := 0x09620
def FLT_SYNC_AT_HI : Nat := 0x09624
def FLT_SYNC_CNT : Nat := 0x09628
def FLT_EVT_CFG : Nat := 0x0962C
def FLT_OVR_SUM : Nat := 0x09630
def FLT_THR_SUM : Nat := 0x09634
def FLT_SETTLE_SUM : Nat := 0x09638
def FLT_BANK_SUM : Nat := 0x0963C
def MP_LANE_SRC (i : Nat) : Nat := 0x0A000 + 0x4 * i
def MP_LANE_TRIM (i : Nat) : Nat := 0x0A200 + 0x4 * i
def MP_LANE_DET (i : Nat) : Nat := 0x0A400 + 0x4 * i
def MP_LANE_STS (i : Nat) : Nat := 0x0A600 + 0x4 * i
def MP_SINK (i : Nat) : Nat := 0x0A800 + 0x4 * i
def MP_COMP (i : Nat) : Nat := 0x0AD00 + 0x4 * i
def MP_LIM (i : Nat) : Nat := 0x0AD80 + 0x4 * i
def MP_DYN_STS (i : Nat) : Nat := 0x0AE00 + 0x4 * i
def MP_GLB_CTL : Nat := 0x0AF00
def MP_GLB_STS : Nat := 0x0AF04
def MP_ZC_CFG : Nat := 0x0AF08
def MP_QUIET_CFG : Nat := 0x0AF0C
def MP_QUIET_STS : Nat := 0x0AF10
def MP_PRESET_CTL : Nat := 0x0AF14
def MP_ROUTE_CNT : Nat := 0x0AF18
def MP_OUT_STS : Nat := 0x0AF1C
def MIX_GAIN (i j : Nat) : Nat := 0x0B000 + 0x80 * i + 0x4 * j
def MIX_BUS_CFG (i : Nat) : Nat := 0x0B800 + 0x4 * i
def MIX_BUS_STS (i : Nat) : Nat := 0x0B840 + 0x4 * i
def TTH_OUT_CFG (i : Nat) : Nat := 0x0C000 + 0x10 * i
def TTH_OUT_PRIO (i : Nat) : Nat := 0x0C004 + 0x10 * i
def TTH_OUT_STS (i : Nat) : Nat := 0x0C008 + 0x10 * i
def TTH_OUT_CNT (i : Nat) : Nat := 0x0C00C + 0x10 * i
def TTH_VOTE_CAP (i j : Nat) : Nat := 0x0C200 + 0x10 * i + 0x4 * j
def TTH_VOTE_BLK (i : Nat) : Nat := 0x0C20C + 0x10 * i
def TTH_SRV_CFG (i : Nat) : Nat := 0x0C400 + 0x40 * i
def TTH_SRV_STS (i : Nat) : Nat := 0x0C404 + 0x40 * i
def TTH_SRV_DRV (i : Nat) : Nat := 0x0C408 + 0x40 * i
def TTH_SRV_KREF (i : Nat) : Nat := 0x0C40C + 0x40 * i
def TTH_SRV_CORR (i : Nat) : Nat := 0x0C410 + 0x40 * i
def TTH_SRV_CNT (i : Nat) : Nat := 0x0C414 + 0x40 * i
def TTH_SRV_COEF (i j : Nat) : Nat := 0x0C418 + 0x40 * i + 0x4 * j
def TTH_IN_CFG (i : Nat) : Nat := 0x0C600 + 0x4 * i
def TTH_IN_LVL (i : Nat) : Nat := 0x0C640 + 0x4 * i
def TTH_PLAY_Q (i : Nat) : Nat := 0x0C680 + 0x4 * i
def TTH_CTL : Nat := 0x0C700
def TTH_STS : Nat := 0x0C704
def TTH_RAMP : Nat := 0x0C708
def TTH_GWIN_ADDR : Nat := 0x0C70C
def TTH_GWIN_DATA : Nat := 0x0C710
def TTH_GWIN_CUR : Nat := 0x0C714
def TTH_TKO_CAUSE : Nat := 0x0C718
def TTH_PRIO_BALL : Nat := 0x0C71C
def TTH_PRIO_STS : Nat := 0x0C720
def TTH_PRIO_AUTO : Nat := 0x0C724
def TTH_BIST_STS : Nat := 0x0C728
def TTH_SCRUB_STS : Nat := 0x0C72C
def TTH_SCRUB_CNT : Nat := 0x0C730
def TTH_BOOT_STS : Nat := 0x0C734
def TTH_TONE_FREQ : Nat := 0x0C738
def TTH_TONE_CFG : Nat := 0x0C73C
def TTH_PLAY_CTL : Nat := 0x0C740
def TTH_PLAY_STS : Nat := 0x0C744
def TTH_PLAY_CNT : Nat := 0x0C748
def TTH_PSAP_CFG : Nat := 0x0C74C
def TTH_FAULT_SUM : Nat := 0x0C750
def TTH_MODE_SUM : Nat := 0x0C754
def TTH_TLOG_HEAD : Nat := 0x0C758
def TTH_EVT_CFG : Nat := 0x0C75C
def TTH_TLOG_LO (i : Nat) : Nat := 0x0C800 + 0x8 * i
def TTH_TLOG_HI (i : Nat) : Nat := 0x0C804 + 0x8 * i
def PWR_CTL (i : Nat) : Nat := 0x0D000 + 0x40 * i
def PWR_CFG (i : Nat) : Nat := 0x0D004 + 0x40 * i
def PWR_STS (i : Nat) : Nat := 0x0D008 + 0x40 * i
def PWR_LIM_ST (i : Nat) : Nat := 0x0D00C + 0x40 * i
def PWR_LIM_LT (i : Nat) : Nat := 0x0D010 + 0x40 * i
def PWR_LIM_STS (i : Nat) : Nat := 0x0D014 + 0x40 * i
def PWR_POWER (i : Nat) : Nat := 0x0D018 + 0x40 * i
def PWR_DIAG_CFG (i : Nat) : Nat := 0x0D01C + 0x40 * i
def PWR_DIAG (i : Nat) : Nat := 0x0D020 + 0x40 * i
def PWR_OFS (i : Nat) : Nat := 0x0D024 + 0x40 * i
def PWR_CNT (i : Nat) : Nat := 0x0D028 + 0x40 * i
def PWR_PEAK (i : Nat) : Nat := 0x0D02C + 0x40 * i
def EXT_CFG (i : Nat) : Nat := 0x0D400 + 0x10 * i
def EXT_TIM (i : Nat) : Nat := 0x0D404 + 0x10 * i
def EXT_STS (i : Nat) : Nat := 0x0D408 + 0x10 * i
def PWR_TRACE (i j : Nat) : Nat := 0x0D800 + 0xC0 * i + 0x4 * j
def PWR_GLB_CFG : Nat := 0x0DF00
def PWR_THERM_CFG : Nat := 0x0DF04
def PWR_PVDD_CFG : Nat := 0x0DF08
def PWR_PVDD_STS : Nat := 0x0DF0C
def PWR_DIE_STS (i : Nat) : Nat := 0x0DF10 + 0x4 * i
def PWR_LINK_CNT (i : Nat) : Nat := 0x0DF18 + 0x4 * i
def ENG_CTL (i : Nat) : Nat := 0x0E000 + 0x40 * i
def ENG_STS (i : Nat) : Nat := 0x0E004 + 0x40 * i
def ENG_PROG_ID (i : Nat) : Nat := 0x0E008 + 0x40 * i
def ENG_PROG_BLK_LO (i : Nat) : Nat := 0x0E00C + 0x40 * i
def ENG_PROG_BLK_HI (i : Nat) : Nat := 0x0E010 + 0x40 * i
def ENG_LOAD (i : Nat) : Nat := 0x0E014 + 0x40 * i
def ENG_ADMIT (i : Nat) : Nat := 0x0E018 + 0x40 * i
def ENG_MEM (i : Nat) : Nat := 0x0E01C + 0x40 * i
def ENG_DRAM (i : Nat) : Nat := 0x0E020 + 0x40 * i
def ENG_QUOTA (i : Nat) : Nat := 0x0E024 + 0x40 * i
def ENG_CNT (i : Nat) : Nat := 0x0E028 + 0x40 * i
def ENG_REC_ERR (i : Nat) : Nat := 0x0E02C + 0x40 * i
def ENG_GLB_CTL : Nat := 0x0E200
def ENG_GLB_STS : Nat := 0x0E204
def ARB_CFG (i : Nat) : Nat := 0x0E400 + 0x10 * i
def ARB_GRANT (i : Nat) : Nat := 0x0E404 + 0x10 * i
def ARB_WAIT_LO (i : Nat) : Nat := 0x0E408 + 0x10 * i
def ARB_WAIT_HI (i : Nat) : Nat := 0x0E40C + 0x10 * i
def ARB_CTL : Nat := 0x0E500
def ARB_STS : Nat := 0x0E504
def ARB_SNAP_BLK_LO : Nat := 0x0E508
def ARB_SNAP_BLK_HI : Nat := 0x0E50C
def LCK_STS (i : Nat) : Nat := 0x0E800 + 0x20 * i
def LCK_LEASE (i : Nat) : Nat := 0x0E804 + 0x20 * i
def LCK_ACQ_BLK_LO (i : Nat) : Nat := 0x0E808 + 0x20 * i
def LCK_ACQ_BLK_HI (i : Nat) : Nat := 0x0E80C + 0x20 * i
def LCK_REL_BLK_LO (i : Nat) : Nat := 0x0E810 + 0x20 * i
def LCK_REL_BLK_HI (i : Nat) : Nat := 0x0E814 + 0x20 * i
def LCK_STAGED (i : Nat) : Nat := 0x0E818 + 0x20 * i
def LCK_CNT (i : Nat) : Nat := 0x0E81C + 0x20 * i
def LCK_GLB_CTL : Nat := 0x0EC00
def LCK_GLB_STS : Nat := 0x0EC04
def LCK_HELD : Nat := 0x0EC08
def LCK_ABANDONED : Nat := 0x0EC0C
def LCK_STAGE : Nat := 0x0EC10
def LCK_OWNER_RST : Nat := 0x0EC14
def LCK_LAST : Nat := 0x0EC18
def LCK_COMMITS : Nat := 0x0EC1C
def LCK_REFUSED : Nat := 0x0EC20
def LCK_FAILED : Nat := 0x0EC24
def MEM_CNT (i : Nat) : Nat := 0x0F000 + 0x4 * i
def MEM_CTL : Nat := 0x0F080
def MEM_STS : Nat := 0x0F084
def MEM_LEVEL_CNT : Nat := 0x0F088
def MEM_LAST : Nat := 0x0F08C
def MEM_LAST_ADDR : Nat := 0x0F090
def MEM_LAST_BLK : Nat := 0x0F094
def MEM_SCRUB_CFG : Nat := 0x0F098
def MEM_DRAM_CFG : Nat := 0x0F09C
def MEM_DRAM_REPAIR : Nat := 0x0F0A0
def MEM_LINK_CNT : Nat := 0x0F0A4
def MEM_LINK_STS : Nat := 0x0F0A8
def MEM_MLINK_CNT : Nat := 0x0F0AC
def MEM_RST_CAUSE : Nat := 0x0F0B0
def MEM_EVT_DET_SEL : Nat := 0x0F0B4
def MEM_EVT_DET (i : Nat) : Nat := 0x0F0B8 + 0x4 * i
def MEM_INJ : Nat := 0x0F0C8
def JNL_CTL : Nat := 0x0F100
def JNL_STS : Nat := 0x0F104
def JNL_REGION (i : Nat) : Nat := 0x0F108 + 0x4 * i
def JNL_FREE (i : Nat) : Nat := 0x0F110 + 0x4 * i
def JNL_EPOCH (i : Nat) : Nat := 0x0F118 + 0x4 * i
def JNL_CNT : Nat := 0x0F120
def JNL_CRC_CNT : Nat := 0x0F124
def JNL_COMPACT_CNT : Nat := 0x0F128
def JNL_DIV_CNT : Nat := 0x0F12C
def JNL_LAST_KEY : Nat := 0x0F130
def JNL_LAST_GEN : Nat := 0x0F134
def JNL_FLASH_STS : Nat := 0x0F138
def JNL_FENCE_CNT : Nat := 0x0F13C
def JNL_ERASE_MAX : Nat := 0x0F140
def JNL_GRP (i : Nat) : Nat := 0x0F180 + 0x4 * i
def JNL_DIV (i : Nat) : Nat := 0x0F1C0 + 0x4 * i
def TST_SEL (i : Nat) : Nat := 0x10000 + 0x4 * i
def TST_CTL : Nat := 0x1000C
def TST_STS : Nat := 0x10010
def TST_REFUSED : Nat := 0x10014
def TST_JTAG : Nat := 0x10018
def TST_IDCODE : Nat := 0x1001C
def TST_AVAIL (i : Nat) : Nat := 0x10020 + 0x4 * i
def TST_KIND (i : Nat) : Nat := 0x10040 + 0x4 * i
def MLK_STS : Nat := 0x10100
def MLK_LAEQ : Nat := 0x10104
def MLK_SEQ_NEW : Nat := 0x10108
def MLK_SEQ_OLD : Nat := 0x1010C
def MLK_SEQ_ACK : Nat := 0x10110
def MLK_CAL_SLOT : Nat := 0x10114
def MLK_SENS : Nat := 0x10118
def MLK_SETTINGS : Nat := 0x1011C
def MLK_HEAD (i : Nat) : Nat := 0x10120 + 0x4 * i
def MLK_LIM_CFG : Nat := 0x10140
def MLK_LIM_TGT : Nat := 0x10144
def MLK_LIM_RATE : Nat := 0x10148
def MLK_LIM_MASK : Nat := 0x1014C
def MLK_LIM_STS : Nat := 0x10150
def MLK_CNT : Nat := 0x10154
def MLK_ROM : Nat := 0x10158
def MLK_LAST_SEC : Nat := 0x1015C
def CAL_TIME_LO : Nat := 0x10200
def CAL_TIME_HI : Nat := 0x10204
def CAL_ARR_LO : Nat := 0x10208
def CAL_ARR_HI : Nat := 0x1020C
def CAL_DATE : Nat := 0x10210
def CAL_CLOCK : Nat := 0x10214
def CAL_STS : Nat := 0x10218
def CAL_TRIM : Nat := 0x1021C
def CAL_ADJ_CNT : Nat := 0x10220
def CAL_ADJ_OLD_LO : Nat := 0x10224
def CAL_ADJ_OLD_HI : Nat := 0x10228
def CAL_ADJ_NEW_LO : Nat := 0x1022C
def CAL_ADJ_NEW_HI : Nat := 0x10230
def CAL_VBAK : Nat := 0x10234
def CAL_TEMP : Nat := 0x10238
def CAL_OSC : Nat := 0x1023C

end R

/-! The place of every field. -/

namespace F

def GLB_ID_PART : Fld := ⟨16, 16⟩
def GLB_ID_STEP : Fld := ⟨0, 8⟩
def GLB_ORDER_METRO : Fld := ⟨3, 1⟩
def GLB_ORDER_GRADE : Fld := ⟨2, 1⟩
def GLB_ORDER_CODE : Fld := ⟨0, 2⟩
def GLB_DIE_ID_LO_ID : Fld := ⟨0, 32⟩
def GLB_DIE_ID_HI_ID : Fld := ⟨0, 32⟩
def GLB_ROM_VER_HUB_ROM : Fld := ⟨16, 16⟩
def GLB_ROM_VER_F_FUSE : Fld := ⟨0, 16⟩
def GLB_FW_VER_VERSION : Fld := ⟨0, 32⟩
def GLB_CTL_CNT_CLR : Fld := ⟨31, 1⟩
def GLB_CTL_REFRESH : Fld := ⟨0, 1⟩
def GLB_STS_LINK_DROP : Fld := ⟨4, 1⟩
def GLB_STS_HOLD_OVF : Fld := ⟨3, 1⟩
def GLB_STS_PARTIAL : Fld := ⟨2, 1⟩
def GLB_STS_UNMAPPED : Fld := ⟨1, 1⟩
def GLB_STS_SEALED : Fld := ⟨0, 1⟩
def GLB_COMMIT_CTL_HOLD : Fld := ⟨31, 1⟩
def GLB_COMMIT_STS_PENDING : Fld := ⟨16, 1⟩
def GLB_COMMIT_STS_HELD : Fld := ⟨0, 9⟩
def GLB_COMMIT_BLK_LO_BLK : Fld := ⟨0, 32⟩
def GLB_COMMIT_BLK_HI_BLK : Fld := ⟨0, 32⟩
def GLB_ACC_ERR_ADDR_ADDR : Fld := ⟨0, 32⟩
def GLB_ACC_ERR_COUNT : Fld := ⟨16, 16⟩
def GLB_ACC_ERR_AGENT : Fld := ⟨8, 8⟩
def GLB_ACC_ERR_KIND : Fld := ⟨0, 2⟩
def GLB_MIRROR_BLK_BLK : Fld := ⟨0, 32⟩
def GLB_MIRROR_STS_REFRESHING : Fld := ⟨4, 1⟩
def GLB_MIRROR_STS_M : Fld := ⟨3, 1⟩
def GLB_MIRROR_STS_P1 : Fld := ⟨2, 1⟩
def GLB_MIRROR_STS_P0 : Fld := ⟨1, 1⟩
def GLB_MIRROR_STS_F : Fld := ⟨0, 1⟩
def GLB_SCRATCH_DATA : Fld := ⟨0, 32⟩
def CLK_MODE_CTL_LISTEN_PARK : Fld := ⟨2, 1⟩
def CLK_MODE_CTL_QUIET_DRAM_SR : Fld := ⟨1, 1⟩
def CLK_MODE_CTL_QUIET_PCIE_L1 : Fld := ⟨0, 1⟩
def CLK_MODE_STS_MODE : Fld := ⟨29, 3⟩
def CLK_MODE_STS_TRANS : Fld := ⟨28, 1⟩
def CLK_MODE_STS_OUT_READY : Fld := ⟨27, 1⟩
def CLK_WAKE_CFG_PRIO_WAKE : Fld := ⟨31, 1⟩
def CLK_WAKE_CFG_GPIO_POL : Fld := ⟨4, 4⟩
def CLK_WAKE_CFG_GPIO_EN : Fld := ⟨0, 4⟩
def CLK_WAKE_STS_SRC : Fld := ⟨28, 4⟩
def CLK_WAKE_STS_GPIO : Fld := ⟨0, 4⟩
def CLK_SUPPLY_STS_VSYS : Fld := ⟨20, 12⟩
def CLK_SUPPLY_STS_VIO : Fld := ⟨8, 12⟩
def CLK_SUPPLY_STS_VBAK_OK : Fld := ⟨2, 1⟩
def CLK_SUPPLY_STS_VIO_OK : Fld := ⟨1, 1⟩
def CLK_SUPPLY_STS_VSYS_OK : Fld := ⟨0, 1⟩
def CLK_SYSPLL_STS_LOSS : Fld := ⟨16, 16⟩
def CLK_SYSPLL_STS_XTAL_OK : Fld := ⟨1, 1⟩
def CLK_SYSPLL_STS_LOCK : Fld := ⟨0, 1⟩
def CLK_BOOT_STS_IMG : Fld := ⟨30, 2⟩
def CLK_BOOT_STS_FALLBACK : Fld := ⟨29, 1⟩
def CLK_BOOT_STS_REASON_A : Fld := ⟨26, 3⟩
def CLK_BOOT_STS_REASON_B : Fld := ⟨23, 3⟩
def CLK_BOOT_STS_JNL_DONE : Fld := ⟨22, 1⟩
def CLK_BOOT_STS_BOOT_MS : Fld := ⟨0, 16⟩
def CLK_BOOTSEAL_SEAL : Fld := ⟨0, 1⟩
def CLK_PROT_VIOL_COUNT : Fld := ⟨16, 16⟩
def CLK_PROT_VIOL_AGENT : Fld := ⟨8, 8⟩
def CLK_PROT_VIOL_KIND : Fld := ⟨0, 2⟩
def CLK_PROT_ADDR_ADDR : Fld := ⟨0, 32⟩
def CLK_HIST_HEAD_COUNT : Fld := ⟨16, 16⟩
def CLK_HIST_HEAD_NEXT : Fld := ⟨0, 6⟩
def CLK_MODE_CNT_LISTEN : Fld := ⟨16, 16⟩
def CLK_MODE_CNT_CANCEL : Fld := ⟨0, 16⟩
def CLK_RECOVERY_GO : Fld := ⟨31, 1⟩
def CLK_RECOVERY_BUSY : Fld := ⟨30, 1⟩
def CLK_RECOVERY_ERR : Fld := ⟨29, 1⟩
def CLK_RECOVERY_OFFSET : Fld := ⟨0, 6⟩
def CLK_MODE_TIME_US : Fld := ⟨0, 32⟩
def CLK_RAIL_ON : Fld := ⟨31, 1⟩
def CLK_RAIL_PG : Fld := ⟨30, 1⟩
def CLK_RAIL_FAULT : Fld := ⟨29, 1⟩
def CLK_RAIL_MV : Fld := ⟨0, 16⟩
def CLK_APLL_CFG_MCLK_OUT_DIV : Fld := ⟨13, 1⟩
def CLK_APLL_CFG_MCLK_OUT_EN : Fld := ⟨12, 1⟩
def CLK_APLL_CFG_MCLK_IN_FREQ : Fld := ⟨8, 2⟩
def CLK_APLL_CFG_SAP_SEL : Fld := ⟨4, 3⟩
def CLK_APLL_CFG_REF : Fld := ⟨0, 3⟩
def CLK_APLL_STS_FREQ_ERR : Fld := ⟨16, 16⟩
def CLK_APLL_STS_SLEWING : Fld := ⟨3, 1⟩
def CLK_APLL_STS_REF_ERR : Fld := ⟨2, 1⟩
def CLK_APLL_STS_HOLDOVER : Fld := ⟨1, 1⟩
def CLK_APLL_STS_LOCK : Fld := ⟨0, 1⟩
def CLK_HIST_LO_BLK : Fld := ⟨0, 32⟩
def CLK_HIST_HI_FROM : Fld := ⟨29, 3⟩
def CLK_HIST_HI_TO : Fld := ⟨26, 3⟩
def CLK_HIST_HI_CAUSE : Fld := ⟨22, 4⟩
def CLK_HIST_HI_DUR : Fld := ⟨0, 16⟩
def HIF_RING_BASE_LO_BASE : Fld := ⟨0, 32⟩
def HIF_RING_BASE_HI_BASE : Fld := ⟨0, 32⟩
def HIF_RING_CFG_LOCAL : Fld := ⟨31, 1⟩
def HIF_RING_CFG_VEC : Fld := ⟨24, 4⟩
def HIF_RING_CFG_LOG2_SIZE : Fld := ⟨16, 4⟩
def HIF_RING_CFG_LOG2_ESIZE : Fld := ⟨8, 4⟩
def HIF_RING_CTL_EN : Fld := ⟨31, 1⟩
def HIF_RING_CTL_ABORT : Fld := ⟨30, 1⟩
def HIF_RING_STS_STATE : Fld := ⟨30, 2⟩
def HIF_RING_STS_HELD : Fld := ⟨5, 1⟩
def HIF_RING_STS_FULL : Fld := ⟨4, 1⟩
def HIF_RING_STS_DMA_ERR : Fld := ⟨3, 1⟩
def HIF_RING_STS_OVERRUN : Fld := ⟨2, 1⟩
def HIF_RING_STS_DB_ERR : Fld := ⟨1, 1⟩
def HIF_RING_STS_CFG_ERR : Fld := ⟨0, 1⟩
def HIF_RING_IDX_TAIL : Fld := ⟨16, 16⟩
def HIF_RING_IDX_HEAD : Fld := ⟨0, 16⟩
def HIF_RING_CHAN_COUNT : Fld := ⟨16, 7⟩
def HIF_RING_CHAN_FIRST : Fld := ⟨0, 7⟩
def HIF_RING_CNT_DROP : Fld := ⟨16, 16⟩
def HIF_RING_CNT_MISS : Fld := ⟨0, 16⟩
def HIF_VEC_CFG_ALERT_EN : Fld := ⟨31, 1⟩
def HIF_VEC_CFG_MAX_TIME : Fld := ⟨16, 10⟩
def HIF_VEC_CFG_MAX_CNT : Fld := ⟨0, 8⟩
def HIF_VEC_STS_ARMED : Fld := ⟨17, 1⟩
def HIF_VEC_STS_PENDING : Fld := ⟨16, 1⟩
def HIF_VEC_STS_COUNT : Fld := ⟨0, 16⟩
def HIF_VEC_CNT_FIRED : Fld := ⟨0, 32⟩
def HIF_GLB_CTL_CNT_CLR : Fld := ⟨31, 1⟩
def HIF_GLB_CTL_TRACE_EVT : Fld := ⟨0, 1⟩
def HIF_GLB_STS_SPI_FRAME : Fld := ⟨2, 1⟩
def HIF_GLB_STS_SPI_ADDR : Fld := ⟨1, 1⟩
def HIF_GLB_STS_SB_ERR : Fld := ⟨0, 1⟩
def HIF_SB_LO_ADDR : Fld := ⟨6, 26⟩
def HIF_SB_LO_LOCAL : Fld := ⟨1, 1⟩
def HIF_SB_LO_EN : Fld := ⟨0, 1⟩
def HIF_SB_HI_ADDR : Fld := ⟨0, 32⟩
def HIF_SB_SEQ_SEQ : Fld := ⟨0, 32⟩
def HIF_EVT_SEQ_SEQ : Fld := ⟨0, 32⟩
def HIF_CMD_SEQ_SEQ : Fld := ⟨0, 32⟩
def HIF_MCMD_SEQ_SEQ : Fld := ⟨0, 32⟩
def HIF_PCIE_STS_FLR : Fld := ⟨3, 1⟩
def HIF_PCIE_STS_MSIX_EN : Fld := ⟨2, 1⟩
def HIF_PCIE_STS_BME : Fld := ⟨1, 1⟩
def HIF_PCIE_STS_LINK : Fld := ⟨0, 1⟩
def HIF_PCIE_ERR_DMA : Fld := ⟨16, 16⟩
def HIF_PCIE_ERR_LINK_DOWN : Fld := ⟨0, 16⟩
def HIF_SPI_CFG_DUMMY : Fld := ⟨0, 3⟩
def HIF_SMB_CFG_EN : Fld := ⟨31, 1⟩
def HIF_SMB_CFG_PEC_EN : Fld := ⟨8, 1⟩
def HIF_SMB_CFG_ADDR : Fld := ⟨0, 7⟩
def HIF_SMB_STS_PEC_ERR : Fld := ⟨2, 1⟩
def HIF_SMB_STS_NACKED : Fld := ⟨1, 1⟩
def HIF_SMB_STS_BUSY : Fld := ⟨0, 1⟩
def HIF_ALERT_LEVEL : Fld := ⟨31, 1⟩
def HIF_ALERT_FIRED : Fld := ⟨0, 16⟩
def HIF_TRACE_CNT_METER_DROP : Fld := ⟨16, 16⟩
def HIF_TRACE_CNT_EVT_DROP : Fld := ⟨0, 16⟩
def HIF_DESC_CNT_LOST : Fld := ⟨16, 16⟩
def HIF_DESC_CNT_BAD : Fld := ⟨0, 16⟩
def PROT_RD_PAGES : Fld := ⟨0, 32⟩
def PROT_WR_PAGES : Fld := ⟨0, 32⟩
def PROT_AGENT_INJ : Fld := ⟨31, 1⟩
def PROT_AGENT_TST : Fld := ⟨30, 1⟩
def PROT_AGENT_JTAG : Fld := ⟨29, 1⟩
def PROT_AGENT_OPC : Fld := ⟨0, 9⟩
def PROT_TMUX_EN_SIG : Fld := ⟨0, 32⟩
def PROT_MSIG_EXCL : Fld := ⟨0, 32⟩
def PROT_FLASH_WP_UNIT : Fld := ⟨0, 32⟩
def NET_LS_ID_LO_ID : Fld := ⟨0, 32⟩
def NET_LS_ID_HI_ID : Fld := ⟨0, 32⟩
def NET_LS_DMAC_LO_DMAC : Fld := ⟨0, 32⟩
def NET_LS_DMAC_HI_PCP : Fld := ⟨28, 3⟩
def NET_LS_DMAC_HI_VID : Fld := ⟨16, 12⟩
def NET_LS_DMAC_HI_DMAC : Fld := ⟨0, 16⟩
def NET_LS_CFG_EN : Fld := ⟨31, 1⟩
def NET_LS_CFG_CLASS : Fld := ⟨30, 1⟩
def NET_LS_CFG_NSR : Fld := ⟨29, 1⟩
def NET_LS_CFG_CHANS : Fld := ⟨0, 4⟩
def NET_LS_OFS_OFS : Fld := ⟨0, 32⟩
def NET_LS_STS_CFG_ERR : Fld := ⟨6, 1⟩
def NET_LS_STS_LATE : Fld := ⟨5, 1⟩
def NET_LS_STS_SEQ_ERR : Fld := ⟨4, 1⟩
def NET_LS_STS_FMT_ERR : Fld := ⟨3, 1⟩
def NET_LS_STS_LOST : Fld := ⟨2, 1⟩
def NET_LS_STS_SYNC : Fld := ⟨1, 1⟩
def NET_LS_STS_ACTIVE : Fld := ⟨0, 1⟩
def NET_LS_FRAMES_COUNT : Fld := ⟨0, 32⟩
def NET_LS_ERR_SEQ : Fld := ⟨16, 16⟩
def NET_LS_ERR_LATE : Fld := ⟨0, 16⟩
def NET_LS_TS_TS : Fld := ⟨0, 32⟩
def NET_TK_ID_LO_ID : Fld := ⟨0, 32⟩
def NET_TK_ID_HI_ID : Fld := ⟨0, 32⟩
def NET_TK_DMAC_LO_DMAC : Fld := ⟨0, 32⟩
def NET_TK_DMAC_HI_PCP : Fld := ⟨28, 3⟩
def NET_TK_DMAC_HI_VID : Fld := ⟨16, 12⟩
def NET_TK_DMAC_HI_DMAC : Fld := ⟨0, 16⟩
def NET_TK_CFG_EN : Fld := ⟨31, 1⟩
def NET_TK_CFG_CLASS : Fld := ⟨30, 1⟩
def NET_TK_CFG_NSR : Fld := ⟨29, 1⟩
def NET_TK_CFG_CHANS : Fld := ⟨0, 4⟩
def NET_TK_OFS_OFS : Fld := ⟨0, 32⟩
def NET_TK_STS_CFG_ERR : Fld := ⟨6, 1⟩
def NET_TK_STS_LATE : Fld := ⟨5, 1⟩
def NET_TK_STS_SEQ_ERR : Fld := ⟨4, 1⟩
def NET_TK_STS_FMT_ERR : Fld := ⟨3, 1⟩
def NET_TK_STS_LOST : Fld := ⟨2, 1⟩
def NET_TK_STS_SYNC : Fld := ⟨1, 1⟩
def NET_TK_STS_ACTIVE : Fld := ⟨0, 1⟩
def NET_TK_FRAMES_COUNT : Fld := ⟨0, 32⟩
def NET_TK_ERR_SEQ : Fld := ⟨16, 16⟩
def NET_TK_ERR_DROP : Fld := ⟨0, 16⟩
def NET_TK_TS_TS : Fld := ⟨0, 32⟩
def NET_FDB_LO_MAC : Fld := ⟨0, 32⟩
def NET_FDB_HI_VALID : Fld := ⟨31, 1⟩
def NET_FDB_HI_PORTS : Fld := ⟨16, 3⟩
def NET_FDB_HI_MAC : Fld := ⟨0, 16⟩
def NET_PORT_CFG_EN : Fld := ⟨31, 1⟩
def NET_PORT_CFG_AN_EN : Fld := ⟨30, 1⟩
def NET_PORT_CFG_LEARN : Fld := ⟨29, 1⟩
def NET_PORT_CFG_PTP_EN : Fld := ⟨28, 1⟩
def NET_PORT_CFG_PVID : Fld := ⟨0, 12⟩
def NET_PORT_STS_LINK_CHG : Fld := ⟨2, 1⟩
def NET_PORT_STS_AN_DONE : Fld := ⟨1, 1⟩
def NET_PORT_STS_LINK : Fld := ⟨0, 1⟩
def NET_PORT_SHP_A_EN : Fld := ⟨31, 1⟩
def NET_PORT_SHP_A_IDLE : Fld := ⟨0, 20⟩
def NET_PORT_SHP_B_EN : Fld := ⟨31, 1⟩
def NET_PORT_SHP_B_IDLE : Fld := ⟨0, 20⟩
def NET_PORT_CNT_COUNT : Fld := ⟨0, 32⟩
def NET_GLB_CTL_CNT_CLR : Fld := ⟨0, 1⟩
def NET_GLB_STS_CFG_ERR : Fld := ⟨0, 1⟩
def NET_MAC_LO_MAC : Fld := ⟨0, 32⟩
def NET_MAC_HI_MAC : Fld := ⟨0, 16⟩
def NET_MDIO_CTL_GO : Fld := ⟨31, 1⟩
def NET_MDIO_CTL_READ : Fld := ⟨30, 1⟩
def NET_MDIO_CTL_PHY : Fld := ⟨21, 5⟩
def NET_MDIO_CTL_REG : Fld := ⟨16, 5⟩
def NET_MDIO_CTL_BUSY : Fld := ⟨0, 1⟩
def NET_MDIO_DATA_DATA : Fld := ⟨0, 16⟩
def NET_ZV_CFG_EN : Fld := ⟨31, 1⟩
def NET_ZV_CFG_OPEN_DISC : Fld := ⟨30, 1⟩
def NET_ZV_CFG_LEVEL_EN : Fld := ⟨29, 1⟩
def NET_ZV_CFG_ETYPE : Fld := ⟨0, 16⟩
def NET_ZV_ADDR_CONFLICT : Fld := ⟨31, 1⟩
def NET_ZV_ADDR_ADDR : Fld := ⟨0, 16⟩
def NET_ZV_CNT_REJECTED : Fld := ⟨16, 16⟩
def NET_ZV_CNT_DUP : Fld := ⟨0, 16⟩
def NET_ZV_MCAST_LO_MAC : Fld := ⟨0, 32⟩
def NET_ZV_MCAST_HI_MAC : Fld := ⟨0, 16⟩
def NET_ZV_HEALTH_PERIOD : Fld := ⟨0, 6⟩
def NET_ZV_CTRL_LO_MAC : Fld := ⟨0, 32⟩
def NET_ZV_CTRL_HI_VALID : Fld := ⟨31, 1⟩
def NET_ZV_CTRL_HI_MGMT : Fld := ⟨30, 1⟩
def NET_ZV_CTRL_HI_PRIO : Fld := ⟨29, 1⟩
def NET_ZV_CTRL_HI_REPORT : Fld := ⟨28, 1⟩
def NET_ZV_CTRL_HI_MAC : Fld := ⟨0, 16⟩
def ARR_TIME_LO_VALUE : Fld := ⟨0, 32⟩
def ARR_TIME_HI_VALUE : Fld := ⟨0, 32⟩
def ARR_BLK_LO_VALUE : Fld := ⟨0, 32⟩
def ARR_BLK_HI_VALUE : Fld := ⟨0, 32⟩
def ARR_PTP_CFG_EN : Fld := ⟨31, 1⟩
def ARR_PTP_CFG_PRIO1 : Fld := ⟨16, 8⟩
def ARR_PTP_CFG_PRIO2 : Fld := ⟨8, 8⟩
def ARR_PTP_CFG_SYNC_INTV : Fld := ⟨0, 2⟩
def ARR_PTP_STS_STEPPED : Fld := ⟨6, 1⟩
def ARR_PTP_STS_SLAVE_PORT : Fld := ⟨4, 2⟩
def ARR_PTP_STS_BLK_ALIGN : Fld := ⟨3, 1⟩
def ARR_PTP_STS_IS_GM : Fld := ⟨2, 1⟩
def ARR_PTP_STS_STATE : Fld := ⟨0, 2⟩
def ARR_PTP_OFS_OFS : Fld := ⟨0, 32⟩
def ARR_PTP_GM_LO_VALUE : Fld := ⟨0, 32⟩
def ARR_PTP_GM_HI_VALUE : Fld := ⟨0, 32⟩
def ARR_PDELAY_AS_CAPABLE : Fld := ⟨31, 1⟩
def ARR_PDELAY_DELAY : Fld := ⟨0, 16⟩
def ARR_BRIDLE_CFG_EN : Fld := ⟨31, 1⟩
def ARR_BRIDLE_CFG_EXT_STEP : Fld := ⟨16, 9⟩
def ARR_BRIDLE_CFG_OFFSET : Fld := ⟨0, 9⟩
def ARR_BRIDLE_STS_SLEWING : Fld := ⟨1, 1⟩
def ARR_BRIDLE_STS_ALIGNED : Fld := ⟨0, 1⟩
def ARR_SCHED_STS_USED : Fld := ⟨0, 7⟩
def ARR_CNT_STEP : Fld := ⟨16, 16⟩
def ARR_CNT_LATE : Fld := ⟨0, 16⟩
def ARR_AG_SUM_MUTED : Fld := ⟨16, 16⟩
def ARR_AG_SUM_CONCEALING : Fld := ⟨0, 16⟩
def ARR_AG_CFG_EN : Fld := ⟨31, 1⟩
def ARR_AG_CFG_HOLD_TOGETHER : Fld := ⟨30, 1⟩
def ARR_AG_CFG_N : Fld := ⟨8, 8⟩
def ARR_AG_CFG_ID : Fld := ⟨0, 8⟩
def ARR_LANE_AG_EN : Fld := ⟨31, 1⟩
def ARR_LANE_AG_SLOT : Fld := ⟨0, 4⟩
def SAP_CFG_EN : Fld := ⟨31, 1⟩
def SAP_CFG_HOLD : Fld := ⟨30, 1⟩
def SAP_CFG_SRC_MODE : Fld := ⟨28, 2⟩
def SAP_CFG_SOFT : Fld := ⟨27, 1⟩
def SAP_CFG_MASTER : Fld := ⟨26, 1⟩
def SAP_CFG_BDIV : Fld := ⟨16, 8⟩
def SAP_CFG_ZC_TIMEOUT : Fld := ⟨0, 7⟩
def SAP_FMT_FORMAT : Fld := ⟨30, 2⟩
def SAP_FMT_FS_POL : Fld := ⟨29, 1⟩
def SAP_FMT_BCLK_EDGE : Fld := ⟨28, 1⟩
def SAP_FMT_DELAY : Fld := ⟨27, 1⟩
def SAP_FMT_FLEN : Fld := ⟨0, 10⟩
def SAP_MASK_ACTIVE : Fld := ⟨16, 16⟩
def SAP_MASK_MASK : Fld := ⟨0, 16⟩
def SAP_STS_SAT : Fld := ⟨13, 1⟩
def SAP_STS_CFG_ERR : Fld := ⟨12, 1⟩
def SAP_STS_TABLE_ERR : Fld := ⟨11, 1⟩
def SAP_STS_SLIP : Fld := ⟨10, 1⟩
def SAP_STS_FRAME_ERR : Fld := ⟨9, 1⟩
def SAP_STS_CLK_LOST : Fld := ⟨8, 1⟩
def SAP_STS_PENDING : Fld := ⟨4, 1⟩
def SAP_STS_BYPASS : Fld := ⟨3, 1⟩
def SAP_STS_LOCK : Fld := ⟨2, 1⟩
def SAP_STS_CLK_OK : Fld := ⟨1, 1⟩
def SAP_STS_RUNNING : Fld := ⟨0, 1⟩
def SAP_FRAME_CNT_FRAME : Fld := ⟨0, 32⟩
def SAP_FRAME_APPLIED_FRAME : Fld := ⟨0, 32⟩
def SAP_RATE_RATE : Fld := ⟨0, 20⟩
def SAP_ERR_CNT_FRAME_ERR : Fld := ⟨16, 16⟩
def SAP_ERR_CNT_SLIP : Fld := ⟨0, 16⟩
def SAP_SLOT_LEN : Fld := ⟨24, 2⟩
def SAP_SLOT_HALF : Fld := ⟨17, 1⟩
def SAP_SLOT_HIZ : Fld := ⟨16, 1⟩
def SAP_SLOT_START : Fld := ⟨0, 9⟩
def SAP_SLOT_ACT_LEN : Fld := ⟨24, 2⟩
def SAP_SLOT_ACT_HALF : Fld := ⟨17, 1⟩
def SAP_SLOT_ACT_HIZ : Fld := ⟨16, 1⟩
def SAP_SLOT_ACT_START : Fld := ⟨0, 9⟩
def SAP_SLOT_LVL_PEAK : Fld := ⟨0, 8⟩
def AFE_IN_CFG_SE : Fld := ⟨1, 1⟩
def AFE_IN_CFG_MODE : Fld := ⟨0, 1⟩
def AFE_IN_GAIN_ZC_BYPASS : Fld := ⟨16, 1⟩
def AFE_IN_GAIN_CUR : Fld := ⟨8, 6⟩
def AFE_IN_GAIN_GAIN : Fld := ⟨0, 6⟩
def AFE_IN_STS_OVL_NOW : Fld := ⟨3, 1⟩
def AFE_IN_STS_ZC_TIMEOUT : Fld := ⟨2, 1⟩
def AFE_IN_STS_STEPPING : Fld := ⟨1, 1⟩
def AFE_IN_STS_READY : Fld := ⟨0, 1⟩
def AFE_MICBIAS_CFG_OC1 : Fld := ⟨17, 1⟩
def AFE_MICBIAS_CFG_OC0 : Fld := ⟨16, 1⟩
def AFE_MICBIAS_CFG_V1 : Fld := ⟨8, 2⟩
def AFE_MICBIAS_CFG_V0 : Fld := ⟨4, 2⟩
def AFE_MICBIAS_CFG_EN1 : Fld := ⟨1, 1⟩
def AFE_MICBIAS_CFG_EN0 : Fld := ⟨0, 1⟩
def AFE_PDM_CFG_MICVDD_B_EN : Fld := ⟨17, 1⟩
def AFE_PDM_CFG_MICVDD_A_EN : Fld := ⟨16, 1⟩
def AFE_PDM_CFG_CLK1_EN : Fld := ⟨5, 1⟩
def AFE_PDM_CFG_CLK0_EN : Fld := ⟨4, 1⟩
def AFE_PDM_CFG_WIRE_EN : Fld := ⟨0, 4⟩
def AFE_PDM_STS_STUCK : Fld := ⟨0, 4⟩
def AFE_JD_CFG_LINE_ON_INS : Fld := ⟨28, 1⟩
def AFE_JD_CFG_PRESET_OUT : Fld := ⟨24, 4⟩
def AFE_JD_CFG_PRESET_IN : Fld := ⟨20, 4⟩
def AFE_JD_CFG_AUTO_EN : Fld := ⟨16, 1⟩
def AFE_JD_CFG_DEBOUNCE : Fld := ⟨4, 9⟩
def AFE_JD_CFG_PULL_EN : Fld := ⟨2, 1⟩
def AFE_JD_CFG_POL : Fld := ⟨1, 1⟩
def AFE_JD_CFG_EN : Fld := ⟨0, 1⟩
def AFE_JD_STS_JD7_CHG : Fld := ⟨9, 1⟩
def AFE_JD_STS_JD6_CHG : Fld := ⟨8, 1⟩
def AFE_JD_STS_JD7_STATE : Fld := ⟨1, 1⟩
def AFE_JD_STS_JD6_STATE : Fld := ⟨0, 1⟩
def AFE_ZC_CFG_TIMEOUT : Fld := ⟨0, 7⟩
def AFE_OVL_CFG_AUTO_RST : Fld := ⟨8, 1⟩
def AFE_OVL_CFG_RST_LEN : Fld := ⟨0, 8⟩
def AFE_LO_CFG_EN : Fld := ⟨31, 1⟩
def AFE_LO_CFG_OC : Fld := ⟨2, 1⟩
def AFE_LO_CFG_READY : Fld := ⟨0, 1⟩
def AFE_HP_CFG_EN : Fld := ⟨31, 1⟩
def AFE_HP_CFG_OC : Fld := ⟨2, 1⟩
def AFE_HP_CFG_READY : Fld := ⟨0, 1⟩
def AFE_HP_JD_CFG_PROBE_EN : Fld := ⟨28, 1⟩
def AFE_HP_JD_CFG_PRESET_OUT : Fld := ⟨24, 4⟩
def AFE_HP_JD_CFG_PRESET_LINE : Fld := ⟨20, 4⟩
def AFE_HP_JD_CFG_PRESET_HP : Fld := ⟨16, 4⟩
def AFE_HP_JD_CFG_AUTO_EN : Fld := ⟨13, 1⟩
def AFE_HP_JD_CFG_DEBOUNCE : Fld := ⟨4, 9⟩
def AFE_HP_JD_CFG_PULL_EN : Fld := ⟨2, 1⟩
def AFE_HP_JD_CFG_POL : Fld := ⟨1, 1⟩
def AFE_HP_JD_CFG_EN : Fld := ⟨0, 1⟩
def AFE_HP_STS_CLASS : Fld := ⟨4, 2⟩
def AFE_HP_STS_CHG : Fld := ⟨2, 1⟩
def AFE_HP_STS_PROBING : Fld := ⟨1, 1⟩
def AFE_HP_STS_STATE : Fld := ⟨0, 1⟩
def AFE_HP_IMP_ZR : Fld := ⟨16, 16⟩
def AFE_HP_IMP_ZL : Fld := ⟨0, 16⟩
def AFE_LSN_CFG_EN : Fld := ⟨31, 1⟩
def AFE_LSN_CFG_KEEP_PLL : Fld := ⟨30, 1⟩
def AFE_LSN_CFG_AUTO_HO : Fld := ⟨29, 1⟩
def AFE_LSN_CFG_PRIO_GB : Fld := ⟨26, 1⟩
def AFE_LSN_CFG_PRIO_ALM : Fld := ⟨25, 1⟩
def AFE_LSN_CFG_WAKE_GB : Fld := ⟨24, 1⟩
def AFE_LSN_CFG_WAKE_ALM : Fld := ⟨23, 1⟩
def AFE_LSN_CFG_CYCLES : Fld := ⟨18, 2⟩
def AFE_LSN_CFG_GB_EN : Fld := ⟨17, 1⟩
def AFE_LSN_CFG_T4_EN : Fld := ⟨16, 1⟩
def AFE_LSN_CFG_T3_EN : Fld := ⟨15, 1⟩
def AFE_LSN_STS_FLOOR_ALM : Fld := ⟨24, 8⟩
def AFE_LSN_STS_FLOOR_GB : Fld := ⟨16, 8⟩
def AFE_LSN_STS_NEXT : Fld := ⟨8, 6⟩
def AFE_LSN_STS_CFG_ERR : Fld := ⟨6, 1⟩
def AFE_LSN_STS_OVERRUN : Fld := ⟨5, 1⟩
def AFE_LSN_STS_SWITCH : Fld := ⟨4, 1⟩
def AFE_LSN_STS_GB_PARTIAL : Fld := ⟨3, 1⟩
def AFE_LSN_STS_ALM_PARTIAL : Fld := ⟨2, 1⟩
def AFE_LSN_STS_LCLK_PATH : Fld := ⟨1, 1⟩
def AFE_LSN_STS_RUNNING : Fld := ⟨0, 1⟩
def AFE_ALM_BAND_F_HI : Fld := ⟨16, 12⟩
def AFE_ALM_BAND_F_LO : Fld := ⟨0, 12⟩
def AFE_ALM_THR_MIN_LVL : Fld := ⟨16, 8⟩
def AFE_ALM_THR_TONAL : Fld := ⟨8, 8⟩
def AFE_ALM_THR_SNR : Fld := ⟨0, 8⟩
def AFE_GB_THR_MIN_LVL : Fld := ⟨24, 8⟩
def AFE_GB_THR_DECAY : Fld := ⟨16, 8⟩
def AFE_GB_THR_SHATTER : Fld := ⟨8, 8⟩
def AFE_GB_THR_THUD : Fld := ⟨0, 8⟩
def AFE_GTH_CFG_GO : Fld := ⟨31, 1⟩
def AFE_GTH_CFG_STOP : Fld := ⟨30, 1⟩
def AFE_GTH_CFG_FMT : Fld := ⟨29, 1⟩
def AFE_GTH_CFG_WIN_PAGE : Fld := ⟨0, 6⟩
def AFE_GTH_IDX_INDEX : Fld := ⟨0, 32⟩
def AFE_LCLK_CAL_VALID : Fld := ⟨31, 1⟩
def AFE_LCLK_CAL_ERR : Fld := ⟨0, 20⟩
def AFE_LSN_LOG_LO_INDEX : Fld := ⟨0, 32⟩
def AFE_LSN_LOG_HI_KIND : Fld := ⟨30, 2⟩
def AFE_LSN_LOG_HI_IN_LISTEN : Fld := ⟨29, 1⟩
def AFE_LSN_LOG_HI_DECIDE : Fld := ⟨0, 16⟩
def AFE_GTH_WIN_DATA : Fld := ⟨0, 32⟩
def SNS_ENTRY_EN : Fld := ⟨31, 1⟩
def SNS_ENTRY_LIM_EN : Fld := ⟨30, 1⟩
def SNS_ENTRY_ALIGN : Fld := ⟨29, 1⟩
def SNS_ENTRY_INPUT : Fld := ⟨16, 5⟩
def SNS_ENTRY_GAIN : Fld := ⟨8, 3⟩
def SNS_ENTRY_K : Fld := ⟨0, 4⟩
def SNS_LIM_HI : Fld := ⟨16, 16⟩
def SNS_LIM_LO : Fld := ⟨0, 16⟩
def SNS_RES_RESULT : Fld := ⟨8, 24⟩
def SNS_RES_NEW : Fld := ⟨7, 1⟩
def SNS_RES_REF_NRDY : Fld := ⟨6, 1⟩
def SNS_RES_SAT : Fld := ⟨5, 1⟩
def SNS_RES_LIM : Fld := ⟨4, 1⟩
def SNS_RES_CAL : Fld := ⟨3, 1⟩
def SNS_RES_RESTART : Fld := ⟨2, 1⟩
def SNS_RES_TS_BLK : Fld := ⟨4, 28⟩
def SNS_RES_TS_SAMPLE : Fld := ⟨0, 4⟩
def SNS_LAST_RESULT : Fld := ⟨8, 24⟩
def SNS_LAST_NEW : Fld := ⟨7, 1⟩
def SNS_LAST_REF_NRDY : Fld := ⟨6, 1⟩
def SNS_LAST_SAT : Fld := ⟨5, 1⟩
def SNS_LAST_LIM : Fld := ⟨4, 1⟩
def SNS_LAST_CAL : Fld := ⟨3, 1⟩
def SNS_LAST_RESTART : Fld := ⟨2, 1⟩
def SNS_LAST_TS_BLK : Fld := ⟨4, 28⟩
def SNS_LAST_TS_SAMPLE : Fld := ⟨0, 4⟩
def SNS_CFG_EN : Fld := ⟨31, 1⟩
def SNS_CFG_PAUSE : Fld := ⟨30, 1⟩
def SNS_CFG_MODE : Fld := ⟨28, 2⟩
def SNS_CFG_LAST : Fld := ⟨16, 4⟩
def SNS_CFG_DONE_EVT : Fld := ⟨0, 1⟩
def SNS_STS_ENTRY : Fld := ⟨28, 4⟩
def SNS_STS_RUNNING : Fld := ⟨27, 1⟩
def SNS_STS_PAUSED : Fld := ⟨26, 1⟩
def SNS_STS_HELD : Fld := ⟨25, 1⟩
def SNS_STS_CAL_BUSY : Fld := ⟨24, 1⟩
def SNS_STS_INJ_Q : Fld := ⟨20, 4⟩
def SNS_STS_TRIG_OVR : Fld := ⟨7, 1⟩
def SNS_STS_CAL_FAIL : Fld := ⟨6, 1⟩
def SNS_STS_INJ_REFUSED : Fld := ⟨5, 1⟩
def SNS_TRIG_SRC : Fld := ⟨28, 4⟩
def SNS_TRIG_SW : Fld := ⟨27, 1⟩
def SNS_TRIG_PWM_EDGE : Fld := ⟨26, 1⟩
def SNS_TRIG_PWM_CH : Fld := ⟨23, 3⟩
def SNS_TRIG_GPIO_EDGE : Fld := ⟨21, 2⟩
def SNS_TRIG_GPIO : Fld := ⟨17, 4⟩
def SNS_TRIG_DELAY : Fld := ⟨0, 16⟩
def SNS_INJ_GO : Fld := ⟨31, 1⟩
def SNS_INJ_LIM_EN : Fld := ⟨30, 1⟩
def SNS_INJ_ALIGN : Fld := ⟨29, 1⟩
def SNS_INJ_INPUT : Fld := ⟨16, 5⟩
def SNS_INJ_GAIN : Fld := ⟨8, 3⟩
def SNS_INJ_K : Fld := ⟨0, 4⟩
def SNS_INJ_RES_RESULT : Fld := ⟨8, 24⟩
def SNS_INJ_RES_NEW : Fld := ⟨7, 1⟩
def SNS_INJ_RES_REF_NRDY : Fld := ⟨6, 1⟩
def SNS_INJ_RES_SAT : Fld := ⟨5, 1⟩
def SNS_INJ_RES_LIM : Fld := ⟨4, 1⟩
def SNS_INJ_RES_CAL : Fld := ⟨3, 1⟩
def SNS_INJ_RES_RESTART : Fld := ⟨2, 1⟩
def SNS_CNT_TRIG_OVR : Fld := ⟨16, 16⟩
def SNS_CNT_ABORT : Fld := ⟨0, 16⟩
def SNS_CAL_CTL_GO : Fld := ⟨31, 1⟩
def SNS_CAL_CTL_STEP : Fld := ⟨24, 2⟩
def SNS_CAL_CTL_INPUT : Fld := ⟨16, 5⟩
def SNS_CAL_CTL_GAIN : Fld := ⟨8, 3⟩
def SNS_CAL_CTL_K : Fld := ⟨0, 4⟩
def SNS_CAL_TGT_TARGET : Fld := ⟨0, 24⟩
def SNS_IN_CFG_BIAS : Fld := ⟨31, 1⟩
def SNS_TMR_EN : Fld := ⟨31, 1⟩
def SNS_TMR_PERIOD : Fld := ⟨0, 24⟩
def SNS_GLB_CTL_CNT_CLR : Fld := ⟨0, 1⟩
def SNS_GLB_STS_PLAUS : Fld := ⟨1, 1⟩
def SNS_GLB_STS_CFG_ERR : Fld := ⟨0, 1⟩
def SNS_REF_BUFEN : Fld := ⟨31, 1⟩
def SNS_REF_READY : Fld := ⟨0, 1⟩
def SNS_SHARED_EN : Fld := ⟨31, 1⟩
def SNS_SHARED_INPUT : Fld := ⟨16, 5⟩
def SNS_SHARED_WINDOW : Fld := ⟨0, 16⟩
def SNS_PLAUS_STS_DIFF : Fld := ⟨8, 24⟩
def SNS_PLAUS_STS_FAIL : Fld := ⟨0, 1⟩
def SNS_PLAUS_CNT_FAILS : Fld := ⟨16, 16⟩
def SNS_PLAUS_CNT_CHECKS : Fld := ⟨0, 16⟩
def SNS_TDAC_EN : Fld := ⟨31, 1⟩
def SNS_TDAC_MODE : Fld := ⟨29, 2⟩
def SNS_TDAC_CODE : Fld := ⟨0, 12⟩
def SNS_TDAC_SW_SW : Fld := ⟨0, 24⟩
def SNS_CAL_ADDR_AUTOINC : Fld := ⟨31, 1⟩
def SNS_CAL_ADDR_INDEX : Fld := ⟨0, 9⟩
def SNS_CAL_OFS_OFS : Fld := ⟨0, 24⟩
def SNS_CAL_GAIN_GN : Fld := ⟨0, 24⟩
def SNS_EVT_CFG_MAX_AGE : Fld := ⟨16, 16⟩
def SNS_EVT_CFG_HOLDOFF : Fld := ⟨0, 16⟩
def FLT_CH_CFG_TAPS : Fld := ⟨4, 8⟩
def FLT_CH_CFG_EN : Fld := ⟨0, 1⟩
def FLT_SWAP_GO : Fld := ⟨31, 1⟩
def FLT_SWAP_FADE : Fld := ⟨1, 2⟩
def FLT_SWAP_BANK : Fld := ⟨0, 1⟩
def FLT_BANK_STS_REMAIN : Fld := ⟨16, 11⟩
def FLT_BANK_STS_QUEUED_FADE : Fld := ⟨4, 2⟩
def FLT_BANK_STS_QUEUED_BANK : Fld := ⟨3, 1⟩
def FLT_BANK_STS_QUEUED : Fld := ⟨2, 1⟩
def FLT_BANK_STS_FADING : Fld := ⟨1, 1⟩
def FLT_BANK_STS_ACTIVE : Fld := ⟨0, 1⟩
def FLT_BANK_BLK_LO_BLK : Fld := ⟨0, 32⟩
def FLT_BANK_BLK_HI_BLK : Fld := ⟨0, 32⟩
def FLT_SWAP_CNT_NO_EFFECT : Fld := ⟨16, 16⟩
def FLT_SWAP_CNT_SUPERSEDED : Fld := ⟨0, 16⟩
def FLT_THR_LVL_EVT_DOWN : Fld := ⟨26, 1⟩
def FLT_THR_LVL_EVT_UP : Fld := ⟨25, 1⟩
def FLT_THR_LVL_EN : Fld := ⟨24, 1⟩
def FLT_THR_LVL_HYST : Fld := ⟨12, 6⟩
def FLT_THR_LVL_LEVEL : Fld := ⟨0, 8⟩
def FLT_THR_HOLD_HOLD : Fld := ⟨0, 16⟩
def FLT_THR_STS_DOWN1 : Fld := ⟨11, 1⟩
def FLT_THR_STS_UP1 : Fld := ⟨10, 1⟩
def FLT_THR_STS_DOWN0 : Fld := ⟨9, 1⟩
def FLT_THR_STS_UP0 : Fld := ⟨8, 1⟩
def FLT_THR_STS_STATE1 : Fld := ⟨1, 1⟩
def FLT_THR_STS_STATE0 : Fld := ⟨0, 1⟩
def FLT_OVR_STS_OVR_NOW : Fld := ⟨2, 1⟩
def FLT_OVR_STS_MODRST : Fld := ⟨1, 1⟩
def FLT_OVR_STS_SAT : Fld := ⟨0, 1⟩
def FLT_OVR_CNT_MODRST : Fld := ⟨16, 16⟩
def FLT_OVR_CNT_SAT : Fld := ⟨0, 16⟩
def FLT_DELAY_USAMP : Fld := ⟨16, 8⟩
def FLT_DELAY_GD : Fld := ⟨0, 16⟩
def FLT_SETTLE_REMAIN : Fld := ⟨4, 12⟩
def FLT_SETTLE_UNSETTLED : Fld := ⟨0, 1⟩
def FLT_COEF_WIN_COEF : Fld := ⟨0, 32⟩
def FLT_GLB_CTL_CNT_CLR : Fld := ⟨0, 1⟩
def FLT_GLB_STS_TAPS_ERR : Fld := ⟨1, 1⟩
def FLT_GLB_STS_COEF_BUSY_ERR : Fld := ⟨0, 1⟩
def FLT_COEF_SEL_PAGE : Fld := ⟨5, 1⟩
def FLT_COEF_SEL_BANK : Fld := ⟨4, 1⟩
def FLT_COEF_SEL_CH : Fld := ⟨0, 4⟩
def FLT_COEF_CRC_CRC : Fld := ⟨0, 32⟩
def FLT_SYNC_CTL_SW_SYNC : Fld := ⟨31, 1⟩
def FLT_SYNC_CTL_ARM : Fld := ⟨30, 1⟩
def FLT_SYNC_CTL_BALL_POL : Fld := ⟨17, 1⟩
def FLT_SYNC_CTL_BALL_EN : Fld := ⟨16, 1⟩
def FLT_SYNC_CTL_MASK : Fld := ⟨0, 16⟩
def FLT_SYNC_STS_BALL_SEEN : Fld := ⟨1, 1⟩
def FLT_SYNC_STS_PENDING : Fld := ⟨0, 1⟩
def FLT_SYNC_BLK_LO_BLK : Fld := ⟨0, 32⟩
def FLT_SYNC_BLK_HI_BLK : Fld := ⟨0, 32⟩
def FLT_SYNC_AT_LO_BLK : Fld := ⟨0, 32⟩
def FLT_SYNC_AT_HI_BLK : Fld := ⟨0, 32⟩
def FLT_SYNC_CNT_COUNT : Fld := ⟨0, 32⟩
def FLT_EVT_CFG_OVR_HOLDOFF : Fld := ⟨0, 16⟩
def FLT_OVR_SUM_SAT : Fld := ⟨0, 16⟩
def FLT_THR_SUM_STATE : Fld := ⟨0, 32⟩
def FLT_SETTLE_SUM_UNSETTLED : Fld := ⟨0, 16⟩
def FLT_BANK_SUM_FADING : Fld := ⟨16, 16⟩
def FLT_BANK_SUM_ACTIVE : Fld := ⟨0, 16⟩
def MP_LANE_SRC_EN : Fld := ⟨31, 1⟩
def MP_LANE_SRC_FADE : Fld := ⟨12, 2⟩
def MP_LANE_SRC_SRC : Fld := ⟨0, 10⟩
def MP_LANE_TRIM_POL : Fld := ⟨12, 1⟩
def MP_LANE_TRIM_TRIM : Fld := ⟨0, 12⟩
def MP_LANE_DET_PK_EN : Fld := ⟨31, 1⟩
def MP_LANE_DET_SIL_EVT : Fld := ⟨30, 1⟩
def MP_LANE_DET_PK_LVL : Fld := ⟨23, 7⟩
def MP_LANE_DET_SIL_THR : Fld := ⟨15, 8⟩
def MP_LANE_DET_SIL_HOLD : Fld := ⟨0, 13⟩
def MP_LANE_STS_SRC_ACT : Fld := ⟨16, 10⟩
def MP_LANE_STS_OVR : Fld := ⟨10, 1⟩
def MP_LANE_STS_PEAK : Fld := ⟨9, 1⟩
def MP_LANE_STS_SRC_ERR : Fld := ⟨8, 1⟩
def MP_LANE_STS_SPLIT : Fld := ⟨3, 1⟩
def MP_LANE_STS_QUEUED : Fld := ⟨2, 1⟩
def MP_LANE_STS_FADING : Fld := ⟨1, 1⟩
def MP_LANE_STS_SILENT : Fld := ⟨0, 1⟩
def MP_SINK_EN : Fld := ⟨31, 1⟩
def MP_SINK_FADE : Fld := ⟨28, 2⟩
def MP_SINK_KIND : Fld := ⟨27, 1⟩
def MP_SINK_INDEX : Fld := ⟨20, 7⟩
def MP_SINK_VOL : Fld := ⟨0, 12⟩
def MP_COMP_EN : Fld := ⟨31, 1⟩
def MP_COMP_LINK : Fld := ⟨30, 1⟩
def MP_COMP_RATIO : Fld := ⟨24, 4⟩
def MP_COMP_ATTACK : Fld := ⟨20, 4⟩
def MP_COMP_RELEASE : Fld := ⟨16, 4⟩
def MP_COMP_KNEE : Fld := ⟨14, 2⟩
def MP_COMP_MAKEUP : Fld := ⟨8, 6⟩
def MP_COMP_THR : Fld := ⟨0, 8⟩
def MP_LIM_EN : Fld := ⟨31, 1⟩
def MP_LIM_LINK : Fld := ⟨30, 1⟩
def MP_LIM_LOOKAHEAD : Fld := ⟨16, 8⟩
def MP_LIM_RELEASE : Fld := ⟨12, 4⟩
def MP_LIM_THR : Fld := ⟨0, 8⟩
def MP_DYN_STS_LIM_GR : Fld := ⟨16, 8⟩
def MP_DYN_STS_COMP_GR : Fld := ⟨8, 8⟩
def MP_DYN_STS_CLIP : Fld := ⟨2, 1⟩
def MP_DYN_STS_ZC_TIMEOUT : Fld := ⟨1, 1⟩
def MP_DYN_STS_CONCEALED : Fld := ⟨0, 1⟩
def MP_GLB_CTL_CNT_CLR : Fld := ⟨4, 1⟩
def MP_GLB_CTL_GAIN_RAMP : Fld := ⟨0, 2⟩
def MP_GLB_STS_PRESET_ERR : Fld := ⟨2, 1⟩
def MP_GLB_STS_LOOKAHEAD_ERR : Fld := ⟨1, 1⟩
def MP_GLB_STS_SRC_ERR : Fld := ⟨0, 1⟩
def MP_ZC_CFG_TIMEOUT : Fld := ⟨0, 7⟩
def MP_QUIET_CFG_EN : Fld := ⟨31, 1⟩
def MP_QUIET_CFG_THR : Fld := ⟨16, 8⟩
def MP_QUIET_CFG_HOLD : Fld := ⟨0, 13⟩
def MP_QUIET_STS_COUNT : Fld := ⟨16, 16⟩
def MP_QUIET_STS_SILENT : Fld := ⟨0, 16⟩
def MP_PRESET_CTL_GO : Fld := ⟨31, 1⟩
def MP_PRESET_CTL_INDEX : Fld := ⟨0, 4⟩
def MP_ROUTE_CNT_NO_EFFECT : Fld := ⟨16, 16⟩
def MP_ROUTE_CNT_SUPERSEDED : Fld := ⟨0, 16⟩
def MP_OUT_STS_RUNNING : Fld := ⟨0, 22⟩
def MIX_GAIN_EN : Fld := ⟨31, 1⟩
def MIX_GAIN_LANE : Fld := ⟨16, 7⟩
def MIX_GAIN_GAIN : Fld := ⟨0, 12⟩
def MIX_BUS_CFG_FADE : Fld := ⟨4, 2⟩
def MIX_BUS_CFG_BALLAST : Fld := ⟨0, 2⟩
def MIX_BUS_STS_SCALE : Fld := ⟨16, 16⟩
def MIX_BUS_STS_SAT : Fld := ⟨8, 1⟩
def MIX_BUS_STS_RAMPING : Fld := ⟨7, 1⟩
def MIX_BUS_STS_N : Fld := ⟨0, 6⟩
def TTH_OUT_CFG_CLR_FAULT : Fld := ⟨31, 1⟩
def TTH_OUT_CFG_ARM : Fld := ⟨24, 4⟩
def TTH_OUT_CFG_FADE : Fld := ⟨16, 2⟩
def TTH_OUT_CFG_MODE : Fld := ⟨0, 2⟩
def TTH_OUT_PRIO_BALL_EN : Fld := ⟨31, 1⟩
def TTH_OUT_PRIO_LSN_EN : Fld := ⟨30, 1⟩
def TTH_OUT_PRIO_ATTACK : Fld := ⟨22, 2⟩
def TTH_OUT_PRIO_RELEASE : Fld := ⟨20, 2⟩
def TTH_OUT_PRIO_DUCK : Fld := ⟨0, 6⟩
def TTH_OUT_STS_EFF : Fld := ⟨28, 3⟩
def TTH_OUT_STS_CAUSE : Fld := ⟨24, 4⟩
def TTH_OUT_STS_CAUSE_HOST : Fld := ⟨23, 1⟩
def TTH_OUT_STS_PSRC : Fld := ⟨19, 4⟩
def TTH_OUT_STS_FADING : Fld := ⟨18, 1⟩
def TTH_OUT_STS_FAULT : Fld := ⟨17, 1⟩
def TTH_OUT_STS_MAIN_MUTED : Fld := ⟨16, 1⟩
def TTH_OUT_STS_SAT : Fld := ⟨8, 1⟩
def TTH_OUT_STS_PEAK : Fld := ⟨0, 8⟩
def TTH_OUT_CNT_FAULTS : Fld := ⟨16, 16⟩
def TTH_OUT_CNT_MASKED : Fld := ⟨0, 16⟩
def TTH_VOTE_CAP_WORD : Fld := ⟨0, 24⟩
def TTH_VOTE_BLK_BLK : Fld := ⟨0, 32⟩
def TTH_SRV_CFG_CLOSE : Fld := ⟨31, 1⟩
def TTH_SRV_CFG_CLAMP : Fld := ⟨0, 16⟩
def TTH_SRV_STS_SAT_NOW : Fld := ⟨2, 1⟩
def TTH_SRV_STS_OPENED : Fld := ⟨1, 1⟩
def TTH_SRV_STS_CLOSED : Fld := ⟨0, 1⟩
def TTH_SRV_DRV_LE : Fld := ⟨16, 16⟩
def TTH_SRV_DRV_RE : Fld := ⟨0, 16⟩
def TTH_SRV_KREF_KREF : Fld := ⟨0, 32⟩
def TTH_SRV_CORR_CORR : Fld := ⟨0, 32⟩
def TTH_SRV_CNT_OPENS : Fld := ⟨16, 16⟩
def TTH_SRV_CNT_SAT : Fld := ⟨0, 16⟩
def TTH_SRV_COEF_COEF : Fld := ⟨0, 32⟩
def TTH_IN_CFG_EN : Fld := ⟨31, 1⟩
def TTH_IN_CFG_SMOOTH : Fld := ⟨30, 1⟩
def TTH_IN_LVL_HOLD : Fld := ⟨8, 8⟩
def TTH_IN_LVL_PEAK : Fld := ⟨0, 8⟩
def TTH_PLAY_Q_VALID : Fld := ⟨31, 1⟩
def TTH_PLAY_Q_REPEAT : Fld := ⟨16, 8⟩
def TTH_PLAY_Q_MSG : Fld := ⟨0, 10⟩
def TTH_CTL_MAINT : Fld := ⟨31, 1⟩
def TTH_CTL_CNT_CLR : Fld := ⟨30, 1⟩
def TTH_STS_BIST_RUN : Fld := ⟨2, 1⟩
def TTH_STS_CFG_ERR : Fld := ⟨1, 1⟩
def TTH_STS_READY : Fld := ⟨0, 1⟩
def TTH_RAMP_RATE : Fld := ⟨0, 4⟩
def TTH_GWIN_ADDR_AUTOINC : Fld := ⟨31, 1⟩
def TTH_GWIN_ADDR_SET : Fld := ⟨9, 2⟩
def TTH_GWIN_ADDR_NODE : Fld := ⟨0, 9⟩
def TTH_GWIN_DATA_GAIN : Fld := ⟨0, 18⟩
def TTH_GWIN_CUR_GAIN : Fld := ⟨0, 18⟩
def TTH_TKO_CAUSE_HUB_PWR_OK : Fld := ⟨1, 1⟩
def TTH_TKO_CAUSE_LINK_UP : Fld := ⟨0, 1⟩
def TTH_PRIO_BALL_EN : Fld := ⟨31, 1⟩
def TTH_PRIO_BALL_POL : Fld := ⟨30, 1⟩
def TTH_PRIO_BALL_FILT : Fld := ⟨0, 10⟩
def TTH_PRIO_STS_BALL_LVL : Fld := ⟨4, 1⟩
def TTH_PRIO_STS_ANY : Fld := ⟨0, 4⟩
def TTH_PRIO_AUTO_BALL_PLAY : Fld := ⟨31, 1⟩
def TTH_PRIO_AUTO_LSN_PLAY : Fld := ⟨30, 1⟩
def TTH_PRIO_AUTO_LSN_MSG : Fld := ⟨10, 10⟩
def TTH_PRIO_AUTO_BALL_MSG : Fld := ⟨0, 10⟩
def TTH_BIST_STS_RESULT : Fld := ⟨30, 2⟩
def TTH_BIST_STS_FAILED : Fld := ⟨0, 24⟩
def TTH_SCRUB_STS_THREEWAY : Fld := ⟨11, 1⟩
def TTH_SCRUB_STS_NODE : Fld := ⟨0, 11⟩
def TTH_SCRUB_CNT_CORR : Fld := ⟨16, 16⟩
def TTH_SCRUB_CNT_SECDED : Fld := ⟨0, 16⟩
def TTH_BOOT_STS_SRC : Fld := ⟨30, 2⟩
def TTH_BOOT_STS_DIVERGENT : Fld := ⟨29, 1⟩
def TTH_BOOT_STS_SKIPPED : Fld := ⟨28, 1⟩
def TTH_BOOT_STS_PAIRS : Fld := ⟨0, 12⟩
def TTH_TONE_FREQ_FB : Fld := ⟨16, 16⟩
def TTH_TONE_FREQ_FA : Fld := ⟨0, 16⟩
def TTH_TONE_CFG_PATTERN : Fld := ⟨16, 3⟩
def TTH_TONE_CFG_PERIOD : Fld := ⟨8, 8⟩
def TTH_TONE_CFG_LEVEL : Fld := ⟨0, 8⟩
def TTH_PLAY_CTL_GO : Fld := ⟨31, 1⟩
def TTH_PLAY_CTL_STOP : Fld := ⟨30, 1⟩
def TTH_PLAY_CTL_REPEAT : Fld := ⟨16, 8⟩
def TTH_PLAY_CTL_MSG : Fld := ⟨0, 10⟩
def TTH_PLAY_STS_STATE : Fld := ⟨30, 2⟩
def TTH_PLAY_STS_QLEN : Fld := ⟨26, 4⟩
def TTH_PLAY_STS_MSG : Fld := ⟨0, 10⟩
def TTH_PLAY_CNT_CRC : Fld := ⟨16, 16⟩
def TTH_PLAY_CNT_DONE : Fld := ⟨0, 16⟩
def TTH_PSAP_CFG_EN : Fld := ⟨31, 1⟩
def TTH_PSAP_CFG_LOCK : Fld := ⟨0, 1⟩
def TTH_FAULT_SUM_OUT : Fld := ⟨0, 24⟩
def TTH_MODE_SUM_OUT : Fld := ⟨0, 24⟩
def TTH_TLOG_HEAD_COUNT : Fld := ⟨16, 16⟩
def TTH_TLOG_HEAD_NEXT : Fld := ⟨0, 6⟩
def TTH_EVT_CFG_HOLDOFF : Fld := ⟨0, 16⟩
def TTH_TLOG_LO_BLK : Fld := ⟨0, 32⟩
def TTH_TLOG_HI_CODE : Fld := ⟨24, 8⟩
def TTH_TLOG_HI_MASK : Fld := ⟨0, 24⟩
def PWR_CTL_EN : Fld := ⟨31, 1⟩
def PWR_CTL_DIAG_EN : Fld := ⟨30, 1⟩
def PWR_CTL_CLR_FAULT : Fld := ⟨29, 1⟩
def PWR_CTL_DIAG_GO : Fld := ⟨28, 1⟩
def PWR_CFG_RETRY_MAX : Fld := ⟨28, 4⟩
def PWR_CFG_RETRY_DELAY : Fld := ⟨16, 12⟩
def PWR_CFG_DC_THR : Fld := ⟨8, 4⟩
def PWR_CFG_ILIM_HOLD : Fld := ⟨0, 8⟩
def PWR_STS_STATE : Fld := ⟨28, 4⟩
def PWR_STS_TRACE_FROZEN : Fld := ⟨20, 1⟩
def PWR_STS_RETRY_CNT : Fld := ⟨16, 4⟩
def PWR_STS_CLIP : Fld := ⟨8, 1⟩
def PWR_STS_POWER_LIM : Fld := ⟨7, 1⟩
def PWR_STS_ILIM : Fld := ⟨6, 1⟩
def PWR_STS_SHORT : Fld := ⟨5, 1⟩
def PWR_STS_DC : Fld := ⟨4, 1⟩
def PWR_STS_LOAD : Fld := ⟨3, 1⟩
def PWR_STS_THERM : Fld := ⟨2, 1⟩
def PWR_STS_PVDD : Fld := ⟨1, 1⟩
def PWR_STS_LINK : Fld := ⟨0, 1⟩
def PWR_LIM_ST_LIMIT : Fld := ⟨0, 16⟩
def PWR_LIM_LT_LIMIT : Fld := ⟨0, 16⟩
def PWR_LIM_LT_RELEASE : Fld := ⟨24, 8⟩
def PWR_LIM_LT_WINDOW : Fld := ⟨16, 6⟩
def PWR_LIM_STS_LT_OVER : Fld := ⟨17, 1⟩
def PWR_LIM_STS_ST_OVER : Fld := ⟨16, 1⟩
def PWR_LIM_STS_GR : Fld := ⟨0, 9⟩
def PWR_POWER_LT : Fld := ⟨16, 16⟩
def PWR_POWER_ST : Fld := ⟨0, 16⟩
def PWR_DIAG_CFG_R_MAX : Fld := ⟨16, 16⟩
def PWR_DIAG_CFG_R_MIN : Fld := ⟨0, 16⟩
def PWR_DIAG_CLASS : Fld := ⟨30, 2⟩
def PWR_DIAG_R : Fld := ⟨0, 16⟩
def PWR_OFS_TRIM : Fld := ⟨0, 16⟩
def PWR_CNT_TRIPS : Fld := ⟨16, 16⟩
def PWR_CNT_ILIM : Fld := ⟨0, 16⟩
def PWR_PEAK_V : Fld := ⟨16, 16⟩
def PWR_PEAK_I : Fld := ⟨0, 16⟩
def EXT_CFG_EN : Fld := ⟨31, 1⟩
def EXT_CFG_CLR_FAULT : Fld := ⟨30, 1⟩
def EXT_CFG_MODE : Fld := ⟨28, 2⟩
def EXT_CFG_FLT_POL : Fld := ⟨27, 1⟩
def EXT_CFG_RETRY_MAX : Fld := ⟨20, 4⟩
def EXT_CFG_RETRY_DELAY : Fld := ⟨8, 12⟩
def EXT_CFG_FLT_FILT : Fld := ⟨0, 8⟩
def EXT_TIM_MIN_PULSE : Fld := ⟨16, 8⟩
def EXT_TIM_DEAD : Fld := ⟨0, 8⟩
def EXT_STS_STATE : Fld := ⟨28, 4⟩
def EXT_STS_RETRY_CNT : Fld := ⟨16, 4⟩
def EXT_STS_FLT_NOW : Fld := ⟨2, 1⟩
def EXT_STS_CLIP : Fld := ⟨1, 1⟩
def EXT_STS_FAULT : Fld := ⟨0, 1⟩
def PWR_TRACE_V : Fld := ⟨16, 16⟩
def PWR_TRACE_I : Fld := ⟨0, 16⟩
def PWR_GLB_CFG_CNT_CLR : Fld := ⟨31, 1⟩
def PWR_GLB_CFG_CFG_ERR : Fld := ⟨30, 1⟩
def PWR_GLB_CFG_EXT_CARRIER : Fld := ⟨25, 1⟩
def PWR_GLB_CFG_CARRIER : Fld := ⟨24, 1⟩
def PWR_GLB_CFG_PAR : Fld := ⟨16, 4⟩
def PWR_GLB_CFG_FS : Fld := ⟨0, 8⟩
def PWR_THERM_CFG_AUTO : Fld := ⟨31, 1⟩
def PWR_THERM_CFG_FOLD_MAX : Fld := ⟨16, 8⟩
def PWR_PVDD_CFG_OV : Fld := ⟨16, 8⟩
def PWR_PVDD_CFG_UV : Fld := ⟨0, 8⟩
def PWR_PVDD_STS_PVDD1 : Fld := ⟨24, 8⟩
def PWR_PVDD_STS_PVDD0 : Fld := ⟨16, 8⟩
def PWR_PVDD_STS_OV1 : Fld := ⟨3, 1⟩
def PWR_PVDD_STS_UV1 : Fld := ⟨2, 1⟩
def PWR_PVDD_STS_OV0 : Fld := ⟨1, 1⟩
def PWR_PVDD_STS_UV0 : Fld := ⟨0, 1⟩
def PWR_DIE_STS_TEMP : Fld := ⟨16, 16⟩
def PWR_DIE_STS_FOLD_GR : Fld := ⟨8, 8⟩
def PWR_DIE_STS_SHUTDOWN : Fld := ⟨2, 1⟩
def PWR_DIE_STS_FOLDBACK : Fld := ⟨1, 1⟩
def PWR_DIE_STS_WARN : Fld := ⟨0, 1⟩
def PWR_LINK_CNT_UP : Fld := ⟨16, 16⟩
def PWR_LINK_CNT_DOWN : Fld := ⟨0, 16⟩
def ENG_CTL_RUNAHEAD : Fld := ⟨31, 1⟩
def ENG_CTL_SWAP_FADE : Fld := ⟨12, 2⟩
def ENG_CTL_MODE : Fld := ⟨0, 2⟩
def ENG_STS_PHASE : Fld := ⟨24, 2⟩
def ENG_STS_CFG_ERR : Fld := ⟨15, 1⟩
def ENG_STS_LOAD_HIGH : Fld := ⟨14, 1⟩
def ENG_STS_MISS : Fld := ⟨13, 1⟩
def ENG_STS_DOWN : Fld := ⟨12, 1⟩
def ENG_STS_STAGED : Fld := ⟨3, 1⟩
def ENG_STS_MASKED : Fld := ⟨2, 1⟩
def ENG_STS_MODE_ACT : Fld := ⟨0, 2⟩
def ENG_PROG_ID_ID : Fld := ⟨0, 32⟩
def ENG_PROG_BLK_LO_BLK : Fld := ⟨0, 32⟩
def ENG_PROG_BLK_HI_BLK : Fld := ⟨0, 32⟩
def ENG_LOAD_MAX : Fld := ⟨16, 16⟩
def ENG_LOAD_LAST : Fld := ⟨0, 16⟩
def ENG_ADMIT_WARN : Fld := ⟨16, 16⟩
def ENG_ADMIT_CYC : Fld := ⟨0, 16⟩
def ENG_MEM_DRAM_BLK : Fld := ⟨16, 13⟩
def ENG_MEM_SRAM : Fld := ⟨0, 13⟩
def ENG_DRAM_SIZE : Fld := ⟨16, 10⟩
def ENG_DRAM_BASE : Fld := ⟨0, 10⟩
def ENG_QUOTA_STALL_MAX : Fld := ⟨16, 16⟩
def ENG_QUOTA_QUOTA : Fld := ⟨0, 13⟩
def ENG_CNT_SLIP : Fld := ⟨16, 16⟩
def ENG_CNT_MISS : Fld := ⟨0, 16⟩
def ENG_REC_ERR_REASON : Fld := ⟨24, 4⟩
def ENG_REC_ERR_RECORD : Fld := ⟨0, 9⟩
def ENG_GLB_CTL_CNT_CLR : Fld := ⟨0, 1⟩
def ENG_GLB_STS_MISS : Fld := ⟨8, 8⟩
def ENG_GLB_STS_RUN : Fld := ⟨0, 8⟩
def ARB_CFG_CLASS : Fld := ⟨31, 1⟩
def ARB_CFG_STARVE : Fld := ⟨4, 16⟩
def ARB_CFG_WEIGHT : Fld := ⟨0, 4⟩
def ARB_GRANT_GRANTS : Fld := ⟨0, 32⟩
def ARB_WAIT_LO_WAIT : Fld := ⟨0, 32⟩
def ARB_WAIT_HI_LONGEST : Fld := ⟨16, 16⟩
def ARB_WAIT_HI_WAIT : Fld := ⟨0, 16⟩
def ARB_CTL_CLR : Fld := ⟨1, 1⟩
def ARB_CTL_SNAP : Fld := ⟨0, 1⟩
def ARB_STS_MASK : Fld := ⟨16, 12⟩
def ARB_STS_OVR : Fld := ⟨0, 16⟩
def ARB_SNAP_BLK_LO_BLK : Fld := ⟨0, 32⟩
def ARB_SNAP_BLK_HI_BLK : Fld := ⟨0, 32⟩
def LCK_STS_HELD : Fld := ⟨31, 1⟩
def LCK_STS_ABANDONED : Fld := ⟨30, 1⟩
def LCK_STS_OWNER : Fld := ⟨24, 6⟩
def LCK_STS_STATE : Fld := ⟨0, 2⟩
def LCK_LEASE_REMAIN : Fld := ⟨16, 16⟩
def LCK_LEASE_LEASE : Fld := ⟨0, 16⟩
def LCK_ACQ_BLK_LO_BLK : Fld := ⟨0, 32⟩
def LCK_ACQ_BLK_HI_BLK : Fld := ⟨0, 32⟩
def LCK_REL_BLK_LO_BLK : Fld := ⟨0, 32⟩
def LCK_REL_BLK_HI_BLK : Fld := ⟨0, 32⟩
def LCK_STAGED_DATA : Fld := ⟨16, 13⟩
def LCK_STAGED_DESC : Fld := ⟨0, 9⟩
def LCK_CNT_ABANDONS : Fld := ⟨16, 16⟩
def LCK_CNT_COMMITS : Fld := ⟨0, 16⟩
def LCK_GLB_CTL_CNT_CLR : Fld := ⟨31, 1⟩
def LCK_GLB_STS_STAGE_FULL : Fld := ⟨0, 1⟩
def LCK_HELD_LOCKS : Fld := ⟨0, 32⟩
def LCK_ABANDONED_LOCKS : Fld := ⟨0, 32⟩
def LCK_STAGE_DATA : Fld := ⟨16, 16⟩
def LCK_STAGE_DESC : Fld := ⟨0, 12⟩
def LCK_OWNER_RST_GO : Fld := ⟨31, 1⟩
def LCK_OWNER_RST_OWNER : Fld := ⟨0, 6⟩
def LCK_LAST_CAUSE : Fld := ⟨30, 2⟩
def LCK_LAST_LOCK : Fld := ⟨16, 5⟩
def LCK_LAST_OWNER : Fld := ⟨0, 6⟩
def LCK_COMMITS_COUNT : Fld := ⟨0, 32⟩
def LCK_REFUSED_COUNT : Fld := ⟨0, 32⟩
def LCK_FAILED_COUNT : Fld := ⟨0, 32⟩
def MEM_CNT_UNCORR : Fld := ⟨16, 16⟩
def MEM_CNT_CORR : Fld := ⟨0, 16⟩
def MEM_CTL_CNT_CLR : Fld := ⟨31, 1⟩
def MEM_CTL_EVT_CORR : Fld := ⟨0, 1⟩
def MEM_STS_DOWN : Fld := ⟨16, 8⟩
def MEM_STS_STAGE_DOWN : Fld := ⟨7, 1⟩
def MEM_STS_REPAIR_FULL : Fld := ⟨6, 1⟩
def MEM_STS_UNCORR : Fld := ⟨5, 1⟩
def MEM_STS_CORR : Fld := ⟨4, 1⟩
def MEM_STS_WORST : Fld := ⟨0, 2⟩
def MEM_LEVEL_CNT_DEGRADED : Fld := ⟨16, 16⟩
def MEM_LEVEL_CNT_CONTAINED : Fld := ⟨0, 16⟩
def MEM_LAST_LEVEL : Fld := ⟨30, 2⟩
def MEM_LAST_STORE : Fld := ⟨24, 5⟩
def MEM_LAST_KIND : Fld := ⟨16, 3⟩
def MEM_LAST_INDEX : Fld := ⟨0, 16⟩
def MEM_LAST_ADDR_ADDR : Fld := ⟨0, 32⟩
def MEM_LAST_BLK_BLK : Fld := ⟨0, 32⟩
def MEM_SCRUB_CFG_DRAM_EN : Fld := ⟨31, 1⟩
def MEM_SCRUB_CFG_PERIOD : Fld := ⟨0, 11⟩
def MEM_DRAM_CFG_REPAIR_EN : Fld := ⟨8, 1⟩
def MEM_DRAM_CFG_REPAIR_THR : Fld := ⟨0, 8⟩
def MEM_DRAM_REPAIR_FREE : Fld := ⟨16, 16⟩
def MEM_DRAM_REPAIR_USED : Fld := ⟨0, 16⟩
def MEM_LINK_CNT_REPLAY : Fld := ⟨16, 16⟩
def MEM_LINK_CNT_SUBST : Fld := ⟨0, 16⟩
def MEM_LINK_STS_UP : Fld := ⟨31, 1⟩
def MEM_LINK_STS_DOWN : Fld := ⟨0, 16⟩
def MEM_MLINK_CNT_STALE : Fld := ⟨31, 1⟩
def MEM_MLINK_CNT_BAD : Fld := ⟨0, 16⟩
def MEM_RST_CAUSE_CAUSE : Fld := ⟨28, 4⟩
def MEM_RST_CAUSE_COUNT : Fld := ⟨0, 16⟩
def MEM_EVT_DET_SEL_SEQ : Fld := ⟨0, 32⟩
def MEM_EVT_DET_DATA : Fld := ⟨0, 32⟩
def MEM_INJ_GO : Fld := ⟨31, 1⟩
def MEM_INJ_DOUBLE : Fld := ⟨30, 1⟩
def MEM_INJ_STORE : Fld := ⟨24, 5⟩
def JNL_CTL_COMPACT : Fld := ⟨31, 1⟩
def JNL_CTL_CNT_CLR : Fld := ⟨30, 1⟩
def JNL_STS_BUSY : Fld := ⟨31, 1⟩
def JNL_STS_COMPACTING : Fld := ⟨30, 1⟩
def JNL_STS_REGION : Fld := ⟨29, 1⟩
def JNL_STS_DIVERGENT : Fld := ⟨5, 1⟩
def JNL_STS_CRC_ERR : Fld := ⟨4, 1⟩
def JNL_STS_FAIL1 : Fld := ⟨3, 1⟩
def JNL_STS_FAIL0 : Fld := ⟨2, 1⟩
def JNL_STS_TORN : Fld := ⟨1, 1⟩
def JNL_STS_READY : Fld := ⟨0, 1⟩
def JNL_REGION_ACTIVE : Fld := ⟨31, 1⟩
def JNL_REGION_SPARE_ERASED : Fld := ⟨30, 1⟩
def JNL_REGION_RECORDS : Fld := ⟨0, 16⟩
def JNL_FREE_BYTES : Fld := ⟨0, 21⟩
def JNL_EPOCH_EPOCH : Fld := ⟨0, 32⟩
def JNL_CNT_COUNT : Fld := ⟨0, 32⟩
def JNL_CRC_CNT_SKIP : Fld := ⟨16, 16⟩
def JNL_CRC_CNT_CORRUPT : Fld := ⟨0, 16⟩
def JNL_COMPACT_CNT_COUNT : Fld := ⟨0, 32⟩
def JNL_DIV_CNT_COUNT : Fld := ⟨0, 16⟩
def JNL_LAST_KEY_VALUE : Fld := ⟨0, 32⟩
def JNL_LAST_GEN_VALUE : Fld := ⟨0, 32⟩
def JNL_FLASH_STS_OP : Fld := ⟨30, 2⟩
def JNL_FLASH_STS_FAULTS : Fld := ⟨0, 16⟩
def JNL_FENCE_CNT_F_PORT : Fld := ⟨16, 16⟩
def JNL_FENCE_CNT_H_PORT : Fld := ⟨0, 16⟩
def JNL_ERASE_MAX_COUNT : Fld := ⟨0, 32⟩
def JNL_GRP_BLK : Fld := ⟨0, 32⟩
def JNL_DIV_KEY : Fld := ⟨16, 16⟩
def JNL_DIV_VALID : Fld := ⟨15, 1⟩
def TST_SEL_EN : Fld := ⟨31, 1⟩
def TST_SEL_DIV : Fld := ⟨8, 2⟩
def TST_SEL_SIG : Fld := ⟨0, 8⟩
def TST_CTL_CNT_CLR : Fld := ⟨31, 1⟩
def TST_CTL_ATP_BUF : Fld := ⟨0, 1⟩
def TST_STS_MEXCL : Fld := ⟨31, 1⟩
def TST_STS_TESTEN : Fld := ⟨30, 1⟩
def TST_STS_ACTIVE : Fld := ⟨16, 3⟩
def TST_STS_DENIED : Fld := ⟨0, 3⟩
def TST_REFUSED_COUNT : Fld := ⟨0, 16⟩
def TST_JTAG_ACCESS : Fld := ⟨31, 1⟩
def TST_JTAG_IR : Fld := ⟨16, 8⟩
def TST_JTAG_REGWIN : Fld := ⟨0, 16⟩
def TST_IDCODE_ID : Fld := ⟨0, 32⟩
def TST_AVAIL_SIG : Fld := ⟨0, 32⟩
def TST_KIND_SIG : Fld := ⟨0, 32⟩
def MLK_STS_STALE : Fld := ⟨31, 1⟩
def MLK_STS_SEALED : Fld := ⟨30, 1⟩
def MLK_STS_LEGAL_OK : Fld := ⟨29, 1⟩
def MLK_STS_REASON : Fld := ⟨26, 3⟩
def MLK_STS_LOG_FULL : Fld := ⟨25, 1⟩
def MLK_STS_MEASURING : Fld := ⟨24, 1⟩
def MLK_STS_VER_EN : Fld := ⟨23, 1⟩
def MLK_STS_OVERLOAD : Fld := ⟨22, 1⟩
def MLK_LAEQ_SECOND : Fld := ⟨16, 16⟩
def MLK_LAEQ_LAEQ : Fld := ⟨0, 16⟩
def MLK_SEQ_NEW_SEQ : Fld := ⟨0, 32⟩
def MLK_SEQ_OLD_SEQ : Fld := ⟨0, 32⟩
def MLK_SEQ_ACK_SEQ : Fld := ⟨0, 32⟩
def MLK_CAL_SLOT_WRITTEN : Fld := ⟨16, 8⟩
def MLK_CAL_SLOT_CORR : Fld := ⟨0, 16⟩
def MLK_SENS_SENS : Fld := ⟨0, 32⟩
def MLK_SETTINGS_FWD_EN : Fld := ⟨1, 1⟩
def MLK_SETTINGS_BAUD : Fld := ⟨0, 1⟩
def MLK_HEAD_HASH : Fld := ⟨0, 32⟩
def MLK_LIM_CFG_EN : Fld := ⟨31, 1⟩
def MLK_LIM_CFG_WINDOW : Fld := ⟨0, 10⟩
def MLK_LIM_TGT_HYST : Fld := ⟨16, 8⟩
def MLK_LIM_TGT_TARGET : Fld := ⟨0, 16⟩
def MLK_LIM_RATE_MAX_GR : Fld := ⟨24, 8⟩
def MLK_LIM_RATE_RELEASE : Fld := ⟨8, 8⟩
def MLK_LIM_RATE_ATTACK : Fld := ⟨0, 8⟩
def MLK_LIM_MASK_SINKS : Fld := ⟨0, 22⟩
def MLK_LIM_STS_LEQ : Fld := ⟨16, 16⟩
def MLK_LIM_STS_GR : Fld := ⟨0, 9⟩
def MLK_CNT_REFUSED : Fld := ⟨16, 16⟩
def MLK_CNT_LOST : Fld := ⟨0, 16⟩
def MLK_ROM_VERSION : Fld := ⟨16, 16⟩
def MLK_ROM_CRC : Fld := ⟨0, 16⟩
def MLK_LAST_SEC_BLK : Fld := ⟨0, 32⟩
def CAL_TIME_LO_TIME : Fld := ⟨0, 32⟩
def CAL_TIME_HI_TIME : Fld := ⟨0, 16⟩
def CAL_ARR_LO_ARR : Fld := ⟨0, 32⟩
def CAL_ARR_HI_ARR : Fld := ⟨0, 32⟩
def CAL_DATE_WEEKDAY : Fld := ⟨24, 3⟩
def CAL_DATE_YEAR : Fld := ⟨16, 8⟩
def CAL_DATE_MONTH : Fld := ⟨8, 4⟩
def CAL_DATE_DAY : Fld := ⟨0, 5⟩
def CAL_CLOCK_HOUR : Fld := ⟨16, 5⟩
def CAL_CLOCK_MIN : Fld := ⟨8, 6⟩
def CAL_CLOCK_SEC : Fld := ⟨0, 6⟩
def CAL_STS_ON_VBAK : Fld := ⟨2, 1⟩
def CAL_STS_LOST : Fld := ⟨1, 1⟩
def CAL_STS_VALID : Fld := ⟨0, 1⟩
def CAL_TRIM_TC : Fld := ⟨16, 16⟩
def CAL_TRIM_TRIM : Fld := ⟨0, 16⟩
def CAL_ADJ_CNT_COUNT : Fld := ⟨0, 16⟩
def CAL_ADJ_OLD_LO_TIME : Fld := ⟨0, 32⟩
def CAL_ADJ_OLD_HI_TIME : Fld := ⟨0, 16⟩
def CAL_ADJ_NEW_LO_TIME : Fld := ⟨0, 32⟩
def CAL_ADJ_NEW_HI_TIME : Fld := ⟨0, 16⟩
def CAL_VBAK_MV : Fld := ⟨0, 12⟩
def CAL_TEMP_TEMP : Fld := ⟨0, 16⟩
def CAL_OSC_ERR : Fld := ⟨0, 20⟩

end F

/-- The registers of the page that starts at 0x00000. -/
def regTableGLB : List RegDef := [
  ⟨R.GLB_ID, 0, 1, 0, 1, [⟨F.GLB_ID_PART, .ro, 34624⟩, ⟨F.GLB_ID_STEP, .ro, 161⟩]⟩,
  ⟨R.GLB_ORDER, 0, 1, 0, 1, [⟨F.GLB_ORDER_METRO, .ro, 0⟩, ⟨F.GLB_ORDER_GRADE, .ro, 0⟩, ⟨F.GLB_ORDER_CODE, .ro, 0⟩]⟩,
  ⟨R.GLB_DIE_ID_LO, 0, 1, 0, 1, [⟨F.GLB_DIE_ID_LO_ID, .ro, 0⟩]⟩,
  ⟨R.GLB_DIE_ID_HI, 0, 1, 0, 1, [⟨F.GLB_DIE_ID_HI_ID, .ro, 0⟩]⟩,
  ⟨R.GLB_ROM_VER, 0, 1, 0, 1, [⟨F.GLB_ROM_VER_HUB_ROM, .ro, 0⟩, ⟨F.GLB_ROM_VER_F_FUSE, .ro, 0⟩]⟩,
  ⟨R.GLB_FW_VER, 0, 1, 0, 1, [⟨F.GLB_FW_VER_VERSION, .ro, 0⟩]⟩,
  ⟨R.GLB_CTL, 0, 1, 0, 1, [⟨F.GLB_CTL_CNT_CLR, .wo, 0⟩, ⟨F.GLB_CTL_REFRESH, .wo, 0⟩]⟩,
  ⟨R.GLB_STS, 0, 1, 0, 1, [⟨F.GLB_STS_LINK_DROP, .w1c, 0⟩, ⟨F.GLB_STS_HOLD_OVF, .w1c, 0⟩, ⟨F.GLB_STS_PARTIAL, .w1c, 0⟩, ⟨F.GLB_STS_UNMAPPED, .w1c, 0⟩, ⟨F.GLB_STS_SEALED, .ro, 0⟩]⟩,
  ⟨R.GLB_COMMIT_CTL, 0, 1, 0, 1, [⟨F.GLB_COMMIT_CTL_HOLD, .rw, 0⟩]⟩,
  ⟨R.GLB_COMMIT_STS, 0, 1, 0, 1, [⟨F.GLB_COMMIT_STS_PENDING, .ro, 0⟩, ⟨F.GLB_COMMIT_STS_HELD, .ro, 0⟩]⟩,
  ⟨R.GLB_COMMIT_BLK_LO, 0, 1, 0, 1, [⟨F.GLB_COMMIT_BLK_LO_BLK, .ro, 0⟩]⟩,
  ⟨R.GLB_COMMIT_BLK_HI, 0, 1, 0, 1, [⟨F.GLB_COMMIT_BLK_HI_BLK, .ro, 0⟩]⟩,
  ⟨R.GLB_ACC_ERR_ADDR, 0, 1, 0, 1, [⟨F.GLB_ACC_ERR_ADDR_ADDR, .ro, 0⟩]⟩,
  ⟨R.GLB_ACC_ERR, 0, 1, 0, 1, [⟨F.GLB_ACC_ERR_COUNT, .ro, 0⟩, ⟨F.GLB_ACC_ERR_AGENT, .ro, 0⟩, ⟨F.GLB_ACC_ERR_KIND, .ro, 0⟩]⟩,
  ⟨R.GLB_MIRROR_BLK, 0, 1, 0, 1, [⟨F.GLB_MIRROR_BLK_BLK, .ro, 0⟩]⟩,
  ⟨R.GLB_MIRROR_STS, 0, 1, 0, 1, [⟨F.GLB_MIRROR_STS_REFRESHING, .ro, 0⟩, ⟨F.GLB_MIRROR_STS_M, .ro, 0⟩, ⟨F.GLB_MIRROR_STS_P1, .ro, 0⟩, ⟨F.GLB_MIRROR_STS_P0, .ro, 0⟩, ⟨F.GLB_MIRROR_STS_F, .ro, 0⟩]⟩,
  ⟨R.GLB_SCRATCH 0, 4, 16, 0, 1, [⟨F.GLB_SCRATCH_DATA, .rw, 0⟩]⟩,
  ⟨R.GLB_FUSE 0, 4, 16, 0, 1, []⟩]

/-- The registers of the page that starts at 0x01000. -/
def regTableCLK : List RegDef := [
  ⟨R.CLK_MODE_CTL, 0, 1, 0, 1, [⟨F.CLK_MODE_CTL_LISTEN_PARK, .rw, 1⟩, ⟨F.CLK_MODE_CTL_QUIET_DRAM_SR, .rw, 1⟩, ⟨F.CLK_MODE_CTL_QUIET_PCIE_L1, .rw, 1⟩]⟩,
  ⟨R.CLK_MODE_STS, 0, 1, 0, 1, [⟨F.CLK_MODE_STS_MODE, .ro, 0⟩, ⟨F.CLK_MODE_STS_TRANS, .ro, 0⟩, ⟨F.CLK_MODE_STS_OUT_READY, .ro, 0⟩]⟩,
  ⟨R.CLK_WAKE_CFG, 0, 1, 0, 1, [⟨F.CLK_WAKE_CFG_PRIO_WAKE, .rw, 1⟩, ⟨F.CLK_WAKE_CFG_GPIO_POL, .rw, 0⟩, ⟨F.CLK_WAKE_CFG_GPIO_EN, .rw, 0⟩]⟩,
  ⟨R.CLK_WAKE_STS, 0, 1, 0, 1, [⟨F.CLK_WAKE_STS_SRC, .ro, 0⟩, ⟨F.CLK_WAKE_STS_GPIO, .ro, 0⟩]⟩,
  ⟨R.CLK_SUPPLY_STS, 0, 1, 0, 1, [⟨F.CLK_SUPPLY_STS_VSYS, .ro, 0⟩, ⟨F.CLK_SUPPLY_STS_VIO, .ro, 0⟩, ⟨F.CLK_SUPPLY_STS_VBAK_OK, .ro, 0⟩, ⟨F.CLK_SUPPLY_STS_VIO_OK, .ro, 0⟩, ⟨F.CLK_SUPPLY_STS_VSYS_OK, .ro, 0⟩]⟩,
  ⟨R.CLK_SYSPLL_STS, 0, 1, 0, 1, [⟨F.CLK_SYSPLL_STS_LOSS, .ro, 0⟩, ⟨F.CLK_SYSPLL_STS_XTAL_OK, .ro, 0⟩, ⟨F.CLK_SYSPLL_STS_LOCK, .ro, 0⟩]⟩,
  ⟨R.CLK_BOOT_STS, 0, 1, 0, 1, [⟨F.CLK_BOOT_STS_IMG, .ro, 0⟩, ⟨F.CLK_BOOT_STS_FALLBACK, .ro, 0⟩, ⟨F.CLK_BOOT_STS_REASON_A, .ro, 0⟩, ⟨F.CLK_BOOT_STS_REASON_B, .ro, 0⟩, ⟨F.CLK_BOOT_STS_JNL_DONE, .ro, 0⟩, ⟨F.CLK_BOOT_STS_BOOT_MS, .ro, 0⟩]⟩,
  ⟨R.CLK_BOOTSEAL, 0, 1, 0, 1, [⟨F.CLK_BOOTSEAL_SEAL, .rwb, 0⟩]⟩,
  ⟨R.CLK_PROT_VIOL, 0, 1, 0, 1, [⟨F.CLK_PROT_VIOL_COUNT, .ro, 0⟩, ⟨F.CLK_PROT_VIOL_AGENT, .ro, 0⟩, ⟨F.CLK_PROT_VIOL_KIND, .ro, 0⟩]⟩,
  ⟨R.CLK_PROT_ADDR, 0, 1, 0, 1, [⟨F.CLK_PROT_ADDR_ADDR, .ro, 0⟩]⟩,
  ⟨R.CLK_HIST_HEAD, 0, 1, 0, 1, [⟨F.CLK_HIST_HEAD_COUNT, .ro, 0⟩, ⟨F.CLK_HIST_HEAD_NEXT, .ro, 0⟩]⟩,
  ⟨R.CLK_MODE_CNT, 0, 1, 0, 1, [⟨F.CLK_MODE_CNT_LISTEN, .ro, 0⟩, ⟨F.CLK_MODE_CNT_CANCEL, .ro, 0⟩]⟩,
  ⟨R.CLK_RECOVERY, 0, 1, 0, 1, [⟨F.CLK_RECOVERY_GO, .wo, 0⟩, ⟨F.CLK_RECOVERY_BUSY, .ro, 0⟩, ⟨F.CLK_RECOVERY_ERR, .w1c, 0⟩, ⟨F.CLK_RECOVERY_OFFSET, .rw, 0⟩]⟩,
  ⟨R.CLK_MODE_TIME, 0, 1, 0, 1, [⟨F.CLK_MODE_TIME_US, .ro, 0⟩]⟩,
  ⟨R.CLK_RAIL 0, 4, 16, 0, 1, [⟨F.CLK_RAIL_ON, .ro, 0⟩, ⟨F.CLK_RAIL_PG, .ro, 0⟩, ⟨F.CLK_RAIL_FAULT, .w1c, 0⟩, ⟨F.CLK_RAIL_MV, .ro, 0⟩]⟩,
  ⟨R.CLK_APLL_CFG, 0, 1, 0, 1, [⟨F.CLK_APLL_CFG_MCLK_OUT_DIV, .rw, 0⟩, ⟨F.CLK_APLL_CFG_MCLK_OUT_EN, .rw, 0⟩, ⟨F.CLK_APLL_CFG_MCLK_IN_FREQ, .rws, 1⟩, ⟨F.CLK_APLL_CFG_SAP_SEL, .rws, 0⟩, ⟨F.CLK_APLL_CFG_REF, .rws, 3⟩]⟩,
  ⟨R.CLK_APLL_STS, 0, 1, 0, 1, [⟨F.CLK_APLL_STS_FREQ_ERR, .ro, 0⟩, ⟨F.CLK_APLL_STS_SLEWING, .ro, 0⟩, ⟨F.CLK_APLL_STS_REF_ERR, .w1c, 0⟩, ⟨F.CLK_APLL_STS_HOLDOVER, .ro, 0⟩, ⟨F.CLK_APLL_STS_LOCK, .ro, 0⟩]⟩,
  ⟨R.CLK_HIST_LO 0, 8, 64, 0, 1, [⟨F.CLK_HIST_LO_BLK, .ro, 0⟩]⟩,
  ⟨R.CLK_HIST_HI 0, 8, 64, 0, 1, [⟨F.CLK_HIST_HI_FROM, .ro, 0⟩, ⟨F.CLK_HIST_HI_TO, .ro, 0⟩, ⟨F.CLK_HIST_HI_CAUSE, .ro, 0⟩, ⟨F.CLK_HIST_HI_DUR, .ro, 0⟩]⟩]

/-- The registers of the page that starts at 0x02000. -/
def regTableHIF : List RegDef := [
  ⟨R.HIF_RING_BASE_LO 0, 32, 16, 0, 1, [⟨F.HIF_RING_BASE_LO_BASE, .rw, 0⟩]⟩,
  ⟨R.HIF_RING_BASE_HI 0, 32, 16, 0, 1, [⟨F.HIF_RING_BASE_HI_BASE, .rw, 0⟩]⟩,
  ⟨R.HIF_RING_CFG 0, 32, 16, 0, 1, [⟨F.HIF_RING_CFG_LOCAL, .rw, 0⟩, ⟨F.HIF_RING_CFG_VEC, .rw, 0⟩, ⟨F.HIF_RING_CFG_LOG2_SIZE, .rw, 8⟩, ⟨F.HIF_RING_CFG_LOG2_ESIZE, .rw, 0⟩]⟩,
  ⟨R.HIF_RING_CTL 0, 32, 16, 0, 1, [⟨F.HIF_RING_CTL_EN, .rw, 0⟩, ⟨F.HIF_RING_CTL_ABORT, .rw, 0⟩]⟩,
  ⟨R.HIF_RING_STS 0, 32, 16, 0, 1, [⟨F.HIF_RING_STS_STATE, .ro, 0⟩, ⟨F.HIF_RING_STS_HELD, .ro, 0⟩, ⟨F.HIF_RING_STS_FULL, .ro, 0⟩, ⟨F.HIF_RING_STS_DMA_ERR, .w1c, 0⟩, ⟨F.HIF_RING_STS_OVERRUN, .w1c, 0⟩, ⟨F.HIF_RING_STS_DB_ERR, .w1c, 0⟩, ⟨F.HIF_RING_STS_CFG_ERR, .w1c, 0⟩]⟩,
  ⟨R.HIF_RING_IDX 0, 32, 16, 0, 1, [⟨F.HIF_RING_IDX_TAIL, .ro, 0⟩, ⟨F.HIF_RING_IDX_HEAD, .ro, 0⟩]⟩,
  ⟨R.HIF_RING_CHAN 0, 32, 16, 0, 1, [⟨F.HIF_RING_CHAN_COUNT, .rw, 16⟩, ⟨F.HIF_RING_CHAN_FIRST, .rw, 0⟩]⟩,
  ⟨R.HIF_RING_CNT 0, 32, 16, 0, 1, [⟨F.HIF_RING_CNT_DROP, .ro, 0⟩, ⟨F.HIF_RING_CNT_MISS, .ro, 0⟩]⟩,
  ⟨R.HIF_VEC_CFG 0, 16, 16, 0, 1, [⟨F.HIF_VEC_CFG_ALERT_EN, .rw, 0⟩, ⟨F.HIF_VEC_CFG_MAX_TIME, .rw, 100⟩, ⟨F.HIF_VEC_CFG_MAX_CNT, .rw, 1⟩]⟩,
  ⟨R.HIF_VEC_STS 0, 16, 16, 0, 1, [⟨F.HIF_VEC_STS_ARMED, .ro, 1⟩, ⟨F.HIF_VEC_STS_PENDING, .ro, 0⟩, ⟨F.HIF_VEC_STS_COUNT, .ro, 0⟩]⟩,
  ⟨R.HIF_VEC_CNT 0, 16, 16, 0, 1, [⟨F.HIF_VEC_CNT_FIRED, .ro, 0⟩]⟩,
  ⟨R.HIF_GLB_CTL, 0, 1, 0, 1, [⟨F.HIF_GLB_CTL_CNT_CLR, .wo, 0⟩, ⟨F.HIF_GLB_CTL_TRACE_EVT, .rw, 0⟩]⟩,
  ⟨R.HIF_GLB_STS, 0, 1, 0, 1, [⟨F.HIF_GLB_STS_SPI_FRAME, .w1c, 0⟩, ⟨F.HIF_GLB_STS_SPI_ADDR, .w1c, 0⟩, ⟨F.HIF_GLB_STS_SB_ERR, .w1c, 0⟩]⟩,
  ⟨R.HIF_SB_LO, 0, 1, 0, 1, [⟨F.HIF_SB_LO_ADDR, .rw, 0⟩, ⟨F.HIF_SB_LO_LOCAL, .rw, 0⟩, ⟨F.HIF_SB_LO_EN, .rw, 0⟩]⟩,
  ⟨R.HIF_SB_HI, 0, 1, 0, 1, [⟨F.HIF_SB_HI_ADDR, .rw, 0⟩]⟩,
  ⟨R.HIF_SB_SEQ, 0, 1, 0, 1, [⟨F.HIF_SB_SEQ_SEQ, .ro, 0⟩]⟩,
  ⟨R.HIF_EVT_SEQ, 0, 1, 0, 1, [⟨F.HIF_EVT_SEQ_SEQ, .ro, 0⟩]⟩,
  ⟨R.HIF_CMD_SEQ, 0, 1, 0, 1, [⟨F.HIF_CMD_SEQ_SEQ, .ro, 0⟩]⟩,
  ⟨R.HIF_MCMD_SEQ, 0, 1, 0, 1, [⟨F.HIF_MCMD_SEQ_SEQ, .ro, 0⟩]⟩,
  ⟨R.HIF_PCIE_STS, 0, 1, 0, 1, [⟨F.HIF_PCIE_STS_FLR, .w1c, 0⟩, ⟨F.HIF_PCIE_STS_MSIX_EN, .ro, 0⟩, ⟨F.HIF_PCIE_STS_BME, .ro, 0⟩, ⟨F.HIF_PCIE_STS_LINK, .ro, 0⟩]⟩,
  ⟨R.HIF_PCIE_ERR, 0, 1, 0, 1, [⟨F.HIF_PCIE_ERR_DMA, .ro, 0⟩, ⟨F.HIF_PCIE_ERR_LINK_DOWN, .ro, 0⟩]⟩,
  ⟨R.HIF_SPI_CFG, 0, 1, 0, 1, [⟨F.HIF_SPI_CFG_DUMMY, .rw, 2⟩]⟩,
  ⟨R.HIF_SMB_CFG, 0, 1, 0, 1, [⟨F.HIF_SMB_CFG_EN, .rw, 1⟩, ⟨F.HIF_SMB_CFG_PEC_EN, .rw, 0⟩, ⟨F.HIF_SMB_CFG_ADDR, .rw, 76⟩]⟩,
  ⟨R.HIF_SMB_STS, 0, 1, 0, 1, [⟨F.HIF_SMB_STS_PEC_ERR, .w1c, 0⟩, ⟨F.HIF_SMB_STS_NACKED, .w1c, 0⟩, ⟨F.HIF_SMB_STS_BUSY, .ro, 0⟩]⟩,
  ⟨R.HIF_ALERT, 0, 1, 0, 1, [⟨F.HIF_ALERT_LEVEL, .ro, 0⟩, ⟨F.HIF_ALERT_FIRED, .ro, 0⟩]⟩,
  ⟨R.HIF_TRACE_CNT, 0, 1, 0, 1, [⟨F.HIF_TRACE_CNT_METER_DROP, .ro, 0⟩, ⟨F.HIF_TRACE_CNT_EVT_DROP, .ro, 0⟩]⟩,
  ⟨R.HIF_DESC_CNT, 0, 1, 0, 1, [⟨F.HIF_DESC_CNT_LOST, .ro, 0⟩, ⟨F.HIF_DESC_CNT_BAD, .ro, 0⟩]⟩]

/-- The registers of the page that starts at 0x03000. -/
def regTablePROT : List RegDef := [
  ⟨R.PROT_RD 0 0, 32, 24, 4, 4, [⟨F.PROT_RD_PAGES, .rwb, 0⟩]⟩,
  ⟨R.PROT_WR 0 0, 32, 24, 4, 4, [⟨F.PROT_WR_PAGES, .rwb, 0⟩]⟩,
  ⟨R.PROT_AGENT 0, 4, 24, 0, 1, [⟨F.PROT_AGENT_INJ, .rwb, 0⟩, ⟨F.PROT_AGENT_TST, .rwb, 0⟩, ⟨F.PROT_AGENT_JTAG, .rwb, 0⟩, ⟨F.PROT_AGENT_OPC, .rwb, 0⟩]⟩,
  ⟨R.PROT_TMUX_EN 0 0, 32, 3, 4, 8, [⟨F.PROT_TMUX_EN_SIG, .rwb, 0⟩]⟩,
  ⟨R.PROT_MSIG 0, 4, 8, 0, 1, [⟨F.PROT_MSIG_EXCL, .rwb, 0⟩]⟩,
  ⟨R.PROT_FLASH_WP 0, 4, 8, 0, 1, [⟨F.PROT_FLASH_WP_UNIT, .rwb, 0⟩]⟩]

/-- The registers of the page that starts at 0x04000. -/
def regTableNET : List RegDef := [
  ⟨R.NET_LS_ID_LO 0, 64, 16, 0, 1, [⟨F.NET_LS_ID_LO_ID, .rw, 0⟩]⟩,
  ⟨R.NET_LS_ID_HI 0, 64, 16, 0, 1, [⟨F.NET_LS_ID_HI_ID, .rw, 0⟩]⟩,
  ⟨R.NET_LS_DMAC_LO 0, 64, 16, 0, 1, [⟨F.NET_LS_DMAC_LO_DMAC, .rw, 0⟩]⟩,
  ⟨R.NET_LS_DMAC_HI 0, 64, 16, 0, 1, [⟨F.NET_LS_DMAC_HI_PCP, .rw, 3⟩, ⟨F.NET_LS_DMAC_HI_VID, .rw, 2⟩, ⟨F.NET_LS_DMAC_HI_DMAC, .rw, 0⟩]⟩,
  ⟨R.NET_LS_CFG 0, 64, 16, 0, 1, [⟨F.NET_LS_CFG_EN, .rw, 0⟩, ⟨F.NET_LS_CFG_CLASS, .rw, 0⟩, ⟨F.NET_LS_CFG_NSR, .rw, 0⟩, ⟨F.NET_LS_CFG_CHANS, .rw, 8⟩]⟩,
  ⟨R.NET_LS_OFS 0, 64, 16, 0, 1, [⟨F.NET_LS_OFS_OFS, .ro, 0⟩]⟩,
  ⟨R.NET_LS_STS 0, 64, 16, 0, 1, [⟨F.NET_LS_STS_CFG_ERR, .w1c, 0⟩, ⟨F.NET_LS_STS_LATE, .w1c, 0⟩, ⟨F.NET_LS_STS_SEQ_ERR, .w1c, 0⟩, ⟨F.NET_LS_STS_FMT_ERR, .w1c, 0⟩, ⟨F.NET_LS_STS_LOST, .w1c, 0⟩, ⟨F.NET_LS_STS_SYNC, .ro, 0⟩, ⟨F.NET_LS_STS_ACTIVE, .ro, 0⟩]⟩,
  ⟨R.NET_LS_FRAMES 0, 64, 16, 0, 1, [⟨F.NET_LS_FRAMES_COUNT, .ro, 0⟩]⟩,
  ⟨R.NET_LS_ERR 0, 64, 16, 0, 1, [⟨F.NET_LS_ERR_SEQ, .ro, 0⟩, ⟨F.NET_LS_ERR_LATE, .ro, 0⟩]⟩,
  ⟨R.NET_LS_TS 0, 64, 16, 0, 1, [⟨F.NET_LS_TS_TS, .ro, 0⟩]⟩,
  ⟨R.NET_TK_ID_LO 0, 64, 16, 0, 1, [⟨F.NET_TK_ID_LO_ID, .rw, 0⟩]⟩,
  ⟨R.NET_TK_ID_HI 0, 64, 16, 0, 1, [⟨F.NET_TK_ID_HI_ID, .rw, 0⟩]⟩,
  ⟨R.NET_TK_DMAC_LO 0, 64, 16, 0, 1, [⟨F.NET_TK_DMAC_LO_DMAC, .rw, 0⟩]⟩,
  ⟨R.NET_TK_DMAC_HI 0, 64, 16, 0, 1, [⟨F.NET_TK_DMAC_HI_PCP, .rw, 3⟩, ⟨F.NET_TK_DMAC_HI_VID, .rw, 2⟩, ⟨F.NET_TK_DMAC_HI_DMAC, .rw, 0⟩]⟩,
  ⟨R.NET_TK_CFG 0, 64, 16, 0, 1, [⟨F.NET_TK_CFG_EN, .rw, 0⟩, ⟨F.NET_TK_CFG_CLASS, .rw, 0⟩, ⟨F.NET_TK_CFG_NSR, .rw, 0⟩, ⟨F.NET_TK_CFG_CHANS, .rw, 8⟩]⟩,
  ⟨R.NET_TK_OFS 0, 64, 16, 0, 1, [⟨F.NET_TK_OFS_OFS, .rw, 2000000⟩]⟩,
  ⟨R.NET_TK_STS 0, 64, 16, 0, 1, [⟨F.NET_TK_STS_CFG_ERR, .w1c, 0⟩, ⟨F.NET_TK_STS_LATE, .w1c, 0⟩, ⟨F.NET_TK_STS_SEQ_ERR, .w1c, 0⟩, ⟨F.NET_TK_STS_FMT_ERR, .w1c, 0⟩, ⟨F.NET_TK_STS_LOST, .w1c, 0⟩, ⟨F.NET_TK_STS_SYNC, .ro, 0⟩, ⟨F.NET_TK_STS_ACTIVE, .ro, 0⟩]⟩,
  ⟨R.NET_TK_FRAMES 0, 64, 16, 0, 1, [⟨F.NET_TK_FRAMES_COUNT, .ro, 0⟩]⟩,
  ⟨R.NET_TK_ERR 0, 64, 16, 0, 1, [⟨F.NET_TK_ERR_SEQ, .ro, 0⟩, ⟨F.NET_TK_ERR_DROP, .ro, 0⟩]⟩,
  ⟨R.NET_TK_TS 0, 64, 16, 0, 1, [⟨F.NET_TK_TS_TS, .ro, 0⟩]⟩,
  ⟨R.NET_FDB_LO 0, 8, 128, 0, 1, [⟨F.NET_FDB_LO_MAC, .rw, 0⟩]⟩,
  ⟨R.NET_FDB_HI 0, 8, 128, 0, 1, [⟨F.NET_FDB_HI_VALID, .rw, 0⟩, ⟨F.NET_FDB_HI_PORTS, .rw, 0⟩, ⟨F.NET_FDB_HI_MAC, .rw, 0⟩]⟩,
  ⟨R.NET_PORT_CFG 0, 64, 3, 0, 1, [⟨F.NET_PORT_CFG_EN, .rw, 1⟩, ⟨F.NET_PORT_CFG_AN_EN, .rw, 1⟩, ⟨F.NET_PORT_CFG_LEARN, .rw, 1⟩, ⟨F.NET_PORT_CFG_PTP_EN, .rw, 1⟩, ⟨F.NET_PORT_CFG_PVID, .rw, 2⟩]⟩,
  ⟨R.NET_PORT_STS 0, 64, 3, 0, 1, [⟨F.NET_PORT_STS_LINK_CHG, .w1c, 0⟩, ⟨F.NET_PORT_STS_AN_DONE, .ro, 0⟩, ⟨F.NET_PORT_STS_LINK, .ro, 0⟩]⟩,
  ⟨R.NET_PORT_SHP_A 0, 64, 3, 0, 1, [⟨F.NET_PORT_SHP_A_EN, .rw, 0⟩, ⟨F.NET_PORT_SHP_A_IDLE, .rw, 0⟩]⟩,
  ⟨R.NET_PORT_SHP_B 0, 64, 3, 0, 1, [⟨F.NET_PORT_SHP_B_EN, .rw, 0⟩, ⟨F.NET_PORT_SHP_B_IDLE, .rw, 0⟩]⟩,
  ⟨R.NET_PORT_CNT 0 0, 64, 3, 4, 8, [⟨F.NET_PORT_CNT_COUNT, .ro, 0⟩]⟩,
  ⟨R.NET_GLB_CTL, 0, 1, 0, 1, [⟨F.NET_GLB_CTL_CNT_CLR, .wo, 0⟩]⟩,
  ⟨R.NET_GLB_STS, 0, 1, 0, 1, [⟨F.NET_GLB_STS_CFG_ERR, .w1c, 0⟩]⟩,
  ⟨R.NET_MAC_LO, 0, 1, 0, 1, [⟨F.NET_MAC_LO_MAC, .rw, 0⟩]⟩,
  ⟨R.NET_MAC_HI, 0, 1, 0, 1, [⟨F.NET_MAC_HI_MAC, .rw, 0⟩]⟩,
  ⟨R.NET_MDIO_CTL, 0, 1, 0, 1, [⟨F.NET_MDIO_CTL_GO, .wo, 0⟩, ⟨F.NET_MDIO_CTL_READ, .rw, 0⟩, ⟨F.NET_MDIO_CTL_PHY, .rw, 0⟩, ⟨F.NET_MDIO_CTL_REG, .rw, 0⟩, ⟨F.NET_MDIO_CTL_BUSY, .ro, 0⟩]⟩,
  ⟨R.NET_MDIO_DATA, 0, 1, 0, 1, [⟨F.NET_MDIO_DATA_DATA, .rw, 0⟩]⟩,
  ⟨R.NET_ZV_CFG, 0, 1, 0, 1, [⟨F.NET_ZV_CFG_EN, .rw, 1⟩, ⟨F.NET_ZV_CFG_OPEN_DISC, .rw, 1⟩, ⟨F.NET_ZV_CFG_LEVEL_EN, .rw, 0⟩, ⟨F.NET_ZV_CFG_ETYPE, .rw, 34997⟩]⟩,
  ⟨R.NET_ZV_ADDR, 0, 1, 0, 1, [⟨F.NET_ZV_ADDR_CONFLICT, .w1c, 0⟩, ⟨F.NET_ZV_ADDR_ADDR, .rw, 65535⟩]⟩,
  ⟨R.NET_ZV_CNT, 0, 1, 0, 1, [⟨F.NET_ZV_CNT_REJECTED, .ro, 0⟩, ⟨F.NET_ZV_CNT_DUP, .ro, 0⟩]⟩,
  ⟨R.NET_ZV_MCAST_LO, 0, 1, 0, 1, [⟨F.NET_ZV_MCAST_LO_MAC, .rw, 1207959552⟩]⟩,
  ⟨R.NET_ZV_MCAST_HI, 0, 1, 0, 1, [⟨F.NET_ZV_MCAST_HI_MAC, .rw, 858⟩]⟩,
  ⟨R.NET_ZV_HEALTH, 0, 1, 0, 1, [⟨F.NET_ZV_HEALTH_PERIOD, .rw, 0⟩]⟩,
  ⟨R.NET_ZV_CTRL_LO 0, 8, 8, 0, 1, [⟨F.NET_ZV_CTRL_LO_MAC, .rw, 0⟩]⟩,
  ⟨R.NET_ZV_CTRL_HI 0, 8, 8, 0, 1, [⟨F.NET_ZV_CTRL_HI_VALID, .rw, 0⟩, ⟨F.NET_ZV_CTRL_HI_MGMT, .rw, 0⟩, ⟨F.NET_ZV_CTRL_HI_PRIO, .rw, 0⟩, ⟨F.NET_ZV_CTRL_HI_REPORT, .rw, 0⟩, ⟨F.NET_ZV_CTRL_HI_MAC, .rw, 0⟩]⟩]

/-- The registers of the page that starts at 0x05000. -/
def regTableARR : List RegDef := [
  ⟨R.ARR_TIME_LO, 0, 1, 0, 1, [⟨F.ARR_TIME_LO_VALUE, .ro, 0⟩]⟩,
  ⟨R.ARR_TIME_HI, 0, 1, 0, 1, [⟨F.ARR_TIME_HI_VALUE, .ro, 0⟩]⟩,
  ⟨R.ARR_BLK_LO, 0, 1, 0, 1, [⟨F.ARR_BLK_LO_VALUE, .ro, 0⟩]⟩,
  ⟨R.ARR_BLK_HI, 0, 1, 0, 1, [⟨F.ARR_BLK_HI_VALUE, .ro, 0⟩]⟩,
  ⟨R.ARR_PTP_CFG, 0, 1, 0, 1, [⟨F.ARR_PTP_CFG_EN, .rw, 1⟩, ⟨F.ARR_PTP_CFG_PRIO1, .rw, 248⟩, ⟨F.ARR_PTP_CFG_PRIO2, .rw, 248⟩, ⟨F.ARR_PTP_CFG_SYNC_INTV, .rw, 0⟩]⟩,
  ⟨R.ARR_PTP_STS, 0, 1, 0, 1, [⟨F.ARR_PTP_STS_STEPPED, .w1c, 0⟩, ⟨F.ARR_PTP_STS_SLAVE_PORT, .ro, 2⟩, ⟨F.ARR_PTP_STS_BLK_ALIGN, .ro, 0⟩, ⟨F.ARR_PTP_STS_IS_GM, .ro, 0⟩, ⟨F.ARR_PTP_STS_STATE, .ro, 0⟩]⟩,
  ⟨R.ARR_PTP_OFS, 0, 1, 0, 1, [⟨F.ARR_PTP_OFS_OFS, .ro, 0⟩]⟩,
  ⟨R.ARR_PTP_GM_LO, 0, 1, 0, 1, [⟨F.ARR_PTP_GM_LO_VALUE, .ro, 0⟩]⟩,
  ⟨R.ARR_PTP_GM_HI, 0, 1, 0, 1, [⟨F.ARR_PTP_GM_HI_VALUE, .ro, 0⟩]⟩,
  ⟨R.ARR_PDELAY 0, 4, 2, 0, 1, [⟨F.ARR_PDELAY_AS_CAPABLE, .ro, 0⟩, ⟨F.ARR_PDELAY_DELAY, .ro, 0⟩]⟩,
  ⟨R.ARR_BRIDLE_CFG, 0, 1, 0, 1, [⟨F.ARR_BRIDLE_CFG_EN, .rws, 0⟩, ⟨F.ARR_BRIDLE_CFG_EXT_STEP, .rws, 0⟩, ⟨F.ARR_BRIDLE_CFG_OFFSET, .rws, 0⟩]⟩,
  ⟨R.ARR_BRIDLE_STS, 0, 1, 0, 1, [⟨F.ARR_BRIDLE_STS_SLEWING, .ro, 0⟩, ⟨F.ARR_BRIDLE_STS_ALIGNED, .ro, 0⟩]⟩,
  ⟨R.ARR_SCHED_STS, 0, 1, 0, 1, [⟨F.ARR_SCHED_STS_USED, .ro, 0⟩]⟩,
  ⟨R.ARR_CNT, 0, 1, 0, 1, [⟨F.ARR_CNT_STEP, .ro, 0⟩, ⟨F.ARR_CNT_LATE, .ro, 0⟩]⟩,
  ⟨R.ARR_AG_SUM, 0, 1, 0, 1, [⟨F.ARR_AG_SUM_MUTED, .ro, 0⟩, ⟨F.ARR_AG_SUM_CONCEALING, .ro, 0⟩]⟩,
  ⟨R.ARR_AG_CFG 0, 4, 16, 0, 1, [⟨F.ARR_AG_CFG_EN, .rws, 0⟩, ⟨F.ARR_AG_CFG_HOLD_TOGETHER, .rws, 0⟩, ⟨F.ARR_AG_CFG_N, .rws, 4⟩, ⟨F.ARR_AG_CFG_ID, .rws, 0⟩]⟩,
  ⟨R.ARR_LANE_AG 0, 4, 128, 0, 1, [⟨F.ARR_LANE_AG_EN, .rws, 0⟩, ⟨F.ARR_LANE_AG_SLOT, .rws, 0⟩]⟩]

/-- The registers of the page that starts at 0x06000. -/
def regTableSAP : List RegDef := [
  ⟨R.SAP_CFG 0, 256, 8, 0, 1, [⟨F.SAP_CFG_EN, .rw, 0⟩, ⟨F.SAP_CFG_HOLD, .rw, 0⟩, ⟨F.SAP_CFG_SRC_MODE, .rw, 0⟩, ⟨F.SAP_CFG_SOFT, .rw, 1⟩, ⟨F.SAP_CFG_MASTER, .rw, 0⟩, ⟨F.SAP_CFG_BDIV, .rw, 7⟩, ⟨F.SAP_CFG_ZC_TIMEOUT, .rw, 10⟩]⟩,
  ⟨R.SAP_FMT 0, 256, 8, 0, 1, [⟨F.SAP_FMT_FORMAT, .rw, 0⟩, ⟨F.SAP_FMT_FS_POL, .rw, 0⟩, ⟨F.SAP_FMT_BCLK_EDGE, .rw, 0⟩, ⟨F.SAP_FMT_DELAY, .rw, 1⟩, ⟨F.SAP_FMT_FLEN, .rw, 64⟩]⟩,
  ⟨R.SAP_MASK 0, 256, 8, 0, 1, [⟨F.SAP_MASK_ACTIVE, .ro, 0⟩, ⟨F.SAP_MASK_MASK, .rw, 0⟩]⟩,
  ⟨R.SAP_STS 0, 256, 8, 0, 1, [⟨F.SAP_STS_SAT, .w1c, 0⟩, ⟨F.SAP_STS_CFG_ERR, .w1c, 0⟩, ⟨F.SAP_STS_TABLE_ERR, .w1c, 0⟩, ⟨F.SAP_STS_SLIP, .w1c, 0⟩, ⟨F.SAP_STS_FRAME_ERR, .w1c, 0⟩, ⟨F.SAP_STS_CLK_LOST, .w1c, 0⟩, ⟨F.SAP_STS_PENDING, .ro, 0⟩, ⟨F.SAP_STS_BYPASS, .ro, 0⟩, ⟨F.SAP_STS_LOCK, .ro, 0⟩, ⟨F.SAP_STS_CLK_OK, .ro, 0⟩, ⟨F.SAP_STS_RUNNING, .ro, 0⟩]⟩,
  ⟨R.SAP_FRAME_CNT 0, 256, 8, 0, 1, [⟨F.SAP_FRAME_CNT_FRAME, .ro, 0⟩]⟩,
  ⟨R.SAP_FRAME_APPLIED 0, 256, 8, 0, 1, [⟨F.SAP_FRAME_APPLIED_FRAME, .ro, 0⟩]⟩,
  ⟨R.SAP_RATE 0, 256, 8, 0, 1, [⟨F.SAP_RATE_RATE, .ro, 0⟩]⟩,
  ⟨R.SAP_ERR_CNT 0, 256, 8, 0, 1, [⟨F.SAP_ERR_CNT_FRAME_ERR, .ro, 0⟩, ⟨F.SAP_ERR_CNT_SLIP, .ro, 0⟩]⟩,
  ⟨R.SAP_SLOT 0 0, 256, 8, 4, 16, [⟨F.SAP_SLOT_LEN, .rw, 2⟩, ⟨F.SAP_SLOT_HALF, .rw, 0⟩, ⟨F.SAP_SLOT_HIZ, .rw, 1⟩, ⟨F.SAP_SLOT_START, .rw, 0⟩]⟩,
  ⟨R.SAP_SLOT_ACT 0 0, 256, 8, 4, 16, [⟨F.SAP_SLOT_ACT_LEN, .ro, 2⟩, ⟨F.SAP_SLOT_ACT_HALF, .ro, 0⟩, ⟨F.SAP_SLOT_ACT_HIZ, .ro, 1⟩, ⟨F.SAP_SLOT_ACT_START, .ro, 0⟩]⟩,
  ⟨R.SAP_SLOT_LVL 0 0, 256, 8, 4, 16, [⟨F.SAP_SLOT_LVL_PEAK, .ro, 255⟩]⟩]

/-- The registers of the page that starts at 0x07000. -/
def regTableAFE : List RegDef := [
  ⟨R.AFE_IN_CFG 0, 4, 8, 0, 1, [⟨F.AFE_IN_CFG_SE, .rw, 0⟩, ⟨F.AFE_IN_CFG_MODE, .rw, 0⟩]⟩,
  ⟨R.AFE_IN_GAIN 0, 4, 8, 0, 1, [⟨F.AFE_IN_GAIN_ZC_BYPASS, .rw, 0⟩, ⟨F.AFE_IN_GAIN_CUR, .ro, 0⟩, ⟨F.AFE_IN_GAIN_GAIN, .rw, 0⟩]⟩,
  ⟨R.AFE_IN_STS 0, 4, 8, 0, 1, [⟨F.AFE_IN_STS_OVL_NOW, .ro, 0⟩, ⟨F.AFE_IN_STS_ZC_TIMEOUT, .w1c, 0⟩, ⟨F.AFE_IN_STS_STEPPING, .ro, 0⟩, ⟨F.AFE_IN_STS_READY, .ro, 0⟩]⟩,
  ⟨R.AFE_MICBIAS_CFG, 0, 1, 0, 1, [⟨F.AFE_MICBIAS_CFG_OC1, .w1c, 0⟩, ⟨F.AFE_MICBIAS_CFG_OC0, .w1c, 0⟩, ⟨F.AFE_MICBIAS_CFG_V1, .rw, 1⟩, ⟨F.AFE_MICBIAS_CFG_V0, .rw, 1⟩, ⟨F.AFE_MICBIAS_CFG_EN1, .rw, 0⟩, ⟨F.AFE_MICBIAS_CFG_EN0, .rw, 0⟩]⟩,
  ⟨R.AFE_PDM_CFG, 0, 1, 0, 1, [⟨F.AFE_PDM_CFG_MICVDD_B_EN, .rw, 0⟩, ⟨F.AFE_PDM_CFG_MICVDD_A_EN, .rw, 0⟩, ⟨F.AFE_PDM_CFG_CLK1_EN, .rw, 0⟩, ⟨F.AFE_PDM_CFG_CLK0_EN, .rw, 0⟩, ⟨F.AFE_PDM_CFG_WIRE_EN, .rw, 0⟩]⟩,
  ⟨R.AFE_PDM_STS, 0, 1, 0, 1, [⟨F.AFE_PDM_STS_STUCK, .w1c, 0⟩]⟩,
  ⟨R.AFE_JD_CFG 0, 4, 2, 0, 1, [⟨F.AFE_JD_CFG_LINE_ON_INS, .rw, 0⟩, ⟨F.AFE_JD_CFG_PRESET_OUT, .rw, 0⟩, ⟨F.AFE_JD_CFG_PRESET_IN, .rw, 0⟩, ⟨F.AFE_JD_CFG_AUTO_EN, .rw, 0⟩, ⟨F.AFE_JD_CFG_DEBOUNCE, .rw, 50⟩, ⟨F.AFE_JD_CFG_PULL_EN, .rw, 1⟩, ⟨F.AFE_JD_CFG_POL, .rw, 0⟩, ⟨F.AFE_JD_CFG_EN, .rw, 0⟩]⟩,
  ⟨R.AFE_JD_STS, 0, 1, 0, 1, [⟨F.AFE_JD_STS_JD7_CHG, .w1c, 0⟩, ⟨F.AFE_JD_STS_JD6_CHG, .w1c, 0⟩, ⟨F.AFE_JD_STS_JD7_STATE, .ro, 0⟩, ⟨F.AFE_JD_STS_JD6_STATE, .ro, 0⟩]⟩,
  ⟨R.AFE_ZC_CFG, 0, 1, 0, 1, [⟨F.AFE_ZC_CFG_TIMEOUT, .rw, 10⟩]⟩,
  ⟨R.AFE_OVL_CFG, 0, 1, 0, 1, [⟨F.AFE_OVL_CFG_AUTO_RST, .rw, 1⟩, ⟨F.AFE_OVL_CFG_RST_LEN, .rw, 64⟩]⟩,
  ⟨R.AFE_LO_CFG 0, 4, 4, 0, 1, [⟨F.AFE_LO_CFG_EN, .rws, 0⟩, ⟨F.AFE_LO_CFG_OC, .w1c, 0⟩, ⟨F.AFE_LO_CFG_READY, .ro, 0⟩]⟩,
  ⟨R.AFE_HP_CFG, 0, 1, 0, 1, [⟨F.AFE_HP_CFG_EN, .rws, 0⟩, ⟨F.AFE_HP_CFG_OC, .w1c, 0⟩, ⟨F.AFE_HP_CFG_READY, .ro, 0⟩]⟩,
  ⟨R.AFE_HP_JD_CFG, 0, 1, 0, 1, [⟨F.AFE_HP_JD_CFG_PROBE_EN, .rw, 1⟩, ⟨F.AFE_HP_JD_CFG_PRESET_OUT, .rw, 0⟩, ⟨F.AFE_HP_JD_CFG_PRESET_LINE, .rw, 0⟩, ⟨F.AFE_HP_JD_CFG_PRESET_HP, .rw, 0⟩, ⟨F.AFE_HP_JD_CFG_AUTO_EN, .rw, 0⟩, ⟨F.AFE_HP_JD_CFG_DEBOUNCE, .rw, 50⟩, ⟨F.AFE_HP_JD_CFG_PULL_EN, .rw, 1⟩, ⟨F.AFE_HP_JD_CFG_POL, .rw, 0⟩, ⟨F.AFE_HP_JD_CFG_EN, .rw, 0⟩]⟩,
  ⟨R.AFE_HP_STS, 0, 1, 0, 1, [⟨F.AFE_HP_STS_CLASS, .ro, 0⟩, ⟨F.AFE_HP_STS_CHG, .w1c, 0⟩, ⟨F.AFE_HP_STS_PROBING, .ro, 0⟩, ⟨F.AFE_HP_STS_STATE, .ro, 0⟩]⟩,
  ⟨R.AFE_HP_IMP, 0, 1, 0, 1, [⟨F.AFE_HP_IMP_ZR, .ro, 0⟩, ⟨F.AFE_HP_IMP_ZL, .ro, 0⟩]⟩,
  ⟨R.AFE_LSN_CFG, 0, 1, 0, 1, [⟨F.AFE_LSN_CFG_EN, .rw, 0⟩, ⟨F.AFE_LSN_CFG_KEEP_PLL, .rw, 0⟩, ⟨F.AFE_LSN_CFG_AUTO_HO, .rw, 0⟩, ⟨F.AFE_LSN_CFG_PRIO_GB, .rw, 0⟩, ⟨F.AFE_LSN_CFG_PRIO_ALM, .rw, 0⟩, ⟨F.AFE_LSN_CFG_WAKE_GB, .rw, 1⟩, ⟨F.AFE_LSN_CFG_WAKE_ALM, .rw, 1⟩, ⟨F.AFE_LSN_CFG_CYCLES, .rw, 1⟩, ⟨F.AFE_LSN_CFG_GB_EN, .rw, 0⟩, ⟨F.AFE_LSN_CFG_T4_EN, .rw, 0⟩, ⟨F.AFE_LSN_CFG_T3_EN, .rw, 0⟩]⟩,
  ⟨R.AFE_LSN_STS, 0, 1, 0, 1, [⟨F.AFE_LSN_STS_FLOOR_ALM, .ro, 255⟩, ⟨F.AFE_LSN_STS_FLOOR_GB, .ro, 255⟩, ⟨F.AFE_LSN_STS_NEXT, .ro, 0⟩, ⟨F.AFE_LSN_STS_CFG_ERR, .w1c, 0⟩, ⟨F.AFE_LSN_STS_OVERRUN, .w1c, 0⟩, ⟨F.AFE_LSN_STS_SWITCH, .w1c, 0⟩, ⟨F.AFE_LSN_STS_GB_PARTIAL, .ro, 0⟩, ⟨F.AFE_LSN_STS_ALM_PARTIAL, .ro, 0⟩, ⟨F.AFE_LSN_STS_LCLK_PATH, .ro, 0⟩, ⟨F.AFE_LSN_STS_RUNNING, .ro, 0⟩]⟩,
  ⟨R.AFE_ALM_BAND, 0, 1, 0, 1, [⟨F.AFE_ALM_BAND_F_HI, .rw, 3500⟩, ⟨F.AFE_ALM_BAND_F_LO, .rw, 500⟩]⟩,
  ⟨R.AFE_ALM_THR, 0, 1, 0, 1, [⟨F.AFE_ALM_THR_MIN_LVL, .rw, 70⟩, ⟨F.AFE_ALM_THR_TONAL, .rw, 10⟩, ⟨F.AFE_ALM_THR_SNR, .rw, 15⟩]⟩,
  ⟨R.AFE_GB_THR, 0, 1, 0, 1, [⟨F.AFE_GB_THR_MIN_LVL, .rw, 60⟩, ⟨F.AFE_GB_THR_DECAY, .rw, 20⟩, ⟨F.AFE_GB_THR_SHATTER, .rw, 18⟩, ⟨F.AFE_GB_THR_THUD, .rw, 20⟩]⟩,
  ⟨R.AFE_GTH_CFG, 0, 1, 0, 1, [⟨F.AFE_GTH_CFG_GO, .wo, 0⟩, ⟨F.AFE_GTH_CFG_STOP, .wo, 0⟩, ⟨F.AFE_GTH_CFG_FMT, .rw, 0⟩, ⟨F.AFE_GTH_CFG_WIN_PAGE, .rw, 0⟩]⟩,
  ⟨R.AFE_GTH_IDX, 0, 1, 0, 1, [⟨F.AFE_GTH_IDX_INDEX, .ro, 0⟩]⟩,
  ⟨R.AFE_LCLK_CAL, 0, 1, 0, 1, [⟨F.AFE_LCLK_CAL_VALID, .ro, 0⟩, ⟨F.AFE_LCLK_CAL_ERR, .ro, 0⟩]⟩,
  ⟨R.AFE_LSN_LOG_LO 0, 8, 48, 0, 1, [⟨F.AFE_LSN_LOG_LO_INDEX, .ro, 0⟩]⟩,
  ⟨R.AFE_LSN_LOG_HI 0, 8, 48, 0, 1, [⟨F.AFE_LSN_LOG_HI_KIND, .ro, 0⟩, ⟨F.AFE_LSN_LOG_HI_IN_LISTEN, .ro, 0⟩, ⟨F.AFE_LSN_LOG_HI_DECIDE, .ro, 0⟩]⟩,
  ⟨R.AFE_GTH_WIN 0, 4, 256, 0, 1, [⟨F.AFE_GTH_WIN_DATA, .ro, 0⟩]⟩]

/-- The registers of the page that starts at 0x08000. -/
def regTableSNS : List RegDef := [
  ⟨R.SNS_ENTRY 0 0, 1024, 2, 4, 16, [⟨F.SNS_ENTRY_EN, .rw, 0⟩, ⟨F.SNS_ENTRY_LIM_EN, .rw, 0⟩, ⟨F.SNS_ENTRY_ALIGN, .rw, 0⟩, ⟨F.SNS_ENTRY_INPUT, .rw, 27⟩, ⟨F.SNS_ENTRY_GAIN, .rw, 0⟩, ⟨F.SNS_ENTRY_K, .rw, 6⟩]⟩,
  ⟨R.SNS_LIM 0 0, 1024, 2, 4, 16, [⟨F.SNS_LIM_HI, .rw, 32767⟩, ⟨F.SNS_LIM_LO, .rw, 32768⟩]⟩,
  ⟨R.SNS_RES 0 0, 1024, 2, 4, 16, [⟨F.SNS_RES_RESULT, .ro, 0⟩, ⟨F.SNS_RES_NEW, .w1c, 0⟩, ⟨F.SNS_RES_REF_NRDY, .ro, 0⟩, ⟨F.SNS_RES_SAT, .ro, 0⟩, ⟨F.SNS_RES_LIM, .ro, 0⟩, ⟨F.SNS_RES_CAL, .ro, 0⟩, ⟨F.SNS_RES_RESTART, .ro, 0⟩]⟩,
  ⟨R.SNS_RES_TS 0 0, 1024, 2, 4, 16, [⟨F.SNS_RES_TS_BLK, .ro, 0⟩, ⟨F.SNS_RES_TS_SAMPLE, .ro, 0⟩]⟩,
  ⟨R.SNS_LAST 0 0, 1024, 2, 4, 32, [⟨F.SNS_LAST_RESULT, .ro, 0⟩, ⟨F.SNS_LAST_NEW, .w1c, 0⟩, ⟨F.SNS_LAST_REF_NRDY, .ro, 0⟩, ⟨F.SNS_LAST_SAT, .ro, 0⟩, ⟨F.SNS_LAST_LIM, .ro, 0⟩, ⟨F.SNS_LAST_CAL, .ro, 0⟩, ⟨F.SNS_LAST_RESTART, .ro, 0⟩]⟩,
  ⟨R.SNS_LAST_TS 0 0, 1024, 2, 4, 32, [⟨F.SNS_LAST_TS_BLK, .ro, 0⟩, ⟨F.SNS_LAST_TS_SAMPLE, .ro, 0⟩]⟩,
  ⟨R.SNS_CFG 0, 1024, 2, 0, 1, [⟨F.SNS_CFG_EN, .rw, 0⟩, ⟨F.SNS_CFG_PAUSE, .rw, 0⟩, ⟨F.SNS_CFG_MODE, .rw, 0⟩, ⟨F.SNS_CFG_LAST, .rw, 0⟩, ⟨F.SNS_CFG_DONE_EVT, .rw, 0⟩]⟩,
  ⟨R.SNS_STS 0, 1024, 2, 0, 1, [⟨F.SNS_STS_ENTRY, .ro, 0⟩, ⟨F.SNS_STS_RUNNING, .ro, 0⟩, ⟨F.SNS_STS_PAUSED, .ro, 0⟩, ⟨F.SNS_STS_HELD, .ro, 0⟩, ⟨F.SNS_STS_CAL_BUSY, .ro, 0⟩, ⟨F.SNS_STS_INJ_Q, .ro, 0⟩, ⟨F.SNS_STS_TRIG_OVR, .w1c, 0⟩, ⟨F.SNS_STS_CAL_FAIL, .w1c, 0⟩, ⟨F.SNS_STS_INJ_REFUSED, .w1c, 0⟩]⟩,
  ⟨R.SNS_TRIG 0, 1024, 2, 0, 1, [⟨F.SNS_TRIG_SRC, .rw, 0⟩, ⟨F.SNS_TRIG_SW, .wo, 0⟩, ⟨F.SNS_TRIG_PWM_EDGE, .rw, 0⟩, ⟨F.SNS_TRIG_PWM_CH, .rw, 0⟩, ⟨F.SNS_TRIG_GPIO_EDGE, .rw, 1⟩, ⟨F.SNS_TRIG_GPIO, .rw, 0⟩, ⟨F.SNS_TRIG_DELAY, .rw, 0⟩]⟩,
  ⟨R.SNS_INJ 0, 1024, 2, 0, 1, [⟨F.SNS_INJ_GO, .wo, 0⟩, ⟨F.SNS_INJ_LIM_EN, .rw, 0⟩, ⟨F.SNS_INJ_ALIGN, .rw, 0⟩, ⟨F.SNS_INJ_INPUT, .rw, 27⟩, ⟨F.SNS_INJ_GAIN, .rw, 0⟩, ⟨F.SNS_INJ_K, .rw, 6⟩]⟩,
  ⟨R.SNS_INJ_RES 0, 1024, 2, 0, 1, [⟨F.SNS_INJ_RES_RESULT, .ro, 0⟩, ⟨F.SNS_INJ_RES_NEW, .w1c, 0⟩, ⟨F.SNS_INJ_RES_REF_NRDY, .ro, 0⟩, ⟨F.SNS_INJ_RES_SAT, .ro, 0⟩, ⟨F.SNS_INJ_RES_LIM, .ro, 0⟩, ⟨F.SNS_INJ_RES_CAL, .ro, 0⟩, ⟨F.SNS_INJ_RES_RESTART, .ro, 0⟩]⟩,
  ⟨R.SNS_CNT 0, 1024, 2, 0, 1, [⟨F.SNS_CNT_TRIG_OVR, .ro, 0⟩, ⟨F.SNS_CNT_ABORT, .ro, 0⟩]⟩,
  ⟨R.SNS_CAL_CTL 0, 1024, 2, 0, 1, [⟨F.SNS_CAL_CTL_GO, .wo, 0⟩, ⟨F.SNS_CAL_CTL_STEP, .rw, 0⟩, ⟨F.SNS_CAL_CTL_INPUT, .rw, 0⟩, ⟨F.SNS_CAL_CTL_GAIN, .rw, 0⟩, ⟨F.SNS_CAL_CTL_K, .rw, 8⟩]⟩,
  ⟨R.SNS_CAL_TGT 0, 1024, 2, 0, 1, [⟨F.SNS_CAL_TGT_TARGET, .rw, 0⟩]⟩,
  ⟨R.SNS_IN_CFG 0, 4, 32, 0, 1, [⟨F.SNS_IN_CFG_BIAS, .rw, 0⟩]⟩,
  ⟨R.SNS_TMR 0, 4, 4, 0, 1, [⟨F.SNS_TMR_EN, .rw, 0⟩, ⟨F.SNS_TMR_PERIOD, .rw, 30720⟩]⟩,
  ⟨R.SNS_GLB_CTL, 0, 1, 0, 1, [⟨F.SNS_GLB_CTL_CNT_CLR, .wo, 0⟩]⟩,
  ⟨R.SNS_GLB_STS, 0, 1, 0, 1, [⟨F.SNS_GLB_STS_PLAUS, .w1c, 0⟩, ⟨F.SNS_GLB_STS_CFG_ERR, .w1c, 0⟩]⟩,
  ⟨R.SNS_REF, 0, 1, 0, 1, [⟨F.SNS_REF_BUFEN, .rw, 0⟩, ⟨F.SNS_REF_READY, .ro, 0⟩]⟩,
  ⟨R.SNS_SHARED, 0, 1, 0, 1, [⟨F.SNS_SHARED_EN, .rw, 0⟩, ⟨F.SNS_SHARED_INPUT, .rw, 27⟩, ⟨F.SNS_SHARED_WINDOW, .rw, 256⟩]⟩,
  ⟨R.SNS_PLAUS_STS, 0, 1, 0, 1, [⟨F.SNS_PLAUS_STS_DIFF, .ro, 0⟩, ⟨F.SNS_PLAUS_STS_FAIL, .ro, 0⟩]⟩,
  ⟨R.SNS_PLAUS_CNT, 0, 1, 0, 1, [⟨F.SNS_PLAUS_CNT_FAILS, .ro, 0⟩, ⟨F.SNS_PLAUS_CNT_CHECKS, .ro, 0⟩]⟩,
  ⟨R.SNS_TDAC, 0, 1, 0, 1, [⟨F.SNS_TDAC_EN, .rw, 0⟩, ⟨F.SNS_TDAC_MODE, .rw, 0⟩, ⟨F.SNS_TDAC_CODE, .rw, 0⟩]⟩,
  ⟨R.SNS_TDAC_SW, 0, 1, 0, 1, [⟨F.SNS_TDAC_SW_SW, .rw, 0⟩]⟩,
  ⟨R.SNS_CAL_ADDR, 0, 1, 0, 1, [⟨F.SNS_CAL_ADDR_AUTOINC, .rw, 0⟩, ⟨F.SNS_CAL_ADDR_INDEX, .rw, 0⟩]⟩,
  ⟨R.SNS_CAL_OFS, 0, 1, 0, 1, [⟨F.SNS_CAL_OFS_OFS, .rw, 0⟩]⟩,
  ⟨R.SNS_CAL_GAIN, 0, 1, 0, 1, [⟨F.SNS_CAL_GAIN_GN, .rw, 4194304⟩]⟩,
  ⟨R.SNS_EVT_CFG, 0, 1, 0, 1, [⟨F.SNS_EVT_CFG_MAX_AGE, .rw, 6000⟩, ⟨F.SNS_EVT_CFG_HOLDOFF, .rw, 6000⟩]⟩]

/-- The registers of the page that starts at 0x09000. -/
def regTableFLT : List RegDef := [
  ⟨R.FLT_CH_CFG 0, 64, 16, 0, 1, [⟨F.FLT_CH_CFG_TAPS, .rw, 64⟩, ⟨F.FLT_CH_CFG_EN, .rws, 0⟩]⟩,
  ⟨R.FLT_SWAP 0, 64, 16, 0, 1, [⟨F.FLT_SWAP_GO, .wo, 0⟩, ⟨F.FLT_SWAP_FADE, .rws, 0⟩, ⟨F.FLT_SWAP_BANK, .rws, 0⟩]⟩,
  ⟨R.FLT_BANK_STS 0, 64, 16, 0, 1, [⟨F.FLT_BANK_STS_REMAIN, .ro, 0⟩, ⟨F.FLT_BANK_STS_QUEUED_FADE, .ro, 0⟩, ⟨F.FLT_BANK_STS_QUEUED_BANK, .ro, 0⟩, ⟨F.FLT_BANK_STS_QUEUED, .ro, 0⟩, ⟨F.FLT_BANK_STS_FADING, .ro, 0⟩, ⟨F.FLT_BANK_STS_ACTIVE, .ro, 0⟩]⟩,
  ⟨R.FLT_BANK_BLK_LO 0, 64, 16, 0, 1, [⟨F.FLT_BANK_BLK_LO_BLK, .ro, 0⟩]⟩,
  ⟨R.FLT_BANK_BLK_HI 0, 64, 16, 0, 1, [⟨F.FLT_BANK_BLK_HI_BLK, .ro, 0⟩]⟩,
  ⟨R.FLT_SWAP_CNT 0, 64, 16, 0, 1, [⟨F.FLT_SWAP_CNT_NO_EFFECT, .ro, 0⟩, ⟨F.FLT_SWAP_CNT_SUPERSEDED, .ro, 0⟩]⟩,
  ⟨R.FLT_THR_LVL 0 0, 64, 16, 4, 2, [⟨F.FLT_THR_LVL_EVT_DOWN, .rws, 0⟩, ⟨F.FLT_THR_LVL_EVT_UP, .rws, 0⟩, ⟨F.FLT_THR_LVL_EN, .rws, 0⟩, ⟨F.FLT_THR_LVL_HYST, .rws, 6⟩, ⟨F.FLT_THR_LVL_LEVEL, .rws, 120⟩]⟩,
  ⟨R.FLT_THR_HOLD 0 0, 64, 16, 4, 2, [⟨F.FLT_THR_HOLD_HOLD, .rws, 960⟩]⟩,
  ⟨R.FLT_THR_STS 0, 64, 16, 0, 1, [⟨F.FLT_THR_STS_DOWN1, .w1c, 0⟩, ⟨F.FLT_THR_STS_UP1, .w1c, 0⟩, ⟨F.FLT_THR_STS_DOWN0, .w1c, 0⟩, ⟨F.FLT_THR_STS_UP0, .w1c, 0⟩, ⟨F.FLT_THR_STS_STATE1, .ro, 0⟩, ⟨F.FLT_THR_STS_STATE0, .ro, 0⟩]⟩,
  ⟨R.FLT_OVR_STS 0, 64, 16, 0, 1, [⟨F.FLT_OVR_STS_OVR_NOW, .ro, 0⟩, ⟨F.FLT_OVR_STS_MODRST, .w1c, 0⟩, ⟨F.FLT_OVR_STS_SAT, .w1c, 0⟩]⟩,
  ⟨R.FLT_OVR_CNT 0, 64, 16, 0, 1, [⟨F.FLT_OVR_CNT_MODRST, .ro, 0⟩, ⟨F.FLT_OVR_CNT_SAT, .ro, 0⟩]⟩,
  ⟨R.FLT_DELAY 0, 64, 16, 0, 1, [⟨F.FLT_DELAY_USAMP, .ro, 0⟩, ⟨F.FLT_DELAY_GD, .ro, 0⟩]⟩,
  ⟨R.FLT_SETTLE 0, 64, 16, 0, 1, [⟨F.FLT_SETTLE_REMAIN, .ro, 0⟩, ⟨F.FLT_SETTLE_UNSETTLED, .ro, 1⟩]⟩,
  ⟨R.FLT_COEF_WIN 0, 4, 128, 0, 1, [⟨F.FLT_COEF_WIN_COEF, .rw, 0⟩]⟩,
  ⟨R.FLT_GLB_CTL, 0, 1, 0, 1, [⟨F.FLT_GLB_CTL_CNT_CLR, .wo, 0⟩]⟩,
  ⟨R.FLT_GLB_STS, 0, 1, 0, 1, [⟨F.FLT_GLB_STS_TAPS_ERR, .w1c, 0⟩, ⟨F.FLT_GLB_STS_COEF_BUSY_ERR, .w1c, 0⟩]⟩,
  ⟨R.FLT_COEF_SEL, 0, 1, 0, 1, [⟨F.FLT_COEF_SEL_PAGE, .rw, 0⟩, ⟨F.FLT_COEF_SEL_BANK, .rw, 0⟩, ⟨F.FLT_COEF_SEL_CH, .rw, 0⟩]⟩,
  ⟨R.FLT_COEF_CRC, 0, 1, 0, 1, [⟨F.FLT_COEF_CRC_CRC, .ro, 0⟩]⟩,
  ⟨R.FLT_SYNC_CTL, 0, 1, 0, 1, [⟨F.FLT_SYNC_CTL_SW_SYNC, .wo, 0⟩, ⟨F.FLT_SYNC_CTL_ARM, .rw, 0⟩, ⟨F.FLT_SYNC_CTL_BALL_POL, .rw, 0⟩, ⟨F.FLT_SYNC_CTL_BALL_EN, .rw, 0⟩, ⟨F.FLT_SYNC_CTL_MASK, .rw, 65535⟩]⟩,
  ⟨R.FLT_SYNC_STS, 0, 1, 0, 1, [⟨F.FLT_SYNC_STS_BALL_SEEN, .w1c, 0⟩, ⟨F.FLT_SYNC_STS_PENDING, .ro, 0⟩]⟩,
  ⟨R.FLT_SYNC_BLK_LO, 0, 1, 0, 1, [⟨F.FLT_SYNC_BLK_LO_BLK, .ro, 0⟩]⟩,
  ⟨R.FLT_SYNC_BLK_HI, 0, 1, 0, 1, [⟨F.FLT_SYNC_BLK_HI_BLK, .ro, 0⟩]⟩,
  ⟨R.FLT_SYNC_AT_LO, 0, 1, 0, 1, [⟨F.FLT_SYNC_AT_LO_BLK, .rw, 0⟩]⟩,
  ⟨R.FLT_SYNC_AT_HI, 0, 1, 0, 1, [⟨F.FLT_SYNC_AT_HI_BLK, .rw, 0⟩]⟩,
  ⟨R.FLT_SYNC_CNT, 0, 1, 0, 1, [⟨F.FLT_SYNC_CNT_COUNT, .ro, 0⟩]⟩,
  ⟨R.FLT_EVT_CFG, 0, 1, 0, 1, [⟨F.FLT_EVT_CFG_OVR_HOLDOFF, .rw, 6000⟩]⟩,
  ⟨R.FLT_OVR_SUM, 0, 1, 0, 1, [⟨F.FLT_OVR_SUM_SAT, .ro, 0⟩]⟩,
  ⟨R.FLT_THR_SUM, 0, 1, 0, 1, [⟨F.FLT_THR_SUM_STATE, .ro, 0⟩]⟩,
  ⟨R.FLT_SETTLE_SUM, 0, 1, 0, 1, [⟨F.FLT_SETTLE_SUM_UNSETTLED, .ro, 65535⟩]⟩,
  ⟨R.FLT_BANK_SUM, 0, 1, 0, 1, [⟨F.FLT_BANK_SUM_FADING, .ro, 0⟩, ⟨F.FLT_BANK_SUM_ACTIVE, .ro, 0⟩]⟩]

/-- The registers of the page that starts at 0x0A000. -/
def regTableMP : List RegDef := [
  ⟨R.MP_LANE_SRC 0, 4, 128, 0, 1, [⟨F.MP_LANE_SRC_EN, .rws, 0⟩, ⟨F.MP_LANE_SRC_FADE, .rws, 1⟩, ⟨F.MP_LANE_SRC_SRC, .rws, 1023⟩]⟩,
  ⟨R.MP_LANE_TRIM 0, 4, 128, 0, 1, [⟨F.MP_LANE_TRIM_POL, .rws, 0⟩, ⟨F.MP_LANE_TRIM_TRIM, .rws, 0⟩]⟩,
  ⟨R.MP_LANE_DET 0, 4, 128, 0, 1, [⟨F.MP_LANE_DET_PK_EN, .rws, 0⟩, ⟨F.MP_LANE_DET_SIL_EVT, .rws, 0⟩, ⟨F.MP_LANE_DET_PK_LVL, .rws, 1⟩, ⟨F.MP_LANE_DET_SIL_THR, .rws, 100⟩, ⟨F.MP_LANE_DET_SIL_HOLD, .rws, 50⟩]⟩,
  ⟨R.MP_LANE_STS 0, 4, 128, 0, 1, [⟨F.MP_LANE_STS_SRC_ACT, .ro, 1023⟩, ⟨F.MP_LANE_STS_OVR, .w1c, 0⟩, ⟨F.MP_LANE_STS_PEAK, .w1c, 0⟩, ⟨F.MP_LANE_STS_SRC_ERR, .w1c, 0⟩, ⟨F.MP_LANE_STS_SPLIT, .ro, 0⟩, ⟨F.MP_LANE_STS_QUEUED, .ro, 0⟩, ⟨F.MP_LANE_STS_FADING, .ro, 0⟩, ⟨F.MP_LANE_STS_SILENT, .ro, 1⟩]⟩,
  ⟨R.MP_SINK 0, 4, 22, 0, 1, [⟨F.MP_SINK_EN, .rws, 0⟩, ⟨F.MP_SINK_FADE, .rws, 1⟩, ⟨F.MP_SINK_KIND, .rws, 0⟩, ⟨F.MP_SINK_INDEX, .rws, 0⟩, ⟨F.MP_SINK_VOL, .rws, 0⟩]⟩,
  ⟨R.MP_SINK 32, 4, 64, 0, 1, [⟨F.MP_SINK_EN, .rws, 0⟩, ⟨F.MP_SINK_FADE, .rws, 1⟩, ⟨F.MP_SINK_KIND, .rws, 0⟩, ⟨F.MP_SINK_INDEX, .rws, 0⟩, ⟨F.MP_SINK_VOL, .rws, 0⟩]⟩,
  ⟨R.MP_SINK 128, 4, 128, 0, 1, [⟨F.MP_SINK_EN, .rws, 0⟩, ⟨F.MP_SINK_FADE, .rws, 1⟩, ⟨F.MP_SINK_KIND, .rws, 0⟩, ⟨F.MP_SINK_INDEX, .rws, 0⟩, ⟨F.MP_SINK_VOL, .rws, 0⟩]⟩,
  ⟨R.MP_SINK 256, 4, 64, 0, 1, [⟨F.MP_SINK_EN, .rws, 0⟩, ⟨F.MP_SINK_FADE, .rws, 1⟩, ⟨F.MP_SINK_KIND, .rws, 0⟩, ⟨F.MP_SINK_INDEX, .rws, 0⟩, ⟨F.MP_SINK_VOL, .rws, 0⟩]⟩,
  ⟨R.MP_COMP 0, 4, 22, 0, 1, [⟨F.MP_COMP_EN, .rws, 0⟩, ⟨F.MP_COMP_LINK, .rws, 0⟩, ⟨F.MP_COMP_RATIO, .rws, 4⟩, ⟨F.MP_COMP_ATTACK, .rws, 7⟩, ⟨F.MP_COMP_RELEASE, .rws, 7⟩, ⟨F.MP_COMP_KNEE, .rws, 2⟩, ⟨F.MP_COMP_MAKEUP, .rws, 0⟩, ⟨F.MP_COMP_THR, .rws, 40⟩]⟩,
  ⟨R.MP_LIM 0, 4, 22, 0, 1, [⟨F.MP_LIM_EN, .rws, 0⟩, ⟨F.MP_LIM_LINK, .rws, 0⟩, ⟨F.MP_LIM_LOOKAHEAD, .rws, 0⟩, ⟨F.MP_LIM_RELEASE, .rws, 5⟩, ⟨F.MP_LIM_THR, .rws, 2⟩]⟩,
  ⟨R.MP_DYN_STS 0, 4, 22, 0, 1, [⟨F.MP_DYN_STS_LIM_GR, .ro, 0⟩, ⟨F.MP_DYN_STS_COMP_GR, .ro, 0⟩, ⟨F.MP_DYN_STS_CLIP, .w1c, 0⟩, ⟨F.MP_DYN_STS_ZC_TIMEOUT, .w1c, 0⟩, ⟨F.MP_DYN_STS_CONCEALED, .w1c, 0⟩]⟩,
  ⟨R.MP_GLB_CTL, 0, 1, 0, 1, [⟨F.MP_GLB_CTL_CNT_CLR, .wo, 0⟩, ⟨F.MP_GLB_CTL_GAIN_RAMP, .rws, 1⟩]⟩,
  ⟨R.MP_GLB_STS, 0, 1, 0, 1, [⟨F.MP_GLB_STS_PRESET_ERR, .w1c, 0⟩, ⟨F.MP_GLB_STS_LOOKAHEAD_ERR, .w1c, 0⟩, ⟨F.MP_GLB_STS_SRC_ERR, .w1c, 0⟩]⟩,
  ⟨R.MP_ZC_CFG, 0, 1, 0, 1, [⟨F.MP_ZC_CFG_TIMEOUT, .rw, 10⟩]⟩,
  ⟨R.MP_QUIET_CFG, 0, 1, 0, 1, [⟨F.MP_QUIET_CFG_EN, .rw, 0⟩, ⟨F.MP_QUIET_CFG_THR, .rw, 100⟩, ⟨F.MP_QUIET_CFG_HOLD, .rw, 300⟩]⟩,
  ⟨R.MP_QUIET_STS, 0, 1, 0, 1, [⟨F.MP_QUIET_STS_COUNT, .ro, 0⟩, ⟨F.MP_QUIET_STS_SILENT, .ro, 65535⟩]⟩,
  ⟨R.MP_PRESET_CTL, 0, 1, 0, 1, [⟨F.MP_PRESET_CTL_GO, .wo, 0⟩, ⟨F.MP_PRESET_CTL_INDEX, .rw, 0⟩]⟩,
  ⟨R.MP_ROUTE_CNT, 0, 1, 0, 1, [⟨F.MP_ROUTE_CNT_NO_EFFECT, .ro, 0⟩, ⟨F.MP_ROUTE_CNT_SUPERSEDED, .ro, 0⟩]⟩,
  ⟨R.MP_OUT_STS, 0, 1, 0, 1, [⟨F.MP_OUT_STS_RUNNING, .ro, 0⟩]⟩,
  ⟨R.MIX_GAIN 0 0, 128, 16, 4, 32, [⟨F.MIX_GAIN_EN, .rws, 0⟩, ⟨F.MIX_GAIN_LANE, .rws, 0⟩, ⟨F.MIX_GAIN_GAIN, .rws, 2048⟩]⟩,
  ⟨R.MIX_BUS_CFG 0, 4, 16, 0, 1, [⟨F.MIX_BUS_CFG_FADE, .rws, 1⟩, ⟨F.MIX_BUS_CFG_BALLAST, .rws, 0⟩]⟩,
  ⟨R.MIX_BUS_STS 0, 4, 16, 0, 1, [⟨F.MIX_BUS_STS_SCALE, .ro, 32768⟩, ⟨F.MIX_BUS_STS_SAT, .w1c, 0⟩, ⟨F.MIX_BUS_STS_RAMPING, .ro, 0⟩, ⟨F.MIX_BUS_STS_N, .ro, 0⟩]⟩]

/-- The registers of the page that starts at 0x0C000. -/
def regTableTTH : List RegDef := [
  ⟨R.TTH_OUT_CFG 0, 16, 24, 0, 1, [⟨F.TTH_OUT_CFG_CLR_FAULT, .wo, 0⟩, ⟨F.TTH_OUT_CFG_ARM, .rw, 0⟩, ⟨F.TTH_OUT_CFG_FADE, .rw, 1⟩, ⟨F.TTH_OUT_CFG_MODE, .rws, 0⟩]⟩,
  ⟨R.TTH_OUT_PRIO 0, 16, 24, 0, 1, [⟨F.TTH_OUT_PRIO_BALL_EN, .rw, 0⟩, ⟨F.TTH_OUT_PRIO_LSN_EN, .rw, 0⟩, ⟨F.TTH_OUT_PRIO_ATTACK, .rw, 1⟩, ⟨F.TTH_OUT_PRIO_RELEASE, .rw, 2⟩, ⟨F.TTH_OUT_PRIO_DUCK, .rw, 63⟩]⟩,
  ⟨R.TTH_OUT_STS 0, 16, 24, 0, 1, [⟨F.TTH_OUT_STS_EFF, .ro, 0⟩, ⟨F.TTH_OUT_STS_CAUSE, .ro, 0⟩, ⟨F.TTH_OUT_STS_CAUSE_HOST, .ro, 0⟩, ⟨F.TTH_OUT_STS_PSRC, .ro, 0⟩, ⟨F.TTH_OUT_STS_FADING, .ro, 0⟩, ⟨F.TTH_OUT_STS_FAULT, .ro, 0⟩, ⟨F.TTH_OUT_STS_MAIN_MUTED, .ro, 0⟩, ⟨F.TTH_OUT_STS_SAT, .w1c, 0⟩, ⟨F.TTH_OUT_STS_PEAK, .ro, 255⟩]⟩,
  ⟨R.TTH_OUT_CNT 0, 16, 24, 0, 1, [⟨F.TTH_OUT_CNT_FAULTS, .ro, 0⟩, ⟨F.TTH_OUT_CNT_MASKED, .ro, 0⟩]⟩,
  ⟨R.TTH_VOTE_CAP 0 0, 16, 24, 4, 3, [⟨F.TTH_VOTE_CAP_WORD, .ro, 0⟩]⟩,
  ⟨R.TTH_VOTE_BLK 0, 16, 24, 0, 1, [⟨F.TTH_VOTE_BLK_BLK, .ro, 0⟩]⟩,
  ⟨R.TTH_SRV_CFG 0, 64, 8, 0, 1, [⟨F.TTH_SRV_CFG_CLOSE, .wo, 0⟩, ⟨F.TTH_SRV_CFG_CLAMP, .rw, 3277⟩]⟩,
  ⟨R.TTH_SRV_STS 0, 64, 8, 0, 1, [⟨F.TTH_SRV_STS_SAT_NOW, .ro, 0⟩, ⟨F.TTH_SRV_STS_OPENED, .w1c, 0⟩, ⟨F.TTH_SRV_STS_CLOSED, .ro, 0⟩]⟩,
  ⟨R.TTH_SRV_DRV 0, 64, 8, 0, 1, [⟨F.TTH_SRV_DRV_LE, .rw, 0⟩, ⟨F.TTH_SRV_DRV_RE, .rw, 4000⟩]⟩,
  ⟨R.TTH_SRV_KREF 0, 64, 8, 0, 1, [⟨F.TTH_SRV_KREF_KREF, .rw, 1073741824⟩]⟩,
  ⟨R.TTH_SRV_CORR 0, 64, 8, 0, 1, [⟨F.TTH_SRV_CORR_CORR, .ro, 0⟩]⟩,
  ⟨R.TTH_SRV_CNT 0, 64, 8, 0, 1, [⟨F.TTH_SRV_CNT_OPENS, .ro, 0⟩, ⟨F.TTH_SRV_CNT_SAT, .ro, 0⟩]⟩,
  ⟨R.TTH_SRV_COEF 0 0, 64, 8, 4, 10, [⟨F.TTH_SRV_COEF_COEF, .rw, 0⟩]⟩,
  ⟨R.TTH_IN_CFG 0, 4, 16, 0, 1, [⟨F.TTH_IN_CFG_EN, .rw, 1⟩, ⟨F.TTH_IN_CFG_SMOOTH, .rw, 0⟩]⟩,
  ⟨R.TTH_IN_LVL 0, 4, 16, 0, 1, [⟨F.TTH_IN_LVL_HOLD, .ro, 255⟩, ⟨F.TTH_IN_LVL_PEAK, .ro, 255⟩]⟩,
  ⟨R.TTH_PLAY_Q 0, 4, 8, 0, 1, [⟨F.TTH_PLAY_Q_VALID, .ro, 0⟩, ⟨F.TTH_PLAY_Q_REPEAT, .ro, 1⟩, ⟨F.TTH_PLAY_Q_MSG, .ro, 0⟩]⟩,
  ⟨R.TTH_CTL, 0, 1, 0, 1, [⟨F.TTH_CTL_MAINT, .rw, 0⟩, ⟨F.TTH_CTL_CNT_CLR, .wo, 0⟩]⟩,
  ⟨R.TTH_STS, 0, 1, 0, 1, [⟨F.TTH_STS_BIST_RUN, .ro, 0⟩, ⟨F.TTH_STS_CFG_ERR, .w1c, 0⟩, ⟨F.TTH_STS_READY, .ro, 0⟩]⟩,
  ⟨R.TTH_RAMP, 0, 1, 0, 1, [⟨F.TTH_RAMP_RATE, .rw, 8⟩]⟩,
  ⟨R.TTH_GWIN_ADDR, 0, 1, 0, 1, [⟨F.TTH_GWIN_ADDR_AUTOINC, .rw, 0⟩, ⟨F.TTH_GWIN_ADDR_SET, .rw, 0⟩, ⟨F.TTH_GWIN_ADDR_NODE, .rw, 0⟩]⟩,
  ⟨R.TTH_GWIN_DATA, 0, 1, 0, 1, [⟨F.TTH_GWIN_DATA_GAIN, .rw, 0⟩]⟩,
  ⟨R.TTH_GWIN_CUR, 0, 1, 0, 1, [⟨F.TTH_GWIN_CUR_GAIN, .ro, 0⟩]⟩,
  ⟨R.TTH_TKO_CAUSE, 0, 1, 0, 1, [⟨F.TTH_TKO_CAUSE_HUB_PWR_OK, .ro, 0⟩, ⟨F.TTH_TKO_CAUSE_LINK_UP, .ro, 0⟩]⟩,
  ⟨R.TTH_PRIO_BALL, 0, 1, 0, 1, [⟨F.TTH_PRIO_BALL_EN, .rw, 0⟩, ⟨F.TTH_PRIO_BALL_POL, .rw, 0⟩, ⟨F.TTH_PRIO_BALL_FILT, .rw, 100⟩]⟩,
  ⟨R.TTH_PRIO_STS, 0, 1, 0, 1, [⟨F.TTH_PRIO_STS_BALL_LVL, .ro, 0⟩, ⟨F.TTH_PRIO_STS_ANY, .ro, 0⟩]⟩,
  ⟨R.TTH_PRIO_AUTO, 0, 1, 0, 1, [⟨F.TTH_PRIO_AUTO_BALL_PLAY, .rw, 0⟩, ⟨F.TTH_PRIO_AUTO_LSN_PLAY, .rw, 0⟩, ⟨F.TTH_PRIO_AUTO_LSN_MSG, .rw, 0⟩, ⟨F.TTH_PRIO_AUTO_BALL_MSG, .rw, 0⟩]⟩,
  ⟨R.TTH_BIST_STS, 0, 1, 0, 1, [⟨F.TTH_BIST_STS_RESULT, .ro, 0⟩, ⟨F.TTH_BIST_STS_FAILED, .ro, 0⟩]⟩,
  ⟨R.TTH_SCRUB_STS, 0, 1, 0, 1, [⟨F.TTH_SCRUB_STS_THREEWAY, .w1c, 0⟩, ⟨F.TTH_SCRUB_STS_NODE, .ro, 0⟩]⟩,
  ⟨R.TTH_SCRUB_CNT, 0, 1, 0, 1, [⟨F.TTH_SCRUB_CNT_CORR, .ro, 0⟩, ⟨F.TTH_SCRUB_CNT_SECDED, .ro, 0⟩]⟩,
  ⟨R.TTH_BOOT_STS, 0, 1, 0, 1, [⟨F.TTH_BOOT_STS_SRC, .ro, 0⟩, ⟨F.TTH_BOOT_STS_DIVERGENT, .w1c, 0⟩, ⟨F.TTH_BOOT_STS_SKIPPED, .w1c, 0⟩, ⟨F.TTH_BOOT_STS_PAIRS, .ro, 0⟩]⟩,
  ⟨R.TTH_TONE_FREQ, 0, 1, 0, 1, [⟨F.TTH_TONE_FREQ_FB, .rw, 1000⟩, ⟨F.TTH_TONE_FREQ_FA, .rw, 1000⟩]⟩,
  ⟨R.TTH_TONE_CFG, 0, 1, 0, 1, [⟨F.TTH_TONE_CFG_PATTERN, .rw, 0⟩, ⟨F.TTH_TONE_CFG_PERIOD, .rw, 50⟩, ⟨F.TTH_TONE_CFG_LEVEL, .rw, 40⟩]⟩,
  ⟨R.TTH_PLAY_CTL, 0, 1, 0, 1, [⟨F.TTH_PLAY_CTL_GO, .wo, 0⟩, ⟨F.TTH_PLAY_CTL_STOP, .wo, 0⟩, ⟨F.TTH_PLAY_CTL_REPEAT, .rw, 1⟩, ⟨F.TTH_PLAY_CTL_MSG, .rw, 0⟩]⟩,
  ⟨R.TTH_PLAY_STS, 0, 1, 0, 1, [⟨F.TTH_PLAY_STS_STATE, .ro, 0⟩, ⟨F.TTH_PLAY_STS_QLEN, .ro, 0⟩, ⟨F.TTH_PLAY_STS_MSG, .ro, 0⟩]⟩,
  ⟨R.TTH_PLAY_CNT, 0, 1, 0, 1, [⟨F.TTH_PLAY_CNT_CRC, .ro, 0⟩, ⟨F.TTH_PLAY_CNT_DONE, .ro, 0⟩]⟩,
  ⟨R.TTH_PSAP_CFG, 0, 1, 0, 1, [⟨F.TTH_PSAP_CFG_EN, .rw, 0⟩, ⟨F.TTH_PSAP_CFG_LOCK, .ro, 0⟩]⟩,
  ⟨R.TTH_FAULT_SUM, 0, 1, 0, 1, [⟨F.TTH_FAULT_SUM_OUT, .ro, 0⟩]⟩,
  ⟨R.TTH_MODE_SUM, 0, 1, 0, 1, [⟨F.TTH_MODE_SUM_OUT, .ro, 0⟩]⟩,
  ⟨R.TTH_TLOG_HEAD, 0, 1, 0, 1, [⟨F.TTH_TLOG_HEAD_COUNT, .ro, 0⟩, ⟨F.TTH_TLOG_HEAD_NEXT, .ro, 0⟩]⟩,
  ⟨R.TTH_EVT_CFG, 0, 1, 0, 1, [⟨F.TTH_EVT_CFG_HOLDOFF, .rw, 6000⟩]⟩,
  ⟨R.TTH_TLOG_LO 0, 8, 64, 0, 1, [⟨F.TTH_TLOG_LO_BLK, .ro, 0⟩]⟩,
  ⟨R.TTH_TLOG_HI 0, 8, 64, 0, 1, [⟨F.TTH_TLOG_HI_CODE, .ro, 0⟩, ⟨F.TTH_TLOG_HI_MASK, .ro, 0⟩]⟩]

/-- The registers of the page that starts at 0x0D000. -/
def regTablePWR : List RegDef := [
  ⟨R.PWR_CTL 0, 64, 8, 0, 1, [⟨F.PWR_CTL_EN, .rws, 0⟩, ⟨F.PWR_CTL_DIAG_EN, .rws, 1⟩, ⟨F.PWR_CTL_CLR_FAULT, .wo, 0⟩, ⟨F.PWR_CTL_DIAG_GO, .wo, 0⟩]⟩,
  ⟨R.PWR_CFG 0, 64, 8, 0, 1, [⟨F.PWR_CFG_RETRY_MAX, .rws, 3⟩, ⟨F.PWR_CFG_RETRY_DELAY, .rws, 500⟩, ⟨F.PWR_CFG_DC_THR, .rws, 4⟩, ⟨F.PWR_CFG_ILIM_HOLD, .rws, 10⟩]⟩,
  ⟨R.PWR_STS 0, 64, 8, 0, 1, [⟨F.PWR_STS_STATE, .ro, 0⟩, ⟨F.PWR_STS_TRACE_FROZEN, .ro, 0⟩, ⟨F.PWR_STS_RETRY_CNT, .ro, 0⟩, ⟨F.PWR_STS_CLIP, .w1c, 0⟩, ⟨F.PWR_STS_POWER_LIM, .w1c, 0⟩, ⟨F.PWR_STS_ILIM, .w1c, 0⟩, ⟨F.PWR_STS_SHORT, .w1c, 0⟩, ⟨F.PWR_STS_DC, .w1c, 0⟩, ⟨F.PWR_STS_LOAD, .w1c, 0⟩, ⟨F.PWR_STS_THERM, .w1c, 0⟩, ⟨F.PWR_STS_PVDD, .w1c, 0⟩, ⟨F.PWR_STS_LINK, .w1c, 0⟩]⟩,
  ⟨R.PWR_LIM_ST 0, 64, 8, 0, 1, [⟨F.PWR_LIM_ST_LIMIT, .rws, 0⟩]⟩,
  ⟨R.PWR_LIM_LT 0, 64, 8, 0, 1, [⟨F.PWR_LIM_LT_LIMIT, .rws, 0⟩, ⟨F.PWR_LIM_LT_RELEASE, .rws, 10⟩, ⟨F.PWR_LIM_LT_WINDOW, .rws, 10⟩]⟩,
  ⟨R.PWR_LIM_STS 0, 64, 8, 0, 1, [⟨F.PWR_LIM_STS_LT_OVER, .ro, 0⟩, ⟨F.PWR_LIM_STS_ST_OVER, .ro, 0⟩, ⟨F.PWR_LIM_STS_GR, .ro, 0⟩]⟩,
  ⟨R.PWR_POWER 0, 64, 8, 0, 1, [⟨F.PWR_POWER_LT, .ro, 0⟩, ⟨F.PWR_POWER_ST, .ro, 0⟩]⟩,
  ⟨R.PWR_DIAG_CFG 0, 64, 8, 0, 1, [⟨F.PWR_DIAG_CFG_R_MAX, .rws, 1600⟩, ⟨F.PWR_DIAG_CFG_R_MIN, .rws, 200⟩]⟩,
  ⟨R.PWR_DIAG 0, 64, 8, 0, 1, [⟨F.PWR_DIAG_CLASS, .ro, 0⟩, ⟨F.PWR_DIAG_R, .ro, 0⟩]⟩,
  ⟨R.PWR_OFS 0, 64, 8, 0, 1, [⟨F.PWR_OFS_TRIM, .rw, 0⟩]⟩,
  ⟨R.PWR_CNT 0, 64, 8, 0, 1, [⟨F.PWR_CNT_TRIPS, .ro, 0⟩, ⟨F.PWR_CNT_ILIM, .ro, 0⟩]⟩,
  ⟨R.PWR_PEAK 0, 64, 8, 0, 1, [⟨F.PWR_PEAK_V, .ro, 0⟩, ⟨F.PWR_PEAK_I, .ro, 0⟩]⟩,
  ⟨R.EXT_CFG 0, 16, 8, 0, 1, [⟨F.EXT_CFG_EN, .rws, 0⟩, ⟨F.EXT_CFG_CLR_FAULT, .wo, 0⟩, ⟨F.EXT_CFG_MODE, .rw, 0⟩, ⟨F.EXT_CFG_FLT_POL, .rw, 0⟩, ⟨F.EXT_CFG_RETRY_MAX, .rws, 3⟩, ⟨F.EXT_CFG_RETRY_DELAY, .rws, 500⟩, ⟨F.EXT_CFG_FLT_FILT, .rw, 4⟩]⟩,
  ⟨R.EXT_TIM 0, 16, 8, 0, 1, [⟨F.EXT_TIM_MIN_PULSE, .rw, 16⟩, ⟨F.EXT_TIM_DEAD, .rw, 20⟩]⟩,
  ⟨R.EXT_STS 0, 16, 8, 0, 1, [⟨F.EXT_STS_STATE, .ro, 0⟩, ⟨F.EXT_STS_RETRY_CNT, .ro, 0⟩, ⟨F.EXT_STS_FLT_NOW, .ro, 0⟩, ⟨F.EXT_STS_CLIP, .w1c, 0⟩, ⟨F.EXT_STS_FAULT, .w1c, 0⟩]⟩,
  ⟨R.PWR_TRACE 0 0, 192, 8, 4, 48, [⟨F.PWR_TRACE_V, .ro, 0⟩, ⟨F.PWR_TRACE_I, .ro, 0⟩]⟩,
  ⟨R.PWR_GLB_CFG, 0, 1, 0, 1, [⟨F.PWR_GLB_CFG_CNT_CLR, .wo, 0⟩, ⟨F.PWR_GLB_CFG_CFG_ERR, .w1c, 0⟩, ⟨F.PWR_GLB_CFG_EXT_CARRIER, .rw, 0⟩, ⟨F.PWR_GLB_CFG_CARRIER, .rw, 0⟩, ⟨F.PWR_GLB_CFG_PAR, .rw, 0⟩, ⟨F.PWR_GLB_CFG_FS, .rws, 0⟩]⟩,
  ⟨R.PWR_THERM_CFG, 0, 1, 0, 1, [⟨F.PWR_THERM_CFG_AUTO, .rws, 1⟩, ⟨F.PWR_THERM_CFG_FOLD_MAX, .rws, 24⟩]⟩,
  ⟨R.PWR_PVDD_CFG, 0, 1, 0, 1, [⟨F.PWR_PVDD_CFG_OV, .rws, 110⟩, ⟨F.PWR_PVDD_CFG_UV, .rws, 18⟩]⟩,
  ⟨R.PWR_PVDD_STS, 0, 1, 0, 1, [⟨F.PWR_PVDD_STS_PVDD1, .ro, 0⟩, ⟨F.PWR_PVDD_STS_PVDD0, .ro, 0⟩, ⟨F.PWR_PVDD_STS_OV1, .ro, 0⟩, ⟨F.PWR_PVDD_STS_UV1, .ro, 0⟩, ⟨F.PWR_PVDD_STS_OV0, .ro, 0⟩, ⟨F.PWR_PVDD_STS_UV0, .ro, 0⟩]⟩,
  ⟨R.PWR_DIE_STS 0, 4, 2, 0, 1, [⟨F.PWR_DIE_STS_TEMP, .ro, 0⟩, ⟨F.PWR_DIE_STS_FOLD_GR, .ro, 0⟩, ⟨F.PWR_DIE_STS_SHUTDOWN, .ro, 0⟩, ⟨F.PWR_DIE_STS_FOLDBACK, .ro, 0⟩, ⟨F.PWR_DIE_STS_WARN, .ro, 0⟩]⟩,
  ⟨R.PWR_LINK_CNT 0, 4, 2, 0, 1, [⟨F.PWR_LINK_CNT_UP, .ro, 0⟩, ⟨F.PWR_LINK_CNT_DOWN, .ro, 0⟩]⟩]

/-- The registers of the page that starts at 0x0E000. -/
def regTableENG : List RegDef := [
  ⟨R.ENG_CTL 0, 64, 8, 0, 1, [⟨F.ENG_CTL_RUNAHEAD, .rw, 0⟩, ⟨F.ENG_CTL_SWAP_FADE, .rw, 1⟩, ⟨F.ENG_CTL_MODE, .rws, 1⟩]⟩,
  ⟨R.ENG_STS 0, 64, 8, 0, 1, [⟨F.ENG_STS_PHASE, .ro, 0⟩, ⟨F.ENG_STS_CFG_ERR, .w1c, 0⟩, ⟨F.ENG_STS_LOAD_HIGH, .w1c, 0⟩, ⟨F.ENG_STS_MISS, .w1c, 0⟩, ⟨F.ENG_STS_DOWN, .ro, 0⟩, ⟨F.ENG_STS_STAGED, .ro, 0⟩, ⟨F.ENG_STS_MASKED, .ro, 0⟩, ⟨F.ENG_STS_MODE_ACT, .ro, 1⟩]⟩,
  ⟨R.ENG_PROG_ID 0, 64, 8, 0, 1, [⟨F.ENG_PROG_ID_ID, .ro, 0⟩]⟩,
  ⟨R.ENG_PROG_BLK_LO 0, 64, 8, 0, 1, [⟨F.ENG_PROG_BLK_LO_BLK, .ro, 0⟩]⟩,
  ⟨R.ENG_PROG_BLK_HI 0, 64, 8, 0, 1, [⟨F.ENG_PROG_BLK_HI_BLK, .ro, 0⟩]⟩,
  ⟨R.ENG_LOAD 0, 64, 8, 0, 1, [⟨F.ENG_LOAD_MAX, .ro, 0⟩, ⟨F.ENG_LOAD_LAST, .ro, 0⟩]⟩,
  ⟨R.ENG_ADMIT 0, 64, 8, 0, 1, [⟨F.ENG_ADMIT_WARN, .rw, 31000⟩, ⟨F.ENG_ADMIT_CYC, .ro, 0⟩]⟩,
  ⟨R.ENG_MEM 0, 64, 8, 0, 1, [⟨F.ENG_MEM_DRAM_BLK, .ro, 0⟩, ⟨F.ENG_MEM_SRAM, .ro, 128⟩]⟩,
  ⟨R.ENG_DRAM 0, 64, 8, 0, 1, [⟨F.ENG_DRAM_SIZE, .rw, 0⟩, ⟨F.ENG_DRAM_BASE, .rw, 0⟩]⟩,
  ⟨R.ENG_QUOTA 0, 64, 8, 0, 1, [⟨F.ENG_QUOTA_STALL_MAX, .ro, 0⟩, ⟨F.ENG_QUOTA_QUOTA, .rw, 768⟩]⟩,
  ⟨R.ENG_CNT 0, 64, 8, 0, 1, [⟨F.ENG_CNT_SLIP, .ro, 0⟩, ⟨F.ENG_CNT_MISS, .ro, 0⟩]⟩,
  ⟨R.ENG_REC_ERR 0, 64, 8, 0, 1, [⟨F.ENG_REC_ERR_REASON, .ro, 0⟩, ⟨F.ENG_REC_ERR_RECORD, .ro, 0⟩]⟩,
  ⟨R.ENG_GLB_CTL, 0, 1, 0, 1, [⟨F.ENG_GLB_CTL_CNT_CLR, .wo, 0⟩]⟩,
  ⟨R.ENG_GLB_STS, 0, 1, 0, 1, [⟨F.ENG_GLB_STS_MISS, .ro, 0⟩, ⟨F.ENG_GLB_STS_RUN, .ro, 0⟩]⟩,
  ⟨R.ARB_CFG 0, 16, 12, 0, 1, [⟨F.ARB_CFG_CLASS, .ro, 0⟩, ⟨F.ARB_CFG_STARVE, .rw, 4096⟩, ⟨F.ARB_CFG_WEIGHT, .rw, 0⟩]⟩,
  ⟨R.ARB_GRANT 0, 16, 12, 0, 1, [⟨F.ARB_GRANT_GRANTS, .ro, 0⟩]⟩,
  ⟨R.ARB_WAIT_LO 0, 16, 12, 0, 1, [⟨F.ARB_WAIT_LO_WAIT, .ro, 0⟩]⟩,
  ⟨R.ARB_WAIT_HI 0, 16, 12, 0, 1, [⟨F.ARB_WAIT_HI_LONGEST, .ro, 0⟩, ⟨F.ARB_WAIT_HI_WAIT, .ro, 0⟩]⟩,
  ⟨R.ARB_CTL, 0, 1, 0, 1, [⟨F.ARB_CTL_CLR, .wo, 0⟩, ⟨F.ARB_CTL_SNAP, .wo, 0⟩]⟩,
  ⟨R.ARB_STS, 0, 1, 0, 1, [⟨F.ARB_STS_MASK, .ro, 0⟩, ⟨F.ARB_STS_OVR, .ro, 0⟩]⟩,
  ⟨R.ARB_SNAP_BLK_LO, 0, 1, 0, 1, [⟨F.ARB_SNAP_BLK_LO_BLK, .ro, 0⟩]⟩,
  ⟨R.ARB_SNAP_BLK_HI, 0, 1, 0, 1, [⟨F.ARB_SNAP_BLK_HI_BLK, .ro, 0⟩]⟩,
  ⟨R.LCK_STS 0, 32, 32, 0, 1, [⟨F.LCK_STS_HELD, .ro, 0⟩, ⟨F.LCK_STS_ABANDONED, .w1c, 0⟩, ⟨F.LCK_STS_OWNER, .ro, 0⟩, ⟨F.LCK_STS_STATE, .ro, 0⟩]⟩,
  ⟨R.LCK_LEASE 0, 32, 32, 0, 1, [⟨F.LCK_LEASE_REMAIN, .ro, 0⟩, ⟨F.LCK_LEASE_LEASE, .ro, 0⟩]⟩,
  ⟨R.LCK_ACQ_BLK_LO 0, 32, 32, 0, 1, [⟨F.LCK_ACQ_BLK_LO_BLK, .ro, 0⟩]⟩,
  ⟨R.LCK_ACQ_BLK_HI 0, 32, 32, 0, 1, [⟨F.LCK_ACQ_BLK_HI_BLK, .ro, 0⟩]⟩,
  ⟨R.LCK_REL_BLK_LO 0, 32, 32, 0, 1, [⟨F.LCK_REL_BLK_LO_BLK, .ro, 0⟩]⟩,
  ⟨R.LCK_REL_BLK_HI 0, 32, 32, 0, 1, [⟨F.LCK_REL_BLK_HI_BLK, .ro, 0⟩]⟩,
  ⟨R.LCK_STAGED 0, 32, 32, 0, 1, [⟨F.LCK_STAGED_DATA, .ro, 0⟩, ⟨F.LCK_STAGED_DESC, .ro, 0⟩]⟩,
  ⟨R.LCK_CNT 0, 32, 32, 0, 1, [⟨F.LCK_CNT_ABANDONS, .ro, 0⟩, ⟨F.LCK_CNT_COMMITS, .ro, 0⟩]⟩,
  ⟨R.LCK_GLB_CTL, 0, 1, 0, 1, [⟨F.LCK_GLB_CTL_CNT_CLR, .wo, 0⟩]⟩,
  ⟨R.LCK_GLB_STS, 0, 1, 0, 1, [⟨F.LCK_GLB_STS_STAGE_FULL, .w1c, 0⟩]⟩,
  ⟨R.LCK_HELD, 0, 1, 0, 1, [⟨F.LCK_HELD_LOCKS, .ro, 0⟩]⟩,
  ⟨R.LCK_ABANDONED, 0, 1, 0, 1, [⟨F.LCK_ABANDONED_LOCKS, .w1c, 0⟩]⟩,
  ⟨R.LCK_STAGE, 0, 1, 0, 1, [⟨F.LCK_STAGE_DATA, .ro, 0⟩, ⟨F.LCK_STAGE_DESC, .ro, 0⟩]⟩,
  ⟨R.LCK_OWNER_RST, 0, 1, 0, 1, [⟨F.LCK_OWNER_RST_GO, .wo, 0⟩, ⟨F.LCK_OWNER_RST_OWNER, .rw, 0⟩]⟩,
  ⟨R.LCK_LAST, 0, 1, 0, 1, [⟨F.LCK_LAST_CAUSE, .ro, 0⟩, ⟨F.LCK_LAST_LOCK, .ro, 0⟩, ⟨F.LCK_LAST_OWNER, .ro, 0⟩]⟩,
  ⟨R.LCK_COMMITS, 0, 1, 0, 1, [⟨F.LCK_COMMITS_COUNT, .ro, 0⟩]⟩,
  ⟨R.LCK_REFUSED, 0, 1, 0, 1, [⟨F.LCK_REFUSED_COUNT, .ro, 0⟩]⟩,
  ⟨R.LCK_FAILED, 0, 1, 0, 1, [⟨F.LCK_FAILED_COUNT, .ro, 0⟩]⟩]

/-- The registers of the page that starts at 0x0F000. -/
def regTableMEM : List RegDef := [
  ⟨R.MEM_CNT 0, 4, 28, 0, 1, [⟨F.MEM_CNT_UNCORR, .ro, 0⟩, ⟨F.MEM_CNT_CORR, .ro, 0⟩]⟩,
  ⟨R.MEM_CTL, 0, 1, 0, 1, [⟨F.MEM_CTL_CNT_CLR, .wo, 0⟩, ⟨F.MEM_CTL_EVT_CORR, .rw, 1⟩]⟩,
  ⟨R.MEM_STS, 0, 1, 0, 1, [⟨F.MEM_STS_DOWN, .ro, 0⟩, ⟨F.MEM_STS_STAGE_DOWN, .ro, 0⟩, ⟨F.MEM_STS_REPAIR_FULL, .w1c, 0⟩, ⟨F.MEM_STS_UNCORR, .w1c, 0⟩, ⟨F.MEM_STS_CORR, .w1c, 0⟩, ⟨F.MEM_STS_WORST, .ro, 0⟩]⟩,
  ⟨R.MEM_LEVEL_CNT, 0, 1, 0, 1, [⟨F.MEM_LEVEL_CNT_DEGRADED, .ro, 0⟩, ⟨F.MEM_LEVEL_CNT_CONTAINED, .ro, 0⟩]⟩,
  ⟨R.MEM_LAST, 0, 1, 0, 1, [⟨F.MEM_LAST_LEVEL, .ro, 0⟩, ⟨F.MEM_LAST_STORE, .ro, 0⟩, ⟨F.MEM_LAST_KIND, .ro, 0⟩, ⟨F.MEM_LAST_INDEX, .ro, 0⟩]⟩,
  ⟨R.MEM_LAST_ADDR, 0, 1, 0, 1, [⟨F.MEM_LAST_ADDR_ADDR, .ro, 0⟩]⟩,
  ⟨R.MEM_LAST_BLK, 0, 1, 0, 1, [⟨F.MEM_LAST_BLK_BLK, .ro, 0⟩]⟩,
  ⟨R.MEM_SCRUB_CFG, 0, 1, 0, 1, [⟨F.MEM_SCRUB_CFG_DRAM_EN, .rw, 1⟩, ⟨F.MEM_SCRUB_CFG_PERIOD, .rw, 10⟩]⟩,
  ⟨R.MEM_DRAM_CFG, 0, 1, 0, 1, [⟨F.MEM_DRAM_CFG_REPAIR_EN, .rw, 1⟩, ⟨F.MEM_DRAM_CFG_REPAIR_THR, .rw, 8⟩]⟩,
  ⟨R.MEM_DRAM_REPAIR, 0, 1, 0, 1, [⟨F.MEM_DRAM_REPAIR_FREE, .ro, 1638⟩, ⟨F.MEM_DRAM_REPAIR_USED, .ro, 0⟩]⟩,
  ⟨R.MEM_LINK_CNT, 0, 1, 0, 1, [⟨F.MEM_LINK_CNT_REPLAY, .ro, 0⟩, ⟨F.MEM_LINK_CNT_SUBST, .ro, 0⟩]⟩,
  ⟨R.MEM_LINK_STS, 0, 1, 0, 1, [⟨F.MEM_LINK_STS_UP, .ro, 0⟩, ⟨F.MEM_LINK_STS_DOWN, .ro, 0⟩]⟩,
  ⟨R.MEM_MLINK_CNT, 0, 1, 0, 1, [⟨F.MEM_MLINK_CNT_STALE, .ro, 0⟩, ⟨F.MEM_MLINK_CNT_BAD, .ro, 0⟩]⟩,
  ⟨R.MEM_RST_CAUSE, 0, 1, 0, 1, [⟨F.MEM_RST_CAUSE_CAUSE, .ro, 0⟩, ⟨F.MEM_RST_CAUSE_COUNT, .ro, 0⟩]⟩,
  ⟨R.MEM_EVT_DET_SEL, 0, 1, 0, 1, [⟨F.MEM_EVT_DET_SEL_SEQ, .rw, 0⟩]⟩,
  ⟨R.MEM_EVT_DET 0, 4, 4, 0, 1, [⟨F.MEM_EVT_DET_DATA, .ro, 0⟩]⟩,
  ⟨R.MEM_INJ, 0, 1, 0, 1, [⟨F.MEM_INJ_GO, .wo, 0⟩, ⟨F.MEM_INJ_DOUBLE, .rw, 0⟩, ⟨F.MEM_INJ_STORE, .rw, 0⟩]⟩,
  ⟨R.JNL_CTL, 0, 1, 0, 1, [⟨F.JNL_CTL_COMPACT, .wo, 0⟩, ⟨F.JNL_CTL_CNT_CLR, .wo, 0⟩]⟩,
  ⟨R.JNL_STS, 0, 1, 0, 1, [⟨F.JNL_STS_BUSY, .ro, 0⟩, ⟨F.JNL_STS_COMPACTING, .ro, 0⟩, ⟨F.JNL_STS_REGION, .ro, 0⟩, ⟨F.JNL_STS_DIVERGENT, .w1c, 0⟩, ⟨F.JNL_STS_CRC_ERR, .w1c, 0⟩, ⟨F.JNL_STS_FAIL1, .ro, 0⟩, ⟨F.JNL_STS_FAIL0, .ro, 0⟩, ⟨F.JNL_STS_TORN, .w1c, 0⟩, ⟨F.JNL_STS_READY, .ro, 0⟩]⟩,
  ⟨R.JNL_REGION 0, 4, 2, 0, 1, [⟨F.JNL_REGION_ACTIVE, .ro, 0⟩, ⟨F.JNL_REGION_SPARE_ERASED, .ro, 0⟩, ⟨F.JNL_REGION_RECORDS, .ro, 0⟩]⟩,
  ⟨R.JNL_FREE 0, 4, 2, 0, 1, [⟨F.JNL_FREE_BYTES, .ro, 0⟩]⟩,
  ⟨R.JNL_EPOCH 0, 4, 2, 0, 1, [⟨F.JNL_EPOCH_EPOCH, .ro, 0⟩]⟩,
  ⟨R.JNL_CNT, 0, 1, 0, 1, [⟨F.JNL_CNT_COUNT, .ro, 0⟩]⟩,
  ⟨R.JNL_CRC_CNT, 0, 1, 0, 1, [⟨F.JNL_CRC_CNT_SKIP, .ro, 0⟩, ⟨F.JNL_CRC_CNT_CORRUPT, .ro, 0⟩]⟩,
  ⟨R.JNL_COMPACT_CNT, 0, 1, 0, 1, [⟨F.JNL_COMPACT_CNT_COUNT, .ro, 0⟩]⟩,
  ⟨R.JNL_DIV_CNT, 0, 1, 0, 1, [⟨F.JNL_DIV_CNT_COUNT, .ro, 0⟩]⟩,
  ⟨R.JNL_LAST_KEY, 0, 1, 0, 1, [⟨F.JNL_LAST_KEY_VALUE, .ro, 0⟩]⟩,
  ⟨R.JNL_LAST_GEN, 0, 1, 0, 1, [⟨F.JNL_LAST_GEN_VALUE, .ro, 0⟩]⟩,
  ⟨R.JNL_FLASH_STS, 0, 1, 0, 1, [⟨F.JNL_FLASH_STS_OP, .ro, 0⟩, ⟨F.JNL_FLASH_STS_FAULTS, .ro, 0⟩]⟩,
  ⟨R.JNL_FENCE_CNT, 0, 1, 0, 1, [⟨F.JNL_FENCE_CNT_F_PORT, .ro, 0⟩, ⟨F.JNL_FENCE_CNT_H_PORT, .ro, 0⟩]⟩,
  ⟨R.JNL_ERASE_MAX, 0, 1, 0, 1, [⟨F.JNL_ERASE_MAX_COUNT, .ro, 0⟩]⟩,
  ⟨R.JNL_GRP 0, 4, 16, 0, 1, [⟨F.JNL_GRP_BLK, .ro, 0⟩]⟩,
  ⟨R.JNL_DIV 0, 4, 16, 0, 1, [⟨F.JNL_DIV_KEY, .ro, 0⟩, ⟨F.JNL_DIV_VALID, .ro, 0⟩]⟩]

/-- The registers of the page that starts at 0x10000. -/
def regTableTST : List RegDef := [
  ⟨R.TST_SEL 0, 4, 3, 0, 1, [⟨F.TST_SEL_EN, .rw, 0⟩, ⟨F.TST_SEL_DIV, .rw, 0⟩, ⟨F.TST_SEL_SIG, .rw, 0⟩]⟩,
  ⟨R.TST_CTL, 0, 1, 0, 1, [⟨F.TST_CTL_CNT_CLR, .wo, 0⟩, ⟨F.TST_CTL_ATP_BUF, .rw, 0⟩]⟩,
  ⟨R.TST_STS, 0, 1, 0, 1, [⟨F.TST_STS_MEXCL, .ro, 0⟩, ⟨F.TST_STS_TESTEN, .ro, 0⟩, ⟨F.TST_STS_ACTIVE, .ro, 0⟩, ⟨F.TST_STS_DENIED, .w1c, 0⟩]⟩,
  ⟨R.TST_REFUSED, 0, 1, 0, 1, [⟨F.TST_REFUSED_COUNT, .ro, 0⟩]⟩,
  ⟨R.TST_JTAG, 0, 1, 0, 1, [⟨F.TST_JTAG_ACCESS, .ro, 0⟩, ⟨F.TST_JTAG_IR, .ro, 1⟩, ⟨F.TST_JTAG_REGWIN, .ro, 0⟩]⟩,
  ⟨R.TST_IDCODE, 0, 1, 0, 1, [⟨F.TST_IDCODE_ID, .ro, 410256061⟩]⟩,
  ⟨R.TST_AVAIL 0, 4, 8, 0, 1, [⟨F.TST_AVAIL_SIG, .ro, 0⟩]⟩,
  ⟨R.TST_KIND 0, 4, 8, 0, 1, [⟨F.TST_KIND_SIG, .ro, 0⟩]⟩,
  ⟨R.MLK_STS, 0, 1, 0, 1, [⟨F.MLK_STS_STALE, .ro, 0⟩, ⟨F.MLK_STS_SEALED, .ro, 0⟩, ⟨F.MLK_STS_LEGAL_OK, .ro, 0⟩, ⟨F.MLK_STS_REASON, .ro, 0⟩, ⟨F.MLK_STS_LOG_FULL, .ro, 0⟩, ⟨F.MLK_STS_MEASURING, .ro, 0⟩, ⟨F.MLK_STS_VER_EN, .ro, 0⟩, ⟨F.MLK_STS_OVERLOAD, .ro, 0⟩]⟩,
  ⟨R.MLK_LAEQ, 0, 1, 0, 1, [⟨F.MLK_LAEQ_SECOND, .ro, 0⟩, ⟨F.MLK_LAEQ_LAEQ, .ro, 0⟩]⟩,
  ⟨R.MLK_SEQ_NEW, 0, 1, 0, 1, [⟨F.MLK_SEQ_NEW_SEQ, .ro, 0⟩]⟩,
  ⟨R.MLK_SEQ_OLD, 0, 1, 0, 1, [⟨F.MLK_SEQ_OLD_SEQ, .ro, 0⟩]⟩,
  ⟨R.MLK_SEQ_ACK, 0, 1, 0, 1, [⟨F.MLK_SEQ_ACK_SEQ, .ro, 0⟩]⟩,
  ⟨R.MLK_CAL_SLOT, 0, 1, 0, 1, [⟨F.MLK_CAL_SLOT_WRITTEN, .ro, 0⟩, ⟨F.MLK_CAL_SLOT_CORR, .ro, 0⟩]⟩,
  ⟨R.MLK_SENS, 0, 1, 0, 1, [⟨F.MLK_SENS_SENS, .ro, 0⟩]⟩,
  ⟨R.MLK_SETTINGS, 0, 1, 0, 1, [⟨F.MLK_SETTINGS_FWD_EN, .ro, 0⟩, ⟨F.MLK_SETTINGS_BAUD, .ro, 0⟩]⟩,
  ⟨R.MLK_HEAD 0, 4, 8, 0, 1, [⟨F.MLK_HEAD_HASH, .ro, 0⟩]⟩,
  ⟨R.MLK_LIM_CFG, 0, 1, 0, 1, [⟨F.MLK_LIM_CFG_EN, .rw, 0⟩, ⟨F.MLK_LIM_CFG_WINDOW, .rw, 60⟩]⟩,
  ⟨R.MLK_LIM_TGT, 0, 1, 0, 1, [⟨F.MLK_LIM_TGT_HYST, .rw, 10⟩, ⟨F.MLK_LIM_TGT_TARGET, .rw, 10000⟩]⟩,
  ⟨R.MLK_LIM_RATE, 0, 1, 0, 1, [⟨F.MLK_LIM_RATE_MAX_GR, .rw, 12⟩, ⟨F.MLK_LIM_RATE_RELEASE, .rw, 2⟩, ⟨F.MLK_LIM_RATE_ATTACK, .rw, 5⟩]⟩,
  ⟨R.MLK_LIM_MASK, 0, 1, 0, 1, [⟨F.MLK_LIM_MASK_SINKS, .rw, 0⟩]⟩,
  ⟨R.MLK_LIM_STS, 0, 1, 0, 1, [⟨F.MLK_LIM_STS_LEQ, .ro, 0⟩, ⟨F.MLK_LIM_STS_GR, .ro, 0⟩]⟩,
  ⟨R.MLK_CNT, 0, 1, 0, 1, [⟨F.MLK_CNT_REFUSED, .ro, 0⟩, ⟨F.MLK_CNT_LOST, .ro, 0⟩]⟩,
  ⟨R.MLK_ROM, 0, 1, 0, 1, [⟨F.MLK_ROM_VERSION, .ro, 0⟩, ⟨F.MLK_ROM_CRC, .ro, 0⟩]⟩,
  ⟨R.MLK_LAST_SEC, 0, 1, 0, 1, [⟨F.MLK_LAST_SEC_BLK, .ro, 0⟩]⟩,
  ⟨R.CAL_TIME_LO, 0, 1, 0, 1, [⟨F.CAL_TIME_LO_TIME, .ro, 0⟩]⟩,
  ⟨R.CAL_TIME_HI, 0, 1, 0, 1, [⟨F.CAL_TIME_HI_TIME, .ro, 0⟩]⟩,
  ⟨R.CAL_ARR_LO, 0, 1, 0, 1, [⟨F.CAL_ARR_LO_ARR, .ro, 0⟩]⟩,
  ⟨R.CAL_ARR_HI, 0, 1, 0, 1, [⟨F.CAL_ARR_HI_ARR, .ro, 0⟩]⟩,
  ⟨R.CAL_DATE, 0, 1, 0, 1, [⟨F.CAL_DATE_WEEKDAY, .ro, 0⟩, ⟨F.CAL_DATE_YEAR, .ro, 0⟩, ⟨F.CAL_DATE_MONTH, .ro, 0⟩, ⟨F.CAL_DATE_DAY, .ro, 0⟩]⟩,
  ⟨R.CAL_CLOCK, 0, 1, 0, 1, [⟨F.CAL_CLOCK_HOUR, .ro, 0⟩, ⟨F.CAL_CLOCK_MIN, .ro, 0⟩, ⟨F.CAL_CLOCK_SEC, .ro, 0⟩]⟩,
  ⟨R.CAL_STS, 0, 1, 0, 1, [⟨F.CAL_STS_ON_VBAK, .ro, 0⟩, ⟨F.CAL_STS_LOST, .ro, 0⟩, ⟨F.CAL_STS_VALID, .ro, 0⟩]⟩,
  ⟨R.CAL_TRIM, 0, 1, 0, 1, [⟨F.CAL_TRIM_TC, .ro, 0⟩, ⟨F.CAL_TRIM_TRIM, .ro, 0⟩]⟩,
  ⟨R.CAL_ADJ_CNT, 0, 1, 0, 1, [⟨F.CAL_ADJ_CNT_COUNT, .ro, 0⟩]⟩,
  ⟨R.CAL_ADJ_OLD_LO, 0, 1, 0, 1, [⟨F.CAL_ADJ_OLD_LO_TIME, .ro, 0⟩]⟩,
  ⟨R.CAL_ADJ_OLD_HI, 0, 1, 0, 1, [⟨F.CAL_ADJ_OLD_HI_TIME, .ro, 0⟩]⟩,
  ⟨R.CAL_ADJ_NEW_LO, 0, 1, 0, 1, [⟨F.CAL_ADJ_NEW_LO_TIME, .ro, 0⟩]⟩,
  ⟨R.CAL_ADJ_NEW_HI, 0, 1, 0, 1, [⟨F.CAL_ADJ_NEW_HI_TIME, .ro, 0⟩]⟩,
  ⟨R.CAL_VBAK, 0, 1, 0, 1, [⟨F.CAL_VBAK_MV, .ro, 0⟩]⟩,
  ⟨R.CAL_TEMP, 0, 1, 0, 1, [⟨F.CAL_TEMP_TEMP, .ro, 0⟩]⟩,
  ⟨R.CAL_OSC, 0, 1, 0, 1, [⟨F.CAL_OSC_ERR, .ro, 0⟩]⟩]

/-- The register definitions of the page that holds an address (R434). -/
def regTableAt (a : Nat) : List RegDef :=
  if a < 0x01000 then regTableGLB
  else if a < 0x02000 then regTableCLK
  else if a < 0x03000 then regTableHIF
  else if a < 0x04000 then regTablePROT
  else if a < 0x05000 then regTableNET
  else if a < 0x06000 then regTableARR
  else if a < 0x07000 then regTableSAP
  else if a < 0x08000 then regTableAFE
  else if a < 0x09000 then regTableSNS
  else if a < 0x0A000 then regTableFLT
  else if a < 0x0C000 then regTableMP
  else if a < 0x0D000 then regTableTTH
  else if a < 0x0E000 then regTablePWR
  else if a < 0x0F000 then regTableENG
  else if a < 0x10000 then regTableMEM
  else regTableTST

/-- The indices of the register at an address, where this definition holds one there. -/
def RegDef.index (d : RegDef) (a : Nat) : Option (Nat × Nat) :=
  if a < d.base then none
  else
    let off := a - d.base
    if d.s1 = 0 then (if off = 0 then some (0, 0) else none)
    else
      let i := off / d.s1
      let r := off % d.s1
      if d.n1 ≤ i then none
      else if d.s2 = 0 then (if r = 0 then some (i, 0) else none)
      else if r % d.s2 = 0 ∧ r / d.s2 < d.n2 then some (i, r / d.s2) else none

/-- The first definition of a table that holds a register at an address, with the register's indices. -/
def findIn : List RegDef → Nat → Option (RegDef × Nat × Nat)
  | [], _ => none
  | d :: ds, a =>
    match d.index a with
    | some (i, j) => some (d, i, j)
    | none => findIn ds a

/-- The definition of the register at an address, none where no register is (R434, R437). -/
def findReg (a : Nat) : Option (RegDef × Nat × Nat) := findIn (regTableAt a) a

/-- A register is present at the address (R437 step 3). -/
def regPresent (a : Nat) : Bool := a % 4 == 0 && (findReg a).isSome

/-- The fields of the register at an address. -/
def fieldsAt (a : Nat) : List FieldDef :=
  match findReg a with
  | some (d, _, _) => d.fields
  | none => []

/-- The reset word that a list of fields gives. -/
def fieldsReset : List FieldDef → Word
  | [] => 0
  | f :: fs => (fieldsReset fs).setFld f.fld f.reset

/-- Entry size codes of the rings (R335): 32-byte commands and traces, 16-byte completions and events, 1,024-byte gather
packets; the stream rings reset to 2 KiB, and the reserved ring 15 has no entries. -/
def ringEsizeReset (r : Nat) : Nat :=
  if r = 0 ∨ r = 3 ∨ r = 14 then 5
  else if r = 1 ∨ r = 2 ∨ r = 4 then 4
  else if r = 5 then 10
  else if r = 15 then 0
  else 11

/-- The registers whose reset value is a fuse, a factory value, or depends on the index (chapter tables). -/
def resetSpecial (a : Nat) (i j : Nat) : Option Word :=
  if a < 0x1000 then
    if a = R.GLB_ORDER then some (Config.orderWord)
    else if a = R.GLB_DIE_ID_LO then some (Config.dieId.setWidth 32)
    else if a = R.GLB_DIE_ID_HI then some ((Config.dieId >>> 32).setWidth 32)
    else if a = R.GLB_ROM_VER then some Config.romVer
    else if 0x80 ≤ a ∧ a < 0x90 then some (Config.fuse i)
    else none
  else if 0x2000 ≤ a ∧ a < 0x2200 ∧ a % 0x20 = 8 then
    some (((0 : Word).setFld F.HIF_RING_CFG_VEC i |>.setFld F.HIF_RING_CFG_LOG2_SIZE 8).setFld
      F.HIF_RING_CFG_LOG2_ESIZE (ringEsizeReset i))
  else if 0x3400 ≤ a ∧ a < 0x3420 then some (Config.msigFactory i)
  else if 0x6000 ≤ a ∧ a < 0x6800 ∧ 0x20 ≤ a % 0x100 ∧ a % 0x100 < 0xA0 then
    some ((((0 : Word).setFld F.SAP_SLOT_LEN 2).setFld F.SAP_SLOT_HIZ 1).setFld F.SAP_SLOT_START (32 * j))
  else if 0x9000 ≤ a ∧ a < 0x9400 ∧ a % 0x40 = 0x34 then
    some (if i < 8 then ((0 : Word).setFld F.FLT_DELAY_USAMP 73).setFld F.FLT_DELAY_GD 9229
      else ((0 : Word).setFld F.FLT_DELAY_USAMP 65).setFld F.FLT_DELAY_GD 8272)
  else if 0xE400 ≤ a ∧ a < 0xE4C0 ∧ a % 0x10 = 0 then
    some ((((0 : Word).setFld F.ARB_CFG_CLASS (if i < 8 ∨ i = 10 then 1 else 0)).setFld F.ARB_CFG_STARVE 4096).setFld
      F.ARB_CFG_WEIGHT (if i = 8 ∨ i = 10 then 4 else if i = 11 then 1 else 2))
  else if a = R.MLK_ROM then some Config.mlkRom
  else none

/-- The word a register resets to; an address that holds no register reads as zero (R437). -/
def resetWord (a : Nat) : Word :=
  match findReg a with
  | none => 0
  | some (d, i, j) =>
    match resetSpecial a i j with
    | some w => w
    | none => fieldsReset d.fields

/-- The die that holds a register (R434). -/
inductive Die where
  | hub | front | super | metro
deriving DecidableEq, Repr

/-- Where a register is held (R434, R435). -/
def heldOn (a : Nat) : Die :=
  if a = R.CLK_HIST_HEAD ∨ a = R.CLK_MODE_CNT ∨ (0x1080 ≤ a ∧ a < 0x1088) ∨ (0x1100 ≤ a ∧ a < 0x1300) then .front
  else if a = R.CLK_SUPPLY_STS ∨ (0x1040 ≤ a ∧ a < 0x1080) then .super
  else if a < 0x6000 then .hub
  else if a < 0xA000 then .front
  else if a < 0xC000 then .hub
  else if a < 0xE000 then .front
  else if a = R.MEM_RST_CAUSE then .front
  else if a < 0x10100 then .hub
  else if a < 0x10140 then .metro
  else if a = R.MLK_LIM_CFG ∨ a = R.MLK_LIM_TGT ∨ a = R.MLK_LIM_RATE ∨ a = R.MLK_LIM_MASK ∨ a = R.MLK_LIM_STS then .hub
  else .metro

/-- The F registers that keep their values through RESET_N (R435, R408). -/
def alwaysOn (a : Nat) : Bool :=
  a == R.MEM_RST_CAUSE || a == R.CLK_HIST_HEAD || a == R.CLK_MODE_CNT || (0x1100 ≤ a && a < 0x1300)

end Sys2Proof.Machine
end

