-- ==== Sys2Proof/Machine/RegFile.lean ====
section
/-!
DEFINITION. The register file as plain data: a list of (address, word) pairs in one canonical form, addresses strictly
rising and no entry equal to the word that the register resets to. An address that is not listed reads its reset word.
-/
namespace Sys2Proof.Machine

/-- One listed register: its address and its word. -/
abbrev RegCell := Nat × Word

/-- A register file: the registers that differ from their reset words, in rising address order. -/
abbrev RegFile := List RegCell

/-- The word listed for an address. -/
def RegFile.find : RegFile → Nat → Option Word
  | [], _ => none
  | (b, v) :: rest, a => if b = a then some v else RegFile.find rest a

/-- The word that a register holds. -/
def RegFile.get (rf : RegFile) (a : Nat) : Word :=
  match rf.find a with
  | some v => v
  | none => resetWord a

/-- The file without an entry for an address. -/
def RegFile.erase : RegFile → Nat → RegFile
  | [], _ => []
  | (b, v) :: rest, a => if b = a then RegFile.erase rest a else (b, v) :: RegFile.erase rest a

/-- The file with an entry put in address order. -/
def RegFile.insert : RegFile → Nat → Word → RegFile
  | [], a, v => [(a, v)]
  | (b, w) :: rest, a, v => if a < b then (a, v) :: (b, w) :: rest else (b, w) :: RegFile.insert rest a v

/-- The file after a write of one register; writing the reset word removes the entry. -/
def RegFile.set (rf : RegFile) (a : Nat) (v : Word) : RegFile :=
  if v = resetWord a then rf.erase a else (rf.erase a).insert a v

/-- The addresses of a file are strictly rising from a bound. -/
def RegFile.sortedFrom : Nat → RegFile → Bool
  | _, [] => true
  | n, (b, _) :: rest => decide (n ≤ b) && RegFile.sortedFrom (b + 1) rest

/-- No entry equals the word that its address resets to. -/
def RegFile.tight : RegFile → Bool
  | [] => true
  | (b, v) :: rest => decide (v ≠ resetWord b) && RegFile.tight rest

/-- The canonical form. -/
def RegFile.wf (rf : RegFile) : Bool := RegFile.sortedFrom 0 rf && RegFile.tight rf

/-- The value of one field of one register. -/
def RegFile.fld (rf : RegFile) (a : Nat) (f : Fld) : Nat := (rf.get a).fld f

/-- The file after a write of one field of one register. -/
def RegFile.setFld (rf : RegFile) (a : Nat) (f : Fld) (x : Nat) : RegFile := rf.set a ((rf.get a).setFld f x)

/-- The file with every register of a die back at its reset word, but for the ones that a test keeps. -/
def RegFile.resetWhere (p : Nat → Bool) : RegFile → RegFile
  | [] => []
  | (b, v) :: rest => if p b then RegFile.resetWhere p rest else (b, v) :: RegFile.resetWhere p rest

end Sys2Proof.Machine
end

