-- ==== Sys2Proof/Machine/State.lean ====
section
/-!
DEFINITION. The state of the block as plain data: the register file, and beside it everything that the spec gives the
block and no register shows. Each part stands under the chapter of the spec that gives it.
-/
namespace Sys2Proof.Machine

/-! ### What the block sends -/

/-- What the block sends to the outside, newest first in the state's log. -/
inductive Output where
  /-- A DMA write to host memory (R332). -/
  | hostWrite (addr : Nat) (bytes : List Byte)
  /-- MSI-X message v (R340). -/
  | msix (v : Nat)
  /-- The answer to an SMBus block read (R334). -/
  | smb (bytes : List Byte)
  /-- The words that an SPI read returned (R333). -/
  | spi (words : List Word)
  /-- A NAK on the H-F link, naming the first missing flit (R19). -/
  | nak (dir : LinkWay) (seq : Nat)
  /-- Replayed flits (R19). -/
  | flits (dir : LinkWay) (seqs : List Nat)
  /-- A talker frame of stream s with its avtp_timestamp (R187). -/
  | talker (s : Nat) (ts : Word)
  /-- The 24-bit words of data block k on each channel of talker stream s (R187). -/
  | talkerWords (s k : Nat) (words : List (List (BitVec 24)))
  /-- Data block k of the output sinks and transmit slots that play, on the way to the H-F link (R31); a transmit slot's rate
converter, if any, is still ahead (R121). -/
  | sinkBlock (k : Nat) (sinks : List (Nat × List Smp))
  /-- A received frame sent on the egress ports of a mask (R176). -/
  | forward (ports : Nat) (dst src : Mac)
  /-- A Zhevdom message of the part (R190): destination, TYPE, FLAGS, SEQ, payload. -/
  | zv (dst : Mac) (typ flags seq : Nat) (payload : List Byte)
  /-- A Clause 22 management frame (R175). -/
  | mdio (read : Bool) (phy reg data : Nat)
  /-- A MUART reply (R389): command, status, payload. -/
  | muart (cmd status : Nat) (payload : List Byte)
deriving DecidableEq, Repr, Inhabited

/-! ### Types of staged actions -/

/-- Where a SYNC comes from (R72). -/
inductive SyncSrc where
  | ball | command | armed
deriving DecidableEq, Repr, Inhabited

/-! ### Lists by key -/

/-- The value listed for a key. -/
def lookupKey {κ α : Type} [DecidableEq κ] (d : α) : List (κ × α) → κ → α
  | [], _ => d
  | (j, v) :: rest, k => if j = k then v else lookupKey d rest k

/-- The list with the value of a key replaced. -/
def putKey {κ α : Type} [DecidableEq κ] (l : List (κ × α)) (k : κ) (v : α) : List (κ × α) :=
  (k, v) :: l.filter (fun p => decide (p.1 ≠ k))

/-! ### Actions -/

/-- What a staged change does at its commit point. -/
inductive Act where
  /-- A write of one register as the window would make it; `byCmd` marks a REG_WRITE. -/
  | reg (addr : Nat) (v : Word) (byCmd : Bool)
  /-- The masked write of REG_WRITE_MASKED: the old value is taken at the commit point. -/
  | regMask (addr : Nat) (mask v : Word)
  /-- Consecutive registers. -/
  | regRun (addr : Nat) (vs : List Word)
  /-- A swap request for channel c: target bank and fade code (R69). -/
  | filterSwap (c : Nat) (bank : Bool) (fade : Nat)
  /-- A SYNC of the masked channels; no mask means FLT_SYNC_CTL.MASK (R72). -/
  | feSync (mask : Option Nat) (src : SyncSrc)
  /-- The register writes of a route preset, as copied when it was staged (R135). -/
  | preset (entries : List (Nat × Word))
  /-- The start of the staged program of engine n, or a change to STOP or PASS (R152). -/
  | engMode (n mode : Nat)
  /-- Parameter words for a program and a record of engine n (R155). -/
  | param (n progId rec off : Nat) (ws : List Word)
  /-- MP_COMP and MP_LIM of an output sink (SINK_DYNAMICS). -/
  | sinkDyn (k : Nat) (comp lim : Word)
  /-- A generator's setting (R470). -/
  | generator (g kind freq level seed : Nat)
  /-- The first data block that a stream ring carries, and the first that it no longer carries (R342, R343). -/
  | streamOn (r : Nat)
  | streamOff (r : Nat)
  /-- Node gains of Tether from a node on (R266). -/
  | tthGains (node : Nat) (ws : List Word)
  /-- A Tether mode command (R273, R278), a fault clear (R269), a self-test (R294). -/
  | tthMode (mask code : Nat)
  | tthFaultClear (mask : Nat)
  | tthSelftest
  /-- Source NET begins or ends on outputs (R200). -/
  | prioNet (on : Bool) (mask : Nat)
  /-- An offset calibration (R248), and a fault clear of an output (R252, R256). -/
  | offsetCal (c : Nat)
  | clearFault (c : Nat)
  /-- A calibration step of converter c (R326). -/
  | senseCal (c input gain kc step : Nat) (target : Int)
  /-- The release of a punty lock (R359). -/
  | lockRelease (k : Nat)
deriving DecidableEq, Repr, Inhabited

/-! ### Time, link, collector -/

/-- The clocks of the part: array time, the block counter and the present sample (R11, R12, R28 to R30). -/
structure Clock where
  /-- Array time in thirds of a nanosecond, so that block and sample boundaries are whole numbers (R468). -/
  now3 : Nat
  /-- The 64-bit block counter. -/
  blk : Nat
  /-- The present sample of the block, 0 to 15. -/
  smp : Nat
  /-- The audio PLL runs and blocks advance (R30). -/
  run : Bool
  /-- Whole blocks by which the block counter has drifted from the array-time block index (R29). -/
  slips : Nat
  /-- The counter reloads at the next boundary from the array-time block index (R30, R181). -/
  reload : Bool
deriving DecidableEq, Repr, Inhabited

/-- One sender and receiver of the H-F link: one direction (R19). -/
structure LinkDir where
  /-- The sequence number of the next flit to send. -/
  txSeq : Nat
  /-- The last flits sent, oldest first, at most 64. -/
  kept : List Flit
  /-- The flits that a NAK has put back for sending. -/
  resend : List Flit
  /-- The sequence number that the receiver expects. -/
  rxSeq : Nat
  /-- The sequence number that the receiver's last NAK named. -/
  nak : Option Nat
  /-- Good flits received in a row while training (R373). -/
  good : Nat
deriving DecidableEq, Repr, Inhabited

/-- The die-to-die links. -/
structure Link where
  /-- H to F. -/
  down : LinkDir
  /-- F to H. -/
  up : LinkDir
  /-- F declares the link up at its end (R22). -/
  fUp : Bool
  /-- The block in which H declared the link down, none while it has not. -/
  downAt : Option Nat
  /-- This block already counted a substitution (R21, R373). -/
  substSeen : Bool
  /-- Words replaced in this block on F to P0, P0 to F, F to P1, P1 to F (R24). -/
  parBlk : List Nat
  /-- The replacement counter advanced in this second, per link (R23). -/
  parSec : List Bool
deriving DecidableEq, Repr, Inhabited

/-- A happening that waits for its sequence number. -/
structure HeldEvent where
  src : Nat
  code : Nat
  /-- Array time of the happening in ns (R44). -/
  ts : Nat
  detail : List Nat
deriving DecidableEq, Repr, Inhabited

/-- A merge count for one source and code (R45). -/
structure MergeCount where
  src : Nat
  code : Nat
  count : Nat
  /-- The time of the happening that began the count. -/
  ts : Nat
deriving DecidableEq, Repr, Inhabited

/-- An event in the collector, with its global sequence number (R43). -/
structure Event where
  seq : Nat
  src : Nat
  code : Nat
  ts : Nat
  detail : List Nat
deriving DecidableEq, Repr, Inhabited

/-- An overflow store, on H or on F (R45). -/
structure Overflow where
  events : List HeldEvent
  merges : List MergeCount
  lost : Nat
deriving DecidableEq, Repr, Inhabited

/-- The event collector (R43, R45, R469) with the detail store (R375). -/
structure Collector where
  /-- Events that hold a sequence number and wait for ring 2, oldest first. -/
  queue : List Event
  /-- The collector's own merge counts, in the order in which they began. -/
  merges : List MergeCount
  hub : Overflow
  front : Overflow
  /-- The next global sequence number. -/
  nextSeq : Nat
  /-- Details by slot: (slot, sequence number, bytes). -/
  details : List (Nat × Nat × List Nat)
  /-- When a rate-limited event was last raised: (source and code, time in thirds of ns). -/
  holdoff : List (Nat × Nat)
deriving DecidableEq, Repr, Inhabited

/-! ### Host interface -/

/-- The completion of a descriptor (R347, R349). -/
structure Completion where
  status : Status
  late : Bool
  slipped : Bool
  chained : Bool
  eff : Nat
  /-- The fault event that the completion depends on, by sequence number (R377). -/
  dep : Option Nat
deriving DecidableEq, Repr, Inhabited

/-- A descriptor that has been read and whose record is not yet posted (R346, R347). -/
structure InFlight where
  /-- Its number on this origin since reset, and its ordinal on its ring since the ring was enabled (R347). -/
  ord : Nat
  num : Nat
  op : Nat
  tag : Nat
  noCpl : Bool
  /-- The operation has begun. -/
  begun : Bool
  /-- The AT_BLOCK index, for LATE (R347). -/
  want : Option Nat
  /-- The descriptor belongs to a sequence that commits (R359). -/
  chained : Bool
  /-- The change was moved to a later block (R157). -/
  slip : Bool
  /-- The open sequence that holds the completion of a chained descriptor that failed (R358). -/
  inLock : Option Nat
  cpl : Option Completion
deriving DecidableEq, Repr, Inhabited

/-- The queue of descriptors of one origin. -/
structure CmdQueue where
  nextOrd : Nat
  /-- The number of the first descriptor since the ring was enabled. -/
  base : Nat
  flight : List InFlight
deriving DecidableEq, Repr, Inhabited

/-- A stream entry announced and not yet taken (R342): data block, the block of its doorbell, channel count, samples. -/
structure StrAnn where
  k : Nat
  at_ : Nat
  count : Nat
  data : List Word
deriving DecidableEq, Repr, Inhabited

/-- What a ring keeps beside its registers. -/
structure RingX where
  /-- The last value written to the ring's doorbell (R338). -/
  door : Nat
  /-- The accepted tail while the ring drains (R354). -/
  accepted : Nat
  /-- First data block that a stream ring carries, and first that it no longer carries (R342). -/
  streamOn : Option Nat
  streamOff : Option Nat
  /-- Stream entries announced and not yet consumed. -/
  entries : List StrAnn
  /-- Data blocks consumed from the ring that wait to be played, with their samples. -/
  ready : List (Nat × List Word)
  /-- The last data block played, and its samples. -/
  played : Option Nat
  playing : List Word
  /-- The next entry written carries GAP (R343). -/
  gap : Bool
deriving DecidableEq, Repr, Inhabited

/-- The interrupt vectors beside their registers: the time of the first entry since the last firing (R340). -/
structure VecX where
  firstAt : Option Nat
deriving DecidableEq, Repr, Inhabited

/-- The host interface beside its registers. -/
structure HostX where
  rings : List RingX
  vecs : List VecX
  queues : List CmdQueue
  /-- A ring index changed in this block (R339). -/
  idxChanged : Bool
  /-- A status-block write failed and EN has not been set again (R339). -/
  sbDead : Bool
  /-- The last vector doorbells written. -/
  rearm : List Nat
  /-- MSI-X function mask, vector masks and pending bits (R340). -/
  msixFnMask : Bool
  msixMask : Nat
  msixPend : Nat
  /-- The SMBus register pointer, the last MCPL record, and SMB_ALERT_N driven low (R334). -/
  smbPtr : Nat
  smbLast : List Byte
  smbAlert : Bool
  /-- The word that the last register read returned on its bus. -/
  readData : Word
  /-- The copies that `_LO` reads latched: (agent, address of the high half, value) (R441). -/
  latches : List (Nat × Nat × Word)
deriving DecidableEq, Repr, Inhabited

/-! ### Staged changes -/

/-- A change staged for a commit point. -/
structure Staged where
  /-- The descriptor that asked for it, none for a window write. -/
  id : Option DescId
  /-- The block at which it takes effect. -/
  eff : Nat
  /-- The order of R346: ring 0, PARAM queues by controller, ring 3, the part, window writes. -/
  rank : Nat
  /-- The lock whose released sequence the change belongs to. -/
  lock : Option Nat
  act : Act
deriving DecidableEq, Repr, Inhabited

/-- Staged changes, the hold batch and the writes on their way to F. -/
structure Stage where
  changes : List Staged
  /-- The hold batch of R443, in arrival order. -/
  held : List (Nat × Word)
  /-- Register writes forwarded to F and not yet in effect (R440): address, the bits that act, word. -/
  toF : List (Nat × Word × Word)
deriving DecidableEq, Repr, Inhabited

/-! ### Locks -/

/-- A punty lock beside its registers (R356 to R361). -/
structure Lock where
  staged : List (DescId × Act)
  /-- A chained descriptor failed. -/
  failed : Bool
  /-- Payload bytes staged. -/
  bytes : Nat
  /-- The instant at which the lease expires, in thirds of ns. -/
  expires : Option Nat
deriving DecidableEq, Repr, Inhabited

/-! ### Errors -/

/-- Error handling beside the MEM_ registers. -/
structure ErrX where
  /-- The armed injection: store and double (R417, MEM_INJ). -/
  inject : Option (Nat × Bool)
  /-- The CORR counter of a store advanced in this second (R366). -/
  corrSec : List Nat
  /-- Corrected-error counts of DRAM rows that are not zero (R365). -/
  rows : List (Nat × Nat)
  /-- Rows moved to a repair unit. -/
  repaired : List Nat
  /-- MEM_REPAIR_EXHAUSTED has been raised. -/
  exhausted : Bool
  /-- First lost block of a cluster at the DEGRADED level (R368). -/
  lost : List (Option Nat)
  /-- The sequence number of the fault event of a cluster (R377). -/
  faultSeq : List (Option Nat)
  /-- Hub stages at the DEGRADED level, with the block of the declaration (R370). -/
  stages : List (Stg × Nat)
  /-- Each hub stage's last declaration and resumption (R370): the stage, the moment in samples of blocks, and whether it
  is a resumption, newest first. -/
  stageLog : List (Stg × Nat × Bool)
  /-- Output sinks muted by R371. -/
  muted : List Nat
  /-- Consecutive bad M-to-H frames (R374). -/
  mBad : Nat
deriving DecidableEq, Repr, Inhabited

/-! ### Front end -/

/-- A queued swap request (R69). -/
structure SwapReq where
  id : Option DescId
  bank : Bool
  fade : Nat
deriving DecidableEq, Repr, Inhabited

/-- A front-end channel beside its registers. -/
structure FeChan where
  /-- Coefficients that differ from the default design, by 256 * bank + index (R66, R67). -/
  coefs : List (Nat × Word)
  /-- The block at which the running fade began (R69), and its length in samples. -/
  fadeAt : Nat
  fadeLen : Nat
  queued : Option SwapReq
  /-- Banks A and B have failed (R471). -/
  failA : Bool
  failB : Bool
  /-- The only active bank has failed: the channel delivers zeros tagged U (R471). -/
  silent : Bool
  /-- The block at which EN took effect (R76). -/
  enAt : Nat
  /-- The modulator is released from the reset of R76. -/
  released : Bool
  /-- The moment at which the running gain-step search times out, in thirds of ns (R54). -/
  gainBy : Nat
  /-- The block of the last INPUT_OVER_RANGE event (R77). -/
  lastOvr : Option Nat
  /-- The FIR history, newest first (R66, R72). -/
  hist : List Word
  /-- The sample, counted over blocks, at which the chain last reset; and the one at which the modulator's overload began,
  until the chain has settled (R74, R78). -/
  resetAt : Nat
  ovlAt : Option Nat
  /-- The reset before that one. -/
  resetWas : Nat
  /-- What the channel delivers from a sample on, newest first: 0 its signal, 1 zeros tagged U, 2 zeros tagged O (R59,
  R471). -/
  kinds : List (Nat × Nat)
  /-- A fade cut by the failure of a bank (R471): the first sample after it, its block, its length, the bank faded to. -/
  fadeWas : Option (Nat × Nat × Nat × Bool)
  /-- Samples at which a requantisation ahead of the FIR's output saturated, newest first (R77). -/
  sats : List Nat
deriving DecidableEq, Repr, Inhabited

/-- The front end beside its registers. -/
structure FrontX where
  chans : List FeChan
  /-- PDM wires that hold one level now (R59). -/
  stuck : List Bool
deriving DecidableEq, Repr, Inhabited

def FeChan.reset : FeChan := ⟨[], 0, 0, none, false, false, false, 0, false, 0, none, [], 0, none, 0, [], none, []⟩

def FrontX.reset : FrontX := ⟨List.replicate 16 FeChan.reset, [false, false, false, false]⟩

/-! ### Serial audio ports and the audio PLL -/

/-- How a port direction runs (R93, R94). -/
inductive SapPhase where
  | stopped | watching | running | stopping
deriving DecidableEq, Repr, Inhabited

/-- How a direction meets Fi (R95). -/
inductive SapUse where
  | none | bypass | locked | track
deriving DecidableEq, Repr, Inhabited

/-- A slot of a direction: silent, searching for its first zero crossing, on, or searching for its last one. -/
inductive SlotPhase where
  | off | starting (by3 : Nat) | on | stopping (by3 : Nat)
deriving DecidableEq, Repr, Inhabited

/-- One direction of one port beside its registers; direction 2p receives and 2p + 1 transmits. -/
structure SapDir where
  phase : SapPhase
  use : SapUse
  /-- Step 3 of R93 follows at the next block boundary. -/
  lockNext : Bool
  /-- Shadow writes on their way, one batch for each write or hold release: (16 for the mask or the slot, word) (R91). -/
  crossing : List (List (Nat × Word))
  slots : List SlotPhase
  /-- A mode written and not yet in effect (R96). -/
  newUse : Option SapUse
deriving DecidableEq, Repr, Inhabited

/-- The ports and the audio PLL beside their registers. -/
structure SapX where
  dirs : List SapDir
  /-- The audio PLL reference in use and its SAP_SEL (R103, R104). -/
  ref : Nat
  refSap : Nat
deriving DecidableEq, Repr, Inhabited

def SapDir.reset : SapDir := ⟨.stopped, .none, false, [], List.replicate 16 .off, none⟩

def SapX.reset : SapX := ⟨List.replicate 8 SapDir.reset, 3, 0⟩

/-! ### The main path -/

/-- A move of an amplitude (R118, R125, R131): from data sample `at_` on it goes from `start` to `target` over `len` samples,
linearly or with the weights of R70; with no length it is at `target` at once. -/
structure Ramp where
  at_ : Nat
  len : Nat
  start : Frac
  target : Frac
  lin : Bool
deriving DecidableEq, Repr, Inhabited

/-- A route multiplexer of the main path (R128): of a lane, of a bus input, of a sink. -/
inductive Mux where
  | lane (l : Nat)
  | input (b i : Nat)
  | sink (id : Nat)
deriving DecidableEq, Repr, Inhabited

/-- A selection of a multiplexer: the source ID, the lane, or 128 * KIND + INDEX; whether it is enabled; the polarity. -/
structure Route where
  sel : Nat
  en : Bool
  pol : Bool
deriving DecidableEq, Repr, Inhabited

/-- The phases of a split fade (R130). -/
inductive SplitPhase where
  | none | out | fill | wait | fadeIn
deriving DecidableEq, Repr, Inhabited

/-- A route request that waits behind a fade (R129), or behind the stop of a sink (R133). -/
structure RouteReq where
  id : Option DescId
  dest : Route
  fade : Nat
deriving DecidableEq, Repr, Inhabited

/-- A multiplexer that has left its reset selection. -/
structure RouteX where
  /-- The selection in effect, or being faded to, and the one before it. -/
  cur : Route
  old : Route
  /-- The block at which `cur` took effect. -/
  since : Nat
  /-- The block at which the running fade, or split phase, began, and its samples; no fade runs where that is 0. -/
  fadeAt : Nat
  fadeLen : Nat
  split : SplitPhase
  queued : Option RouteReq
deriving DecidableEq, Repr, Inhabited

/-- The phases of a sink (R131 to R133); moments are data samples, 16 times the data block plus the sample. -/
inductive SinkPhase where
  | stopped
  | waiting
  | starting (start by_ : Nat)
  | fadeIn (ends : Nat)
  | fadeInStop (ends start by_ : Nat)
  | running
  | stopping (start by_ : Nat)
  | stopFade (ends : Nat) (again : Bool)
deriving DecidableEq, Repr, Inhabited

/-- A sink: its phase, the route change held until its stop ends, and the moves of its gain between zero and one by starts
and stops, newest first. -/
structure SinkX where
  phase : SinkPhase
  held : Option RouteReq
  gate : List Ramp
deriving DecidableEq, Repr, Inhabited

/-- The gain amplitude of a bus input: above zero, and the block from which a running ramp leaves it at zero (R118). -/
structure GainX where
  live : Bool
  zeroAt : Option Nat
deriving DecidableEq, Repr, Inhabited

/-- The Ballast ramp of a bus, in units of 1/32,768 (R118). -/
structure BallastX where
  start : Nat
  target : Nat
  at_ : Nat
deriving DecidableEq, Repr, Inhabited

/-- What a generator plays (R470). -/
structure GenSet where
  kind : Nat
  freq : Nat
  level : Nat
  seed : Nat
deriving DecidableEq, Repr, Inhabited

/-- A generator: its setting, the block at which its sequence restarted, the block at which its kind fade ends, and the
change of kind that waits for that. -/
structure GenX where
  now : GenSet
  restart : Nat
  fadeEnd : Nat
  next : Option GenSet
deriving DecidableEq, Repr, Inhabited

/-- The main path beside its registers; lists by key hold what has left its reset form. -/
structure MpX where
  presets : List (List (Nat × Word))
  routes : List (Mux × RouteX)
  sinks : List (Nat × SinkX)
  gains : List (Nat × GainX)
  ballast : List (Nat × BallastX)
  gens : List (Nat × GenX)
  /-- The data sample of the last LANE_PEAK of a lane (R113). -/
  peaks : List (Nat × Nat)
  /-- Sinks that the entry into QUIET has faded to zero (R136). -/
  quietFade : List Nat
  /-- The block at which that fade began, while an entry runs. -/
  quietAt : Option Nat
  /-- Network listeners whose ratio tracker is locked (R100, R111). -/
  lsLocked : List Nat
deriving DecidableEq, Repr, Inhabited

def MpX.reset : MpX := ⟨List.replicate 16 [], [], [], [], [], [], [], [], none, []⟩

/-! ### Power, boot, flash and journal -/

/-- The power modes (R418). -/
inductive Mode where
  | run | quiet | listen | shelf | off
deriving DecidableEq, Repr, Inhabited

/-- Power and boot beside the CLK_ registers. -/
structure PowerX where
  mode : Mode
  /-- The mode that a running transition enters. -/
  trans : Option Mode
  /-- The cause of the running transition, as CLK_HIST_HI.CAUSE codes it. -/
  cause : Nat
  /-- When the running transition began, in thirds of ns. -/
  since : Nat
  /-- The step reached in an entry into LISTEN or SHELF (R421): 0 none, 1 read, 2 stopping, 3 parked. In a wake (R307), 3
  once the outputs are ready. -/
  step : Nat
  /-- When step 3 of an entry began, in thirds of ns. -/
  stepAt : Nat
  /-- H is out of reset and its boot ROM has run (R411). -/
  hubUp : Bool
  /-- When H was last released from reset, in thirds of ns. -/
  released : Nat
  /-- The part reads descriptors (R421 step 1, R423). -/
  reading : Bool
  /-- The cause that the next PART_RESET reports, and the last block counter before the reset (R372). -/
  rstCause : Nat
  rstBlk : Nat
  /-- The stamp of that reset in ns. -/
  rstAt : Nat
  /-- The result of image selection for BOOT_IMAGE_FALLBACK: image selected, image used, reason (R413). -/
  fallback : Option (Nat × Nat × Nat)
deriving DecidableEq, Repr, Inhabited

/-- What a scan finds of a journal record (R428). -/
inductive RecState where
  | valid | torn | corrupt
deriving DecidableEq, Repr, Inhabited

/-- A journal record (R428). -/
structure JRec where
  key : Nat
  gen : Nat
  payload : List Byte
  st : RecState
deriving DecidableEq, Repr, Inhabited

/-- One half of a journal region (R427). -/
structure JHalf where
  magic : Bool
  epoch : Nat
  erases : Nat
  commit : Bool
  /-- Records in writing order. -/
  recs : List JRec
deriving DecidableEq, Repr, Inhabited

/-- A journal region (R427). -/
structure JRegion where
  lower : JHalf
  upper : JHalf
  /-- The active half is the upper one. -/
  upperActive : Bool
deriving DecidableEq, Repr, Inhabited

/-- What a flash operation in progress does when it ends. -/
inductive FlashJob where
  | journal (recs : List (Nat × List Byte)) (groups : List Nat)
  | firmware (image : Nat) (off : Nat) (bytes : List Byte)
  | message (j : Nat) (samples level : Nat) (bytes : List Byte)
  | tetherImage (bytes : List Byte)
  | recovery (off : Nat) (bytes : List Byte)
deriving DecidableEq, Repr, Inhabited

/-- A flash operation in progress (R425, R429). -/
structure FlashOp where
  id : Option DescId
  job : FlashJob
  /-- The block in which the operation began. -/
  began : Nat
deriving DecidableEq, Repr, Inhabited

/-- The flash die N but for the message, Tether and legal partitions. -/
structure FlashX where
  j0 : JRegion
  j1 : JRegion
  /-- The bytes of boot images A and B that are not erased. -/
  bootA : Mem
  bootB : Mem
  /-- Operations in progress or waiting, the oldest first. -/
  ops : List FlashOp
  /-- The region being compacted: 0 J0, 1 J1. -/
  compacting : Option Nat
  /-- Regions that wait for compaction. -/
  wantCompact : List Nat
  /-- Divergent keys found at boot, for the events that follow PART_RESET (R431). -/
  divergent : List Nat
deriving DecidableEq, Repr, Inhabited

/-! ### Output stages -/

/-- What a load test is for (R244 step 2, R252 step 3, R253). -/
inductive TestFor where
  | start | retry | diag
deriving DecidableEq, Repr, Inhabited

/-- A stop of a channel (R245): the search for the zero crossing of its gain, with the moment in thirds of ns at which it
times out, or the ramp of the nodes to 0 V. -/
inductive StopPhase where
  | none | search (by3 : Nat) | nodes
deriving DecidableEq, Repr, Inhabited

/-- The restart ramp of a channel (R246): held at −∞ until a crossing or a moment in thirds of ns, or rising since a block. -/
inductive RampPhase where
  | none | hold (by3 : Nat) | rising (at_ : Nat)
deriving DecidableEq, Repr, Inhabited

/-- A PWR channel (0 to 7) or an EXT channel (8 to 15) beside its registers. -/
structure OutX where
  /-- The block at which the present state, or its present step, began. -/
  since : Nat
  test : TestFor
  /-- The start in progress is a return from a fault: R246 follows it. -/
  fault : Bool
  /-- A retry attempt has begun and has not yet stood for 10 s (R252). -/
  attempt : Bool
  retryAt : Nat
  stop : StopPhase
  ramp : RampPhase
  /-- When READY was entered, and when the last restart ramp ended, in thirds of ns. -/
  readyAt : Nat
  rampEnd : Nat
  /-- The running offset calibration: its descriptor and its block (R248). -/
  cal : Option (DescId × Nat)
  /-- The block last counted in ILIM. -/
  ilimBlk : Option Nat
  /-- Power means of past blocks in mW, newest first (R249). -/
  powers : List Nat
  /-- The gain reduction in 1/6,000 of 0.1 dB (R250). -/
  gr : Nat
deriving DecidableEq, Repr, Inhabited

/-- The common-mode ramp of a line output, or of the headphone output (R257, R258). -/
inductive LoPhase where
  | off | up (at_ : Nat) | ready | down (at_ : Nat)
deriving DecidableEq, Repr, Inhabited

/-- The output stages beside their registers. -/
structure OutputsX where
  chans : List OutX
  /-- LO0 to LO3 and the headphone output. -/
  lo : List LoPhase
  /-- Both headphone sides are held at −∞ (R259). -/
  hpHeld : Bool
  /-- Blocks towards the next 0.5 dB of foldback release, for P0 and P1 (R251). -/
  foldTick : List Nat
  /-- The bridges of the die are in thermal shutdown and wait for 125 °C (R251). -/
  shut : List Bool
deriving DecidableEq, Repr, Inhabited

def OutX.reset : OutX := ⟨0, .start, false, false, 0, .none, .none, 0, 0, none, none, [], 0⟩

def OutputsX.reset : OutputsX :=
  ⟨List.replicate 16 OutX.reset, List.replicate 5 .off, false, [0, 0], [false, false]⟩

/-! ### Tether -/

/-- A node gain that has left zero: where its ramp began, its target, and the moment in thirds of ns (R266). -/
structure NodeX where
  start : Int
  target : Int
  at3 : Nat
deriving DecidableEq, Repr, Inhabited

/-- A message request (R285); repeat 0 is endless. -/
structure PlayReq where
  msg : Nat
  rep : Nat
deriving DecidableEq, Repr, Inhabited

/-- The message player (R283 to R286). -/
structure PlayerX where
  queue : List PlayReq
  /-- The request that plays, its repeats left (none for endless), and the directory entry that it read. -/
  now : Option PlayReq
  left : Option Nat
  offset : Nat
  samples : Nat
  level : Nat
  /-- Samples decoded of the present repeat, the predictor and the step (R284). -/
  done : Nat
  pred : Int
  step : Nat
  /-- The samples of the last frame decoded, and whether it was good. -/
  pcm : List Int
  /-- When the gap, or the stop fade, began, in thirds of ns. -/
  since : Nat
  /-- The priority source whose activation started the message: 0 BALL, 3 LISTEN (R286). -/
  auto : Option Nat
deriving DecidableEq, Repr, Inhabited

/-- An output of the crosspoint beside its registers. -/
structure TthOut where
  /-- When the running fade of R271 ends, in thirds of ns. -/
  fadeEnd : Nat
  /-- The code of the cause latched last. -/
  cause : Nat
deriving DecidableEq, Repr, Inhabited

/-- Tether beside its registers. -/
structure TthX where
  outs : List TthOut
  /-- Node gains by 384 * set + node. -/
  nodes : List (Nat × NodeX)
  /-- Requests of H on their way to F: cause code and output mask (R275). -/
  requests : List (Nat × Nat)
  /-- Loops of O0 to O7 that opened at the clamp (R291). -/
  opened : List Bool
  /-- The running self-test: its descriptor and its block (R294). -/
  test : Option (DescId × Nat)
  player : PlayerX
  /-- When the tone pattern last began, in thirds of ns (R288). -/
  toneAt : Nat
  /-- The message partition (R283): bytes that are not erased. -/
  part : Mem
deriving DecidableEq, Repr, Inhabited

def PlayerX.reset : PlayerX := ⟨[], none, none, 0, 0, 0, 0, 0, 16, [], 0, none⟩

def TthX.reset : TthX :=
  ⟨List.replicate 24 ⟨0, 0⟩, [], [], List.replicate 8 false, none, PlayerX.reset, 0, []⟩

/-! ### The listener and the gather buffer -/

/-- A match of one alarm pattern (R300, R301). -/
structure AlmX where
  /-- Segments of the present cycle that match, and whole cycles that match. -/
  pos : Nat
  cyc : Nat
  /-- Sample index and lane time in ns of the first sample of the first on segment. -/
  start : Nat
  startTs : Nat
  /-- A decision holds further ones back until 10 s without an on segment. -/
  held : Bool
deriving DecidableEq, Repr, Inhabited

/-- A glass-break attempt (R302): the shatter is awaited with so many frames left, or the decay runs from a peak. -/
inductive GlassStage where
  | shatter (left : Nat)
  | decay (peak : Int) (since above : Nat)
deriving DecidableEq, Repr, Inhabited

structure GlassX where
  start : Nat
  startTs : Nat
  stage : GlassStage
deriving DecidableEq, Repr, Inhabited

/-- A code frame of the gather buffer (R308). -/
structure CodeFrame where
  idx : Nat
  p : Int
  q : Nat
  code : List Byte
deriving DecidableEq, Repr, Inhabited

/-- A running handover (R309): the next sample to send, the first sample that is not history, the format, whether a stop
has been asked for, whether samples were lost before the next packet. -/
structure HandoverX where
  next : Nat
  live : Nat
  fmt : Nat
  stop : Bool
  gap : Bool
deriving DecidableEq, Repr, Inhabited

/-- The listener beside its registers. -/
structure LsnX where
  /-- The index of the next sample, as far as the last frame or segment tells. -/
  idx : Nat
  /-- Frame energies of the last 400 frames, newest first, in 0.01 dBFS: alarm band, 20 to 500 Hz, 4 to 12 kHz. -/
  alm : List Int
  low : List Int
  sh : List Int
  /-- The class of the frame before, the length in frames of the segment in progress, frames since the last on frame. -/
  on_ : Bool
  len : Nat
  quiet : Nat
  t3 : AlmX
  t4 : AlmX
  glass : List GlassX
  /-- The anchor of R305: sample index and array time in ns. -/
  anchor : Nat × Nat
  /-- First samples of the switch windows that the buffer may still hold. -/
  windows : List Nat
  /-- Complete PCM segments, oldest first: index of the first sample, and the samples. -/
  pcm : List (Nat × List Int)
  frames : List CodeFrame
  /-- The encoder's predictor and step. -/
  p : Int
  q : Nat
  handover : Option HandoverX
deriving DecidableEq, Repr, Inhabited

def AlmX.reset : AlmX := ⟨0, 0, 0, 0, false⟩

def LsnX.reset : LsnX :=
  ⟨0, [], [], [], false, 0, 0, AlmX.reset, AlmX.reset, [], (0, 0), [], [], [], 0, 16, none⟩

/-! ### Sense converters -/

/-- Where an injected request comes from (R321): the register, a descriptor with its payload address, a load test. -/
inductive InjFrom where
  | reg | cmd (id : DescId) (pay : Nat) | load (m : Nat)
deriving DecidableEq, Repr, Inhabited

/-- An injected request (R321). -/
structure InjReq where
  org : InjFrom
  input : Nat
  gain : Nat
  k : Nat
deriving DecidableEq, Repr, Inhabited

/-- A calibration step (R326); without a descriptor it is the register's. -/
structure CalStep where
  id : Option DescId
  input : Nat
  gain : Nat
  k : Nat
  step : Nat
  target : Int
deriving DecidableEq, Repr, Inhabited

/-- What a conversion is for: the entry with the word it started with, an injected request, a calibration step. -/
inductive ConvFor where
  | entry (e : Nat) (cfg : Word) (restart : Bool)
  | inj (r : InjReq)
  | cal (c : CalStep)
deriving DecidableEq, Repr, Inhabited

/-- A running conversion (R315): the moment in thirds of ns at which its window begins, the modulator clocks of the
window, REF not ready at that moment (R324), the block in which the conversion began. -/
structure Conv where
  what : ConvFor
  win3 : Nat
  n : Nat
  nrdy : Bool
  blk : Nat
deriving DecidableEq, Repr, Inhabited

/-- How far a converter's triggers drive it (R316). -/
inductive SnsPass where
  | idle | scan | step | cont
deriving DecidableEq, Repr, Inhabited

/-- A sense converter beside its registers. -/
structure SnsX where
  pass : SnsPass
  /-- The entry at SNS_STS.ENTRY was aborted and restarts (R322). -/
  restart : Bool
  conv : Option Conv
  queue : List InjReq
  cal : Option CalStep
  /-- Under source 5: window points in thirds of ns of events that have passed, and the end of the last conversion. -/
  points : List Nat
  end3 : Nat
  /-- Entries whose limit event has been raised, with no result within limits since (R329). -/
  outs : List Nat
  /-- Gain and window-end block of the SNS_LAST result of an input (R328). -/
  last : List (Nat × Nat × Nat)
deriving DecidableEq, Repr, Inhabited

def SnsX.reset : SnsX := ⟨.idle, false, none, [], none, [], 0, [], []⟩

/-- The sense converters beside their registers: SC0 and SC1; the calibration pairs (OFS, GN) by SNS_CAL_ADDR.INDEX that
differ from the defaults (R325); the block in which BUFEN was set (R324). -/
structure SenseX where
  convs : List SnsX
  cal : List (Nat × Word × Word)
  refAt : Nat
deriving DecidableEq, Repr, Inhabited

def SenseX.reset : SenseX := ⟨[SnsX.reset, SnsX.reset], [], 0⟩

/-! ### Signal engines and run-ahead rendering -/

/-- A block record of a program (R147): TYPE, BYPASS and DRAM, the numbers of inputs and outputs, the parameter area,
ARG, and the buffers that are inputs and outputs, rising. -/
structure ProgRec where
  typ : Nat
  bypass : Bool
  dram : Bool
  m : Nat
  n : Nat
  plen : Nat
  poff : Nat
  arg : Nat
  ins : List Nat
  outs : List Nat
deriving DecidableEq, Repr, Inhabited

/-- A validated program (R149): its parameter image, its cost in cycles per block, the 64-byte units of data SRAM and of
DRAM traffic, L_b (R228) and E_b (R231). -/
structure Prog where
  id : Nat
  recs : List ProgRec
  pimg : List Word
  cyc : Nat
  sram : Nat
  dramBlk : Nat
  need : Nat
  ents : Nat
deriving DecidableEq, Repr, Inhabited

/-- The sequence of R152: the new mode, its effective block, and the blocks of its fade. -/
structure Swap where
  mode : Nat
  k : Nat
  f : Nat
deriving DecidableEq, Repr, Inhabited

/-- An effect that a data block holds for its release (R230): the event of a record with its sample, or a METER reading
of a meter channel. -/
inductive RecEffect where
  | event (r smp : Nat)
  | meter (channel : Nat) (peak rms : Word)
  /-- The count of a CONTAINED error. -/
  | contained
deriving DecidableEq, Repr, Inhabited

/-- Concealment on a lane (R216): samples of the run so far, none outside a run; samples of the cross-fade left. -/
structure LaneConc where
  run : Option Nat
  fade : Nat
deriving DecidableEq, Repr, Inhabited

/-- A data block that is rendered, or being rendered, and not annealed (R212, R226): the log words it used, the lanes that
carry C, the concealment states before it, its effects, and the network samples of each lane that were in hub SRAM, none
where one was missing (R215); a lane without a listener has no list. -/
structure Rendered where
  k : Nat
  parison : Bool
  words : Nat
  carries : List Bool
  before : List LaneConc
  effects : List RecEffect
  heard : List (List (Option Word))
deriving DecidableEq, Repr, Inhabited

/-- An engine and its cluster beside their registers. -/
structure EngX where
  staged : Option Prog
  running : Option Prog
  swap : Option Swap
  /-- Words of the parameter areas, by word address of data SRAM (R148). -/
  params : List (Nat × Word)
  /-- Impulse-response slots: (record, slot, channel, taps) (R164). -/
  irs : List (Nat × Nat × Nat × List Word)
  /-- CONV records in a slot fade: record and the first data block after it. -/
  irFade : List (Nat × Nat)
  /-- The data block to begin next, and the one in progress. -/
  next : Nat
  busy : Option Rendered
  /-- Consecutive misses (R167). -/
  misses : Nat
  /-- H and M (R209). -/
  lead : Nat
  margin : Nat
  /-- The output queue, oldest first (R214). -/
  queue : List Rendered
  conc : List LaneConc
  /-- The block in which the engine last waited for room (R229). -/
  waitBlk : Option Nat
  logPeak : Nat
  rendered : Nat
  annealed : Nat
  squash : Nat
  replayed : Nat
  lateDrop : Nat
  waits : Nat
  concealed : Nat
  restart : Nat
  lastK0 : Nat
  /-- CONTAINED errors whose count goes to the data block rendered next. -/
  contained : Nat
  /-- The network samples that annealed data blocks were rendered from, newest first. -/
  given : List (Nat × List (List (Option Word)))
  /-- Data blocks that the engine did not deliver, first and last, newest first (R167, R233). -/
  breaks : List (Nat × Nat)
deriving DecidableEq, Repr, Inhabited

def LaneConc.reset : LaneConc := ⟨none, 0⟩

def EngX.reset : EngX :=
  { staged := none, running := none, swap := none, params := [], irs := [], irFade := [], next := 0, busy := none
    misses := 0, lead := 12, margin := 2, queue := [], conc := List.replicate 16 LaneConc.reset, waitBlk := none
    logPeak := 0, rendered := 0, annealed := 0, squash := 0, replayed := 0, lateDrop := 0, waits := 0, concealed := 0
    restart := 0, lastK0 := 0, contained := 0, given := [], breaks := [] }

/-- The live counters of an arbiter requester (R173). -/
structure ArbLive where
  grants : Nat
  wait : Nat
  longest : Nat
deriving DecidableEq, Repr, Inhabited

/-- The engines, the arbiter, and the alignment groups (R235): the runs of concealed and of clean data blocks of each
lane, and the mutes of a group as (slot, data block, muted), newest first (R236). -/
structure EnginesX where
  engs : List EngX
  arb : List ArbLive
  runs : List Nat
  clean : List Nat
  mutes : List (Nat × Nat × Bool)
deriving DecidableEq, Repr, Inhabited

def EnginesX.reset : EnginesX :=
  ⟨List.replicate 8 EngX.reset, List.replicate 12 ⟨0, 0, 0⟩, List.replicate 128 0, List.replicate 128 0, []⟩

/-! ### The network (chapter 6) -/

/-- A listener beside its registers: the block of the later of EN and the last valid frame, the next AVTP sequence number,
the stream is lost, the samples that hub SRAM holds, as (data block, 16-bit mask), and their words as (data sample, words of its channels),
newest first (R184 to R186). -/
structure ListenerX where
  heard : Nat
  seq : Option Nat
  lost : Bool
  held : List (Nat × Nat)
  vals : List (Nat × List Word)
deriving DecidableEq, Repr, Inhabited

/-- A learned address of the switch: its port and the time of its last use in thirds of ns (R176). -/
structure Learned where
  mac : Mac
  port : Nat
  used : Nat
deriving DecidableEq, Repr, Inhabited

/-- The time servo beside ARR_PTP_STS (R178, R179). -/
structure PtpX where
  gm : Option Nat
  hops : Nat
  /-- Consecutive Syncs with an offset below 50 ns. -/
  near : Nat
  lastSync : Nat
  holdAt : Nat
  /-- A reload of the block counter by R181 is due, and not only by R30. -/
  step : Bool
deriving DecidableEq, Repr, Inhabited

/-- A pending SCHEDULE entry (R197, R198): controller, schedule ID, target block, action, argument bytes, the sequence
number and the sender of its message. -/
structure SchedEntry where
  ctrl : Nat
  mac : Mac
  id : Nat
  k : Nat
  action : Nat
  args : List Byte
  seq : Nat
deriving DecidableEq, Repr, Inhabited

/-- An accepted message of a controller entry, with the reply sent for it (R194): TYPE, FLAGS, SEQ and payload. -/
structure ZvSeen where
  seq : Nat
  reply : Option (Nat × Nat × Nat × List Byte)
deriving DecidableEq, Repr, Inhabited

/-- A command that a message carries and that has been read: its descriptor, the sequence number and the sender of its
message. -/
structure ZvCmd where
  id : DescId
  seq : Nat
  mac : Mac
deriving DecidableEq, Repr, Inhabited

/-- A descriptor that a message brought and that has not been read (R196). -/
structure ZvWait where
  org : Origin
  d : Desc
  seq : Nat
  mac : Mac
deriving DecidableEq, Repr, Inhabited

/-- Zhevdom beside its registers. -/
structure ZvX where
  /-- The last 64 messages of each controller entry, newest first. -/
  seen : List (List ZvSeen)
  /-- DISCOVER requests whose random wait runs: sender, sequence number, entry, time in thirds of ns. -/
  disc : List (Mac × Nat × Option Nat × Nat)
  sched : List SchedEntry
  cmds : List ZvCmd
  /-- Descriptors of messages in order of arrival. -/
  wait : List ZvWait
  /-- When the last periodic HEALTH report went out, and the worst fault level since. -/
  healthAt : Nat
  worst : Nat
  /-- The next SEQ of the part's own messages. -/
  seq : Nat
deriving DecidableEq, Repr, Inhabited

/-- A carrier's Bridle phase in TCLK: the present one where its adjustment began, its target, and that moment (R205). -/
structure BridleX where
  start : Nat
  target : Nat
  at3 : Nat
deriving DecidableEq, Repr, Inhabited

/-- The network beside its registers. -/
structure NetX where
  ls : List ListenerX
  learned : List Learned
  ptp : PtpX
  zv : ZvX
  /-- PWR channels 0 to 7, then EXT channels 0 to 7. -/
  bridle : List BridleX
deriving DecidableEq, Repr, Inhabited

def NetX.reset : NetX :=
  ⟨List.replicate 16 ⟨0, none, false, [], []⟩, [], ⟨none, 0, 0, 0, 0, false⟩,
    ⟨List.replicate 8 [], [], [], [], [], 0, 0, 0⟩, List.replicate 16 ⟨0, 0, 0⟩⟩

/-! ### The metrology die and the calendar (chapter 14) -/

/-- A record of the legal log (R386): bytes 12 to 31 and LINK. -/
structure LegalRec where
  seq : Nat
  typ : Nat
  flags : Nat
  time : Nat
  body : List Byte
  link : List Byte
deriving DecidableEq, Repr, Inhabited

/-- A record that waits in M's RAM for its slot (R388). -/
structure HeldRec where
  typ : Nat
  flags : Nat
  time : Nat
  body : List Byte
deriving DecidableEq, Repr, Inhabited

/-- A 10 s measurement (R390): CAL_MEASURE, or CAL_CHECK, with the calibrator level and the tick at which it began. -/
structure CalRun where
  check : Bool
  level : Nat
  began : Nat
deriving DecidableEq, Repr, Inhabited

/-- The calibration values that M measures with (R391). -/
structure CalVals where
  sens : Nat
  corr : Int
  input : Nat
  trim : Int
  tc : Int
  t0 : Int
deriving DecidableEq, Repr, Inhabited

/-- The minute in progress (R384): its start, its counted seconds, seconds overloaded, whether one was settling, whether
LEGAL_OK was low in it. -/
structure MinuteX where
  start : Nat
  secs : List SecondMeas
  overs : Nat
  settling : Bool
  low : Bool
deriving DecidableEq, Repr, Inhabited

/-- What M sends to H for a second (R395): the words of the MLK_ and CAL_ mirrors, the LAeq while FWD_EN is set, the newest
SEQ, LEGAL_OK, and the records that H announces (R397). -/
structure SecFrame where
  words : List (Nat × Word)
  laeq : Option Nat
  seq : Nat
  legal : Bool
  recs : List LegalRec
deriving DecidableEq, Repr, Inhabited

/-- M, the calendar, and what H keeps of them. -/
structure MetroX where
  /-- Records, newest first; the first SEQ whose sub-sector is not erased (R385, R388). -/
  log : List LegalRec
  erasedTo : Nat
  nextSeq : Nat
  /-- Records acknowledged: every SEQ below this one. -/
  ack : Nat
  held : List HeldRec
  logFull : Bool
  /-- Minute records lost: in all, and since the last LOST record. -/
  lostMinutes : Nat
  lostNow : Nat
  /-- OTP: four slots of three copies of 64 bytes; the seal fuse (R391, R393). -/
  otp : List (List (List Byte))
  sealed : Bool
  staged : Option CalVals
  /-- M's supply is on and it measures (R381); the settling seconds left (R384). -/
  on_ : Bool
  settle : Nat
  minute : MinuteX
  baud : Nat
  fwd : Bool
  run : Option CalRun
  /-- Unverified reasons (R392, R394, R401). -/
  cal : Bool
  time : Bool
  osc : Bool
  oscBad : Nat
  oscGood : Nat
  legalOk : Bool
  verEn : Bool
  refused : Nat
  /-- The last completed second. -/
  lastSec : Option SecondMeas
  /-- VBAK in mV, read once a minute. -/
  vbak : Nat
  /-- The calendar in crystal cycles, 32 to a tick; it runs; TIME_VALID; stopped since the last SET_TIME; last ran from
  VBAK (R399 to R401). -/
  cyc : Nat
  going : Bool
  valid : Bool
  lost : Bool
  onVbak : Bool
  /-- Ticks counted, and the count at the last trim (R400). -/
  ticks : Nat
  trimAt : Nat
  /-- A SET_TIME that waits for the next tick: the time and the port (R402); the time of the last adjustment. -/
  setTo : Option (Nat × Nat)
  lastAdj : Option Nat
  adjCnt : Nat
  adj : Nat × Nat
  /-- The frames of the last second, until H has taken them. -/
  frame : Option SecFrame
  /-- Records since the last frames that H announces (R397). -/
  news : List LegalRec
  /-- On H: the newest tick with its array time, and the tick that each agent has latched (R404). -/
  tick : Nat × Nat
  latched : List (Nat × Nat × Nat)
  /-- On H: the block latched on the last second marker (R395), the values of the limiter's window, newest first, and the
  METROLOGY_READ that M has not answered: descriptor, target, records, payload address, moment in thirds of ns. -/
  secBlk : Nat
  window : List Nat
  read : Option (DescId × Nat × Nat × Nat × Nat)
deriving DecidableEq, Repr, Inhabited

def MetroX.reset : MetroX :=
  { log := [], erasedTo := 65536, nextSeq := 0, ack := 0, held := [], logFull := false, lostMinutes := 0, lostNow := 0
    otp := List.replicate 4 (List.replicate 3 (List.replicate 64 0)), sealed := false, staged := none, on_ := false
    settle := 0, minute := ⟨0, [], 0, false, false⟩, baud := 0, fwd := true, run := none, cal := false, time := true
    osc := false, oscBad := 0, oscGood := 0, legalOk := false, verEn := false, refused := 0, lastSec := none, vbak := 0, cyc := 0, going := true
    valid := false, lost := false, onVbak := false, ticks := 0, trimAt := 0, setTo := none, lastAdj := none, adjCnt := 0
    adj := (0, 0), frame := none, news := [], tick := (0, 0), latched := [], secBlk := 0, window := [], read := none }

/-! ### Samples on their way (chapters 2, 4, 5 and 7) -/

/-- The delay of a line, or the input of a switch, in effect, and the one before it: the data sample at which the change
began, and the value that waits for its end (R162, R163). -/
structure TapX where
  now : Nat
  old : Nat
  at_ : Nat
  next : Option Nat
deriving DecidableEq, Repr, Inhabited

/-- What a record keeps between data blocks (R148): gains with their words and ramps, delays, lines of samples, newest
first, and what a block whose arithmetic the spec does not state keeps inside. -/
structure RecMem where
  ramps : List (Nat × Word × List Ramp)
  taps : List (Nat × TapX)
  lines : List (List Smp)
  inner : Nat
deriving DecidableEq, Repr, Inhabited

/-- An engine as it renders a data block (R34, R116, R152, R155): MODE_ACT, whether its cluster renders ahead and is down,
the phase of the swap sequence, the sequence, the block of its last start, the program, its parameter words and impulse responses. -/
structure EngPlan where
  mode : Nat
  ahead : Bool
  down : Bool
  phase : Nat
  swap : Option Swap
  since : Nat
  prog : Option Prog
  params : List (Nat × Word)
  irs : List (Nat × Nat × Nat × List Word)
deriving DecidableEq, Repr, Inhabited

/-- What governs a data block at every stage (R34): its routes, its engines, the words of MP_COMP and MP_LIM, and the samples
of the sources and lanes that have passed the lane input stage. -/
structure Plan where
  k : Nat
  routes : List (Mux × RouteX)
  engs : List EngPlan
  dyn : List (Word × Word)
  srcs : List (Nat × List Smp)
  lanes : List (Nat × List Smp)
deriving DecidableEq, Repr, Inhabited

/-- CONCEAL on a lane (R216): the last 512 samples, newest first, the history and the lag of the running concealment, the
samples of it so far, and those of the cross-fade left. -/
structure ConcX where
  hist : List Word
  base : List Word
  lag : Nat
  run : Option Nat
  fade : Nat
deriving DecidableEq, Repr, Inhabited

/-- The dynamics of an output sink (R122, R123): the compressor's gain reduction in dB, the limiter's gain, and its line,
newest first. -/
structure DynX where
  comp : Frac
  lim : Frac
  line : List Smp
deriving DecidableEq, Repr, Inhabited

/-- A generator as it sounds (R470): the setting last seen, the phase of its sine in 1/1,536,000 of a cycle, the samples
drawn from its sequence, its amplitude, and the waveform that it fades from with the data block of the fade. -/
structure GenSig where
  set : GenSet
  phase : Nat
  drawn : Nat
  amp : List Ramp
  old : Option (GenSet × Nat × Nat × Frac)
  at_ : Nat
  len : Nat
deriving DecidableEq, Repr, Inhabited

/-- The samples on their way through H, and what the stages keep for them. -/
structure SigX where
  /-- Trim, gain and volume registers: address, code in effect, moves of the amplitude (R125). -/
  amps : List (Nat × Nat × List Ramp)
  /-- Ballast scales: bus, setting and active inputs, moves (R118). -/
  scales : List (Nat × (Nat × Nat) × List Ramp)
  /-- Fades between zero and one: of sinks by QUIET and by the mutes of errors (R136, R371). -/
  quiets : List (Nat × Bool × List Ramp)
  mutes : List (Nat × Bool × List Ramp)
  /-- The gain reduction of the power limit that each PWR sink applied last (R250). -/
  limits : List (Nat × Nat)
  gens : List (Nat × GenSig)
  /-- The data blocks on their way, newest first (R31). -/
  plans : List Plan
  /-- The last sample that each lane of a cluster delivered (R167, R368). -/
  lasts : List (Nat × List Smp)
  /-- The records of each engine, with the block of the start that they belong to. -/
  mems : List (Nat × Nat × List RecMem)
  concs : List (Nat × ConcX)
  dyns : List (Nat × DynX)
  /-- What the sink stage and the TAP records delivered last, with the data block. -/
  doneK : Nat
  sinks : List (Nat × List Smp)
  taps : List (Nat × List Smp)
deriving DecidableEq, Repr, Inhabited

def SigX.reset : SigX :=
  { amps := [], scales := [], quiets := [], mutes := [], limits := [], gens := [], plans := [], lasts := [], mems := []
    concs := [], dyns := [], doneK := 0, sinks := [], taps := [] }

/-! ### Test access (chapter 17) -/

/-- JTAG beside TST_JTAG: the instructions of the F and M TAPs, what the next Capture-DR of REGWIN loads (data, DONE,
REFUSED), and TESTEN as sampled at t0 (R463 to R466). -/
structure TestX where
  irF : Nat
  irM : Nat
  data : Word
  done : Bool
  refused : Bool
  testen : Bool
deriving DecidableEq, Repr, Inhabited

def TestX.reset : TestX := ⟨1, 1, 0, false, false, false⟩

/-! ### The state -/

/-- Why the machine stops. -/
inductive Fault where
  /-- An access outside the 64 KiB local ring window. No command raises it: every access is checked first. Safe. -/
  | windowRange
deriving DecidableEq, Repr, Inhabited

/-- Why a command has no meaning. -/
inductive Refusal where
  /-- A command that the model gives no meaning; raised by its arm of exec alone. Safe. -/
  | notModelled (mnemonic : String)
deriving DecidableEq, Repr, Inhabited

/-- The state of the block. -/
structure State where
  /-- The registers as their dies hold them. -/
  regs : RegFile
  /-- H's mirror of the registers held on F and read from S (R439). -/
  mirror : RegFile
  /-- The 64 KiB local ring window (R332). -/
  window : Mem
  clk : Clock
  link : Link
  col : Collector
  host : HostX
  stage : Stage
  locks : List Lock
  err : ErrX
  power : PowerX
  flash : FlashX
  /-- The front end (chapter 2). -/
  fe : FrontX
  /-- The serial audio ports and the audio PLL (chapter 3). -/
  sap : SapX
  /-- The main path (chapter 4). -/
  mp : MpX
  /-- The output stages (chapter 8). -/
  outs : OutputsX
  /-- Tether (chapter 9). -/
  tth : TthX
  /-- The listener and the gather buffer (chapter 10). -/
  lsn : LsnX
  /-- The sense converters (chapter 11). -/
  sns : SenseX
  /-- The signal engines and run-ahead clusters (chapters 5 and 7). -/
  eng : EnginesX
  /-- The network, the time servo and Zhevdom (chapter 6). -/
  net : NetX
  /-- The metrology die and the calendar clock (chapter 14). -/
  metro : MetroX
  /-- Test access (chapter 17). -/
  test : TestX
  /-- Samples on their way through H. -/
  sig : SigX
  /-- F's registers as captured at the last block boundary with its block, on their way to H (R439). -/
  snap : Option (Nat × RegFile)
  /-- What the block has sent, newest first. -/
  out : List Output
  /-- The model's own counter of free values: each use of one advances it. -/
  free : Nat
  /-- The commands that wait, first in, first out. -/
  pending : List Instr
deriving DecidableEq, Repr

def LinkDir.reset : LinkDir := ⟨0, [], [], 0, none, 0⟩

def Overflow.reset : Overflow := ⟨[], [], 0⟩

def Collector.reset : Collector := ⟨[], [], Overflow.reset, Overflow.reset, 0, [], []⟩

def RingX.reset : RingX := ⟨0, 0, none, none, [], [], none, [], false⟩

def HostX.reset : HostX :=
  { rings := List.replicate 16 RingX.reset, vecs := List.replicate 16 ⟨none⟩
    queues := List.replicate 19 ⟨0, 0, []⟩, idxChanged := false, sbDead := false
    rearm := List.replicate 16 0, msixFnMask := false, msixMask := 0, msixPend := 0
    smbPtr := 0, smbLast := List.replicate 16 0, smbAlert := false, readData := 0, latches := [] }

def ErrX.reset : ErrX :=
  { inject := none, corrSec := [], rows := [], repaired := [], exhausted := false
    lost := List.replicate 8 none, faultSeq := List.replicate 8 none, stages := [], stageLog := [], muted := [], mBad := 0 }

def JHalf.reset : JHalf := ⟨false, 0, 0, false, []⟩

def FlashX.reset : FlashX :=
  { j0 := ⟨JHalf.reset, JHalf.reset, false⟩, j1 := ⟨JHalf.reset, JHalf.reset, false⟩, bootA := [], bootB := []
    ops := [], compacting := none, wantCompact := [], divergent := [] }

/-- The state right after power-on reset (R435): every register at its reset value, nothing staged, queued or held. The
transition from OFF to RUN has begun, with cause 7, supply (R411, R419). -/
def State.reset : State :=
  { regs := [], mirror := [], window := []
    clk := ⟨0, 0, 0, true, 0, false⟩
    link := ⟨LinkDir.reset, LinkDir.reset, false, none, false, [0, 0, 0, 0], [false, false, false, false]⟩
    col := Collector.reset, host := HostX.reset, stage := ⟨[], [], []⟩
    locks := List.replicate 32 ⟨[], false, 0, none⟩, err := ErrX.reset
    power :=
      { mode := .run, trans := some .run, cause := 7, since := 0, step := 0, stepAt := 0, hubUp := false, released := 0
        reading := false, rstCause := 0, rstBlk := 0, rstAt := 0, fallback := none }
    fe := FrontX.reset
    sap := SapX.reset
    mp := MpX.reset
    outs := OutputsX.reset
    tth := TthX.reset
    lsn := LsnX.reset
    sns := SenseX.reset
    eng := EnginesX.reset
    net := NetX.reset
    metro := MetroX.reset
    test := TestX.reset
    sig := SigX.reset
    snap := none
    flash := FlashX.reset, out := [], free := 0, pending := [] }

end Sys2Proof.Machine
end

