-- ==== Sys2Proof/Machine/Ops.lean ====
section
/-!
DEFINITION. The named operations that the meanings share: register fields, the event collector (R43 to R45, R469),
the part-produced rings (R337), and the staging of changes (R33 to R39, R442).
-/
namespace Sys2Proof.Machine

/-- The outcome type of every meaning. -/
abbrev Out := Host.Outcome State Fault Refusal

/-! ### One part of the state changed -/

/-- The state with its registers changed. -/
def State.modRegs (s : State) (f : RegFile → RegFile) : State := { s with regs := f s.regs }

/-- The state with its mirror changed. -/
def State.modMirror (s : State) (f : RegFile → RegFile) : State := { s with mirror := f s.mirror }

/-- The state with its local window changed. -/
def State.modWindow (s : State) (f : Mem → Mem) : State := { s with window := f s.window }

/-- The state with its clock changed. -/
def State.modClk (s : State) (f : Clock → Clock) : State := { s with clk := f s.clk }

/-- The state with its die-link part changed. -/
def State.modLink (s : State) (f : Link → Link) : State := { s with link := f s.link }

/-- The state with its event collector changed. -/
def State.modCol (s : State) (f : Collector → Collector) : State := { s with col := f s.col }

/-- The state with its host-interface part changed. -/
def State.modHost (s : State) (f : HostX → HostX) : State := { s with host := f s.host }

/-- The state with its changes on their way changed. -/
def State.modStage (s : State) (f : Stage → Stage) : State := { s with stage := f s.stage }

/-- The state with its locks changed. -/
def State.modLocks (s : State) (f : List Lock → List Lock) : State := { s with locks := f s.locks }

/-- The state with its error part changed. -/
def State.modErr (s : State) (f : ErrX → ErrX) : State := { s with err := f s.err }

/-- The state with its power part changed. -/
def State.modPower (s : State) (f : PowerX → PowerX) : State := { s with power := f s.power }

/-- The state with its flash part changed. -/
def State.modFlash (s : State) (f : FlashX → FlashX) : State := { s with flash := f s.flash }

/-- The state with its front-end part changed. -/
def State.modFe (s : State) (f : FrontX → FrontX) : State := { s with fe := f s.fe }

/-- The state with its serial-port part changed. -/
def State.modSap (s : State) (f : SapX → SapX) : State := { s with sap := f s.sap }

/-- The state with its main-path part changed. -/
def State.modMp (s : State) (f : MpX → MpX) : State := { s with mp := f s.mp }

/-- The state with its output part changed. -/
def State.modOutputs (s : State) (f : OutputsX → OutputsX) : State := { s with outs := f s.outs }

/-- The state with its Tether part changed. -/
def State.modTth (s : State) (f : TthX → TthX) : State := { s with tth := f s.tth }

/-- The state with its listener part changed. -/
def State.modLsn (s : State) (f : LsnX → LsnX) : State := { s with lsn := f s.lsn }

/-- The state with its sense part changed. -/
def State.modSense (s : State) (f : SenseX → SenseX) : State := { s with sns := f s.sns }

/-- The state with its engine part changed. -/
def State.modEngines (s : State) (f : EnginesX → EnginesX) : State := { s with eng := f s.eng }

/-- The state with its network part changed. -/
def State.modNet (s : State) (f : NetX → NetX) : State := { s with net := f s.net }

/-- The state with its metrology part changed. -/
def State.modMetro (s : State) (f : MetroX → MetroX) : State := { s with metro := f s.metro }

/-- The state with its test part changed. -/
def State.modTest (s : State) (f : TestX → TestX) : State := { s with test := f s.test }

/-- The state with its samples on their way changed. -/
def State.modSig (s : State) (f : SigX → SigX) : State := { s with sig := f s.sig }

/-- The state with its captured registers changed. -/
def State.modSnap (s : State) (f : Option (Nat × RegFile) → Option (Nat × RegFile)) : State := { s with snap := f s.snap }

/-- The state with something more sent. -/
def State.emit (s : State) (o : Output) : State := { s with out := o :: s.out }

/-! ### Registers -/

/-- The word that a register holds on its own die. -/
def State.rd (s : State) (a : Nat) : Word := s.regs.get a

/-- A field of a register as its own die holds it. -/
def State.fld (s : State) (a : Nat) (f : Fld) : Nat := s.regs.fld a f

/-- A one-bit field is set. -/
def State.on (s : State) (a : Nat) (f : Fld) : Bool := s.regs.fld a f == 1

/-- The state with a register written on its own die. -/
def State.wr (s : State) (a : Nat) (v : Word) : State := { s with regs := s.regs.set a v }

/-- The state with one field of a register written on its own die. -/
def State.setF (s : State) (a : Nat) (f : Fld) (x : Nat) : State := { s with regs := s.regs.setFld a f x }

/-- The field counted up by an amount, saturating at its largest value. -/
def State.addSat (s : State) (a : Nat) (f : Fld) (n : Nat) : State :=
  s.setF a f (min (s.fld a f + n) (2 ^ f.w - 1))

/-- The field counted up by one, saturating at its largest value. -/
def State.incSat (s : State) (a : Nat) (f : Fld) : State := s.addSat a f 1

/-- The field counted up by one, wrapping. -/
def State.incWrap (s : State) (a : Nat) (f : Fld) : State := s.setF a f ((s.fld a f + 1) % 2 ^ f.w)

/-- The field written in each of a list of registers. -/
def State.setAll (f : Fld) (x : Nat) : List Nat → State → State
  | [], s => s
  | a :: as, s => State.setAll f x as (s.setF a f x)

/-- The registers of a list at zero. -/
def State.zeroAll : List Nat → State → State
  | [], s => s
  | a :: as, s => State.zeroAll as (s.wr a 0)

/-- A 64-bit value in a pair of registers. -/
def State.setPair (s : State) (lo hi : Nat) (x : Nat) : State :=
  (s.wr lo (BitVec.ofNat 32 x)).wr hi (BitVec.ofNat 32 (x / 2 ^ 32))

/-- The 64-bit value of a pair of registers. -/
def State.getPair (s : State) (lo hi : Nat) : Nat := (s.rd lo).toNat + 2 ^ 32 * (s.rd hi).toNat

/-- One bit of a register. -/
def State.bit (s : State) (a : Nat) (i : Nat) : Bool := (s.rd a).getLsbD i

/-- The state with one bit of a register written. -/
def State.setBit (s : State) (a : Nat) (i : Nat) (b : Bool) : State := s.setF a ⟨i, 1⟩ b.toNat

/-- The value of a field read as two's complement. -/
def sgn (w x : Nat) : Int := (BitVec.ofNat w x).toInt

/-! ### Order -/

/-- A list with an element put before the first one that it does not follow. -/
def insertBy {α : Type} (le : α → α → Bool) (x : α) : List α → List α
  | [] => [x]
  | y :: ys => if le x y then x :: y :: ys else y :: insertBy le x ys

/-- A list in order; elements that are equal in it keep their order. -/
def sortBy {α : Type} (le : α → α → Bool) : List α → List α
  | [] => []
  | x :: xs => insertBy le x (sortBy le xs)

/-! ### Time -/

/-- Array time in whole ns, the smallest at or after the exact time (R468). -/
def State.nowNs (s : State) : Nat := (s.clk.now3 + 2) / 3

/-- Array time in thirds of ns at sample `smp` of block `k` of the block counter, by the present block's boundary. -/
def State.time3At (s : State) (k smp : Nat) : Nat :=
  (s.clk.now3 + k * 500000 + smp * 31250) - (s.clk.blk * 500000 + s.clk.smp * 31250)

/-- The whole-ns stamp of sample `smp` of block `k` (R44, R468). -/
def State.stampOf (s : State) (k smp : Nat) : Nat := (s.time3At k smp + 2) / 3

/-- One sample of 10,416 2/3 ns passes (R12). Where the audio PLL runs, sample 15 of a block ends with its COMMIT_POINT, and
the tick waits for it. -/
def State.tick (s : State) : State :=
  if s.clk.run then
    if s.clk.smp < 15 then s.modClk (fun y => { y with smp := y.smp + 1, now3 := y.now3 + 31250 }) else s
  else s.modClk (fun y => { y with now3 := y.now3 + 31250 })

/-! ### The event collector -/

/-- Events the collector holds at most (R45). -/
def collectorSize : Nat := 1024

/-- Events an overflow store holds at most, and merge counts it keeps at most (R45). -/
def overflowSize : Nat := 64

/-- Something waits for space in the collector. -/
def Collector.waiting (c : Collector) : Bool :=
  !c.merges.isEmpty || !c.hub.events.isEmpty || !c.hub.merges.isEmpty || c.hub.lost != 0

/-- The event enters the collector and takes the next global sequence number (R43); its detail goes to the slot of that
number in the detail store (R375). -/
def Collector.enter (c : Collector) (e : HeldEvent) : Collector :=
  let n := c.nextSeq
  { c with
    queue := c.queue ++ [⟨n, e.src, e.code, e.ts, e.detail⟩]
    nextSeq := (n + 1) % 2 ^ 32
    details := (n % 256, n, e.detail) :: c.details.filter (fun d => d.1 != n % 256) }

/-- The counts after one more event of a source and code, where a count exists. -/
def bumpMerge (src code : Nat) : List MergeCount → Option (List MergeCount)
  | [] => none
  | m :: ms =>
    if m.src = src ∧ m.code = code then some ({ m with count := m.count + 1 } :: ms)
    else (bumpMerge src code ms).map (m :: ·)

/-- A new event for an overflow store (R45). -/
def Overflow.add (o : Overflow) (e : HeldEvent) : Overflow :=
  if o.events.length < overflowSize then { o with events := o.events ++ [e] }
  else
    match bumpMerge e.src e.code o.merges with
    | some ms => { o with merges := ms }
    | none =>
      if o.merges.length < overflowSize then { o with merges := o.merges ++ [⟨e.src, e.code, 1, e.ts⟩] }
      else { o with lost := o.lost + 1 }

/-- A new event while the collector is full: merged with a queued event of its source and code, or put into the
overflow store of the die that raised it (R45). -/
def Collector.overflow (c : Collector) (front : Bool) (e : HeldEvent) : Collector :=
  if c.queue.any (fun q => q.src == e.src && q.code == e.code) then
    match bumpMerge e.src e.code c.merges with
    | some ms => { c with merges := ms }
    | none => { c with merges := c.merges ++ [⟨e.src, e.code, 1, e.ts⟩] }
  else if front then { c with front := c.front.add e }
  else { c with hub := c.hub.add e }

/-- A new event (R43, R45): it enters while the collector has space and nothing waits before it (R469). -/
def Collector.add (c : Collector) (front : Bool) (e : HeldEvent) : Collector :=
  let behind := c.waiting || (front && (!c.front.events.isEmpty || !c.front.merges.isEmpty || c.front.lost != 0))
  if c.queue.length < collectorSize ∧ behind = false then c.enter e else c.overflow front e

/-- EVENTS_MERGED for a merge count (R45, R376). -/
def mergedEvent (m : MergeCount) : HeldEvent :=
  ⟨m.src, 0x0101, m.ts, [m.code % 256, m.code / 256 % 256, 0, 0, m.count % 256, m.count / 256 % 256,
    m.count / 65536 % 256, m.count / 16777216 % 256]⟩

/-- EVENT_LOST for a lost count (R45, R376): source 0x0E01 for F, 0x0E00 for H. -/
def lostEvent (front : Bool) (n ts : Nat) : HeldEvent :=
  ⟨if front then 0x0E01 else 0x0E00, 0x010A, ts, [0, 0, 0, 0, n % 256, n / 256 % 256, n / 65536 % 256,
    n / 16777216 % 256]⟩

/-- The events of a list enter while there is space; the rest is answered. -/
def Collector.enterAll : List HeldEvent → Collector → Collector × List HeldEvent
  | [], c => (c, [])
  | e :: es, c => if c.queue.length < collectorSize then Collector.enterAll es (c.enter e) else (c, e :: es)

/-- The merge counts of a list enter while there is space; the rest is answered. -/
def Collector.enterMerges : List MergeCount → Collector → Collector × List MergeCount
  | [], c => (c, [])
  | m :: ms, c =>
    if c.queue.length < collectorSize then Collector.enterMerges ms (c.enter (mergedEvent m)) else (c, m :: ms)

/-- The items of one overflow store enter in the order of R469 while there is space. -/
def Collector.enterStore (front : Bool) (o : Overflow) (ts : Nat) (c : Collector) : Collector × Overflow :=
  let (c1, es) := Collector.enterAll o.events c
  let (c2, ms) := if es.isEmpty then Collector.enterMerges o.merges c1 else (c1, o.merges)
  if es.isEmpty && ms.isEmpty && o.lost != 0 && decide (c2.queue.length < collectorSize) then
    (c2.enter (lostEvent front o.lost ts), ⟨[], [], 0⟩)
  else (c2, ⟨es, ms, o.lost⟩)

/-- Waiting items enter in the order of R469 while there is space; F's items only over a link that is up. -/
def Collector.takeSpace (linkUp : Bool) (ts : Nat) (c : Collector) : Collector :=
  let (c1, ms) := Collector.enterMerges c.merges c
  let c1 := { c1 with merges := ms }
  if !ms.isEmpty then c1
  else
    let (c2, h) := Collector.enterStore false c1.hub ts c1
    let c2 := { c2 with hub := h }
    if c2.waiting || !linkUp then c2
    else
      let (c3, f) := Collector.enterStore true c2.front ts c2
      { c3 with front := f }

/-! ### Rings -/

/-- The ring states (HIF_RING_STS.STATE). -/
def ringDisabled : Nat := 0
def ringRunning : Nat := 1
def ringDraining : Nat := 2
def ringError : Nat := 3

/-- The state of a ring. -/
def State.ringState (s : State) (r : Nat) : Nat := s.fld (R.HIF_RING_STS r) F.HIF_RING_STS_STATE

/-- The number of entries of a ring: LOG2_SIZE, at least 4 and at most 12. -/
def State.ringSize (s : State) (r : Nat) : Nat :=
  2 ^ (min 12 (max 4 (s.fld (R.HIF_RING_CFG r) F.HIF_RING_CFG_LOG2_SIZE)))

/-- The bytes of an entry of a ring (R335): rings 6 to 13 take LOG2_ESIZE, at least 8 and at most 13. -/
def State.ringEsize (s : State) (r : Nat) : Nat :=
  if 6 ≤ r ∧ r ≤ 13 then 2 ^ (min 13 (max 8 (s.fld (R.HIF_RING_CFG r) F.HIF_RING_CFG_LOG2_ESIZE)))
  else 2 ^ ringEsizeReset r

def State.ringHead (s : State) (r : Nat) : Nat := s.fld (R.HIF_RING_IDX r) F.HIF_RING_IDX_HEAD
def State.ringTail (s : State) (r : Nat) : Nat := s.fld (R.HIF_RING_IDX r) F.HIF_RING_IDX_TAIL

/-- Entries that a ring holds: indices run freely modulo 65,536 (R337). -/
def State.ringHolds (s : State) (r : Nat) : Nat := (s.ringTail r + 65536 - s.ringHead r) % 65536

/-- A ring lies in the local window. -/
def State.ringLocal (s : State) (r : Nat) : Bool := s.on (R.HIF_RING_CFG r) F.HIF_RING_CFG_LOCAL

def State.ringBase (s : State) (r : Nat) : Nat := s.getPair (R.HIF_RING_BASE_LO r) (R.HIF_RING_BASE_HI r)

/-- The address of the entry at an index. -/
def State.ringAddr (s : State) (r i : Nat) : Nat := s.ringBase r + (i % s.ringSize r) * s.ringEsize r

/-- The ring's FULL bit follows its indices. -/
def State.ringFull (s : State) (r : Nat) : State :=
  s.setBit (R.HIF_RING_STS r) F.HIF_RING_STS_FULL.lo (decide (s.ringSize r ≤ s.ringHolds r))

/-- Bytes written by the part: into the local window, or to host memory by DMA while bus mastering is enabled (R332). -/
def State.putBytes (s : State) (isLocal : Bool) (a : Nat) (bs : List Byte) : State :=
  if isLocal then s.modWindow (fun y => y.setMany 0 a bs)
  else if s.on R.HIF_PCIE_STS F.HIF_PCIE_STS_BME then s.emit (.hostWrite a bs)
  else s

/-- An entry has gone to a part-produced ring: it counts for the ring's vector (R340). -/
def State.feedVector (s : State) (r : Nat) : State :=
  let v := s.fld (R.HIF_RING_CFG r) F.HIF_RING_CFG_VEC
  let s := (s.incSat (R.HIF_VEC_STS v) F.HIF_VEC_STS_COUNT).setF (R.HIF_VEC_STS v) F.HIF_VEC_STS_PENDING 1
  s.modHost (fun y => { y with idxChanged := true,
                               vecs := y.vecs.modify v (fun x => if x.firstAt.isNone then ⟨some s.clk.now3⟩ else x) })

/-- A part-produced ring can take an entry. -/
def State.ringRoom (s : State) (r : Nat) : Bool :=
  s.ringState r == ringRunning && decide (s.ringHolds r < s.ringSize r)

/-- An entry written at the tail of a part-produced ring, padded with zeros to the entry size. -/
def State.ringPost (s : State) (r : Nat) (bs : List Byte) : State :=
  let t := s.ringTail r
  let s1 := s.putBytes (s.ringLocal r) (s.ringAddr r t) (bs ++ List.replicate (s.ringEsize r - bs.length) 0)
  ((s1.setF (R.HIF_RING_IDX r) F.HIF_RING_IDX_TAIL ((t + 1) % 65536)).ringFull r).feedVector r

/-- The 16 bytes of an EVT record (R350). -/
def Event.bytes (e : Event) : List Byte := leBytes 2 e.src ++ leBytes 2 e.code ++ leBytes 4 e.seq ++ leBytes 8 e.ts

/-- The copy of an EVT record for the trace ring, or its count where the ring is full (R344). -/
def State.traceEvent (s : State) (e : Event) : State :=
  if s.on R.HIF_GLB_CTL F.HIF_GLB_CTL_TRACE_EVT && s.ringState 14 == ringRunning then
    if s.ringRoom 14 then s.ringPost 14 ((2 : Byte) :: List.replicate 15 0 ++ e.bytes)
    else s.incSat R.HIF_TRACE_CNT F.HIF_TRACE_CNT_EVT_DROP
  else s

/-- Queued events go to ring 2 while it runs and has room (R45, R350). -/
def State.pump : Nat → State → State
  | 0, s => s
  | n + 1, s =>
    match s.col.queue with
    | [] => s
    | e :: es =>
      if s.ringRoom 2 then
        State.pump n (((s.modCol (fun y => { y with queue := es })).ringPost 2 e.bytes).traceEvent e)
      else s

/-- Every queued event that ring 2 can take goes there. -/
def State.pumpAll (s : State) : State := s.pump s.col.queue.length

/-- The H-F link carries flits at both ends, and H runs. -/
def State.linkUp (s : State) : Bool := s.link.fUp && s.on R.MEM_LINK_STS F.MEM_LINK_STS_UP

/-- An event raised on H with its stamp (R43 to R45). -/
def State.raiseAt (s : State) (code src ts : Nat) (detail : List Nat) : State :=
  (s.modCol (fun y => y.add false ⟨src, code, ts, detail⟩)).pumpAll

/-- An event raised on H now. -/
def State.raise (s : State) (code src : Nat) (detail : List Nat := []) : State := s.raiseAt code src s.nowNs detail

/-- An event raised on F, P0, P1, M or S with its stamp: over the link it enters the collector, otherwise it waits in F's
event store (R43, R45, R277). -/
def State.raiseFAt (s : State) (code src ts : Nat) (detail : List Nat) : State :=
  if s.linkUp && s.power.hubUp then (s.modCol (fun y => y.add true ⟨src, code, ts, detail⟩)).pumpAll
  else s.modCol (fun y => { y with front := y.front.add ⟨src, code, ts, detail⟩ })

/-- An event raised on F now. -/
def State.raiseF (s : State) (code src : Nat) (detail : List Nat := []) : State := s.raiseFAt code src s.nowNs detail

/-- The time in thirds of ns at which a key was last used, for events with a holdoff. -/
def State.lastAt (s : State) (key : Nat) : Option Nat := (s.col.holdoff.find? (fun p => p.1 == key)).map (·.2)

/-- The key of a source and code in the holdoff table. -/
def evKey (code src : Nat) : Nat := code * 65536 + src

/-- The holdoff of a key has passed. -/
def State.rested (s : State) (key period3 : Nat) : Bool :=
  match s.lastAt key with
  | none => true
  | some t => decide (t + period3 ≤ s.clk.now3)

/-- The holdoff of a key begins now. -/
def State.touch (s : State) (key : Nat) : State :=
  s.modCol (fun y => { y with holdoff := (key, s.clk.now3) :: y.holdoff.filter (fun p => p.1 != key) })

/-- One second in thirds of ns. -/
def second3 : Nat := 3000000000

/-- An event raised on H at most once in a period. -/
def State.raiseLimited (s : State) (period3 code src : Nat) (detail : List Nat := []) : State :=
  if s.rested (evKey code src) period3 then (s.touch (evKey code src)).raise code src detail else s

/-- An event raised on F at most once in a period. -/
def State.raiseFLimited (s : State) (period3 code src : Nat) (detail : List Nat := []) : State :=
  if s.rested (evKey code src) period3 then (s.touch (evKey code src)).raiseF code src detail else s

/-! ### Free values -/

/-- The next free value: an opaque function of the counter, which advances (the spec leaves the value open). -/
def State.fresh (s : State) (w : Nat) : BitVec w × State := (Config.freeValue w s.free, { s with free := s.free + 1 })

/-- So many free bytes. -/
def State.freshBytes : Nat → State → List Byte × State
  | 0, s => ([], s)
  | n + 1, s =>
    let (b, s) := s.fresh 8
    let (bs, s) := State.freshBytes n s
    (b :: bs, s)

/-! ### Completions -/

/-- The queue of an origin. -/
def originIdx : Origin → Nat
  | .cmd => 0
  | .mcmd => 1
  | .param i => 2 + i.val
  | .smbus => 10
  | .health i => 11 + i.val

/-- The queue of an origin in the state. -/
def State.queue (s : State) (o : Origin) : CmdQueue := s.host.queues.getD (originIdx o) ⟨0, 0, []⟩

/-- The state with the queue of an origin changed. -/
def State.modQueue (s : State) (o : Origin) (f : CmdQueue → CmdQueue) : State :=
  s.modHost (fun y => { y with queues := y.queues.modify (originIdx o) f })

/-- A descriptor completes: its completion is fixed and waits for its turn to be posted (R347). A completion that is
already fixed stays. LATE says that the effective block is later than the AT_BLOCK index (R347). -/
def State.finish (s : State) (id : DescId) (c : Completion) : State :=
  let s := s.modQueue id.org (fun q => { q with flight := q.flight.map (fun f =>
    if f.ord = id.ord ∧ f.cpl.isNone then
      { f with cpl := some { c with
          chained := c.chained || f.chained
          slipped := c.slipped || f.slip
          late := (match f.want with
            | some w => decide (c.status = .done ∧ w < c.eff)
            | none => false) } }
    else f) })
  if c.status = .badOpcode ∨ c.status = .badParam then s.incSat R.HIF_DESC_CNT F.HIF_DESC_CNT_BAD else s

/-- The effective block of a completion that has none (R348). -/
def noBlock : Nat := 0xFFFFFFFFFFFFFFFF

/-- A plain completion with a status other than DONE (R348). -/
def State.finishBad (s : State) (id : DescId) (st : Status) : State :=
  s.finish id ⟨st, false, false, false, noBlock, none⟩

/-- A plain DONE in the present block (R348). -/
def State.finishDone (s : State) (id : DescId) : State :=
  s.finish id ⟨.done, false, false, false, s.clk.blk, none⟩

/-- The descriptor of an option completes, where there is one. -/
def State.finishOpt (s : State) (id : Option DescId) (c : Completion) : State :=
  match id with
  | some i => s.finish i c
  | none => s

/-- The code of a completion status (R349). -/
def statusCode : Status → Nat
  | .done => 0
  | .refusedBusy => 1
  | .aborted => 2
  | .badOpcode => 3
  | .badParam => 4
  | .denied => 5
  | .lockAbandoned => 6
  | .lockNotHeld => 7
  | .faulted => 8
  | .superseded => 9
  | .timeout => 10
  | .notPresent => 11

/-- The 16-byte completion record (R347). -/
def cplBytes (tag ord : Nat) (c : Completion) : List Byte :=
  leBytes 2 tag ++ leBytes 1 (statusCode c.status) ++ leBytes 1 (c.late.toNat + 2 * c.slipped.toNat + 4 * c.chained.toNat)
    ++ leBytes 4 ord ++ leBytes 8 c.eff

/-- The lengths of a bank fade (FLT_SWAP.FADE). -/
def fadeSamples (code : Nat) : Nat :=
  match code % 4 with
  | 0 => 0
  | 1 => 64
  | 2 => 256
  | _ => 1024

/-- A DONE completion with an effective block. -/
def doneAt (k : Nat) : Completion := ⟨.done, false, false, false, k, none⟩

/-- A SUPERSEDED completion (R71). -/
def superseded : Completion := ⟨.superseded, false, false, false, noBlock, none⟩

/-- The addresses of an array of registers. -/
def addrs (f : Nat → Nat) (n : Nat) : List Nat := (List.range n).map f

/-! ### Staging -/

/-- The first block whose cutoff, sample 14 of the block before, has not passed (R33). -/
def State.nextOpen (s : State) : Nat := if s.clk.smp < 14 then s.clk.blk + 1 else s.clk.blk + 2

/-- The order in which changes of one cutoff are staged (R346, R442): ring 0, the PARAM queues, ring 3 with the other
management origins, the part itself, window writes. -/
def originRank : Origin → Nat
  | .cmd => 0
  | .param i => 1 + i.val
  | .mcmd => 9
  | .smbus => 10
  | .health i => 11 + i.val

/-- The rank of a change that the part stages for itself. -/
def rankPart : Nat := 30

/-- The rank of a window write. -/
def rankWindow : Nat := 40

/-- A change staged for a block, behind the ones of its rank (R37, R346, R442). -/
def State.stageAt (s : State) (c : Staged) : State :=
  s.modStage (fun y => { y with changes := y.changes ++ [c] })

/-- The index of the agent that a descriptor of an origin is (R415). -/
def originAgent : Origin → Agent
  | .cmd => 3
  | .param i => ⟨5 + i.val, by omega⟩
  | _ => 4

/-- The owner ID of an origin (R356). -/
def originOwner : Origin → Option Nat
  | .cmd => some 0
  | .param i => some (0x30 + i.val)
  | _ => none

end Sys2Proof.Machine
end

