-- ==== Sys2Proof/Machine/Stage.lean ====
section
/-!
DEFINITION. Staging with the early cutoffs of clusters that render ahead, and the squash of their rendered data blocks
(R207, R219, R220, R223, R224).
-/
namespace Sys2Proof.Machine

/-! ### Clusters that render ahead -/

def State.engX (s : State) (n : Nat) : EngX := s.eng.engs.getD n EngX.reset

def State.modEng (s : State) (n : Nat) (f : EngX → EngX) : State :=
  s.modEngines (fun y => { y with engs := y.engs.modify n f })

/-- Cluster n renders ahead: RUNAHEAD is set and the engine is in PASS or RUN (R207). -/
def State.rendersAhead (s : State) (n : Nat) : Bool :=
  s.on (R.ENG_CTL n) F.ENG_CTL_RUNAHEAD && s.fld (R.ENG_STS n) F.ENG_STS_MODE_ACT != 0
    && !s.on (R.ENG_STS n) F.ENG_STS_DOWN

/-- The source of a generator is taken by a lane of cluster n. -/
def State.takesGen (s : State) (n g : Nat) : Bool :=
  (List.range 16).any (fun j => s.fld (R.MP_LANE_SRC (16 * n + j)) F.MP_LANE_SRC_SRC == 0x160 + g)

/-- A register governs a stage of cluster n that runs at render time (R223): the source and the trim of its lanes, and the
mode of its engine. -/
def governsReg (n a : Nat) : Bool :=
  decide (R.MP_LANE_SRC (16 * n) ≤ a ∧ a < R.MP_LANE_SRC (16 * n + 16))
    || decide (R.MP_LANE_TRIM (16 * n) ≤ a ∧ a < R.MP_LANE_TRIM (16 * n + 16)) || a == R.ENG_CTL n

/-- A change governs a stage of cluster n that runs at render time (R223). -/
def State.governs (s : State) (n : Nat) : Act → Bool
  | .reg a _ _ => governsReg n a
  | .regMask a _ _ => governsReg n a
  | .regRun a vs => (List.range vs.length).any (fun i => governsReg n (a + 4 * i))
  | .preset es => es.any (fun e => governsReg n e.1)
  | .engMode m _ => m == n
  | .param m .. => m == n
  | .generator g .. => s.takesGen n g
  | _ => false

/-- The clusters that render ahead and that a list of changes governs at render time. -/
def State.governed (s : State) (acts : List Act) : List Nat :=
  (List.range 8).filter (fun n => s.rendersAhead n && acts.any (s.governs n))

/-- The largest anneal margin of a list of clusters, at least the 2 of R33. -/
def State.marginOf (s : State) (ns : List Nat) : Nat := ns.foldl (fun m n => max m (s.engX n).margin) 2

/-- The first block whose cutoff has not passed for every change of a list: sample 14 of block k + 1 − M (R33, R223,
R224). -/
def State.openFor (s : State) (acts : List Act) : Nat := s.nextOpen + s.marginOf (s.governed acts) - 2

/-! ### Squash (R219, R220) -/

/-- The data blocks of a cluster from k0 on that a squash undoes: parison blocks, rendered or in progress. -/
def EngX.victims (x : EngX) (k0 : Nat) : List Rendered :=
  (x.queue ++ x.busy.toList).filter (fun r => r.parison && decide (k0 ≤ r.k))

/-- Cluster n squashes from data block k0: the log is replayed to the mark of k0, and rendering goes on from there. The
words that a block in progress had logged are a free value. -/
def State.squash (s : State) (n k0 : Nat) : State :=
  let x := s.engX n
  match x.victims k0 with
  | [] => s
  | v :: vs =>
    let done := (x.queue.filter (fun r => r.parison && decide (k0 ≤ r.k))).foldl (fun t r => t + r.words) 0
    let (part, s) : Nat × State :=
      match x.busy with
      | some r => if r.parison && decide (k0 ≤ r.k) then let (w, s') := s.fresh 14; (w.toNat, s') else (0, s)
      | none => (0, s)
    let k1 := (v :: vs).foldl (fun m r => min m r.k) v.k
    s.modEng n (fun x => { x with
      next := k1
      busy := match x.busy with
        | some r => if k0 ≤ r.k then none else some r
        | none => none
      queue := x.queue.filter (fun r => decide (r.k < k0))
      conc := v.before
      squash := (x.squash + 1) % 2 ^ 32
      replayed := (x.replayed + done + part) % 2 ^ 32
      lastK0 := k0
      contained := 0 })

/-- The clusters of a list squash from k0. -/
def State.squashAll (k0 : Nat) : List Nat → State → State
  | [], s => s
  | n :: ns, s => State.squashAll k0 ns (s.squash n k0)

/-! ### Staging -/

/-- A change staged, with the squash of the data blocks that it governs and that are rendered (R223). -/
def State.stageAct (s : State) (c : Staged) : State :=
  State.squashAll c.eff (s.governed [c.act]) (s.stageAt c)

/-- A change of the part, or of a window write, at the first commit point whose cutoff has not passed. -/
def State.stageNext (s : State) (rank : Nat) (act : Act) : State := s.stageAct ⟨none, s.openFor [act], rank, none, act⟩

end Sys2Proof.Machine
end

