-- ==== Sys2Proof/Machine/Signal.lean ====
section
/-!
DEFINITION. The arithmetic of samples: exact fractions, requantisation with convergent rounding and saturation (R63, R117,
R141), amplitudes of dB codes (R126), raised-cosine weights and ramps (R70, R125), tags (R14, R41).
-/
namespace Sys2Proof

/-! ### Exact fractions -/

def Frac.ofInt (x : Int) : Frac := ⟨x, 1⟩

def Frac.one : Frac := ⟨1, 1⟩

def Frac.zero : Frac := ⟨0, 1⟩

def Frac.add (a b : Frac) : Frac := ⟨a.num * b.den + b.num * a.den, a.den * b.den⟩

def Frac.neg (a : Frac) : Frac := ⟨-a.num, a.den⟩

def Frac.sub (a b : Frac) : Frac := a.add b.neg

def Frac.mul (a b : Frac) : Frac := ⟨a.num * b.num, a.den * b.den⟩

/-- a is at most b. -/
def Frac.le (a b : Frac) : Bool := decide (a.num * b.den ≤ b.num * a.den)

/-- The nearest whole number, a tie to the even one: convergent rounding. -/
def Frac.round (a : Frac) : Int :=
  let q := a.num / a.den
  let r := 2 * (a.num % a.den)
  if r < a.den then q else if (a.den : Int) < r then q + 1 else q + q % 2

/-- A fraction strictly between 0 and 1. -/
def unitOf (p : Nat × Nat) : Frac := ⟨p.1 + 1, p.1 + p.2 + 2⟩

/-- A fraction above 0 and at most 1. -/
def shareOf (p : Nat × Nat) : Frac := ⟨p.1 + 1, p.1 + p.2 + 1⟩

/-! ### Samples and tags -/

/-- The tags U, O and C (R14). -/
def tagU : Tag := 1

def tagO : Tag := 2

def tagC : Tag := 4

def tagP : Tag := 8

/-- The value of a sample in units of 2^−31. -/
def Smp.int (x : Smp) : Int := x.v.toInt

/-- The largest and the smallest code of a lane. -/
def qMax : Int := 2 ^ 31 - 1

def qMin : Int := -2 ^ 31

/-- A whole number of units of 2^−31 as a sample, saturated at the limits of Q1.31; a saturated sample carries O. -/
def satSmp (x : Int) (t : Tag) : Smp :=
  if qMax < x then ⟨0x7FFFFFFF, t ||| tagO⟩
  else if x < qMin then ⟨0x80000000, t ||| tagO⟩
  else ⟨BitVec.ofInt 32 x, t⟩

/-- An exact value requantised to Q1.31 (R63, R117, R141). -/
def requant (a : Frac) (t : Tag) : Smp := satSmp a.round t

/-- A requantisation saturates. -/
def saturates (a : Frac) : Bool := decide (qMax < a.round ∨ a.round < qMin)

/-- A block of zero samples with a tag. -/
def zeroBlock (t : Tag) : List Smp := List.replicate 16 ⟨0, t⟩

/-- A sample of a block. -/
def smpAt (b : List Smp) (i : Nat) : Smp := b.getD i ⟨0, 0⟩

namespace Machine

/-! ### Amplitudes -/

/-- The amplitude of num/den dB. -/
def ampDb (num : Int) (den : Nat) : Frac :=
  if num = 0 then Frac.one
  else if num < 0 then unitOf (Config.atten num.natAbs den)
  else
    let u := unitOf (Config.atten num.natAbs den)
    ⟨u.den, u.num.natAbs⟩

/-- The amplitude of a gain or volume code (R126). -/
def ampCode (code : Nat) : Frac :=
  let c := sgn 12 code
  if c ≤ -1201 then Frac.zero else ampDb (min 240 c) 10

/-- The weight w of sample i of a fade of F samples (R70). -/
def rise (i F : Nat) : Frac := unitOf (Config.rise i F)

/-- 1 − w. -/
def fall (i F : Nat) : Frac := Frac.one.sub (rise i F)

/-! ### Ramps -/

/-- The amplitude that a list of moves, newest first, gives at data sample t; `base` before the first of them. -/
def rampAt (base : Frac) : List Ramp → Nat → Frac
  | [], _ => base
  | r :: rs, t =>
    if t < r.at_ then rampAt base rs t
    else if r.at_ + r.len ≤ t then r.target
    else
      let w := if r.lin then ⟨(t - r.at_ : Nat), r.len⟩ else rise (t - r.at_) r.len
      r.start.add (w.mul (r.target.sub r.start))

/-- A new move from the present amplitude, the one that the moves so far give at its first sample (R118, R125). The four
newest moves cover what the stages still need. -/
def rampTo (base : Frac) (rs : List Ramp) (t len : Nat) (target : Frac) (lin : Bool) : List Ramp :=
  ⟨t, len, rampAt base rs t, target, lin⟩ :: rs.take 3

/-- A gate moved between one and zero. -/
def gateTo (rs : List Ramp) (t len : Nat) (on : Bool) : List Ramp :=
  rampTo Frac.zero rs t len (if on then Frac.one else Frac.zero) false

/-- Fades between zero and one, kept by key: a change of the wish moves the gain over 64 samples from data sample t on; a key
not listed is at one. -/
def fadeGate (l : List (Nat × Bool × List Ramp)) (key : Nat) (on : Bool) (t : Nat) : List (Nat × Bool × List Ramp) :=
  let x := lookupKey (true, []) l key
  if x.1 = on then l
  else putKey l key (on, rampTo Frac.one x.2 t 64 (if on then Frac.one else Frac.zero) false)

/-- The gain of such a fade. -/
def fadeGain (l : List (Nat × Bool × List Ramp)) (key t : Nat) : Frac := rampAt Frac.one (lookupKey (true, []) l key).2 t

end Machine
end Sys2Proof
end

