-- ==== Sys2Proof/Machine/FrontEnd.lean ====
section
/-!
DEFINITION. Analogue and microphone inputs and the decimation chain (chapter 2).
-/
namespace Sys2Proof.Machine

/-! ### Shared operations -/

/-- What a front-end channel keeps beside its registers. -/
def State.chan (s : State) (c : Nat) : FeChan := s.fe.chans.getD c FeChan.reset

def State.modChan (s : State) (c : Nat) (f : FeChan → FeChan) : State :=
  s.modFe (fun y => { y with chans := y.chans.modify c f })

/-- N/4 of a channel: TAPS, with 0 to 3 as 4 and 129 to 255 as 128 (R64). -/
def State.quarterN (s : State) (c : Nat) : Nat := min 128 (max 4 (s.fld (R.FLT_CH_CFG c) F.FLT_CH_CFG_TAPS))

/-- U samples after a chain reset (R65). -/
def State.uSamples (s : State) (c : Nat) : Nat := s.quarterN c + (if c < 8 then 9 else 1)

/-- The chain of a channel resets: its histories are zero and its next samples carry U (R72, R74). -/
def State.chainReset (s : State) (c : Nat) : State :=
  ((s.setF (R.FLT_SETTLE c) F.FLT_SETTLE_REMAIN (s.uSamples c)).setF (R.FLT_SETTLE c) F.FLT_SETTLE_UNSETTLED 1).modChan c
    (fun x => { x with resetWas := x.resetAt, resetAt := 16 * s.clk.blk + s.clk.smp })

/-- FLT_DELAY of a channel for its present N: the U samples, and the group delay in 1/256 sample (R65). The part of the
delay before the FIR is 1,069.375/256 samples for analogue channels and 111.993/256 for PDM. -/
def State.setDelay (s : State) (c : Nat) : State :=
  (s.setF (R.FLT_DELAY c) F.FLT_DELAY_USAMP (s.uSamples c)).setF (R.FLT_DELAY c) F.FLT_DELAY_GD
    (32 * (4 * s.quarterN c - 1) + (if c < 8 then 1069 else 112))

/-- The channel is enabled in effect. -/
def State.chanOn (s : State) (c : Nat) : Bool := s.on (R.FLT_CH_CFG c) F.FLT_CH_CFG_EN

/-- A coefficient of a bank (R66, R67). -/
def State.coef (s : State) (c : Nat) (bank : Bool) (i : Nat) : Word :=
  match (s.chan c).coefs.find? (fun p => p.1 == 256 * bank.toNat + i) with
  | some p => p.2
  | none => Config.defaultCoef (decide (8 ≤ c)) i

/-- A coefficient written. -/
def State.setCoef (s : State) (c : Nat) (bank : Bool) (i : Nat) (v : Word) : State :=
  s.modChan c (fun x => { x with coefs :=
    (256 * bank.toNat + i, v) :: x.coefs.filter (fun p => p.1 != 256 * bank.toNat + i) })

/-- Coefficients written from index i on. -/
def State.setCoefs (c : Nat) (bank : Bool) : Nat → List Word → State → State
  | _, [], s => s
  | i, v :: vs, s => State.setCoefs c bank (i + 1) vs (s.setCoef c bank i v)

def State.wireStuck (s : State) (k : Nat) : Bool := s.fe.stuck.getD k false

/-- From data sample t on the channel delivers what its flags say (R59, R471). -/
def State.feMark (s : State) (c t : Nat) : State :=
  s.modChan c (fun x => { x with kinds :=
    (t, if x.silent then 1 else if 8 ≤ c ∧ s.wireStuck ((c - 8) / 2) = true then 2 else 0) :: x.kinds.take 3 })

/-- The bank in effect, or faded to. -/
def State.activeBank (s : State) (c : Nat) : Bool := s.on (R.FLT_BANK_STS c) F.FLT_BANK_STS_ACTIVE

def State.fading (s : State) (c : Nat) : Bool := s.on (R.FLT_BANK_STS c) F.FLT_BANK_STS_FADING

/-- A bank has failed (R471). -/
def State.bankFailed (s : State) (c : Nat) (bank : Bool) : Bool :=
  if bank then (s.chan c).failB else (s.chan c).failA

/-- A bank is in use: the only active bank, or either side of a running fade, and not failed (R68). -/
def State.bankInUse (s : State) (c : Nat) (bank : Bool) : Bool :=
  (s.fading c || s.activeBank c == bank) && !s.bankFailed c bank

/-- A bank becomes active at block k; it leaves the failed state (R69, R471). -/
def State.activate (s : State) (c : Nat) (bank : Bool) (k : Nat) : State :=
  let s := (s.setF (R.FLT_BANK_STS c) F.FLT_BANK_STS_ACTIVE bank.toNat).setPair (R.FLT_BANK_BLK_LO c)
    (R.FLT_BANK_BLK_HI c) k
  s.modChan c (fun x => if bank then { x with failB := false } else { x with failA := false })

/-- A fade to a bank begins with data block k (R69, R70); a fade of length 0 switches at once. -/
def State.beginFade (s : State) (c : Nat) (bank : Bool) (code k : Nat) : State :=
  let s := s.activate c bank k
  let n := fadeSamples code
  if n = 0 then s
  else
    ((s.setF (R.FLT_BANK_STS c) F.FLT_BANK_STS_FADING 1).setF (R.FLT_BANK_STS c) F.FLT_BANK_STS_REMAIN n).modChan c
      (fun x => { x with fadeAt := k, fadeLen := n })

/-- The running fade is over. -/
def State.dropFade (s : State) (c : Nat) : State :=
  (s.setF (R.FLT_BANK_STS c) F.FLT_BANK_STS_FADING 0).setF (R.FLT_BANK_STS c) F.FLT_BANK_STS_REMAIN 0

/-- The queue of a channel holds no request. -/
def State.clearQueued (s : State) (c : Nat) : State :=
  (((s.setF (R.FLT_BANK_STS c) F.FLT_BANK_STS_QUEUED 0).setF (R.FLT_BANK_STS c) F.FLT_BANK_STS_QUEUED_BANK 0).setF
    (R.FLT_BANK_STS c) F.FLT_BANK_STS_QUEUED_FADE 0).modChan c (fun x => { x with queued := none })

/-- A bank fade ends at block k; a queued request begins there (R71). -/
def State.fadeEnd (s : State) (c k : Nat) : State :=
  let s := s.dropFade c
  match (s.chan c).queued with
  | none => s
  | some q =>
    if q.bank = s.activeBank c then (s.clearQueued c).finishOpt q.id (doneAt k)
    else ((s.clearQueued c).beginFade c q.bank q.fade k).finishOpt q.id (doneAt k)

/-- The block at which the running fade of a channel ends. -/
def State.fadeOver (s : State) (c : Nat) : Nat := (s.chan c).fadeAt + (s.chan c).fadeLen / 16

/-- A fade that is over at block k is ended before anything else of that block is judged. -/
def State.fadeDue (s : State) (c k : Nat) : State :=
  if s.fading c && decide (s.fadeOver c ≤ k) then s.fadeEnd c k else s

/-- A swap request judged at the commit point of block k (the table of R69; R471 for a silenced channel). -/
def State.swapEvaluate (s : State) (id : Option DescId) (c : Nat) (bank : Bool) (code k : Nat) : State :=
  let s := s.fadeDue c k
  if !s.chanOn c then
    let s := if s.activeBank c = bank then s else s.activate c bank k
    s.finishOpt id (doneAt k)
  else if (s.chan c).silent then
    ((((s.activate c bank k).modChan c (fun x => { x with silent := false })).feMark c (16 * k)).chainReset c).finishOpt id
      (doneAt k)
  else if s.fading c then
    if s.activeBank c = bank then
      (s.incSat (R.FLT_SWAP_CNT c) F.FLT_SWAP_CNT_NO_EFFECT).finishOpt id (doneAt (s.chan c).fadeAt)
    else
      let s1 := match (s.chan c).queued with
        | none => s
        | some q => (s.incSat (R.FLT_SWAP_CNT c) F.FLT_SWAP_CNT_SUPERSEDED).finishOpt q.id superseded
      (((s1.setF (R.FLT_BANK_STS c) F.FLT_BANK_STS_QUEUED 1).setF (R.FLT_BANK_STS c) F.FLT_BANK_STS_QUEUED_BANK
        bank.toNat).setF (R.FLT_BANK_STS c) F.FLT_BANK_STS_QUEUED_FADE (code % 4)).modChan c
        (fun x => { x with queued := some ⟨id, bank, code⟩ })
  else if s.activeBank c = bank then
    s.finishOpt id (doneAt (s.getPair (R.FLT_BANK_BLK_LO c) (R.FLT_BANK_BLK_HI c)))
  else (s.beginFade c bank code k).finishOpt id (doneAt k)

/-- A coefficient bank fails on an uncorrectable error at the present sample (R471): the sole active bank silences the
channel; a side of a running fade ends the fade on the other bank. A queued request completes SUPERSEDED. -/
def State.coefBankFail (s : State) (c : Nat) (bank : Bool) : State :=
  let s0 := s.modChan c (fun x => if bank then { x with failB := true } else { x with failA := true })
  let s1 := match (s0.chan c).queued with
    | none => s0
    | some q => ((s0.incSat (R.FLT_SWAP_CNT c) F.FLT_SWAP_CNT_SUPERSEDED).clearQueued c).finishOpt q.id superseded
  let t := 16 * s.clk.blk + s.clk.smp + 1
  if s.fading c then
    ((s1.dropFade c).modChan c (fun x => { x with fadeWas := some (t, x.fadeAt, x.fadeLen, s.activeBank c) })).activate c
      (!bank) s.clk.blk
  else if s.activeBank c = bank then
    ((s1.modChan c (fun x => { x with silent := true })).feMark c t).setF (R.FLT_SETTLE c) F.FLT_SETTLE_UNSETTLED 1
  else s1

/-- A channel stops at the commit point of block k: its banks settle (R69) and it delivers zeros tagged U (R76). -/
def State.chanDisable (s : State) (c k : Nat) : State :=
  let s := s.fadeDue c k
  let s := if s.fading c then (s.dropFade c).setPair (R.FLT_BANK_BLK_LO c) (R.FLT_BANK_BLK_HI c) k else s
  let s := match (s.chan c).queued with
    | none => s
    | some q => ((if s.activeBank c = q.bank then s else s.activate c q.bank k).clearQueued c).finishOpt q.id (doneAt k)
  let s := ((s.setF (R.FLT_SETTLE c) F.FLT_SETTLE_UNSETTLED 1).setF (R.FLT_SETTLE c) F.FLT_SETTLE_REMAIN 0).modChan c
    (fun x => { x with released := false, silent := false, fadeWas := none
                       kinds := if 8 ≤ c ∧ s.wireStuck ((c - 8) / 2) = true then [(0, 2)] else [] })
  if c < 8 then (s.setF (R.AFE_IN_STS c) F.AFE_IN_STS_READY 0).setF (R.AFE_IN_STS c) F.AFE_IN_STS_OVL_NOW 0 else s

/-- A channel starts at the commit point of block k: powered, with its modulator held in reset (R76 step 1). -/
def State.chanEnable (s : State) (c k : Nat) : State :=
  (s.setF (R.FLT_SETTLE c) F.FLT_SETTLE_UNSETTLED 1).modChan c (fun x => { x with enAt := k, released := false })

/-- The channels of a mask have their chains reset. -/
def State.syncChans (mask : Nat) : Nat → State → State
  | 0, s => s
  | n + 1, s =>
    let s := State.syncChans mask n s
    if mask.testBit n && s.chanOn n && (s.chan n).released then s.chainReset n else s

/-- A SYNC applied at block k (R72, R74). -/
def State.syncApply (s : State) (mask : Option Nat) (src : SyncSrc) (k : Nat) : State :=
  let m := match mask with
    | some m => m
    | none => s.fld R.FLT_SYNC_CTL F.FLT_SYNC_CTL_MASK
  let s := (((State.syncChans m 16 s).setPair R.FLT_SYNC_BLK_LO R.FLT_SYNC_BLK_HI k)).incWrap R.FLT_SYNC_CNT
    F.FLT_SYNC_CNT_COUNT
  match src with
  | .ball => s.raiseFAt 0x0306 0x3FF (s.stampOf k 0) []
  | .armed => s.setF R.FLT_SYNC_CTL F.FLT_SYNC_CTL_ARM 0
  | .command => s

/-- A staged change is a SYNC from a source. -/
def isSyncFrom (src : SyncSrc) (c : Staged) : Bool :=
  match c.act with
  | .feSync _ x => x == src
  | _ => false

/-- The SYNC that ARM and FLT_SYNC_AT ask for replaces the one armed before (R72). -/
def State.armSync (s : State) : State :=
  let rest := s.stage.changes.filter (fun c => !isSyncFrom .armed c)
  let s := s.modStage (fun y => { y with changes := rest })
  if s.on R.FLT_SYNC_CTL F.FLT_SYNC_CTL_ARM then
    s.stageAt ⟨none, max (s.getPair R.FLT_SYNC_AT_LO R.FLT_SYNC_AT_HI) s.nextOpen, rankWindow, none,
      .feSync none .armed⟩
  else s

/-! ### Gain -/

/-- The target gain of an input: values above 60 act as 60 (AFE_IN_GAIN). -/
def State.gainTarget (s : State) (n : Nat) : Nat := min 60 (s.fld (R.AFE_IN_GAIN n) F.AFE_IN_GAIN_GAIN)

def State.micMode (s : State) (n : Nat) : Bool := s.on (R.AFE_IN_CFG n) F.AFE_IN_CFG_MODE

/-- The time of a zero-crossing search in thirds of ns: TIMEOUT in ms, at least 1 and at most 100 (R54). -/
def State.gainZ (s : State) : Nat := min 100 (max 1 (s.fld R.AFE_ZC_CFG F.AFE_ZC_CFG_TIMEOUT)) * 3000000

/-- STEPPING follows CUR and the target; a search begins where they differ (R54). -/
def State.gainSearch (s : State) (n : Nat) : State :=
  if s.micMode n && s.fld (R.AFE_IN_GAIN n) F.AFE_IN_GAIN_CUR != s.gainTarget n then
    (s.setF (R.AFE_IN_STS n) F.AFE_IN_STS_STEPPING 1).modChan n (fun x => { x with gainBy := s.clk.now3 + s.gainZ })
  else s.setF (R.AFE_IN_STS n) F.AFE_IN_STS_STEPPING 0

/-- A write of AFE_IN_GAIN has set the target: stepping starts, or all steps are taken at once (R54). -/
def State.gainWritten (s : State) (n : Nat) : State :=
  if s.micMode n && s.on (R.AFE_IN_GAIN n) F.AFE_IN_GAIN_ZC_BYPASS then
    (s.setF (R.AFE_IN_GAIN n) F.AFE_IN_GAIN_CUR (s.gainTarget n)).gainSearch n
  else s.gainSearch n

/-- One 1 dB step towards the target (R54). -/
def State.gainStep (s : State) (n : Nat) : State :=
  let cur := s.fld (R.AFE_IN_GAIN n) F.AFE_IN_GAIN_CUR
  let t := s.gainTarget n
  (s.setF (R.AFE_IN_GAIN n) F.AFE_IN_GAIN_CUR (if cur < t then cur + 1 else if t < cur then cur - 1 else cur)).gainSearch n

/-- A change of MODE or SE while the channel is enabled resets its modulator and chain (R53). -/
def State.modeChanged (s : State) (n : Nat) : State :=
  let s := s.gainSearch n
  if s.chanOn n && (s.chan n).released then s.chainReset n else s

/-! ### Events of the front end -/

/-- GAIN_STEP (R54): at a zero crossing of the modulator output. -/
def execGainStep (n : Fin 8) (s : State) : Out :=
  .next (if s.on (R.AFE_IN_STS n) F.AFE_IN_STS_STEPPING then s.gainStep n else s)

/-- AFE_ZC_TIMEOUT (R54): the step is taken at the timeout. -/
def execAfeZcTimeout (n : Fin 8) (s : State) : Out :=
  .next (if s.on (R.AFE_IN_STS n) F.AFE_IN_STS_STEPPING && decide ((s.chan n).gainBy ≤ s.clk.now3) then
    (s.gainStep n).setF (R.AFE_IN_STS n) F.AFE_IN_STS_ZC_TIMEOUT 1 else s)

/-- MICBIAS_OVERCURRENT (R56). -/
def execMicbiasOvercurrent (j : Fin 2) (s : State) : Out :=
  .next (if s.bit R.AFE_MICBIAS_CFG j then (s.setBit R.AFE_MICBIAS_CFG (16 + j) true).raiseF (0x0300 + j) 0x3FF else s)

/-- A PDM wire is captured: enabled, with its clock driven (R57, R296). -/
def State.captured (s : State) (k : Nat) : Bool :=
  s.bit R.AFE_PDM_CFG k &&
    (if k < 2 then s.on R.AFE_PDM_CFG F.AFE_PDM_CFG_CLK0_EN || s.on R.AFE_LSN_CFG F.AFE_LSN_CFG_EN
     else s.on R.AFE_PDM_CFG F.AFE_PDM_CFG_CLK1_EN)

/-- A wire is stuck or not from the present sample on. -/
def State.setStuck (s : State) (k : Nat) (b : Bool) : State :=
  let t := 16 * s.clk.blk + s.clk.smp
  ((s.modFe (fun y => { y with stuck := y.stuck.set k b })).feMark (8 + 2 * k) t).feMark (9 + 2 * k) t

/-- PDM_STUCK (R59): STUCK, the events of both sources, zeros with O. -/
def execPdmStuck (k : Fin 4) (s : State) : Out :=
  .next (if s.captured k && !s.wireStuck k then
    let s1 := (s.setBit R.AFE_PDM_STS k true).setAll F.FLT_OVR_STS_OVR_NOW 1
      [R.FLT_OVR_STS (8 + 2 * k), R.FLT_OVR_STS (9 + 2 * k)]
    let s2 := s1.setStuck k true
    (s2.raiseF 0x0302 (8 + 2 * k)).raiseF 0x0302 (9 + 2 * k)
  else s)

/-- PDM_WIRE_TOGGLE (R59): both channels refill their chains with U tags. -/
def execPdmWireToggle (k : Fin 4) (s : State) : Out :=
  .next (if s.wireStuck k then
    let s1 := s.setStuck k false
    ((s1.setAll F.FLT_OVR_STS_OVR_NOW 0 [R.FLT_OVR_STS (8 + 2 * k), R.FLT_OVR_STS (9 + 2 * k)]).chainReset
      (8 + 2 * k)).chainReset (9 + 2 * k)
  else s)

/-- The entries of a route preset (R134). -/
def State.presetOf (s : State) (p : Nat) : List (Nat × Word) := s.mp.presets.getD p []

/-- A preset applied by the part at the first commit point whose cutoff has not passed (R61, R135). -/
def State.stagePreset (s : State) (p : Nat) : State :=
  s.stageNext rankPart (.preset (s.presetOf p))

/-- A debounced change of a jack ball (R60, R61). -/
def State.jackChange (s : State) (j : Nat) (present : Bool) (ts : Nat) : State :=
  let s := (s.setBit R.AFE_JD_STS j present).setBit R.AFE_JD_STS (8 + j) true
  let s := s.raiseFAt (if present then 0x0304 else 0x0305) (6 + j) ts []
  if s.on (R.AFE_JD_CFG j) F.AFE_JD_CFG_AUTO_EN then
    let s := s.stagePreset (s.fld (R.AFE_JD_CFG j)
      (if present then F.AFE_JD_CFG_PRESET_IN else F.AFE_JD_CFG_PRESET_OUT))
    let mic := if present then 0 else 1
    if s.on (R.AFE_JD_CFG j) F.AFE_JD_CFG_LINE_ON_INS && s.fld (R.AFE_IN_CFG (6 + j)) F.AFE_IN_CFG_MODE != mic then
      (s.setF (R.AFE_IN_CFG (6 + j)) F.AFE_IN_CFG_MODE mic).modeChanged (6 + j)
    else s
  else s

/-- JACK_INSERTED (R60, R61); `ts` is the time of the sample in which the ball first changed. -/
def execJackInserted (j : Fin 2) (ts : Nat) (s : State) : Out :=
  .next (if s.on (R.AFE_JD_CFG j) F.AFE_JD_CFG_EN && !s.bit R.AFE_JD_STS j then s.jackChange j true ts else s)

/-- JACK_REMOVED (R60, R61). -/
def execJackRemoved (j : Fin 2) (ts : Nat) (s : State) : Out :=
  .next (if s.on (R.AFE_JD_CFG j) F.AFE_JD_CFG_EN && s.bit R.AFE_JD_STS j then s.jackChange j false ts else s)

/-- The blocks from enable to release: 60 for analogue channels, 2 for PDM (R76 step 2). -/
def releaseBlocks (c : Nat) : Nat := if c < 8 then 60 else 2

/-- MODULATOR_RELEASE (R76 step 2). -/
def execModulatorRelease (c : Fin 16) (s : State) : Out :=
  .next (if s.chanOn c && !(s.chan c).released && decide ((s.chan c).enAt + releaseBlocks c ≤ s.clk.blk) then
    let s1 := s.modChan c (fun x => { x with released := true })
    let s2 := if c.val < 8 then s1.setF (R.AFE_IN_STS c) F.AFE_IN_STS_READY 1 else s1
    s2.chainReset c
  else s)

/-- A channel's U samples come from a refilling chain alone. -/
def State.refilling (s : State) (c : Nat) : Bool :=
  s.chanOn c && (s.chan c).released && !(s.chan c).silent && s.on (R.FLT_SETTLE c) F.FLT_SETTLE_UNSETTLED
    && (decide (8 ≤ c) || !s.on (R.AFE_IN_STS c) F.AFE_IN_STS_OVL_NOW)
    && (decide (c < 8) || !s.wireStuck ((c - 8) / 2))

/-- CHAIN_SETTLED (R74): U clears on the first settled sample, and with it the O of a modulator reset (R78). -/
def execChainSettled (c : Fin 16) (s : State) : Out :=
  .next (if s.refilling c then
    (((s.setF (R.FLT_SETTLE c) F.FLT_SETTLE_REMAIN 0).setF (R.FLT_SETTLE c) F.FLT_SETTLE_UNSETTLED 0).setF
      (R.FLT_OVR_STS c) F.FLT_OVR_STS_OVR_NOW 0).modChan c (fun x => { x with ovlAt := none })
  else s)

/-- BANK_FADE_END (R71). -/
def execBankFadeEnd (c : Fin 16) (s : State) : Out := .next (s.fadeDue c s.clk.blk)

/-- SYNC_BALL_EDGE (R72): the first block whose commit point lies at least 1 µs after the edge; further edges are ignored
until that SYNC has been applied. -/
def execSyncBallEdge (s : State) : Out :=
  .next (if s.on R.FLT_SYNC_CTL F.FLT_SYNC_CTL_BALL_EN && !s.stage.changes.any (isSyncFrom .ball) then
    let k := if s.clk.now3 + 3000 ≤ s.time3At (s.clk.blk + 1) 0 then s.clk.blk + 1 else s.clk.blk + 2
    (s.setF R.FLT_SYNC_STS F.FLT_SYNC_STS_BALL_SEEN 1).stageAt ⟨none, k, rankPart, none, .feSync none .ball⟩
  else s)

/-- INPUT_OVER_RANGE (R77) for sample `smp` of data block `k`. -/
def execInputOverRange (c : Fin 16) (k : Nat) (smp : Fin 16) (s : State) : Out :=
  let s1 := ((s.setF (R.FLT_OVR_STS c) F.FLT_OVR_STS_SAT 1).setF (R.FLT_OVR_STS c) F.FLT_OVR_STS_OVR_NOW 1).incSat
    (R.FLT_OVR_CNT c) F.FLT_OVR_CNT_SAT
  let due := match (s.chan c).lastOvr with
    | none => true
    | some b => decide (b + s.fld R.FLT_EVT_CFG F.FLT_EVT_CFG_OVR_HOLDOFF ≤ k)
  .next (if due then
    (s1.modChan c (fun x => { x with lastOvr := some k, sats := (16 * k + smp) :: x.sats.take 31 })).raiseFAt 0x0307 c
      (s.stampOf k smp) []
  else s1.modChan c (fun x => { x with sats := (16 * k + smp) :: x.sats.take 31 }))

/-- A modulator is held in overload reset (R78). -/
def State.overloadReset (s : State) (n : Nat) : State :=
  (((((s.setF (R.AFE_IN_STS n) F.AFE_IN_STS_OVL_NOW 1).setF (R.FLT_OVR_STS n) F.FLT_OVR_STS_MODRST 1).incSat
    (R.FLT_OVR_CNT n) F.FLT_OVR_CNT_MODRST).setF (R.FLT_OVR_STS n) F.FLT_OVR_STS_OVR_NOW 1).setF (R.FLT_SETTLE n)
    F.FLT_SETTLE_UNSETTLED 1).modChan n (fun x => { x with ovlAt := some (x.ovlAt.getD (16 * s.clk.blk + s.clk.smp)) })

/-- MODULATOR_OVERLOAD (R78): an enabled, released modulator with AUTO_RST set. -/
def execModulatorOverload (n : Fin 8) (s : State) : Out :=
  .next (if s.on R.AFE_OVL_CFG F.AFE_OVL_CFG_AUTO_RST && (s.chan n).released
      && !s.on (R.AFE_IN_STS n) F.AFE_IN_STS_OVL_NOW then s.overloadReset n else s)

/-- MODULATOR_RESET_END (R78): the histories are zeroed on the edge that ends the reset; the cycle repeats while the
overload persists. -/
def execModulatorResetEnd (n : Fin 8) (persists : Bool) (s : State) : Out :=
  .next (if s.on (R.AFE_IN_STS n) F.AFE_IN_STS_OVL_NOW then
    let s1 := (s.setF (R.AFE_IN_STS n) F.AFE_IN_STS_OVL_NOW 0).chainReset n
    if persists && s.on R.AFE_OVL_CFG F.AFE_OVL_CFG_AUTO_RST then s1.overloadReset n else s1
  else s)

/-- A comparator evaluates the samples of its channel: enabled, and the sample does not carry U (R80, R81). -/
def State.comparing (s : State) (c m : Nat) : Bool :=
  s.on (R.FLT_THR_LVL c m) F.FLT_THR_LVL_EN && !s.on (R.FLT_SETTLE c) F.FLT_SETTLE_UNSETTLED

/-- INPUT_THRESHOLD_UP (R80), stamped with sample `smp` of data block `k`. -/
def execInputThresholdUp (c : Fin 16) (m : Fin 2) (k : Nat) (smp : Fin 16) (s : State) : Out :=
  .next (if s.comparing c m && !s.bit (R.FLT_THR_STS c) m then
    let s1 := (s.setBit (R.FLT_THR_STS c) m true).setBit (R.FLT_THR_STS c) (8 + 2 * m) true
    if s.on (R.FLT_THR_LVL c m) F.FLT_THR_LVL_EVT_UP then s1.raiseFAt (0x0308 + m) c (s.stampOf k smp) [] else s1
  else s)

/-- INPUT_THRESHOLD_DOWN (R80), stamped with the last of the HOLD + 1 samples. -/
def execInputThresholdDown (c : Fin 16) (m : Fin 2) (k : Nat) (smp : Fin 16) (s : State) : Out :=
  .next (if s.comparing c m && s.bit (R.FLT_THR_STS c) m then
    let s1 := (s.setBit (R.FLT_THR_STS c) m false).setBit (R.FLT_THR_STS c) (9 + 2 * m) true
    if s.on (R.FLT_THR_LVL c m) F.FLT_THR_LVL_EVT_DOWN then s1.raiseFAt (0x030A + m) c (s.stampOf k smp) [] else s1
  else s)

/-! ### Register writes of the front end -/

/-- The CRC-32 of FLT_COEF_CRC: polynomial 0x04C1_1DB7 reflected, initial and final 0xFFFF_FFFF. -/
def crcBit (x : Word) : Word := if x.getLsbD 0 then (x >>> 1) ^^^ 0xEDB88320 else x >>> 1

def crcByte (x : Word) (b : Byte) : Word :=
  crcBit (crcBit (crcBit (crcBit (crcBit (crcBit (crcBit (crcBit (x ^^^ b.setWidth 32))))))))

def crc32 (bs : List Byte) : Word := ~~~ (bs.foldl crcByte 0xFFFFFFFF)

/-- The N/2 coefficients of the selected bank as little-endian bytes. -/
def State.coefBytes (s : State) (c : Nat) (bank : Bool) : Nat → List Byte
  | 0 => []
  | n + 1 => s.coefBytes c bank n ++ leBytes 4 (s.coef c bank n).toNat

/-- FLT_COEF_CRC (R67). -/
def State.coefCrc (s : State) : Word :=
  let c := s.fld R.FLT_COEF_SEL F.FLT_COEF_SEL_CH
  crc32 (s.coefBytes c (s.on R.FLT_COEF_SEL F.FLT_COEF_SEL_BANK) (2 * s.quarterN c))

/-- FLT_COEF_WIN[i] as FLT_COEF_SEL selects it. -/
def State.coefWin (s : State) (i : Nat) : Word :=
  s.coef (s.fld R.FLT_COEF_SEL F.FLT_COEF_SEL_CH) (s.on R.FLT_COEF_SEL F.FLT_COEF_SEL_BANK)
    (128 * s.fld R.FLT_COEF_SEL F.FLT_COEF_SEL_PAGE + i)

/-- A window write of a coefficient (R68). -/
def State.coefWinWrite (s : State) (i : Nat) (v : Word) : State :=
  let c := s.fld R.FLT_COEF_SEL F.FLT_COEF_SEL_CH
  let bank := s.on R.FLT_COEF_SEL F.FLT_COEF_SEL_BANK
  if s.bankInUse c bank then s.setF R.FLT_GLB_STS F.FLT_GLB_STS_COEF_BUSY_ERR 1
  else s.setCoef c bank (128 * s.fld R.FLT_COEF_SEL F.FLT_COEF_SEL_PAGE + i) v

/-- FLT_GLB_CTL.CNT_CLR clears every FLT_SWAP_CNT and FLT_OVR_CNT. -/
def State.fltCntClr (s : State) : State := State.zeroAll (addrs R.FLT_SWAP_CNT 16 ++ addrs R.FLT_OVR_CNT 16) s

/-- A SYNC of FLT_SYNC_CTL.MASK at the next commit point (SW_SYNC). -/
def State.swSync (s : State) : State :=
  s.stageAt ⟨none, s.nextOpen, rankWindow, none, .feSync none .command⟩

/-- A swap request by register (FLT_SWAP.GO): the BANK and FADE that the write carries (R69). -/
def State.swapGo (s : State) (c : Nat) (v : Word) : State :=
  s.stageAt ⟨none, s.nextOpen, rankWindow, none,
    .filterSwap c (v.fld F.FLT_SWAP_BANK == 1) (v.fld F.FLT_SWAP_FADE)⟩

/-- One block has passed: the samples left of fades and of refilling chains. -/
def State.feBlock : Nat → State → State
  | 0, s => s
  | n + 1, s =>
    let s := State.feBlock n s
    let s := if s.fading n then
      s.setF (R.FLT_BANK_STS n) F.FLT_BANK_STS_REMAIN (s.fld (R.FLT_BANK_STS n) F.FLT_BANK_STS_REMAIN - 16) else s
    if s.refilling n then s.setF (R.FLT_SETTLE n) F.FLT_SETTLE_REMAIN (s.fld (R.FLT_SETTLE n) F.FLT_SETTLE_REMAIN - 16)
    else s

end Sys2Proof.Machine
end

