-- ==== Sys2Proof/Machine/MainPath.lean ====
section
/-!
DEFINITION. The main path (chapter 4): lanes, buses, sinks, route fades, presets, generators and QUIET.
-/
namespace Sys2Proof.Machine

/-! ### Reading the settings -/

/-- The setting of MP_GLB_CTL.GAIN_RAMP in blocks (R125). -/
def State.gainRamp (s : State) : Nat :=
  match s.fld R.MP_GLB_CTL F.MP_GLB_CTL_GAIN_RAMP with
  | 0 => 4
  | 1 => 16
  | _ => 64

/-- A source ID of R107. -/
def sourceKnown (i : Nat) : Bool :=
  decide (i < 0x50) || decide (0x80 ≤ i ∧ i < 0x140) || decide (0x160 ≤ i ∧ i < 0x170) || i == 0x3FF

/-- A sink ID of R108. -/
def sinkKnown (i : Nat) : Bool :=
  decide (i < 0x16) || decide (0x20 ≤ i ∧ i < 0x60) || decide (0x80 ≤ i ∧ i < 0x140)

/-- A gain code is −∞ (R126). -/
def gainOff (code : Nat) : Bool := decide (sgn 12 code ≤ -1201)

/-- The route that a multiplexer has at reset. -/
def resetRoute : Mux → Route
  | .lane _ => ⟨0x3FF, false, false⟩
  | _ => ⟨0, false, false⟩

def State.route (s : State) (m : Mux) : RouteX :=
  lookupKey ⟨resetRoute m, resetRoute m, 0, 0, 0, .none, none⟩ s.mp.routes m

def State.setRoute (s : State) (m : Mux) (x : RouteX) : State := s.modMp (fun y => { y with routes := putKey y.routes m x })

def State.sink (s : State) (id : Nat) : SinkX := lookupKey ⟨.stopped, none, []⟩ s.mp.sinks id

def State.setSink (s : State) (id : Nat) (x : SinkX) : State := s.modMp (fun y => { y with sinks := putKey y.sinks id x })

/-- A source that a lane of a cluster which renders ahead can take: listener channels, generators, silence (R208). -/
def sourceAhead (i : Nat) : Bool := decide (0x80 ≤ i ∧ i < 0x100) || decide (0x160 ≤ i ∧ i < 0x170) || i == 0x3FF

/-- A source that lane l can take (R107, R208). -/
def State.sourceOk (s : State) (l i : Nat) : Bool := sourceKnown i && (!s.rendersAhead (l / 16) || sourceAhead i)

/-- The route that the registers of a multiplexer ask for: a source that the lane cannot take acts as 0x3FF (R109, R208), a
bus index above 15 as bus 15. -/
def State.wanted (s : State) : Mux → Route
  | .lane l =>
    let v := s.rd (R.MP_LANE_SRC l)
    let src := v.fld F.MP_LANE_SRC_SRC
    ⟨if s.sourceOk l src then src else 0x3FF, v.fld F.MP_LANE_SRC_EN == 1, s.on (R.MP_LANE_TRIM l) F.MP_LANE_TRIM_POL⟩
  | .input b i => ⟨s.fld (R.MIX_GAIN b i) F.MIX_GAIN_LANE, s.on (R.MIX_GAIN b i) F.MIX_GAIN_EN, false⟩
  | .sink id =>
    let v := s.rd (R.MP_SINK id)
    let i := v.fld F.MP_SINK_INDEX
    ⟨if v.fld F.MP_SINK_KIND = 1 then 128 + i else min 15 i, false, false⟩

/-- The FADE code that governs a multiplexer (R128). -/
def State.fadeCode (s : State) : Mux → Nat
  | .lane l => s.fld (R.MP_LANE_SRC l) F.MP_LANE_SRC_FADE
  | .input b _ => s.fld (R.MIX_BUS_CFG b) F.MIX_BUS_CFG_FADE
  | .sink id => s.fld (R.MP_SINK id) F.MP_SINK_FADE

/-- The direction of a SAP receive slot source. -/
def sapOf (src : Nat) : Option Nat := if 0x10 ≤ src ∧ src < 0x50 then some (2 * ((src - 0x10) / 16)) else none

/-- The listener stream of a network source. -/
def listenerOf (src : Nat) : Option Nat := if 0x80 ≤ src ∧ src < 0x100 then some ((src - 0x80) / 8) else none

/-- A listener is not synchronous (R184): NSR is set, or the audio PLL reference is not array time and locked. -/
def State.listenerConverts (s : State) (n : Nat) : Bool :=
  s.on (R.NET_LS_CFG n) F.NET_LS_CFG_NSR || !(s.sap.ref == 3 && s.on R.CLK_APLL_STS F.CLK_APLL_STS_LOCK)

/-- A source needs the rate converter of its lane, judged at the commit point (R111, R130). Listener channels use it
whenever they are not synchronous to the audio PLL, R184. -/
def State.needsConverter (s : State) (src : Nat) : Bool :=
  match sapOf src with
  | some d =>
    if s.on (R.SAP_STS d) F.SAP_STS_RUNNING then !s.on (R.SAP_STS d) F.SAP_STS_BYPASS
    else s.fld (R.SAP_CFG d) F.SAP_CFG_SRC_MODE != 1
  | none =>
    match listenerOf src with
    | some n => s.listenerConverts n
    | none => false

/-- The tracker of a source is locked (R100). -/
def State.converterLocked (s : State) (src : Nat) : Bool :=
  match sapOf src with
  | some d => s.on (R.SAP_STS d) F.SAP_STS_LOCK
  | none =>
    match listenerOf src with
    | some n => s.mp.lsLocked.contains n
    | none => true

/-! ### Silence -/

/-- A lane becomes silent at sample `smp` of data block `k` (R112, R115). -/
def State.laneSilent (s : State) (l k smp : Nat) : State :=
  if s.on (R.MP_LANE_STS l) F.MP_LANE_STS_SILENT then s
  else
    let s := s.setF (R.MP_LANE_STS l) F.MP_LANE_STS_SILENT 1
    if s.on (R.MP_LANE_DET l) F.MP_LANE_DET_SIL_EVT then s.raiseAt 0x0501 l (s.stampOf k smp) [] else s

/-- A lane leaves the silent state (R112). -/
def State.laneActive (s : State) (l k smp : Nat) : State :=
  if s.on (R.MP_LANE_STS l) F.MP_LANE_STS_SILENT && (s.route (.lane l)).cur.en then
    let s := s.setF (R.MP_LANE_STS l) F.MP_LANE_STS_SILENT 0
    if s.on (R.MP_LANE_DET l) F.MP_LANE_DET_SIL_EVT then s.raiseAt 0x0502 l (s.stampOf k smp) [] else s
  else s

/-! ### Route changes (R128 to R130) -/

/-- The status bits of a lane follow its multiplexer. -/
def State.routeShow (s : State) (m : Mux) : State :=
  match m with
  | .lane l =>
    let x := s.route m
    let s := s.setF (R.MP_LANE_STS l) F.MP_LANE_STS_SRC_ACT x.cur.sel
    let s := s.setF (R.MP_LANE_STS l) F.MP_LANE_STS_SPLIT (if x.split = .none then 0 else 1)
    let s := s.setF (R.MP_LANE_STS l) F.MP_LANE_STS_QUEUED (if x.queued.isNone then 0 else 1)
    s.setF (R.MP_LANE_STS l) F.MP_LANE_STS_FADING (if x.fadeLen ≠ 0 ∧ x.split ≠ .fill then 1 else 0)
  | _ => s

/-- A multiplexer's fade, or split change, runs. -/
def RouteX.busy (x : RouteX) : Bool := x.fadeLen != 0 || x.split != .none

/-- The samples of a fade between two selections (R128): an enable, a disable or a polarity change takes at least 64. -/
def fadeFor (a b : Route) (f : Nat) : Nat := if (a.en != b.en || a.pol != b.pol) && f == 0 then 64 else f

/-- A change of selection begins at block k: a split change where the new source of a lane needs its converter (R130),
otherwise a cross-fade, or a hard switch where its length is 0 (R128). -/
def State.beginRoute (s : State) (m : Mux) (r : Route) (code k : Nat) : State :=
  let x := s.route m
  let f := fadeSamples code
  let split := match m with
    | .lane l => !s.rendersAhead (l / 16) && r.en && (r.sel != x.cur.sel || !x.cur.en) && s.needsConverter r.sel
    | _ => false
  let x1 : RouteX := if split then ⟨r, x.cur, k, k, max f 64, .out, none⟩
    else ⟨r, x.cur, k, k, fadeFor x.cur r f, .none, none⟩
  let s1 := (s.setRoute m x1).routeShow m
  match m with
  | .lane l => if !r.en && x1.fadeLen == 0 then s1.laneSilent l k 0 else s1
  | _ => s1

/-- The fade, or split phase, of a multiplexer that is over at block k ends; a queued request begins there (R129, R130). -/
def State.endRoute (s : State) (m : Mux) (k : Nat) : State :=
  let x := s.route m
  let fin := x.fadeAt + x.fadeLen / 16
  let settle (s : State) (x : RouteX) : State :=
    let s := (s.setRoute m { x with fadeLen := 0, split := .none, queued := none }).routeShow m
    let s := match m with
      | .lane l => if x.cur.en then s else s.laneSilent l fin 0
      | _ => s
    match x.queued with
    | none => s
    | some q =>
      if q.dest = x.cur then s.finishOpt q.id (doneAt fin)
      else (s.beginRoute m q.dest q.fade fin).finishOpt q.id (doneAt fin)
  if k < fin then s
  else
    match x.split with
    | .none => if x.fadeLen = 0 then s else settle s x
    | .out => (s.setRoute m { x with fadeAt := fin, fadeLen := 128, split := .fill }).routeShow m
    | .fill =>
      if s.converterLocked x.cur.sel then
        (s.setRoute m { x with fadeAt := fin, fadeLen := max 64 (fadeSamples (s.fadeCode m)), split := .fadeIn }).routeShow m
      else (s.setRoute m { x with fadeAt := fin, fadeLen := 0, split := .wait }).routeShow m
    | .wait => s
    | .fadeIn => settle s x

/-- The converter of a source has locked: lanes whose split change waits for it fade in from block k on (R130). -/
def State.splitLocked (s : State) (p : Nat → Bool) (k : Nat) : List (Mux × RouteX) → State
  | [] => s
  | (m, x) :: rest =>
    let s := State.splitLocked s p k rest
    if x.split = .wait ∧ p x.cur.sel = true then
      (s.setRoute m { x with fadeAt := k, fadeLen := max 64 (fadeSamples (s.fadeCode m)), split := .fadeIn }).routeShow m
    else s

/-- A route request at block k (the table of R129). Two requests of one commit point are one change. -/
def State.requestRoute (s : State) (id : Option DescId) (m : Mux) (r : Route) (code k : Nat) : State :=
  let s := s.endRoute m k
  let x := s.route m
  if x.busy && x.since == k then
    if r = x.cur then s.finishOpt id (doneAt k)
    else ((s.setRoute m { x with cur := x.old, old := x.old, fadeLen := 0, split := .none }).beginRoute m r code k).finishOpt
      id (doneAt k)
  else if x.busy then
    if r = x.cur then
      (s.incSat R.MP_ROUTE_CNT F.MP_ROUTE_CNT_NO_EFFECT).finishOpt id (doneAt x.since)
    else
      let s := match x.queued with
        | none => s
        | some q => (s.incSat R.MP_ROUTE_CNT F.MP_ROUTE_CNT_SUPERSEDED).finishOpt q.id superseded
      (s.setRoute m { x with queued := some ⟨id, r, code⟩ }).routeShow m
  else if r = x.cur then s.finishOpt id (doneAt x.since)
  else (s.beginRoute m r code k).finishOpt id (doneAt k)

/-- A route change with no fade (R133). -/
def State.hardRoute (s : State) (id : Option DescId) (m : Mux) (r : Route) (k : Nat) : State :=
  let x := s.route m
  let s := match x.queued with
    | none => s
    | some q => (s.incSat R.MP_ROUTE_CNT F.MP_ROUTE_CNT_SUPERSEDED).finishOpt q.id superseded
  let since := if r = x.cur then x.since else k
  (s.setRoute m ⟨r, x.cur, since, k, 0, .none, none⟩).finishOpt id (doneAt since)

/-! ### Sinks (R131 to R133) -/

/-- The output of an output sink is ready to pass signal (R244 step 5, R255, R257, R258); other sinks need none. -/
def State.outReady (s : State) (id : Nat) : Bool :=
  if id < 8 then s.fld (R.PWR_STS id) F.PWR_STS_STATE == 3
  else if id < 16 then s.fld (R.EXT_STS (id - 8)) F.EXT_STS_STATE == 3
  else if id < 20 then s.on (R.AFE_LO_CFG (id - 16)) F.AFE_LO_CFG_READY
  else if id < 22 then s.on R.AFE_HP_CFG F.AFE_HP_CFG_READY
  else true

/-- Z in samples (MP_ZC_CFG.TIMEOUT). -/
def State.sinkZ (s : State) : Nat := 96 * min 100 (max 1 (s.fld R.MP_ZC_CFG F.MP_ZC_CFG_TIMEOUT))

/-- The data sample that the sink stage processes now: data block k passes it in block k + 2 (R31). -/
def State.sinkNow (s : State) : Nat := 16 * s.clk.blk + s.clk.smp - 32

/-- The RUNNING bit of an output sink. -/
def State.setRunning (s : State) (id : Nat) (b : Bool) : State := if id < 22 then s.setBit R.MP_OUT_STS id b else s

/-- The ZC_TIMEOUT bit of an output sink. -/
def State.zcTimeout (s : State) (id : Nat) : State :=
  if id < 22 then s.setF (R.MP_DYN_STS id) F.MP_DYN_STS_ZC_TIMEOUT 1 else s

/-- The stamp of a data sample. -/
def State.sampleStamp (s : State) (t : Nat) : Nat := s.stampOf (t / 16) (t % 16)

/-- The zero-crossing search of a start begins at a data sample (R131). -/
def State.searchStart (s : State) (id t : Nat) : State := s.setSink id { s.sink id with phase := .starting t (t + s.sinkZ) }

/-- A sink has stopped; the first zero sample is `t` (R132). A held route change is applied with no fade (R133). -/
def State.sinkStopped (s : State) (id t : Nat) : State :=
  let h := (s.sink id).held
  let s := ((s.setSink id ⟨.stopped, none, gateTo (s.sink id).gate t 0 false⟩).setRunning id false).raiseAt 0x0506 (0x400 + id) (s.sampleStamp t) []
  match h with
  | none => s
  | some q => s.hardRoute q.id (.sink id) q.dest ((t + 15) / 16)

/-- A timeout fade-in that is over at data sample `t` leaves the sink running. -/
def SinkPhase.settle (p : SinkPhase) (t : Nat) : SinkPhase :=
  match p with
  | .fadeIn e => if e ≤ t then .running else .fadeIn e
  | .fadeInStop e a b => if e ≤ t then .stopping a b else .fadeInStop e a b
  | p => p

/-- EN of a sink set with effective block k (R131, R133). -/
def State.sinkStart (s : State) (id k : Nat) : State :=
  let x := s.sink id
  match x.phase.settle (16 * k) with
  | .stopped => if s.outReady id then s.searchStart id (16 * k) else s.setSink id { x with phase := .waiting }
  | .stopping _ _ => s.setSink id { x with phase := .running }
  | .fadeInStop e _ _ => s.setSink id { x with phase := .fadeIn e }
  | .stopFade e _ => s.setSink id { x with phase := .stopFade e true }
  | _ => s

/-- EN of a sink cleared with effective block k (R132, R133). -/
def State.sinkStop (s : State) (id k : Nat) : State :=
  let x := s.sink id
  match x.phase.settle (16 * k) with
  | .waiting => s.sinkStopped id (16 * k)
  | .starting _ _ => s.sinkStopped id (16 * k)
  | .fadeIn e => s.setSink id { x with phase := .fadeInStop e (16 * k) (16 * k + s.sinkZ) }
  | .running => s.setSink id { x with phase := .stopping (16 * k) (16 * k + s.sinkZ) }
  | .stopFade e _ => s.setSink id { x with phase := .stopFade e false }
  | _ => s

/-- The sinks of a list that wait for their output begin their search where it is ready (R244 step 5): at the first data
block whose processing begins strictly after this moment, which is the one before the present block. -/
def State.sinksReady : List Nat → State → State
  | [], s => s
  | id :: ids, s =>
    State.sinksReady ids
      (if (s.sink id).phase = .waiting ∧ s.outReady id = true then s.searchStart id (16 * (s.clk.blk - 1)) else s)

/-- A route request of a sink at block k (R129, R133): without a fade while it does not pass signal, held while it stops. -/
def State.requestSink (s : State) (rid : Option DescId) (id k : Nat) : State :=
  let m := Mux.sink id
  let r := s.wanted m
  let code := s.fadeCode m
  let x := s.sink id
  match x.phase with
  | .stopped | .waiting | .starting _ _ => s.hardRoute rid m r k
  | .stopping _ _ | .stopFade _ _ =>
    let s := match x.held with
      | none => s
      | some q => (s.incSat R.MP_ROUTE_CNT F.MP_ROUTE_CNT_SUPERSEDED).finishOpt q.id superseded
    s.setSink id { x with held := some ⟨rid, r, code⟩ }
  | _ => s.requestRoute rid m r code k

/-! ### Gains and Ballast -/

def State.gainX (s : State) (b i : Nat) : GainX := lookupKey ⟨false, none⟩ s.mp.gains (32 * b + i)

def State.setGainX (s : State) (b i : Nat) (x : GainX) : State :=
  s.modMp (fun y => { y with gains := putKey y.gains (32 * b + i) x })

/-- The gain amplitude of an input is above zero at the last sample of data block j (R118). -/
def State.gainLive (s : State) (b i j : Nat) : Bool :=
  let x := s.gainX b i
  x.live && (match x.zeroAt with
    | none => true
    | some e => decide (j < e))

/-- A written gain begins its ramp at block k (R125). -/
def State.gainRamped (s : State) (b i code k : Nat) : State :=
  if gainOff code then
    if s.gainLive b i (k - 1) then s.setGainX b i ⟨true, some (k + s.gainRamp)⟩ else s.setGainX b i ⟨false, none⟩
  else s.setGainX b i ⟨true, none⟩

/-- Input i of bus b is active for the evaluation at the boundary of block k (R118). -/
def State.inputActive (s : State) (b k i : Nat) : Bool :=
  let r := (s.route (.input b i)).cur
  r.en && !s.on (R.MP_LANE_STS r.sel) F.MP_LANE_STS_SILENT && s.gainLive b i (k - 1)

/-- The number of active inputs of a bus. -/
def State.activeInputs (s : State) (b k : Nat) : Nat := ((List.range 32).filter (s.inputActive b k)).length

/-- The code shown for an exact value num/den: the code below or the one above. -/
def scaleCode (num den : Nat) : Nat :=
  num / den + (if num % den = 0 then 0 else (Config.roundUp num den).toNat)

/-- The largest q of the next `bits` bits above `q` with q² · n at most 2^30. -/
def rootBelow (n : Nat) : Nat → Nat → Nat
  | 0, q => q
  | b + 1, q => rootBelow n b (if (q + 2 ^ b) * (q + 2 ^ b) * n ≤ 2 ^ 30 then q + 2 ^ b else q)

/-- The Ballast scale for a setting and n active inputs, in units of 1/32,768 (R118). -/
def ballastScale (mode n : Nat) : Nat :=
  if n ≤ 1 then 32768
  else
    match mode with
    | 1 => scaleCode 32768 n
    | 2 =>
      let q := rootBelow n 16 0
      q + (if q * q * n = 2 ^ 30 then 0 else (Config.roundUp n 0).toNat)
    | _ => 32768

def State.ballastX (s : State) (b : Nat) : BallastX := lookupKey ⟨32768, 32768, 0⟩ s.mp.ballast b

/-- The scale of a bus at the start of block k: 120 blocks of a linear ramp (R118). -/
def State.scaleAt (s : State) (b k : Nat) : Nat :=
  let x := s.ballastX b
  let j := k - x.at_
  if x.start = x.target ∨ 120 ≤ j then x.target
  else scaleCode (x.start * (120 - j) + x.target * j) 120

/-- SCALE and RAMPING show the scale at block k. -/
def State.scaleShow (s : State) (b k : Nat) : State :=
  let x := s.ballastX b
  (s.setF (R.MIX_BUS_STS b) F.MIX_BUS_STS_SCALE (s.scaleAt b k)).setF (R.MIX_BUS_STS b) F.MIX_BUS_STS_RAMPING
    (if x.start ≠ x.target ∧ k < x.at_ + 120 then 1 else 0)

/-- A ramp to a new target begins at block k from the present scale. -/
def State.ballastTo (s : State) (b target k : Nat) : State :=
  (s.modMp (fun y => { y with ballast := putKey y.ballast b ⟨s.scaleAt b k, target, k⟩ })).scaleShow b k

/-- The evaluation of a bus at the boundary of block k (R118). -/
def State.ballastEval (s : State) (b k : Nat) : State :=
  let n := s.activeInputs b k
  if s.err.stages.any (fun p => match p.1 with
      | .bus j => j.val == b
      | _ => false) then s
  else if n = s.fld (R.MIX_BUS_STS b) F.MIX_BUS_STS_N then s.scaleShow b k
  else (s.setF (R.MIX_BUS_STS b) F.MIX_BUS_STS_N n).ballastTo b
    (ballastScale (s.fld (R.MIX_BUS_CFG b) F.MIX_BUS_CFG_BALLAST) n) k

/-- Buses 0 to n - 1 are evaluated. -/
def State.ballastAll (k : Nat) : Nat → State → State
  | 0, s => s
  | n + 1, s => (State.ballastAll k n s).ballastEval n k

/-! ### Commit of the main path's registers -/

/-- Route and gain fields of one register have taken effect at block k (R129): a change of route fields is a request, a
change of gain fields alone is DONE at k, no change is a request for the selection in effect, which during the fade to it
counts in NO_EFFECT. -/
def State.routeWritten (s : State) (id : Option DescId) (m : Mux) (routeChanged gainChanged : Bool) (k : Nat) : State :=
  if routeChanged then
    match m with
    | .sink i => s.requestSink id i k
    | _ => s.requestRoute id m (s.wanted m) (s.fadeCode m) k
  else if gainChanged then s.finishOpt id (doneAt k)
  else
    let s := s.endRoute m k
    let x := s.route m
    let again := x.busy && x.since != k && x.cur == s.wanted m
    (if again then s.incSat R.MP_ROUTE_CNT F.MP_ROUTE_CNT_NO_EFFECT else s).finishOpt id (doneAt x.since)

/-- Two words differ in a field. -/
def fldDiff (a b : Word) (f : Fld) : Bool := a.fld f != b.fld f

/-- MP_LANE_SRC in effect at block k; `old` is the word before. -/
def State.laneSrcCommit (s : State) (id : Option DescId) (l : Nat) (old : Word) (k : Nat) : State :=
  let v := s.rd (R.MP_LANE_SRC l)
  let s := if s.sourceOk l (v.fld F.MP_LANE_SRC_SRC) then s
    else (s.setF (R.MP_LANE_STS l) F.MP_LANE_STS_SRC_ERR 1).setF R.MP_GLB_STS F.MP_GLB_STS_SRC_ERR 1
  s.routeWritten id (.lane l) (fldDiff old v F.MP_LANE_SRC_SRC || fldDiff old v F.MP_LANE_SRC_EN) false k

/-- MP_LANE_TRIM in effect at block k. -/
def State.laneTrimCommit (s : State) (id : Option DescId) (l : Nat) (old : Word) (k : Nat) : State :=
  let v := s.rd (R.MP_LANE_TRIM l)
  s.routeWritten id (.lane l) (fldDiff old v F.MP_LANE_TRIM_POL) (fldDiff old v F.MP_LANE_TRIM_TRIM) k

/-- The route of MIX_GAIN in effect at block k; `old` is the word before. -/
def State.mixRouteCommit (s : State) (id : Option DescId) (b i : Nat) (old : Word) (k : Nat) : State :=
  let v := s.rd (R.MIX_GAIN b i)
  s.routeWritten id (.input b i) (fldDiff old v F.MIX_GAIN_LANE || fldDiff old v F.MIX_GAIN_EN) (fldDiff old v F.MIX_GAIN_GAIN) k

/-- The gain of MIX_GAIN in effect at block k; `old` is the word before every write of this commit point (R37). -/
def State.mixGainCommit (s : State) (b i : Nat) (old : Word) (k : Nat) : State :=
  let v := s.rd (R.MIX_GAIN b i)
  if fldDiff old v F.MIX_GAIN_GAIN then s.gainRamped b i (v.fld F.MIX_GAIN_GAIN) k else s

/-- The route of MP_SINK in effect at block k. A start or stop alone is DONE at k. -/
def State.sinkRouteCommit (s : State) (rid : Option DescId) (id : Nat) (old : Word) (k : Nat) : State :=
  let v := s.rd (R.MP_SINK id)
  let s := if v.fld F.MP_SINK_KIND = 0 ∧ 15 < v.fld F.MP_SINK_INDEX then s.setF R.MP_GLB_STS F.MP_GLB_STS_SRC_ERR 1 else s
  s.routeWritten rid (.sink id) (fldDiff old v F.MP_SINK_KIND || fldDiff old v F.MP_SINK_INDEX)
    (fldDiff old v F.MP_SINK_EN || fldDiff old v F.MP_SINK_VOL) k

/-- EN of MP_SINK in effect at block k; `old` is the word before every write of this commit point (R37). -/
def State.sinkEnCommit (s : State) (id : Nat) (old : Word) (k : Nat) : State :=
  let v := s.rd (R.MP_SINK id)
  if fldDiff old v F.MP_SINK_EN then (if v.fld F.MP_SINK_EN = 1 then s.sinkStart id k else s.sinkStop id k) else s

/-- MIX_BUS_CFG in effect at block k: a change of BALLAST ramps towards the scale for the present n (R118). -/
def State.busCfgCommit (s : State) (b : Nat) (old : Word) (k : Nat) : State :=
  let v := s.rd (R.MIX_BUS_CFG b)
  if fldDiff old v F.MIX_BUS_CFG_BALLAST then
    s.ballastTo b (ballastScale (v.fld F.MIX_BUS_CFG_BALLAST) (s.fld (R.MIX_BUS_STS b) F.MIX_BUS_STS_N)) k
  else s

/-- LOOKAHEAD of output sink k can be written: EN is 0 in effect and the sink does not run (R124). -/
def State.lookaheadOpen (s : State) (k : Nat) : Bool := !s.on (R.MP_SINK k) F.MP_SINK_EN && !s.bit R.MP_OUT_STS k

/-- A register that a preset entry can name (R134). -/
def presetAddr (a : Nat) : Bool :=
  a % 4 == 0 && (decide (0xA000 ≤ a ∧ a < 0xA400)
    || (decide (0xA800 ≤ a ∧ a < 0xAD00) && sinkKnown ((a - 0xA800) / 4))
    || decide (0xB000 ≤ a ∧ a < 0xB840))

/-! ### Generators (R470) -/

def State.gen (s : State) (g : Nat) : GenX := lookupKey ⟨⟨0, 0, 0, 0⟩, 0, 0, none⟩ s.mp.gens g

def State.setGen (s : State) (g : Nat) (x : GenX) : State := s.modMp (fun y => { y with gens := putKey y.gens g x })

/-- A generator is white or pink noise. -/
def noisy (k : Nat) : Bool := k == 2 || k == 3

/-- What a command sets: it ignores the fields that it does not check, and the seed unless the kind is noise; a seed of 0
acts as 1. -/
def GenSet.merge (old new : GenSet) : GenSet :=
  ⟨new.kind, if new.kind = 1 then new.freq else old.freq, if new.kind = 0 then old.level else new.level,
    if noisy new.kind then (if new.seed = 0 then 1 else new.seed) else old.seed⟩

/-- A change with effective block k. -/
def State.genSet (s : State) (g : Nat) (c : GenSet) (k : Nat) : State :=
  let x := s.gen g
  let n := x.now.merge c
  if n.kind = x.now.kind then
    s.setGen g { x with now := n, restart := if noisy n.kind && n.seed != x.now.seed then k else x.restart }
  else if k < x.fadeEnd then s.setGen g { x with next := some c }
  else
    s.setGen g { now := n, fadeEnd := k + s.gainRamp, next := none
                 restart := if noisy n.kind && (!noisy x.now.kind || n.seed != x.now.seed) then k else x.restart }

/-- A change of kind that waited begins at the boundary at which the fade ends. -/
def State.genBoundary (k : Nat) : List (Nat × GenX) → State → State
  | [], s => s
  | (g, x) :: rest, s =>
    let s := State.genBoundary k rest s
    match x.next with
    | some c => if x.fadeEnd ≤ k then (s.setGen g { x with next := none }).genSet g c k else s
    | none => s

/-! ### A reload of the block counter (R181, R233) -/

/-- Moves counted from another block. -/
def rampsFrom (old new : Nat) (l : List Ramp) : List Ramp := l.map (fun r => { r with at_ := r.at_ + 16 * new - 16 * old })

/-- The samples on their way when the counter goes from `old` to `new`: data blocks in flight and running moves are counted
on from the new value. -/
def SigX.renumber (x : SigX) (old new : Nat) : SigX :=
  { x with
    amps := x.amps.map (fun p => (p.1, p.2.1, rampsFrom old new p.2.2))
    scales := x.scales.map (fun p => (p.1, p.2.1, rampsFrom old new p.2.2))
    quiets := x.quiets.map (fun p => (p.1, p.2.1, rampsFrom old new p.2.2))
    mutes := x.mutes.map (fun p => (p.1, p.2.1, rampsFrom old new p.2.2))
    gens := x.gens.map (fun p => (p.1, { p.2 with amp := rampsFrom old new p.2.amp, at_ := p.2.at_ + 16 * new - 16 * old }))
    plans := x.plans.map (fun p => { p with k := p.k + new - old })
    mems := x.mems.map (fun p => (p.1, p.2.1, p.2.2.map (fun m => { m with
      ramps := m.ramps.map (fun q => (q.1, q.2.1, rampsFrom old new q.2.2))
      taps := m.taps.map (fun q => (q.1, { q.2 with at_ := q.2.at_ + 16 * new - 16 * old })) }))) }

def State.renumber (s : State) (old new : Nat) : State :=
  let s := s.modSig (fun x => x.renumber old new)
  let s := s.modMp (fun y => { y with sinks := y.sinks.map (fun p => (p.1, { p.2 with gate := rampsFrom old new p.2.gate })) })
  s.modFe (fun y => { y with chans := y.chans.map (fun c => { c with
    resetAt := c.resetAt + 16 * new - 16 * old, resetWas := c.resetWas + 16 * new - 16 * old
    kinds := c.kinds.map (fun p => (p.1 + 16 * new - 16 * old, p.2)), fadeWas := none, sats := [], ovlAt := c.ovlAt.map (fun a => a + 16 * new - 16 * old) }) })

/-! ### Events of the main path -/

/-- LANE_SILENT (R112): the hold is complete at sample `smp` of data block `k`. -/
def execLaneSilent (l : Fin 128) (k : Nat) (smp : Fin 16) (s : State) : Out := .next (s.laneSilent l k smp)

/-- LANE_ACTIVE (R112). -/
def execLaneActive (l : Fin 128) (k : Nat) (smp : Fin 16) (s : State) : Out := .next (s.laneActive l k smp)

/-- LANE_PEAK (R113): a sample at or above the threshold; no further event for 6,000 blocks. -/
def execLanePeak (l : Fin 128) (k : Nat) (smp : Fin 16) (s : State) : Out :=
  .next (if s.on (R.MP_LANE_DET l) F.MP_LANE_DET_PK_EN then
    let s1 := s.setF (R.MP_LANE_STS l) F.MP_LANE_STS_PEAK 1
    let t := 16 * k + smp
    let quiet := s.mp.peaks.any (fun p => p.1 == l.val && decide (t < p.2 + 96000))
    if quiet then s1
    else
      (s1.modMp (fun y => { y with peaks := putKey y.peaks l.val t })).raiseAt 0x0503 l (s.stampOf k smp) []
  else s)

/-- ROUTE_FADE_END (R129). -/
def execRouteFadeEnd (m : MuxId) (s : State) : Out :=
  let x := match m with
    | .lane l => Mux.lane l
    | .input b i => Mux.input b i
    | .sink id => Mux.sink id
  .next (if (s.route x).split = .fill then s else s.endRoute x s.clk.blk)

/-- SPLIT_FILL_END (R130 phase 2). -/
def execSplitFillEnd (l : Fin 128) (s : State) : Out :=
  .next (if (s.route (.lane l)).split = .fill then s.endRoute (.lane l) s.clk.blk else s)

/-- SINK_START_CROSSING (R131): the first zero crossing at or after the start of the search, before its timeout. -/
def execSinkStartCrossing (id : SinkId) (k : Nat) (smp : Fin 16) (s : State) : Out :=
  let t := 16 * k + smp
  .next (match (s.sink id.val).phase with
  | .starting a b =>
    if a ≤ t ∧ t < b then
      ((s.setSink id.val { s.sink id.val with phase := .running, gate := gateTo (s.sink id.val).gate t 0 true }).setRunning
        id.val true).raiseAt 0x0505 (0x400 + id.val) (s.sampleStamp t) []
    else s
  | _ => s)

/-- SINK_START_TIMEOUT (R131): 64 samples of fade-in from the timeout. -/
def execSinkStartTimeout (id : SinkId) (s : State) : Out :=
  .next (match (s.sink id.val).phase with
  | .starting _ b =>
    if b ≤ s.sinkNow then
      (((s.setSink id.val { s.sink id.val with
        phase := .fadeIn (b + 64), gate := gateTo (s.sink id.val).gate b 64 true }).setRunning id.val true).zcTimeout
        id.val).raiseAt 0x0505 (0x400 + id.val) (s.sampleStamp b) []
    else s
  | _ => s)

/-- SINK_STOP_CROSSING (R132, R133): zero from the crossing on. -/
def execSinkStopCrossing (id : SinkId) (k : Nat) (smp : Fin 16) (s : State) : Out :=
  let t := 16 * k + smp
  .next (match (s.sink id.val).phase with
  | .stopping a b => if a ≤ t ∧ t < b then s.sinkStopped id.val t else s
  | .fadeInStop _ a b => if a ≤ t ∧ t < b then s.sinkStopped id.val t else s
  | _ => s)

/-- The timeout fade of a stop begins. -/
def State.stopTimeout (s : State) (id b : Nat) : State :=
  (s.setSink id { s.sink id with
    phase := .stopFade (b + 64) false, gate := gateTo (s.sink id).gate b 64 false }).zcTimeout id

/-- SINK_STOP_TIMEOUT (R132, R133): 64 samples of fade-out from the timeout. -/
def execSinkStopTimeout (id : SinkId) (s : State) : Out :=
  .next (match (s.sink id.val).phase with
  | .stopping _ b => if b ≤ s.sinkNow then s.stopTimeout id.val b else s
  | .fadeInStop _ _ b => if b ≤ s.sinkNow then s.stopTimeout id.val b else s
  | _ => s)

/-- SINK_STOP_FADE_END (R132, R133): a start during the fade runs now. -/
def execSinkStopFadeEnd (id : SinkId) (s : State) : Out :=
  .next (match (s.sink id.val).phase with
  | .stopFade e again =>
    if e ≤ s.sinkNow then
      let s1 := s.sinkStopped id.val e
      if again then (if s1.outReady id.val then s1.searchStart id.val e
        else s1.setSink id.val { s1.sink id.val with phase := .waiting })
      else s1
    else s
  | _ => s)

/-- CONCEALED_OUT (R127): a block in which an output sink carries C. -/
def execConcealedOut (id : Fin 22) (s : State) : Out :=
  .next ((s.setF (R.MP_DYN_STS id) F.MP_DYN_STS_CONCEALED 1).raiseLimited second3 0x0504 (0x400 + id.val))

/-- MP_GLB_CTL.CNT_CLR clears MP_ROUTE_CNT and MP_QUIET_STS.COUNT. -/
def State.mpCntClr (s : State) : State := (s.wr R.MP_ROUTE_CNT 0).setF R.MP_QUIET_STS F.MP_QUIET_STS_COUNT 0

end Sys2Proof.Machine
end

