-- ==== Sys2Proof/Machine/Sense.lean ====
section
/-!
DEFINITION. The sense converters (chapter 11, R312 to R331).
-/
namespace Sys2Proof.Machine

/-! ### Shared operations -/

def State.snsX (s : State) (c : Nat) : SnsX := s.sns.convs.getD c SnsX.reset

def State.modSns (s : State) (c : Nat) (f : SnsX → SnsX) : State :=
  s.modSense (fun y => { y with convs := y.convs.modify c f })

/-- The converters run in RUN and QUIET (R312). -/
def State.snsPowered (s : State) : Bool := s.power.mode == .run || s.power.mode == .quiet

def State.snsPaused (s : State) (c : Nat) : Bool := s.on (R.SNS_STS c) F.SNS_STS_PAUSED

def State.snsEn (s : State) (c : Nat) : Bool := s.on (R.SNS_CFG c) F.SNS_CFG_EN

/-- The trigger source: 7 to 15 act as 0 (R317). -/
def State.snsSrc (s : State) (c : Nat) : Nat :=
  let x := s.fld (R.SNS_TRIG c) F.SNS_TRIG_SRC
  if 7 ≤ x then 0 else x

/-- The integration code: 11 to 15 act as 10. -/
def kCode (k : Nat) : Nat := min k 10

/-- The window in modulator clocks: the whole number nearest to 16 µs × 2^k at 3.072 MHz (R315). -/
def windowClocks (k : Nat) : Nat := (49152 * 2 ^ k + 500) / 1000

/-- The window rounded to whole carrier periods of p clocks (R319); which way a tie goes is left open. -/
def alignClocks (n p : Nat) : Nat :=
  let q := n / p
  let r := n % p
  if 2 * r < p then q * p else if p < 2 * r then (q + 1) * p else (q + (Config.roundUp n p).toNat) * p

/-- The carrier period of the power channels in modulator clocks: 8 at 384 kHz, 4 at 768 kHz (R319). -/
def State.carrierClocks (s : State) : Nat := if s.on R.PWR_GLB_CFG F.PWR_GLB_CFG_CARRIER then 4 else 8

/-- The 8 modulator clocks of the settle in thirds of ns, rounded up (R315). -/
def settle3 : Nat := 7813

/-- The first enabled entry from an index to LAST (R316). -/
def State.nextEntry (s : State) (c : Nat) (e : Nat) : Option Nat :=
  (List.range (s.fld (R.SNS_CFG c) F.SNS_CFG_LAST + 1)).find?
    (fun i => decide (e ≤ i) && s.on (R.SNS_ENTRY c i) F.SNS_ENTRY_EN)

/-- The conversion in progress is a sequence entry. -/
def SnsX.inEntry (x : SnsX) : Bool :=
  match x.conv with
  | some v => match v.what with | .entry .. => true | _ => false
  | none => false

/-- The conversion in progress is an injected one or a calibration one. -/
def SnsX.busyOther (x : SnsX) : Bool := x.conv.isSome && !x.inEntry

/-- The conversion in progress is a calibration one. -/
def SnsX.inCal (x : SnsX) : Bool :=
  match x.conv with
  | some v => match v.what with | .cal _ => true | _ => false
  | none => false

/-- RUNNING, HELD, CAL_BUSY and INJ_Q follow what the converter does. -/
def State.snsShow (s : State) (c : Nat) : State :=
  let x := s.snsX c
  let a := R.SNS_STS c
  (((s.setF a F.SNS_STS_RUNNING x.conv.isSome.toNat).setF a F.SNS_STS_HELD
    (x.busyOther && s.snsEn c && !s.snsPaused c).toNat).setF a F.SNS_STS_CAL_BUSY
    (x.cal.isSome || x.inCal).toNat).setF a F.SNS_STS_INJ_Q x.queue.length

/-- A conversion starts its settle; its window begins at `win3` (R315). -/
def State.startConv (s : State) (c : Nat) (what : ConvFor) (n win3 : Nat) : State :=
  s.modSns c (fun x => { x with conv := some ⟨what, win3, n, !s.on R.SNS_REF F.SNS_REF_READY, s.clk.blk⟩ })

/-! ### The calibration table (R325) -/

/-- The values of a pair that no step or write has changed: OFS 0, GN 1.0. -/
def calDefault : Word × Word := (0, 0x400000)

def State.calPair (s : State) (i : Nat) : Word × Word := lookupKey calDefault s.sns.cal i

def State.setCalPair (s : State) (i : Nat) (p : Word × Word) : State :=
  s.modSense (fun y => { y with cal := if p = calDefault then y.cal.filter (fun q => decide (q.1 ≠ i)) else putKey y.cal i p })

/-- SNS_CAL_ADDR.INDEX of a converter, input and gain code. -/
def calIndex (c input gain : Nat) : Nat := 256 * c + 8 * input + gain

/-- The pair that SNS_CAL_OFS and SNS_CAL_GAIN show. -/
def State.calShown (s : State) : Word × Word := s.calPair (s.fld R.SNS_CAL_ADDR F.SNS_CAL_ADDR_INDEX)

/-- A write of SNS_CAL_OFS. -/
def State.calOfsWritten (s : State) (v : Word) : State :=
  s.setCalPair (s.fld R.SNS_CAL_ADDR F.SNS_CAL_ADDR_INDEX) (v &&& 0xFFFFFF, s.calShown.2)

/-- An access to SNS_CAL_GAIN advances INDEX where AUTOINC is set. -/
def State.calAdvance (s : State) : State :=
  if s.on R.SNS_CAL_ADDR F.SNS_CAL_ADDR_AUTOINC then s.incWrap R.SNS_CAL_ADDR F.SNS_CAL_ADDR_INDEX else s

/-- A write of SNS_CAL_GAIN. -/
def State.calGainWritten (s : State) (v : Word) : State :=
  (s.setCalPair (s.fld R.SNS_CAL_ADDR F.SNS_CAL_ADDR_INDEX) (s.calShown.1, v &&& 0xFFFFFF)).calAdvance

/-- Inputs 13 to 17 are temperatures that the part writes itself: never calibrated (R314). -/
def isTemp (input : Nat) : Bool := decide (13 ≤ input) && decide (input ≤ 17)

/-- A code at the limits of 24 bits (R314). -/
def clamp24 (x : Int) : Int := max (-0x800000) (min 0x7FFFFF x)

/-- A quotient by 2^22 rounded to the nearest whole number, ties to even (R325). -/
def convergent22 (x : Int) : Int :=
  let q := x / 0x400000
  let r := x % 0x400000
  if 0x200000 < r ∨ (r = 0x200000 ∧ q % 2 = 1) then q + 1 else q

/-- The code (raw − OFS) × GN before it saturates (R325). -/
def State.calCode (s : State) (c input gain : Nat) (raw : Int) : Int :=
  if isTemp input then raw
  else
    let p := s.calPair (calIndex c input gain)
    convergent22 ((raw - sgn 24 p.1.toNat) * (p.2.toNat : Int))

/-- The result word but for LIM and RESTART, from the unsaturated raw code (R314, R324, R325). -/
def State.resultWord (s : State) (c input gain : Nat) (raw : Int) (nrdy : Bool) : Word :=
  let x := s.calCode c input gain (clamp24 raw)
  let r := clamp24 x
  let w : Word := BitVec.ofInt 32 (256 * r)
  ((((w.setFld F.SNS_RES_NEW 1).setFld F.SNS_RES_REF_NRDY nrdy.toNat).setFld F.SNS_RES_SAT
    (decide (r ≠ x ∨ clamp24 raw ≠ raw)).toNat)).setFld F.SNS_RES_CAL
    (!isTemp input && decide (s.calPair (calIndex c input gain) ≠ calDefault)).toNat

/-- The timestamp word of a window that ends now. -/
def State.tsWord (s : State) : Word :=
  ((0 : Word).setFld F.SNS_RES_TS_BLK (s.clk.blk % 2 ^ 28)).setFld F.SNS_RES_TS_SAMPLE s.clk.smp

/-! ### The order of conversions (R316, R319, R320, R322, R327) -/

/-- The value and the range of a FULL step (R326): the exact gain is target / diff; which of the two nearest codes of
Q2.22 the part takes is left open. -/
def fullGain (target diff : Int) : Option Word :=
  if diff ≤ 0 ∨ 2 * target < diff ∨ 2 * diff < target then none
  else some (BitVec.ofNat 32 (scaleCode (target.toNat * 0x400000) diff.toNat))

/-- A calibration step ends: a descriptor completes with the block at which it began, a register step that failed sets
CAL_FAIL (R326). -/
def State.calStepEnd (s : State) (c : Nat) (t : CalStep) (st : Status) (k : Nat) : State :=
  match t.id with
  | some id => s.finish id ⟨st, false, false, false, k, none⟩
  | none => if st = .done then s else s.setF (R.SNS_STS c) F.SNS_STS_CAL_FAIL 1

/-- What a raw code does to the pair of a calibration step (R326). -/
def State.calApply (s : State) (c : Nat) (t : CalStep) (raw : Int) (k : Nat) : State :=
  let i := calIndex c t.input t.gain
  let p := s.calPair i
  match t.step with
  | 0 =>
    if 0x80000 < raw ∨ raw < -0x80000 then s.calStepEnd c t .faulted k
    else (s.setCalPair i (BitVec.ofInt 32 raw &&& 0xFFFFFF, p.2)).calStepEnd c t .done k
  | 1 =>
    match fullGain t.target (raw - sgn 24 p.1.toNat) with
    | none => s.calStepEnd c t .faulted k
    | some g => (s.setCalPair i (p.1, g)).calStepEnd c t .done k
  | _ => (s.setCalPair i calDefault).calStepEnd c t .done k

/-- The pass ends (R316). -/
def State.passEnd (s : State) (c : Nat) : State :=
  let s := if s.on (R.SNS_CFG c) F.SNS_CFG_DONE_EVT then s.raiseF 0x0A10 (0x800 + c) else s
  let s := s.setF (R.SNS_STS c) F.SNS_STS_ENTRY ((s.nextEntry c 0).getD 0)
  if (s.snsX c).pass = .cont ∧ s.fld (R.SNS_CFG c) F.SNS_CFG_MODE = 2 ∧ (s.nextEntry c 0).isSome = true then s
  else s.modSns c (fun x => { x with pass := .idle })

/-- The modulator clocks of an entry's window (R315, R319). -/
def State.entryClocks (s : State) (w : Word) : Nat :=
  let n := windowClocks (kCode (w.fld F.SNS_ENTRY_K))
  if w.fld F.SNS_ENTRY_ALIGN = 1 then alignClocks n s.carrierClocks else n

/-- Under source 5, the first window point that the settle still allows after the last conversion (R319). -/
def SnsX.usable (x : SnsX) : Option Nat := x.points.find? (fun p => decide (x.end3 + settle3 ≤ p))

/-- The next entry of a running pass starts (R316, R319). -/
def State.startEntry (s : State) (c : Nat) : State :=
  let x := s.snsX c
  if x.pass = .idle ∨ s.snsEn c = false ∨ s.snsPaused c = true then s
  else
    let at_ := s.fld (R.SNS_STS c) F.SNS_STS_ENTRY
    match s.nextEntry c at_ with
    | none => s.passEnd c
    | some e =>
      let w := s.rd (R.SNS_ENTRY c e)
      let re := x.restart && e == at_
      let s := s.setF (R.SNS_STS c) F.SNS_STS_ENTRY e
      if s.snsSrc c = 5 then
        match x.usable with
        | none => s
        | some p => ((s.startConv c (.entry e w re) (s.entryClocks w) p).modSns c
            (fun x => { x with restart := false, points := x.points.filter (fun q => decide (p < q)) }))
      else (s.startConv c (.entry e w re) (s.entryClocks w) (s.clk.now3 + settle3)).modSns c
          (fun x => { x with restart := false })

/-- The next conversion of an idle converter: an injected one, then a held calibration step, then the sequence. -/
def State.snsNext (s : State) (c : Nat) : State :=
  let x := s.snsX c
  if x.conv.isSome then s.snsShow c
  else
    match x.queue, x.cal with
    | r :: rs, _ =>
      ((s.modSns c (fun x => { x with queue := rs })).startConv c (.inj r) (windowClocks (kCode r.k))
        (s.clk.now3 + settle3)).snsShow c
    | [], some t =>
      let s := s.modSns c (fun x => { x with cal := none })
      if t.step = 0 ∨ t.step = 1 then
        (s.startConv c (.cal t) (windowClocks (kCode t.k)) (s.clk.now3 + settle3)).snsShow c
      else ((s.calApply c t 0 s.clk.blk).startEntry c).snsShow c
    | [], none => (s.startEntry c).snsShow c

/-- A running entry is aborted with no result and restarts later (R322). -/
def State.abortEntry (s : State) (c : Nat) : State :=
  if (s.snsX c).inEntry then
    (s.incSat (R.SNS_CNT c) F.SNS_CNT_ABORT).modSns c
      (fun x => { x with conv := none, restart := true, end3 := s.clk.now3 })
  else s

/-- An injected request is queued; it aborts a running entry (R321, R322). -/
def State.inject (s : State) (c : Nat) (r : InjReq) : State :=
  ((s.abortEntry c).modSns c (fun x => { x with queue := x.queue ++ [r] })).snsNext c

/-- The places of a converter's queue that registers and commands have taken are full (R321). -/
def State.injFull (s : State) (c : Nat) : Bool :=
  decide (4 ≤ ((s.snsX c).queue.filter (fun r => match r.org with | .load _ => false | _ => true)).length)

/-- The load test of power channel m reads its voice-coil sense point: SC0 for 0 to 3, SC1 for 4 to 7, gain 1, k = 8
(R253). -/
def State.injectLoad (s : State) (m : Nat) : State := s.inject (m / 4) ⟨.load m, 18 + m, 0, 8⟩

/-- The status with which a calibration step is refused (R327). -/
def State.calRefused (s : State) (c : Nat) (t : CalStep) : Option Status :=
  let x := s.snsX c
  if isTemp t.input || t.input == 28 || t.input == 30 || t.input == 31 then some .badParam
  else if !s.on R.SNS_REF F.SNS_REF_READY || x.cal.isSome || x.inCal then some .refusedBusy
  else if s.snsEn c && !s.snsPaused c && (List.range (s.fld (R.SNS_CFG c) F.SNS_CFG_LAST + 1)).any (fun e =>
      s.on (R.SNS_ENTRY c e) F.SNS_ENTRY_EN && s.fld (R.SNS_ENTRY c e) F.SNS_ENTRY_INPUT == t.input) then
    some .refusedBusy
  else none

/-- A calibration step is requested (R326, R327): it starts at once where no injected conversion is queued or running,
and then aborts a running entry. -/
def State.calRequest (s : State) (c : Nat) (t : CalStep) : State :=
  match s.calRefused c t with
  | some st => s.calStepEnd c t st noBlock
  | none =>
    let s := if (s.snsX c).queue.isEmpty then s.abortEntry c else s
    (s.modSns c (fun x => { x with cal := some t })).snsNext c

/-! ### Triggers (R316 to R319) -/

/-- A trigger is dropped (R318). -/
def State.trigDrop (s : State) (c : Nat) : State :=
  ((s.incSat (R.SNS_CNT c) F.SNS_CNT_TRIG_OVR).setF (R.SNS_STS c) F.SNS_STS_TRIG_OVR 1).raiseFLimited
    (500000 * s.fld R.SNS_EVT_CFG F.SNS_EVT_CFG_HOLDOFF) 0x0A11 (0x800 + c)

/-- The pass that a trigger starts, by MODE; 3 acts as 0 (R316). -/
def State.passOf (s : State) (c : Nat) : SnsPass :=
  match s.fld (R.SNS_CFG c) F.SNS_CFG_MODE with
  | 1 => .step
  | 2 => .cont
  | _ => .scan

/-- A trigger of converter c (R316, R318, R320). -/
def State.snsTrigger (s : State) (c : Nat) : State :=
  let x := s.snsX c
  if !s.snsPowered || !s.snsEn c || s.snsPaused c then s
  else if x.pass = .cont then s
  else if x.pass ≠ .idle ∨ x.busyOther = true then s.trigDrop c
  else
    let at_ := s.fld (R.SNS_STS c) F.SNS_STS_ENTRY
    match s.passOf c with
    | .step =>
      match (s.nextEntry c at_).or (s.nextEntry c 0) with
      | none => s
      | some e => (((s.setF (R.SNS_STS c) F.SNS_STS_ENTRY e).modSns c (fun x => { x with pass := .step }))).snsNext c
    | p =>
      if p = .cont ∧ s.nextEntry c 0 = none then s
      else ((s.setF (R.SNS_STS c) F.SNS_STS_ENTRY 0).modSns c (fun x => { x with pass := p })).snsNext c

/-- A trigger of the converters of a list that select a source. -/
def State.snsTriggerAll (src : Nat) (ok : Nat → Bool) : List Nat → State → State
  | [], s => s
  | c :: cs, s => State.snsTriggerAll src ok cs (if s.snsSrc c = src ∧ ok c = true then s.snsTrigger c else s)

/-- A software trigger acts under source 0 (R317). -/
def State.snsSoftware (s : State) (c : Nat) : State := if s.snsSrc c = 0 then s.snsTrigger c else s

/-- A PWM event of the selected channel: a window point DELAY TCLK later, and a trigger where no pass runs (R319). -/
def State.snsPwm (s : State) (c : Nat) : State :=
  if !s.snsPowered || !s.snsEn c || s.snsPaused c then s
  else
    let p := s.clk.now3 + (s.fld (R.SNS_TRIG c) F.SNS_TRIG_DELAY * 15625 + 1023) / 1024
    if (s.snsX c).pass = .idle ∧ (s.snsX c).conv = none then
      (s.modSns c (fun x => { x with points := [p] })).snsTrigger c
    else
      let s := s.modSns c (fun x => { x with points := x.points.filter (fun q => decide (s.clk.now3 ≤ q)) ++ [p] })
      if (s.snsX c).conv = none then
        let t := s.snsNext c
        if (t.snsX c).conv = none then t.snsTrigger c else t
      else s.snsTrigger c

/-- The carrier of power channel m runs: its channel, or the owner of its pair, is in SOFTSTART, READY, STOPPING or CAL
(R319, R241, R247). -/
def State.carrierRuns (s : State) (m : Nat) : Bool :=
  let c := if s.bit R.PWR_GLB_CFG (16 + m / 2) then 2 * (m / 2) else m
  let st := s.fld (R.PWR_STS c) F.PWR_STS_STATE
  st == 2 || st == 3 || st == 4 || st == 10

/-- A PWM event for the converters of a list. -/
def State.snsPwmAll (m : Nat) (centre : Bool) : List Nat → State → State
  | [], s => s
  | c :: cs, s =>
    State.snsPwmAll m centre cs
      (if s.snsSrc c = 5 ∧ s.fld (R.SNS_TRIG c) F.SNS_TRIG_PWM_CH = m
          ∧ s.fld (R.SNS_TRIG c) F.SNS_TRIG_PWM_EDGE = centre.toNat then s.snsPwm c else s)

/-! ### Writes -/

/-- A pause takes effect (R320). -/
def State.snsPauseNow (s : State) (c : Nat) : State :=
  if s.on (R.SNS_CFG c) F.SNS_CFG_PAUSE && !(s.snsX c).inEntry then s.setF (R.SNS_STS c) F.SNS_STS_PAUSED 1 else s

/-- EN cleared (R320). -/
def State.snsDisable (s : State) (c : Nat) : State :=
  let s := if (s.snsX c).inEntry then s.modSns c (fun x => { x with conv := none, end3 := s.clk.now3 }) else s
  (s.modSns c (fun x => { x with pass := .idle, restart := false, points := [] })).setF (R.SNS_STS c)
    F.SNS_STS_ENTRY 0

/-- What a write of SNS_CFG runs, by the word before it (R320). -/
def State.snsCfgWritten (s : State) (c : Nat) (old : Word) : State :=
  let s := if old.fld F.SNS_CFG_EN = 1 ∧ s.snsEn c = false then s.snsDisable c else s
  let s := if s.on (R.SNS_CFG c) F.SNS_CFG_PAUSE then s.snsPauseNow c else s.setF (R.SNS_STS c) F.SNS_STS_PAUSED 0
  s.snsNext c

/-- What a write of SNS_REF runs (R324): a conversion whose window has not begun sees the new READY. -/
def State.refShow (s : State) : State :=
  s.modSense (fun y => { y with
    convs := y.convs.map (fun x => { x with
      conv := x.conv.map (fun v =>
        if s.clk.now3 < v.win3 then { v with nrdy := !s.on R.SNS_REF F.SNS_REF_READY } else v) }) })

def State.refWritten (s : State) (old : Word) : State :=
  if s.on R.SNS_REF F.SNS_REF_BUFEN then
    if old.fld F.SNS_REF_BUFEN = 0 then s.modSense (fun y => { y with refAt := s.clk.blk }) else s
  else (s.setF R.SNS_REF F.SNS_REF_READY 0).refShow

/-- A write of SNS_INJ.GO (R321). -/
def State.injGo (s : State) (c : Nat) : State :=
  let w := s.rd (R.SNS_INJ c)
  if s.injFull c then s.setF (R.SNS_STS c) F.SNS_STS_INJ_REFUSED 1
  else s.inject c ⟨.reg, w.fld F.SNS_INJ_INPUT, w.fld F.SNS_INJ_GAIN, w.fld F.SNS_INJ_K⟩

/-- A write of SNS_CAL_CTL.GO (R326); STEP 3 acts as 2. -/
def State.calGo (s : State) (c : Nat) : State :=
  let w := s.rd (R.SNS_CAL_CTL c)
  s.calRequest c ⟨none, w.fld F.SNS_CAL_CTL_INPUT, w.fld F.SNS_CAL_CTL_GAIN, w.fld F.SNS_CAL_CTL_K,
    w.fld F.SNS_CAL_CTL_STEP, sgn 24 (s.fld (R.SNS_CAL_TGT c) F.SNS_CAL_TGT_TARGET)⟩

/-- The number of set bits of a list of places of a word. -/
def bitCount (v : Word) (n : Nat) : Nat := ((List.range n).filter (fun i => v.getLsbD i)).length

/-- A switch write would close more than one switch (R330). -/
def tdacBad (v : Word) : Bool := decide (1 < bitCount v 24)

/-- CNT_CLR of the page (R10). -/
def State.snsCntClr (s : State) : State := State.zeroAll [R.SNS_CNT 0, R.SNS_CNT 1, R.SNS_PLAUS_CNT] s

/-- The converters lose their supply (R312): on the return to RUN each sequence starts at entry 0. -/
def State.snsOff (s : State) : State :=
  let off := fun (s : State) (c : Nat) =>
    (((s.modSns c (fun x => { SnsX.reset with last := x.last, outs := x.outs })).setF (R.SNS_STS c)
      F.SNS_STS_ENTRY 0)).snsShow c
  off (off s 0) 1

/-! ### Events -/

/-- SENSE_TIMER_TICK (R317). -/
def execSenseTimerTick (t : Fin 4) (s : State) : Out :=
  .next (if s.on (R.SNS_TMR t) F.SNS_TMR_EN then State.snsTriggerAll (1 + t.val) (fun _ => true) [0, 1] s else s)

/-- SENSE_PWM_EVENT (R319): the start of a carrier period of power channel m, or its centre. -/
def execSensePwmEvent (m : Fin 8) (centre : Bool) (s : State) : Out :=
  .next (if s.carrierRuns m then State.snsPwmAll m centre [0, 1] s else s)

/-- SENSE_GPIO_EDGE (R317): a recognised edge of GPIO g. -/
def execSenseGpioEdge (g : Fin 16) (rising : Bool) (s : State) : Out :=
  .next (State.snsTriggerAll 6 (fun c => decide (s.fld (R.SNS_TRIG c) F.SNS_TRIG_GPIO = g.val)
    && s.bit (R.SNS_TRIG c) (if rising then 21 else 22)) [0, 1] s)

/-- The limits of an entry are checked against bits [23:8] of its result (R329). -/
def State.limCheck (s : State) (c e : Nat) (w : Word) : Word × State :=
  let x := sgn 16 (w.fld ⟨16, 16⟩)
  let l := s.rd (R.SNS_LIM c e)
  if sgn 16 (l.fld F.SNS_LIM_HI) < x ∨ x < sgn 16 (l.fld F.SNS_LIM_LO) then
    let key := evKey 0x0A12 (0x810 + 16 * c + e)
    let s1 :=
      if (s.snsX c).outs.contains e || !s.rested key (500000 * s.fld R.SNS_EVT_CFG F.SNS_EVT_CFG_HOLDOFF) then s
      else ((s.modSns c (fun x => { x with outs := e :: x.outs })).touch key).raiseF 0x0A12 (0x810 + 16 * c + e)
    (w.setFld F.SNS_RES_LIM 1, s1)
  else (w, s.modSns c (fun x => { x with outs := x.outs.filter (fun i => i != e) }))

/-- SNS_LAST and SNS_LAST_TS of an input. -/
def State.setLast (s : State) (c input gain : Nat) (w : Word) : State :=
  ((s.wr (R.SNS_LAST c input) w).wr (R.SNS_LAST_TS c input) s.tsWord).modSns c
    (fun x => { x with last := putKey x.last input (gain, s.clk.blk) })

/-- The comparison of the shared channel (R328); a difference that 24 bits do not hold is a free value. -/
def State.plausCheck (s : State) (c input gain : Nat) : State :=
  let o := 1 - c
  if s.on R.SNS_SHARED F.SNS_SHARED_EN && s.fld R.SNS_SHARED F.SNS_SHARED_INPUT == input then
    match (s.snsX o).last.find? (fun p => p.1 == input) with
    | none => s
    | some (_, g, k) =>
      if g = gain ∧ s.on (R.SNS_LAST 0 input) F.SNS_LAST_REF_NRDY = false
          ∧ s.on (R.SNS_LAST 1 input) F.SNS_LAST_REF_NRDY = false
          ∧ s.clk.blk ≤ k + max 1 (s.fld R.SNS_EVT_CFG F.SNS_EVT_CFG_MAX_AGE) then
        let d := sgn 24 (s.fld (R.SNS_LAST 0 input) F.SNS_LAST_RESULT)
          - sgn 24 (s.fld (R.SNS_LAST 1 input) F.SNS_LAST_RESULT)
        let s1 := s.incSat R.SNS_PLAUS_CNT F.SNS_PLAUS_CNT_CHECKS
        let (v, s2) : BitVec 24 × State := if clamp24 d = d then (BitVec.ofInt 24 d, s1) else s1.fresh 24
        let s3 := s2.setF R.SNS_PLAUS_STS F.SNS_PLAUS_STS_DIFF v.toNat
        let w : Int := 16 * s.fld R.SNS_SHARED F.SNS_SHARED_WINDOW
        if w < d ∨ d < -w then
          (((s3.setF R.SNS_PLAUS_STS F.SNS_PLAUS_STS_FAIL 1).incSat R.SNS_PLAUS_CNT F.SNS_PLAUS_CNT_FAILS).setF
            R.SNS_GLB_STS F.SNS_GLB_STS_PLAUS 1).raiseFLimited
            (500000 * s.fld R.SNS_EVT_CFG F.SNS_EVT_CFG_HOLDOFF) 0x0A13 0x820
        else s3.setF R.SNS_PLAUS_STS F.SNS_PLAUS_STS_FAIL 0
      else s
  else s

/-- Bytes of an output payload go where the origin's payload addresses lie (R345). -/
def State.putPayload (s : State) (o : Origin) (a : Nat) (bs : List Byte) : State :=
  match o with
  | .cmd => s.putBytes (s.ringLocal 0) a bs
  | .mcmd => s.putBytes (s.ringLocal 3) a bs
  | _ => s

/-- The result of an injected conversion (R321, R323). -/
def State.injDone (s : State) (c : Nat) (r : InjReq) (w : Word) (k : Nat) : State :=
  let s := (s.setLast c r.input r.gain w).plausCheck c r.input r.gain
  match r.org with
  | .reg => s.wr (R.SNS_INJ_RES c) w
  | .load _ => s
  | .cmd id a =>
    if (s.queue id.org).flight.any (fun f => f.ord == id.ord) then
      (s.putPayload id.org a (leBytes 4 w.toNat ++ leBytes 4 s.tsWord.toNat)).finish id (doneAt k)
    else s

/-- The entry after a completed one, or the end of the pass (R316). -/
def State.entryDone (s : State) (c e : Nat) : State :=
  let s := match s.nextEntry c (e + 1) with
    | some e' =>
      (s.setF (R.SNS_STS c) F.SNS_STS_ENTRY e').modSns c (fun x => if x.pass = SnsPass.step then { x with pass := .idle } else x)
    | none => s.passEnd c
  s.snsPauseNow c

/-- The result of a sequence entry (R314, R324, R329). -/
def State.entryResult (s : State) (c e : Nat) (cfg : Word) (re : Bool) (w : Word) : State :=
  let w := w.setFld F.SNS_RES_RESTART re.toNat
  let (w, s) := if cfg.fld F.SNS_ENTRY_LIM_EN = 1 then s.limCheck c e w else (w, s)
  let i := cfg.fld F.SNS_ENTRY_INPUT
  let g := cfg.fld F.SNS_ENTRY_GAIN
  ((((s.wr (R.SNS_RES c e) w).wr (R.SNS_RES_TS c e) s.tsWord).setLast c i g w).plausCheck c i g).entryDone c e

/-- SENSE_CONVERSION_DONE (R315): the window of converter c ends; `raw` is the code that it reads, before it saturates. -/
def execSenseConversionDone (c : Fin 2) (raw : Int) (s : State) : Out :=
  .next (match (s.snsX c).conv with
  | none => s
  | some v =>
    if v.win3 + v.n * 15625 / 16 < s.clk.now3 + 31250 then
      let s1 := s.modSns c (fun x => { x with conv := none, end3 := s.clk.now3 })
      let s2 := match v.what with
        | .entry e cfg re =>
          s1.entryResult c e cfg re
            (s.resultWord c (cfg.fld F.SNS_ENTRY_INPUT) (cfg.fld F.SNS_ENTRY_GAIN) raw v.nrdy)
        | .inj r => s1.injDone c r (s.resultWord c r.input r.gain raw v.nrdy) v.blk
        | .cal t => s1.calApply c t (clamp24 raw) v.blk
      s2.snsNext c
    else s)

/-- REF_READY (R324): 12 blocks after BUFEN was set. -/
def execRefReady (s : State) : Out :=
  .next (if s.on R.SNS_REF F.SNS_REF_BUFEN = true ∧ s.sns.refAt + 12 ≤ s.clk.blk then
    (s.setF R.SNS_REF F.SNS_REF_READY 1).refShow
  else s)

end Sys2Proof.Machine
end

