-- ==== Sys2Proof/Machine/Outputs.lean ====
section
/-!
DEFINITION. Output stages (chapter 8): power channels 0 to 7, EXT channels as 8 to 15, line outputs and the headphone
output, and their protection.
-/
namespace Sys2Proof.Machine

/-! ### Channel states (PWR_STS.STATE, EXT_STS.STATE) -/

def stOff : Nat := 0
def stDiag : Nat := 1
def stSoftstart : Nat := 2
def stReady : Nat := 3
def stStopping : Nat := 4
def stRetryWait : Nat := 5
def stLatched : Nat := 6
def stThermalOff : Nat := 7
def stPvddOff : Nat := 8
def stFollower : Nat := 9
def stCal : Nat := 10
def stParked : Nat := 11

def State.outX (s : State) (c : Nat) : OutX := s.outs.chans.getD c OutX.reset

def State.modOut (s : State) (c : Nat) (f : OutX → OutX) : State :=
  s.modOutputs (fun y => { y with chans := y.chans.modify c f })

/-- The state of a channel. -/
def State.chState (s : State) (c : Nat) : Nat :=
  if c < 8 then s.fld (R.PWR_STS c) F.PWR_STS_STATE else s.fld (R.EXT_STS (c - 8)) F.EXT_STS_STATE

/-- A channel enters a state in the present block. -/
def State.setCh (s : State) (c st : Nat) : State :=
  (if c < 8 then s.setF (R.PWR_STS c) F.PWR_STS_STATE st else s.setF (R.EXT_STS (c - 8)) F.EXT_STS_STATE st).modOut c
    (fun x => { x with since := s.clk.blk })

/-- EN of a channel in effect. -/
def State.chEn (s : State) (c : Nat) : Bool :=
  if c < 8 then s.on (R.PWR_CTL c) F.PWR_CTL_EN else s.on (R.EXT_CFG (c - 8)) F.EXT_CFG_EN

def State.retryMax (s : State) (c : Nat) : Nat :=
  if c < 8 then s.fld (R.PWR_CFG c) F.PWR_CFG_RETRY_MAX else s.fld (R.EXT_CFG (c - 8)) F.EXT_CFG_RETRY_MAX

/-- RETRY_DELAY in blocks: ms, values below 10 act as 10. -/
def State.retryDelay (s : State) (c : Nat) : Nat :=
  6 * max 10 (if c < 8 then s.fld (R.PWR_CFG c) F.PWR_CFG_RETRY_DELAY else s.fld (R.EXT_CFG (c - 8)) F.EXT_CFG_RETRY_DELAY)

def State.retryCnt (s : State) (c : Nat) : Nat :=
  if c < 8 then s.fld (R.PWR_STS c) F.PWR_STS_RETRY_CNT else s.fld (R.EXT_STS (c - 8)) F.EXT_STS_RETRY_CNT

def State.setRetryCnt (s : State) (c n : Nat) : State :=
  if c < 8 then s.setF (R.PWR_STS c) F.PWR_STS_RETRY_CNT n else s.setF (R.EXT_STS (c - 8)) F.EXT_STS_RETRY_CNT n

/-- Channels 2j and 2j + 1 are joined (R243). -/
def State.paired (s : State) (c : Nat) : Bool := decide (c < 8) && s.bit R.PWR_GLB_CFG (16 + c / 2)

/-- The channel whose state governs a channel: 2j of a joined pair (R243). -/
def State.owner (s : State) (c : Nat) : Nat := if s.paired c then 2 * (c / 2) else c

/-- The first block boundary at or after this moment. -/
def State.nextBoundary (s : State) : Nat := if s.clk.smp = 0 then s.clk.blk else s.clk.blk + 1

/-! ### Servo loops (R290, R291) -/

/-- The loop of power channel m can be closed: base mode SERVO, the channel READY with no restart ramp to run, and the
loop not opened at its clamp. -/
def State.servoWanted (s : State) (m : Nat) : Bool :=
  s.fld (R.TTH_OUT_CFG m) F.TTH_OUT_CFG_MODE == 2 && s.chState m == stReady && (s.outX m).ramp == .none
    && !s.tth.opened.getD m false

/-- CLOSED of a loop follows its conditions; a loop that closes starts from zero state. -/
def State.servoShow (s : State) (m : Nat) : State :=
  if m < 8 then s.setF (R.TTH_SRV_STS m) F.TTH_SRV_STS_CLOSED (s.servoWanted m).toNat else s

/-! ### Offset calibration (R248) -/

/-- The running calibration of a channel ends with a status; TRIM is unchanged. -/
def State.calEnd (s : State) (m : Nat) (st : Status) : State :=
  match (s.outX m).cal with
  | none => s
  | some (id, k) =>
    (s.modOut m (fun x => { x with cal := none })).finish id
      ⟨st, false, false, false, if st = .faulted then k else noBlock, none⟩

/-- A Tether mode change on O(m) aborts a running calibration: the channel is READY again (R248). -/
def State.calAbort (s : State) (m : Nat) : State :=
  if (s.outX m).cal.isSome && s.chState m == stCal then (((s.calEnd m .aborted).setCh m stReady)).sinksReady [m] else s

/-! ### Start and stop (R244, R245, R255) -/

/-- Step 3 of R244: soft-start. -/
def State.softstart (s : State) (c : Nat) : State := s.setCh c stSoftstart

/-- Step 2 of R244 where DIAG_EN is set, otherwise step 3. -/
def State.startStep2 (s : State) (c : Nat) : State :=
  if c < 8 ∧ s.on (R.PWR_CTL c) F.PWR_CTL_DIAG_EN = true then
    ((s.modOut c (fun x => { x with test := .start })).setCh c stDiag).injectLoad c
  else s.softstart c

/-- The rail of a power channel is out of its limits. -/
def State.railBad (s : State) (rail : Nat) : Bool := s.bit R.PWR_PVDD_STS (2 * rail) || s.bit R.PWR_PVDD_STS (2 * rail + 1)

/-- Step 1 of R244: the checks of PVDD and temperature. -/
def State.startStep1 (s : State) (c : Nat) : State :=
  if c < 8 ∧ s.on (R.PWR_DIE_STS (c / 4)) F.PWR_DIE_STS_SHUTDOWN = true then s.setCh c stThermalOff
  else if c < 8 ∧ s.railBad (c / 4) = true then s.setCh c stPvddOff
  else s.startStep2 c

/-- A channel that is held off by its rail or its die continues from step 2, once the part is in RUN (R244, R247, R251). -/
def State.resume (s : State) (c : Nat) : State :=
  if s.power.mode = .run ∧ (s.chState c = stThermalOff ∨ s.chState c = stPvddOff) then
    if s.on (R.PWR_DIE_STS (c / 4)) F.PWR_DIE_STS_SHUTDOWN then s.setCh c stThermalOff
    else if s.railBad (c / 4) then s.setCh c stPvddOff
    else s.startStep2 c
  else s

/-- The channels of a list continue where they can. -/
def State.resumeAll : List Nat → State → State
  | [], s => s
  | c :: cs, s => State.resumeAll cs (s.resume c)

/-- A channel enters READY: R244 step 4, and the sink and the servo loop that wait for it. -/
def State.enterReady (s : State) (c : Nat) : State :=
  let s := s.setCh c stReady
  let s := s.modOut c (fun x => { x with readyAt := s.clk.now3, fault := false
                                         ramp := if x.fault then .hold (s.clk.now3 + 31250 * s.sinkZ) else .none })
  (s.servoShow c).sinksReady [c]

/-- A channel leaves its bridge in Hi-Z: its loop opens, its ramps end (R291). -/
def State.dropOut (s : State) (c st : Nat) : State :=
  ((s.setCh c st).modOut c (fun x => { x with stop := .none, ramp := .none })).servoShow c

/-- EN set in effect (R244, R245, R255). -/
def State.chStart (s : State) (c : Nat) : State :=
  let st := s.chState c
  if st = stOff then s.modOut c (fun x => { x with fault := false, attempt := false }) |>.startStep1 c
  else if st = stStopping then
    ((s.setCh c stReady).modOut c (fun x => { x with stop := .none })).servoShow c
  else if st = stDiag ∧ (s.outX c).test = .diag then s.modOut c (fun x => { x with test := .start, fault := false })
  else s

/-- The channel is switching, so that a stop needs steps 1 and 2 of R245. -/
def switching (st : Nat) : Bool := st == stSoftstart || st == stReady || st == stCal || st == stParked

/-- EN cleared in effect (R245, R252, R255). -/
def State.chStop (s : State) (c : Nat) : State :=
  let st := s.chState c
  if switching st then
    let s := if st = stCal then s.calEnd c .aborted else s
    ((s.setCh c stStopping).modOut c (fun x => { x with stop := .search (s.clk.now3 + 31250 * s.sinkZ), ramp := .none
                                                        attempt := false })).servoShow c
  else if st = stOff ∨ st = stFollower ∨ st = stStopping then s
  else ((s.dropOut c stOff).setRetryCnt c 0).modOut c (fun x => { x with attempt := false })

/-- A channel has stopped (R245 step 3). -/
def State.chStopped (s : State) (c : Nat) : State := (s.dropOut c stOff).raiseF 0x0802 (0x400 + c)

/-- PWR_CTL.EN or EXT_CFG.EN changed at a commit point. -/
def State.chEnCommit (s : State) (c : Nat) (old : Bool) : State :=
  let new := s.chEn c
  if old == new || s.chState c == stFollower then s else if new then s.chStart c else s.chStop c

/-! ### The trip path (R252) -/

/-- A failure: it is counted, and the channel waits again or latches (R252 step 4). -/
def State.attemptFail (s : State) (c : Nat) : State :=
  let n := s.retryCnt c + 1
  let s := ((s.setRetryCnt c (min 15 n)).raiseF 0x0807 (0x400 + c)).modOut c (fun x => { x with attempt := false })
  if s.retryMax c ≤ n then (s.dropOut c stLatched).raiseF 0x0808 (0x400 + c)
  else (s.dropOut c stRetryWait).modOut c (fun x => { x with retryAt := s.nextBoundary + s.retryDelay c })

/-- Steps 1 and 2 of R252 after the event and the status bits of a trip. -/
def State.trip (s : State) (c : Nat) : State :=
  let s := s.calEnd c .faulted
  if (s.outX c).attempt then s.attemptFail c
  else if s.retryMax c = 0 then (s.dropOut c stLatched).raiseF 0x0808 (0x400 + c)
  else (s.dropOut c stRetryWait).modOut c (fun x => { x with retryAt := s.nextBoundary + s.retryDelay c })

/-- A bridge drives, or holds, its output, so that a trip can act. -/
def armedForTrip (st : Nat) : Bool :=
  st == stDiag || st == stSoftstart || st == stReady || st == stStopping || st == stCal || st == stParked

/-- The trace entries of a trip are written (R252 step 1). -/
def State.putTrace (m : Nat) : Nat → List Word → State → State
  | _, [], s => s
  | i, w :: ws, s => if i < 48 then State.putTrace m (i + 1) ws (s.wr (R.PWR_TRACE m i) w) else s

/-- A trip of power channel m: kind 0 current, 1 sustained limit, 2 link (R251, R252). -/
def State.pwrTrip (s : State) (m kind : Nat) (trace : List Word) : State :=
  let c := s.owner m
  if armedForTrip (s.chState c) then
    let s := s.setF (R.PWR_STS c) (if kind = 2 then F.PWR_STS_LINK else F.PWR_STS_SHORT) 1
    let s := (State.putTrace c 0 trace s).setF (R.PWR_STS c) F.PWR_STS_TRACE_FROZEN 1
    let s := s.incSat (R.PWR_CNT c) F.PWR_CNT_TRIPS
    (s.raiseF 0x0805 (0x400 + c) [kind, 2 + c / 4]).trip c
  else s

/-- Trips of a list of power channels. -/
def State.pwrTrips (kind : Nat) : List Nat → State → State
  | [], s => s
  | m :: ms, s => State.pwrTrips kind ms (s.pwrTrip m kind [])

/-- Clearing a fault (R252 step 5): the count and the trace freeze; a latched channel restarts from step 2. -/
def State.clearFault (s : State) (c : Nat) : State :=
  let s := s.setRetryCnt c 0
  let s := if c < 8 then
    State.zeroAll (addrs (R.PWR_TRACE c) 48) (s.setF (R.PWR_STS c) F.PWR_STS_TRACE_FROZEN 0) else s
  if s.chState c = stLatched then
    if s.chEn c then (s.modOut c (fun x => { x with fault := true, attempt := false })).startStep2 c else s.dropOut c stOff
  else s

/-! ### Events of power channels -/

/-- The class of a load test reading in 10 mΩ: 1 SHORT, 2 NORMAL, 3 OPEN (R253). -/
def State.loadClass (s : State) (m r : Nat) : Nat :=
  if r < s.fld (R.PWR_DIAG_CFG m) F.PWR_DIAG_CFG_R_MIN then 1
  else if s.fld (R.PWR_DIAG_CFG m) F.PWR_DIAG_CFG_R_MAX < r then 3
  else 2

/-- LOAD_TEST_DONE (R253, R244 step 2, R252 step 3): the reading `r` in 10 mΩ after 120 blocks. -/
def execLoadTestDone (m : Fin 8) (r : Nat) (s : State) : Out :=
  .next (if s.chState m = stDiag ∧ (s.outX m).since + 120 ≤ s.clk.blk then
    let cls := s.loadClass m r
    let s1 := (s.setF (R.PWR_DIAG m) F.PWR_DIAG_R (min r 0xFFFF)).setF (R.PWR_DIAG m) F.PWR_DIAG_CLASS cls
    let s2 := if cls = 2 then s1 else s1.setF (R.PWR_STS m) F.PWR_STS_LOAD 1
    match (s.outX m).test with
    | .start => if cls = 2 then s2.softstart m else (s2.dropOut m stOff).raiseF 0x0803 (0x400 + m.val)
    | .retry => if cls = 2 then s2.softstart m else s2.attemptFail m
    | .diag => s2.dropOut m stOff
  else s)

/-- SOFTSTART_END (R244 step 4): after 240 blocks. -/
def execSoftstartEnd (m : Fin 8) (s : State) : Out :=
  .next (if s.chState m = stSoftstart ∧ (s.outX m).since + 240 ≤ s.clk.blk then
    (s.raiseF 0x0801 (0x400 + m.val)).enterReady m
  else s)

/-- PWR_STOP_GAIN_ZERO (R245 step 1): the channel gain has reached zero. An EXT channel is off at once (R255). -/
def execPwrStopGainZero (c : Fin 16) (s : State) : Out :=
  .next (if s.chState c = stStopping then
    match (s.outX c).stop with
    | .search _ =>
      if c.val < 8 then s.modOut c (fun x => { x with stop := .nodes, since := s.clk.blk }) else s.chStopped c
    | _ => s
  else s)

/-- PWR_STOPPED (R245 step 3): 240 blocks after step 2 began. -/
def execPwrStopped (m : Fin 8) (s : State) : Out :=
  .next (if s.chState m = stStopping ∧ (s.outX m).stop = .nodes ∧ (s.outX m).since + 240 ≤ s.clk.blk then s.chStopped m
  else s)

/-- RESTART_RAMP_START (R246): at the first zero crossing after READY, or after Z. -/
def execRestartRampStart (c : Fin 16) (crossing : Bool) (s : State) : Out :=
  .next (match (s.outX c).ramp with
  | .hold by3 =>
    if crossing = true ∨ by3 ≤ s.clk.now3 then s.modOut c (fun x => { x with ramp := .rising s.clk.blk }) else s
  | _ => s)

/-- RESTART_RAMP_END (R246): 1,024 samples later; the servo loop closes again (R291), and the 10 s trip window starts. -/
def execRestartRampEnd (c : Fin 16) (s : State) : Out :=
  .next (match (s.outX c).ramp with
  | .rising k =>
    if k + 64 ≤ s.clk.blk then
      (s.modOut c (fun x => { x with ramp := .none, rampEnd := s.clk.now3 })).servoShow c
    else s
  | _ => s)

/-- PWR_CURRENT_LIMIT (R251). -/
def execPwrCurrentLimit (m : Fin 8) (s : State) : Out :=
  let s1 := s.setF (R.PWR_STS m) F.PWR_STS_ILIM 1
  let s2 := if (s.outX m).ilimBlk = some s.clk.blk then s1
    else (s1.incSat (R.PWR_CNT m) F.PWR_CNT_ILIM).modOut m (fun x => { x with ilimBlk := some s.clk.blk })
  .next (s2.raiseFLimited second3 0x0804 (0x400 + m.val))

/-- PWR_SUSTAINED_TRIP (R251): the limit acted for ILIM_HOLD; `trace` is what the trace memory holds. -/
def execPwrSustainedTrip (m : Fin 8) (trace : List Word) (s : State) : Out := .next (s.pwrTrip m 1 trace)

/-- PWR_SHORT_TRIP (R251, R252). -/
def execPwrShortTrip (m : Fin 8) (trace : List Word) (s : State) : Out := .next (s.pwrTrip m 0 trace)

/-- RETRY_ATTEMPT (R252 step 3, R256): once the part is in RUN. -/
def execRetryAttempt (c : Fin 16) (s : State) : Out :=
  .next (if s.chState c = stRetryWait ∧ (s.outX c).retryAt ≤ s.clk.blk ∧ s.power.mode = .run then
    let s1 := s.modOut c (fun x => { x with attempt := true, fault := true, test := .retry })
    if c.val < 8 then (s1.setCh c stDiag).injectLoad c
    else if s.on (R.EXT_STS (c.val - 8)) F.EXT_STS_FLT_NOW then s1.attemptFail c
    else s1.softstart c
  else s)

/-- Ten seconds in thirds of ns. -/
def tenSeconds3 : Nat := 10 * second3

/-- RETRY_COUNT_RESET (R252 step 4): 10 s of READY with no trip. -/
def execRetryCountReset (c : Fin 16) (s : State) : Out :=
  .next (if s.chState c = stReady ∧ (s.outX c).readyAt + tenSeconds3 ≤ s.clk.now3 ∧ (s.outX c).ramp = .none
      ∧ (s.outX c).rampEnd + tenSeconds3 ≤ s.clk.now3 then
    (s.setRetryCnt c 0).modOut c (fun x => { x with attempt := false })
  else s)

/-- PWR_DC_FAULT (R251): latched in Hi-Z. -/
def execPwrDcFault (m : Fin 8) (s : State) : Out :=
  let c := s.owner m
  .next (if s.fld (R.PWR_CFG c) F.PWR_CFG_DC_THR ≠ 0 ∧ (s.chState c = stReady ∨ s.chState c = stStopping) then
    ((s.setF (R.PWR_STS c) F.PWR_STS_DC 1).dropOut c stLatched).raiseF 0x0806 (0x400 + c)
  else s)

/-! ### Die temperature and PVDD (R251) -/

/-- The power channels of a die, or rail. -/
def dieChans (d : Nat) : List Nat := [4 * d, 4 * d + 1, 4 * d + 2, 4 * d + 3]

/-- A channel goes to Hi-Z on a fault of its die or rail. -/
def State.hiZ (s : State) (st c : Nat) : State :=
  if armedForTrip (s.chState c) then
    let s := s.calEnd c .faulted
    if s.chEn c then (s.dropOut c st).modOut c (fun x => { x with fault := true }) else s.dropOut c stOff
  else s

/-- The channels of a list go to Hi-Z, with a status bit. -/
def State.hiZAll (st : Nat) (f : Fld) : List Nat → State → State
  | [], s => s
  | c :: cs, s => State.hiZAll st f cs ((s.setF (R.PWR_STS c) f 1).hiZ st c)

/-- PDIE_THERMAL_WARN (R251). -/
def execPdieThermalWarn (d : Fin 2) (s : State) : Out :=
  .next (if s.on (R.PWR_DIE_STS d) F.PWR_DIE_STS_WARN then s
    else (s.setF (R.PWR_DIE_STS d) F.PWR_DIE_STS_WARN 1).raiseF 0x080B (0x0D00 + d.val))

/-- PDIE_FOLDBACK (R251): the gain falls at each block from now on (COMMIT_POINT). -/
def execPdieFoldback (d : Fin 2) (s : State) : Out :=
  .next (if s.on (R.PWR_DIE_STS d) F.PWR_DIE_STS_FOLDBACK then s
    else (s.setF (R.PWR_DIE_STS d) F.PWR_DIE_STS_FOLDBACK 1).raiseF 0x080C (0x0D00 + d.val))

/-- PDIE_SHUTDOWN (R251). -/
def execPdieShutdown (d : Fin 2) (s : State) : Out :=
  .next (if s.on (R.PWR_DIE_STS d) F.PWR_DIE_STS_SHUTDOWN then s
    else (State.hiZAll stThermalOff F.PWR_STS_THERM (dieChans d)
      (s.setF (R.PWR_DIE_STS d) F.PWR_DIE_STS_SHUTDOWN 1)).raiseF 0x080D (0x0D00 + d.val))

/-- PDIE_THERMAL_RECOVER (R251): at or below 125 °C, with AUTO. -/
def execPdieThermalRecover (d : Fin 2) (s : State) : Out :=
  .next (if s.on (R.PWR_DIE_STS d) F.PWR_DIE_STS_SHUTDOWN && s.on R.PWR_THERM_CFG F.PWR_THERM_CFG_AUTO then
    State.resumeAll (dieChans d) (s.setF (R.PWR_DIE_STS d) F.PWR_DIE_STS_SHUTDOWN 0)
  else s)

/-- PDIE_COOLING (R251): below 120 °C WARN clears; below 130 °C the foldback releases. The temperature is in 0.1 °C. -/
def execPdieCooling (d : Fin 2) (temp : Int) (s : State) : Out :=
  let s1 := s.setF (R.PWR_DIE_STS d) F.PWR_DIE_STS_TEMP (BitVec.ofInt 16 temp).toNat
  .next (if temp < 1200 then s1.setF (R.PWR_DIE_STS d) F.PWR_DIE_STS_WARN 0 else s1)

/-- One block of foldback of a die at its measured temperature (R251). -/
def State.foldBlock (s : State) (d : Nat) : State :=
  if s.on (R.PWR_DIE_STS d) F.PWR_DIE_STS_FOLDBACK && !s.on (R.PWR_DIE_STS d) F.PWR_DIE_STS_SHUTDOWN
      && s.power.mode == .run then
    let t := sgn 16 (s.fld (R.PWR_DIE_STS d) F.PWR_DIE_STS_TEMP)
    let g := s.fld (R.PWR_DIE_STS d) F.PWR_DIE_STS_FOLD_GR
    let top := min 48 (s.fld R.PWR_THERM_CFG F.PWR_THERM_CFG_FOLD_MAX)
    let tick := s.outs.foldTick.getD d 0
    let put (s : State) (n : Nat) : State := s.modOutputs (fun y => { y with foldTick := y.foldTick.set d n })
    if 1350 ≤ t then (put s 0).setF (R.PWR_DIE_STS d) F.PWR_DIE_STS_FOLD_GR (min top (g + 1))
    else if 1300 ≤ t then s
    else if g = 0 then (put s 0).setF (R.PWR_DIE_STS d) F.PWR_DIE_STS_FOLDBACK 0
    else if 2999 ≤ tick then (put s 0).setF (R.PWR_DIE_STS d) F.PWR_DIE_STS_FOLD_GR (g - 1)
    else put s (tick + 1)
  else s

/-- PVDD out of its limits: bit 0 UV or 1 OV of the rail (R251). -/
def State.pvddBad (s : State) (rail ov : Nat) : State :=
  if s.bit R.PWR_PVDD_STS (2 * rail + ov) then s
  else (State.hiZAll stPvddOff F.PWR_STS_PVDD (dieChans rail) (s.setBit R.PWR_PVDD_STS (2 * rail + ov) true)).raiseF
    (0x080E + ov) (0x0D10 + rail)

/-- PVDD_UNDER (R251). -/
def execPvddUnder (rail : Fin 2) (s : State) : Out := .next (s.pvddBad rail 0)

/-- PVDD_OVER (R251). -/
def execPvddOver (rail : Fin 2) (s : State) : Out := .next (s.pvddBad rail 1)

/-- PVDD_OK (R251): within its limits by 1.0 V for 60 blocks. -/
def execPvddOk (rail : Fin 2) (s : State) : Out :=
  .next (if s.railBad rail then
    State.resumeAll (dieChans rail) (((s.setBit R.PWR_PVDD_STS (2 * rail) false).setBit R.PWR_PVDD_STS (2 * rail + 1)
      false).raiseF 0x0810 (0x0D10 + rail.val))
  else s)

/-! ### Offset calibration -/

/-- The channel can be calibrated (R248). -/
def State.calReady (s : State) (m : Nat) : Bool :=
  s.chState m == stReady && !s.bit R.MP_OUT_STS m && s.fld (R.TTH_OUT_STS m) F.TTH_OUT_STS_EFF == 0

/-- The calibration begins at its commit point. -/
def State.calBegin (s : State) (id : DescId) (m k : Nat) : State :=
  if s.calReady m then ((s.setCh m stCal).modOut m (fun x => { x with cal := some (id, k) })).servoShow m
  else s.finishBad id .refusedBusy

/-- OFFSET_CAL_DONE (R248): after 32 blocks; `trim` is the correction that the averaging found. -/
def execOffsetCalDone (m : Fin 8) (trim : BitVec 16) (s : State) : Out :=
  .next (match (s.outX m).cal with
  | none => s
  | some (id, k) =>
    if k + 32 ≤ s.clk.blk ∧ s.chState m = stCal then
      (((((s.setF (R.PWR_OFS m) F.PWR_OFS_TRIM trim.toNat).modOut m (fun x => { x with cal := none })).setCh m
        stReady).servoShow m).sinksReady [m.val]).finish id (doneAt k)
    else s)

/-! ### EXT channels (R255, R256) -/

/-- EXT_READY (R255): after 60 blocks of SOFTSTART. -/
def execExtReady (e : Fin 8) (s : State) : Out :=
  .next (if s.chState (8 + e) = stSoftstart ∧ (s.outX (8 + e)).since + 60 ≤ s.clk.blk then s.enterReady (8 + e) else s)

/-- EXT_FAULT (R256): the fault input asserts after its filter. -/
def execExtFault (e : Fin 8) (s : State) : Out :=
  let s1 := ((s.setF (R.EXT_STS e) F.EXT_STS_FLT_NOW 1).setF (R.EXT_STS e) F.EXT_STS_FAULT 1).raiseF 0x080A (0x408 + e.val)
  .next (if armedForTrip (s.chState (8 + e)) then s1.trip (8 + e) else s1)

/-! ### Power limit (R249, R250) -/

/-- The sum of the newest n power means, absent ones as 0. -/
def powerSum (n : Nat) (ps : List Nat) : Nat := (ps.take n).foldl (· + ·) 0

/-- A sum over n blocks in mW lies above a limit in 0.1 W; a limit of 0 is disabled. -/
def overLimit (sum n limit : Nat) : Bool := limit != 0 && decide (limit * 100 * n < sum)

/-- A sum over n blocks lies at least 0.5 dB below a limit: its ratio to the limit, to the 20th power, is at most 1/10. -/
def wellBelow (sum n limit : Nat) : Bool := limit == 0 || decide (10 * sum ^ 20 ≤ (limit * 100 * n) ^ 20)

/-- The power limit of channel m moves for one block, with the power mean `p` in mW (R249, R250). -/
def State.powerBlock (s : State) (m p : Nat) : State :=
  let ps := (p :: (s.outX m).powers).take 360000
  let w := 6000 * min 60 (max 1 (s.fld (R.PWR_LIM_LT m) F.PWR_LIM_LT_WINDOW))
  let sumS := powerSum 600 ps
  let sumL := powerSum w ps
  let limS := s.fld (R.PWR_LIM_ST m) F.PWR_LIM_ST_LIMIT
  let limL := s.fld (R.PWR_LIM_LT m) F.PWR_LIM_LT_LIMIT
  let ex := overLimit sumS 600 limS || overLimit sumL w limL
  let gr := (s.outX m).gr
  let gr1 := if ex then min 2400000 (gr + 30000)
    else if wellBelow sumS 600 limS && wellBelow sumL w limL then
      gr - max 1 (s.fld (R.PWR_LIM_LT m) F.PWR_LIM_LT_RELEASE)
    else gr
  let s := s.modOut m (fun x => { x with powers := ps, gr := gr1 })
  let s := (s.setF (R.PWR_POWER m) F.PWR_POWER_ST (min 0xFFFF (scaleCode sumS 60000))).setF (R.PWR_POWER m) F.PWR_POWER_LT
    (min 0xFFFF (scaleCode sumL (100 * w)))
  let s := (s.setF (R.PWR_LIM_STS m) F.PWR_LIM_STS_ST_OVER (overLimit sumS 600 limS).toNat).setF (R.PWR_LIM_STS m)
    F.PWR_LIM_STS_LT_OVER (overLimit sumL w limL).toNat
  let s := s.setF (R.PWR_LIM_STS m) F.PWR_LIM_STS_GR (scaleCode gr1 6000)
  if gr = 0 ∧ gr1 ≠ 0 then
    (s.setF (R.PWR_STS m) F.PWR_STS_POWER_LIM 1).raiseLimited second3 0x0809 (0x400 + m)
  else s

/-- The power limits of all channels move; a joined pair counts as one with its sum, and a parked channel holds (R243,
R247). `ps` holds the power means of channels 0 to 7 in mW. -/
def State.powerAll (ps : List Nat) : List Nat → State → State
  | [], s => s
  | m :: ms, s =>
    let p := ps.getD m 0 + (if s.paired m then ps.getD (m + 1) 0 else 0)
    State.powerAll ps ms
      (if s.chState m = stFollower ∨ s.chState m = stParked then s else s.powerBlock m p)

/-! ### Parking (R247) -/

/-- READY channels of a list park. -/
def State.park : List Nat → State → State
  | [], s => s
  | c :: cs, s =>
    State.park cs (if s.chState c = stReady ∨ s.chState c = stCal then
      ((s.calEnd c .faulted).setCh c stParked).servoShow c else s)

/-- Parked channels of a list are READY again, without soft-start or load test. -/
def State.unpark : List Nat → State → State
  | [], s => s
  | c :: cs, s =>
    State.unpark cs (if s.chState c = stParked then
      ((s.setCh c stReady).servoShow c).sinksReady [c] else s)

/-! ### Line and headphone outputs (R257 to R259) -/

def State.loPhase (s : State) (j : Nat) : LoPhase := s.outs.lo.getD j .off

def State.setLo (s : State) (j : Nat) (p : LoPhase) : State := s.modOutputs (fun y => { y with lo := y.lo.set j p })

/-- The configuration register of line output j, or of the headphone output (j = 4). -/
def loReg (j : Nat) : Nat := if j < 4 then R.AFE_LO_CFG j else R.AFE_HP_CFG

/-- The sinks of an output. -/
def loSinks (j : Nat) : List Nat := if j < 4 then [16 + j] else [20, 21]

/-- LO_ENABLE (R257, R258): EN in effect starts the ramp of the common mode, up, or down once the sink's gain is zero. -/
def execLoEnable (j : Fin 5) (s : State) : Out :=
  let en := s.on (loReg j) F.AFE_LO_CFG_EN
  .next (match s.loPhase j with
  | .off => if en then s.setLo j (.up s.clk.blk) else s
  | .down _ => if en then s.setLo j (.up s.clk.blk) else s
  | _ => if en then s else (s.setLo j (.down s.clk.blk)).setF (loReg j) F.AFE_LO_CFG_READY 0)

/-- LO_READY (R257): after 300 blocks. -/
def execLoReady (j : Fin 5) (s : State) : Out :=
  .next (match s.loPhase j with
  | .up k =>
    if k + 300 ≤ s.clk.blk then
      State.sinksReady (loSinks j) ((s.setLo j .ready).setF (loReg j) F.AFE_LO_CFG_READY 1)
    else s
  | _ => s)

/-- LO_OVERCURRENT (R257). -/
def execLoOvercurrent (j : Fin 4) (s : State) : Out :=
  .next ((s.setF (R.AFE_LO_CFG j) F.AFE_LO_CFG_OC 1).raiseF 0x0811 (0x410 + j.val))

/-- HP_OVERCURRENT (R258). -/
def execHpOvercurrent (s : State) : Out := .next ((s.setF R.AFE_HP_CFG F.AFE_HP_CFG_OC 1).raiseF 0x0812 0x414)

/-- A class is decided (R259): the event, the level of the sides, and the preset of AUTO_EN. -/
def State.hpClass (s : State) (cls : Nat) : State :=
  let s := s.setF R.AFE_HP_STS F.AFE_HP_STS_CLASS cls
  let s := s.modOutputs (fun x => { x with hpHeld := cls == 1 })
  let s := s.raiseF (0x0814 + cls) 0x414
  if s.on R.AFE_HP_JD_CFG F.AFE_HP_JD_CFG_AUTO_EN then
    match cls with
    | 2 => s.stagePreset (s.fld R.AFE_HP_JD_CFG F.AFE_HP_JD_CFG_PRESET_HP)
    | 3 => s.stagePreset (s.fld R.AFE_HP_JD_CFG F.AFE_HP_JD_CFG_PRESET_LINE)
    | _ => s
  else s

/-- HP_JACK_INSERT (R259): a debounced insertion; without PROBE_EN the class is 2 at once. -/
def execHpJackInsert (s : State) : Out :=
  .next (if s.on R.AFE_HP_JD_CFG F.AFE_HP_JD_CFG_EN && !s.on R.AFE_HP_STS F.AFE_HP_STS_STATE then
    let s1 := (s.setF R.AFE_HP_STS F.AFE_HP_STS_STATE 1).setF R.AFE_HP_STS F.AFE_HP_STS_CHG 1
    if s.on R.AFE_HP_JD_CFG F.AFE_HP_JD_CFG_PROBE_EN then
      (s1.modOutputs (fun y => { y with hpHeld := true })).setF R.AFE_HP_STS F.AFE_HP_STS_PROBING 1
    else s1.hpClass 2
  else s)

/-- The class of two impedances in Ω (R259). -/
def hpClassOf (zl zr : Nat) : Nat :=
  if zl < 4 ∨ zr < 4 then 1 else if zl ≤ 600 ∧ zr ≤ 600 then 2 else 3

/-- HP_PROBE_DONE (R259): the measured impedances of HPL and HPR in Ω. -/
def execHpProbeDone (zl zr : Nat) (s : State) : Out :=
  .next (if s.on R.AFE_HP_STS F.AFE_HP_STS_PROBING then
    (((s.setF R.AFE_HP_STS F.AFE_HP_STS_PROBING 0).setF R.AFE_HP_IMP F.AFE_HP_IMP_ZL (min zl 0xFFFF)).setF R.AFE_HP_IMP
      F.AFE_HP_IMP_ZR (min zr 0xFFFF)).hpClass (hpClassOf zl zr)
  else s)

/-- HP_REMOVED (R259); `ts` is the time of the sample in which the ball first changed (R60). -/
def execHpRemoved (ts : Nat) (s : State) : Out :=
  .next (if s.on R.AFE_HP_JD_CFG F.AFE_HP_JD_CFG_EN && s.on R.AFE_HP_STS F.AFE_HP_STS_STATE then
    let s1 := State.setAll F.AFE_HP_STS_STATE 0 [R.AFE_HP_STS] s
    let s2 := ((s1.setF R.AFE_HP_STS F.AFE_HP_STS_CHG 1).setF R.AFE_HP_STS F.AFE_HP_STS_PROBING 0).setF R.AFE_HP_STS
      F.AFE_HP_STS_CLASS 0
    let s3 := s2.raiseFAt 0x0818 0x414 ts []
    if s.on R.AFE_HP_JD_CFG F.AFE_HP_JD_CFG_AUTO_EN then
      s3.stagePreset (s.fld R.AFE_HP_JD_CFG F.AFE_HP_JD_CFG_PRESET_OUT) else s3
  else s)

/-! ### What register writes run -/

/-- PWR_GLB_CFG.CNT_CLR. -/
def State.pwrCntClr (s : State) : State :=
  State.zeroAll (addrs R.PWR_CNT 8 ++ addrs R.PWR_PEAK 8 ++ addrs R.PWR_LINK_CNT 2) s

/-- PWR_CTL.DIAG_GO (R253): on a channel in OFF. -/
def State.diagGo (s : State) (m : Nat) : State :=
  if s.chState m = stOff then ((s.modOut m (fun x => { x with test := .diag })).setCh m stDiag).injectLoad m else s

/-- PAR written (R243): the second channel of a joined pair is a follower. -/
def State.parWritten : List Nat → State → State
  | [], s => s
  | j :: js, s =>
    let c := 2 * j + 1
    State.parWritten js
      (if s.paired c then (if s.chState c = stOff then s.setCh c stFollower else s)
       else if s.chState c = stFollower then s.setCh c stOff else s)

/-- Every PWR channel is OFF; a follower counts with its pair (R241). -/
def State.allPwrOff (s : State) : Bool := (List.range 8).all (fun m => s.chState m == stOff || s.chState m == stFollower)

/-- Every EXT channel is OFF (R254). -/
def State.allExtOff (s : State) : Bool := (List.range 8).all (fun e => s.chState (8 + e) == stOff)

end Sys2Proof.Machine
end

