-- ==== Sys2Proof/Machine/Tether.lean ====
section
/-!
DEFINITION. Tether (chapter 9): the crosspoint's gains, modes, takeover, priority, the message player, the servo loops.
-/
namespace Sys2Proof.Machine

/-! ### What a sink depends on (R275) -/

/-- A lane reaches a sink: directly, or through an enabled bus input whose gain is not −∞. -/
def State.sinkTakes (s : State) (id : Nat) (p : Nat → Bool) : Bool :=
  let sel := (s.route (.sink id)).cur.sel
  if 128 ≤ sel then p (sel - 128)
  else (List.range 32).any (fun i =>
    let r := (s.route (.input sel i)).cur
    r.en && p r.sel && s.gainLive sel i s.clk.blk)

/-- The sink depends on cluster n (R275). -/
def State.dependsCluster (s : State) (id n : Nat) : Bool := s.sinkTakes id (fun l => l / 16 == n)

/-- The sink depends on a hub stage (R275). -/
def State.dependsStage (s : State) (id : Nat) (g : Stg) : Bool :=
  match g with
  | .lane l => s.sinkTakes id (fun x => x == l.val)
  | .bus b => (s.route (.sink id)).cur.sel == b.val
  | .sink i => i == id

/-- A cluster or stage on which a sink depends is at the DEGRADED level. -/
def State.dependsDown (s : State) (id : Nat) : Bool :=
  (List.range 8).any (fun n => s.on (R.ENG_STS n) F.ENG_STS_DOWN && s.dependsCluster id n)
    || s.err.stages.any (fun p => s.dependsStage id p.1)

/-! ### Gain memory (R262 to R267) -/

def State.node (s : State) (i : Nat) : Option NodeX := (s.tth.nodes.find? (fun p => p.1 == i)).map (·.2)

def State.setNode (s : State) (i : Nat) (x : NodeX) : State := s.modTth (fun y => { y with nodes := putKey y.nodes i x })

/-- The gain in use at a moment: the slope is 1.0, 65,536 units, per 2^k samples (R266). -/
def NodeX.cur (x : NodeX) (rate now3 : Nat) : Int :=
  let step : Int := ((now3 - x.at3) / 31250 * 2 ^ (16 - rate) : Nat)
  if x.start ≤ x.target then min x.target (x.start + step) else max x.target (x.start - step)

def State.nodeCur (s : State) (i : Nat) : Int :=
  match s.node i with
  | none => 0
  | some x => x.cur (s.fld R.TTH_RAMP F.TTH_RAMP_RATE) s.clk.now3

/-- A new target redirects the ramp from the present gain (R266). -/
def State.nodeTo (s : State) (i : Nat) (g : Word) : State := s.setNode i ⟨s.nodeCur i, sgn 18 (g.fld F.TTH_GWIN_DATA_GAIN), s.clk.now3⟩

/-- A run of targets from a node on (TETHER_GAINS). -/
def State.nodesTo : Nat → List Word → State → State
  | _, [], s => s
  | i, g :: gs, s => State.nodesTo (i + 1) gs (s.nodeTo i g)

/-- A change of RATE: every ramp goes on from its present gain. `old` is the rate before. -/
def State.rateWritten (s : State) (old : Nat) : State :=
  s.modTth (fun y => { y with
    nodes := y.nodes.map (fun p => (p.1, { p.2 with start := p.2.cur old s.clk.now3, at3 := s.clk.now3 })) })

/-- The node that TTH_GWIN_ADDR names: set 3 acts as 0, nodes above 383 as 383. -/
def State.gwinIndex (s : State) : Nat :=
  384 * (s.fld R.TTH_GWIN_ADDR F.TTH_GWIN_ADDR_SET % 3) + min 383 (s.fld R.TTH_GWIN_ADDR F.TTH_GWIN_ADDR_NODE)

/-- The address advances after a data access with AUTOINC (R265). -/
def State.gwinNext (s : State) : State :=
  if s.on R.TTH_GWIN_ADDR F.TTH_GWIN_ADDR_AUTOINC then
    let i := (s.gwinIndex + 1) % 1152
    (s.setF R.TTH_GWIN_ADDR F.TTH_GWIN_ADDR_SET (i / 384)).setF R.TTH_GWIN_ADDR F.TTH_GWIN_ADDR_NODE (i % 384)
  else s

/-- A window write of TTH_GWIN_DATA (R265). -/
def State.gwinWrite (s : State) (v : Word) : State := (s.nodeTo s.gwinIndex v).gwinNext

/-- An 18-bit code of a gain. -/
def gain18 (g : Int) : Nat := (BitVec.ofInt 18 g).toNat

/-- TTH_GWIN_DATA, the target of the addressed node, and TTH_GWIN_CUR, its gain in use. -/
def State.gwinData (s : State) : Word :=
  match s.node s.gwinIndex with
  | none => 0
  | some x => BitVec.ofNat 32 (gain18 x.target)

def State.gwinCur (s : State) : Word := BitVec.ofNat 32 (gain18 (s.nodeCur s.gwinIndex))

/-! ### Modes (R270 to R273) -/

/-- A code of FADE, ATTACK or RELEASE in samples. -/
def tthFade (code : Nat) : Nat :=
  match code with
  | 0 => 16
  | 1 => 64
  | 2 => 256
  | _ => 1024

/-- The output is a follower of a joined pair. -/
def State.isFollower (s : State) (o : Nat) : Bool := decide (o < 8) && s.chState o == stFollower

/-- A base mode that the output can take; any other acts as IDLE. -/
def State.modeLegal (s : State) (o m : Nat) : Bool :=
  m == 0 || (decide (o < 22) && (m == 1 || (m == 2 && decide (o < 8) && !s.isFollower o)))

def State.baseMode (s : State) (o : Nat) : Nat :=
  let m := s.fld (R.TTH_OUT_CFG o) F.TTH_OUT_CFG_MODE
  if s.modeLegal o m then m else 0

/-- A cause is latched on the output. -/
def State.caused (s : State) (o : Nat) : Bool :=
  s.fld (R.TTH_OUT_STS o) F.TTH_OUT_STS_CAUSE != 0 || s.on (R.TTH_OUT_STS o) F.TTH_OUT_STS_CAUSE_HOST

/-- The effective mode that the base mode and the overrides give: 3 TAKEOVER, 4 PRIORITY. -/
def State.effOf (s : State) (o : Nat) : Nat :=
  if s.fld (R.TTH_OUT_STS o) F.TTH_OUT_STS_PSRC ≠ 0 then 4 else if s.caused o then 3 else s.baseMode o

def State.eff (s : State) (o : Nat) : Nat := s.fld (R.TTH_OUT_STS o) F.TTH_OUT_STS_EFF

def State.tthOut (s : State) (o : Nat) : TthOut := s.tth.outs.getD o ⟨0, 0⟩

def State.modTthOut (s : State) (o : Nat) (f : TthOut → TthOut) : State :=
  s.modTth (fun y => { y with outs := y.outs.modify o f })

/-- A fade of R271 begins now. -/
def State.fadeOut (s : State) (o samples : Nat) : State := s.modTthOut o (fun x => { x with fadeEnd := s.clk.now3 + 31250 * samples })

/-- A fade of R271 runs (FADING). -/
def State.tthFading (s : State) (o : Nat) : Bool := decide (s.clk.now3 < (s.tthOut o).fadeEnd)

/-- The fade length of a change of effective mode (R271). -/
def State.modeFade (s : State) (o old new : Nat) : Nat :=
  if new = 4 ∧ old ≠ 4 then tthFade (s.fld (R.TTH_OUT_PRIO o) F.TTH_OUT_PRIO_ATTACK)
  else if old = 4 ∧ new ≠ 4 then tthFade (s.fld (R.TTH_OUT_PRIO o) F.TTH_OUT_PRIO_RELEASE)
  else tthFade (s.fld (R.TTH_OUT_CFG o) F.TTH_OUT_CFG_FADE)

/-! ### Transitions of the power mode, and the trigger that leaves QUIET (R137, R419) -/

/-- A transition begins. -/
def State.transBegin (s : State) (new : Mode) (cause : Nat) : State :=
  (s.modPower (fun y => { y with trans := some new, cause := cause, since := s.clk.now3 })).setF R.CLK_MODE_STS
    F.CLK_MODE_STS_TRANS 1

/-- The running transition is over, in a mode. -/
def State.transEnd (s : State) (m : Mode) : State :=
  (s.modPower (fun y => { y with mode := m, trans := none, step := 0 })).setF R.CLK_MODE_STS F.CLK_MODE_STS_TRANS 0
    |>.setF R.CLK_MODE_STS F.CLK_MODE_STS_MODE (if m = Mode.quiet then 1 else 0)

/-- The entry into QUIET is abandoned: the part stays in RUN and the faded sinks fade in (R136). -/
def State.quietAbandon (s : State) : State :=
  if s.power.trans = some .quiet then
    let s := s.transEnd .run
    s.modMp (fun y => { y with quietFade := [], quietAt := none })
  else s

/-- A trigger of R137: in QUIET it requests RUN; during an entry it abandons the entry. -/
def State.quietTrigger (s : State) (cause : Nat) : State :=
  if s.power.mode = .quiet ∧ s.power.trans = none then
    let s := s.transBegin .run cause
    s.modMp (fun y => { y with quietAt := some (s.clk.blk + 1) })
  else s.quietAbandon

/-! ### Changes of effective mode -/

/-- The events of a change of effective mode with their stamp (R274, R280). -/
def State.modeEvents (s : State) (o old new ts : Nat) : State :=
  let src := 0x0C00 + o
  let s := if old = 4 ∧ new ≠ 4 then s.raiseFAt 0x0907 src ts [] else s
  let s := if new = 3 then s.raiseFAt 0x0904 src ts [(s.tthOut o).cause] else s
  if new = 4 then s.raiseFAt 0x0906 src ts [] else s

/-- The effective mode of an output follows its base mode and overrides; a change fades and raises its events, and one out of
IDLE on O0 to O15 is a trigger of R137 (R272). -/
def State.modeShow (s : State) (ts o : Nat) : State :=
  let old := s.eff o
  let new := s.effOf o
  if old = new then s
  else
    let s := (s.setF (R.TTH_OUT_STS o) F.TTH_OUT_STS_EFF new).fadeOut o (s.modeFade o old new)
    let s := s.modeEvents o old new ts
    let s := if o < 16 ∧ old = 0 then s.quietTrigger 2 else s
    if o < 8 then (s.calAbort o).servoShow o else s

/-- The effective modes of a list of outputs follow. -/
def State.modesShow (ts : Nat) : List Nat → State → State
  | [], s => s
  | o :: os, s => State.modesShow ts os (s.modeShow ts o)

/-- The outputs of a mask. -/
def maskOuts (mask : Nat) : List Nat := (List.range 24).filter (fun o => mask.testBit o)

/-- The outputs of a mask that can take a mode other than IDLE: O22 and O23 take none (R261). -/
def modeOuts (mask : Nat) : List Nat := (List.range 22).filter (fun o => mask.testBit o)

/-- The mask of a list of outputs. -/
def outMask (os : List Nat) : Nat := os.foldl (fun m o => m + 2 ^ o) 0

/-- The base mode of one output in effect: a mode that it cannot take acts as IDLE and sets CFG_ERR; a change into SERVO
closes a loop that opened at its clamp (R272, R291). -/
def State.baseModeIn (s : State) (o old : Nat) : State :=
  let m := s.fld (R.TTH_OUT_CFG o) F.TTH_OUT_CFG_MODE
  let s := if s.modeLegal o m then s else s.setF R.TTH_STS F.TTH_STS_CFG_ERR 1
  let s := if m = 2 ∧ old ≠ 2 then s.modTth (fun x => { x with opened := x.opened.set o false }) else s
  if o < 8 then s.servoShow o else s

/-- TTH_OUT_CFG of an output in effect at block k. -/
def State.outCfgCommit (s : State) (o old k : Nat) : State := (s.baseModeIn o old).modeShow (s.stampOf k 0) o

/-- Base modes of a list of outputs by mode command (R272, R273). -/
def State.setModes (m k : Nat) : List Nat → State → State
  | [], s => s
  | o :: os, s =>
    let old := s.fld (R.TTH_OUT_CFG o) F.TTH_OUT_CFG_MODE
    State.setModes m k os ((s.setF (R.TTH_OUT_CFG o) F.TTH_OUT_CFG_MODE m).outCfgCommit o old k)

/-- Every output is IDLE with no cause and no priority source (R294). -/
def State.tthQuiet (s : State) : Bool :=
  (List.range 24).all (fun o => s.eff o == 0 && !s.caused o && s.fld (R.TTH_OUT_STS o) F.TTH_OUT_STS_PSRC == 0)

/-- No output O0 to O15 is in an effective mode other than IDLE (R136, R420). -/
def State.tthIdle16 (s : State) : Bool := (List.range 16).all (fun o => s.eff o == 0)

/-- An output is in TAKEOVER or PRIORITY (R420). -/
def State.tthOverride (s : State) : Bool := (List.range 24).any (fun o => decide (3 ≤ s.eff o))

/-! ### The log, the self-test and the triggers -/

/-- An entry of TTH_TLOG. -/
def State.tlog (s : State) (code mask : Nat) : State :=
  let i := s.fld R.TTH_TLOG_HEAD F.TTH_TLOG_HEAD_NEXT
  let s := s.wr (R.TTH_TLOG_LO i) (BitVec.ofNat 32 s.clk.blk)
  let s := s.wr (R.TTH_TLOG_HI i) (BitVec.ofNat 32 (code * 2 ^ 24 + mask % 2 ^ 24))
  (s.incWrap R.TTH_TLOG_HEAD F.TTH_TLOG_HEAD_NEXT).incWrap R.TTH_TLOG_HEAD F.TTH_TLOG_HEAD_COUNT

/-- A trigger ends a running self-test (R295). -/
def State.testAbort (s : State) : State :=
  match s.tth.test with
  | none => s
  | some (id, _) =>
    let s := s.modTth (fun y => { y with test := none })
    (((s.setF R.TTH_STS F.TTH_STS_BIST_RUN 0).setF R.TTH_CTL F.TTH_CTL_MAINT 0).setF R.TTH_BIST_STS
      F.TTH_BIST_STS_RESULT 3).finishBad id .aborted

/-- The stamp of the next sample boundary. -/
def State.nextSample (s : State) : Nat := s.stampOf s.clk.blk (s.clk.smp + 1)

/-- A transition to LISTEN, SHELF or OFF runs (R279). -/
def State.leaving (s : State) : Bool :=
  match s.power.trans with
  | some .listen | some .shelf | some .off => true
  | _ => false

/-- Bits of CAUSE are set on the outputs of a list. -/
def State.setCause (bit code : Nat) : List Nat → State → State
  | [], s => s
  | o :: os, s =>
    State.setCause bit code os
      ((if bit = 4 then s.setF (R.TTH_OUT_STS o) F.TTH_OUT_STS_CAUSE_HOST 1
        else s.setBit (R.TTH_OUT_STS o) (24 + bit) true).modTthOut o (fun x => { x with cause := code }))

/-- The cause bit is latched on an output. -/
def State.hasCause (s : State) (bit o : Nat) : Bool :=
  if bit = 4 then s.on (R.TTH_OUT_STS o) F.TTH_OUT_STS_CAUSE_HOST else s.bit (R.TTH_OUT_STS o) (24 + bit)

/-- A takeover cause latches on the outputs of a mask that are armed for it; HOST (bit 4) needs no arming (R274). -/
def State.latchCause (s : State) (bit mask ts : Nat) : State :=
  let os := (modeOuts mask).filter (fun o => (bit == 4 || s.bit (R.TTH_OUT_CFG o) (24 + bit)) && !s.hasCause bit o)
  if os.isEmpty then s
  else
    let s := (State.setCause bit (bit + 1) os s.testAbort).tlog (bit + 1) (outMask os)
    let raised := os.filter (fun o => s.eff o == 4)
    State.modesShow ts os (raised.foldl (fun s o => s.fadeOut o (tthFade (s.fld (R.TTH_OUT_CFG o) F.TTH_OUT_CFG_FADE))) s)

/-- Every output. -/
def allOuts : Nat := 0xFFFFFF

/-- A bit of PSRC is set or cleared on the outputs of a list. -/
def State.setPsrc (src : Nat) (b : Bool) : List Nat → State → State
  | [], s => s
  | o :: os, s => State.setPsrc src b os (s.setBit (R.TTH_OUT_STS o) (19 + src) b)

/-- A priority source is set on some output. -/
def State.psrcAny (s : State) (src : Nat) : Bool := (List.range 24).any (fun o => s.bit (R.TTH_OUT_STS o) (19 + src))

/-! ### The message player (R283 to R287) -/

def State.modPlayer (s : State) (f : PlayerX → PlayerX) : State := s.modTth (fun y => { y with player := f y.player })

def State.playState (s : State) : Nat := s.fld R.TTH_PLAY_STS F.TTH_PLAY_STS_STATE

/-- Bytes of the message partition. -/
def State.partBytes (s : State) (a n : Nat) : List Byte := Mem.getMany 0xFF s.tth.part a n

/-- A little-endian number in the message partition. -/
def State.partNat (s : State) (a n : Nat) : Nat := leNat (s.partBytes a n)

/-- The size of the message partition. -/
def partSize : Nat := 0x800000

/-- The directory entry of a message: offset, samples and level; an empty or bad entry gives none (R283). -/
def State.dirEntry (s : State) (j : Nat) : Option (Nat × Nat × Nat) :=
  let a := 0x20000 + 16 * j
  let off := s.partNat a 4
  let n := s.partNat (a + 4) 4
  if crc32 (s.partBytes a 12) = BitVec.ofNat 32 (s.partNat (a + 12) 4) ∧ n ≠ 0
      ∧ off + 256 * ((n + 503) / 504) ≤ partSize then
    some (off, n, s.partNat (a + 8) 2)
  else none

/-- The player starts the next request of its queue; requests for empty messages are skipped and counted (R283, R285). -/
def State.playNext : Nat → State → State
  | 0, s => s
  | n + 1, s =>
    match s.tth.player.queue with
    | [] => (s.setF R.TTH_PLAY_STS F.TTH_PLAY_STS_STATE 0).modPlayer (fun p => { p with now := none, auto := none })
    | q :: qs =>
      match s.dirEntry q.msg with
      | none => State.playNext n ((s.modPlayer (fun p => { p with queue := qs })).incSat R.TTH_PLAY_CNT F.TTH_PLAY_CNT_CRC)
      | some (off, len, lev) =>
        let s := s.modPlayer (fun p => { p with queue := qs, now := some q, left := if q.rep = 0 then none else some q.rep
                                                offset := off, samples := len, level := lev, done := 0, pred := 0, step := 16 })
        ((s.setF R.TTH_PLAY_STS F.TTH_PLAY_STS_STATE 1).setF R.TTH_PLAY_STS F.TTH_PLAY_STS_MSG q.msg).raiseF 0x090A 0x0C21

/-- A request is queued; an idle player starts it at once (R285). -/
def State.playQueue (s : State) (q : PlayReq) : State :=
  let s := s.modPlayer (fun p => { p with queue := p.queue ++ [q] })
  if s.playState = 0 then State.playNext 9 s else s

/-- The player's queue has room for a request. -/
def State.playRoom (s : State) : Bool := decide (s.tth.player.queue.length < 8)

/-- A stop: the queue is emptied and the present message fades out over 5 ms (R285). -/
def State.playStop (s : State) : State :=
  let s := s.modPlayer (fun p => { p with queue := [], auto := none })
  match s.playState with
  | 1 => (s.setF R.TTH_PLAY_STS F.TTH_PLAY_STS_STATE 3).modPlayer (fun p => { p with since := s.clk.now3 })
  | 2 => (s.setF R.TTH_PLAY_STS F.TTH_PLAY_STS_STATE 0).modPlayer (fun p => { p with now := none })
  | _ => s

/-- Auto-play of a source (R286): the queue is emptied and the message plays endlessly. -/
def State.autoPlay (s : State) (src : Nat) : State :=
  let on := if src = 0 then s.on R.TTH_PRIO_AUTO F.TTH_PRIO_AUTO_BALL_PLAY
    else src == 3 && s.on R.TTH_PRIO_AUTO F.TTH_PRIO_AUTO_LSN_PLAY
  if on then
    let msg := s.fld R.TTH_PRIO_AUTO (if src = 0 then F.TTH_PRIO_AUTO_BALL_MSG else F.TTH_PRIO_AUTO_LSN_MSG)
    (s.playStop.playQueue ⟨msg, 0⟩).modPlayer (fun p => { p with auto := some src })
  else s

/-- The message that a source started stops when the source has cleared on every output (R286). -/
def State.autoStop (s : State) (src : Nat) : State :=
  if s.tth.player.auto = some src ∧ s.psrcAny src = false then s.playStop else s

/-! ### Priority (R280 to R282) -/

/-- A priority source is set on the outputs of a mask; outputs that have it stay as they are (R280). -/
def State.prioSet (s : State) (src mask ts : Nat) : State :=
  let os := (modeOuts mask).filter (fun o => !s.bit (R.TTH_OUT_STS o) (19 + src))
  if os.isEmpty then s
  else
    let first := !s.psrcAny src
    let s := (State.setPsrc src true os s.testAbort).tlog (0x11 + src) (outMask os)
    let s := State.modesShow ts os s
    if first then s.autoPlay src else s

/-- A priority source is cleared on the outputs of a mask. -/
def State.prioClear (s : State) (src mask ts : Nat) : State :=
  let os := (maskOuts mask).filter (fun o => s.bit (R.TTH_OUT_STS o) (19 + src))
  if os.isEmpty then s
  else (State.modesShow ts os ((State.setPsrc src false os s).tlog (0x21 + src) (outMask os))).autoStop src

/-- The outputs whose PRIO register sets a bit. -/
def State.prioOuts (s : State) (f : Fld) : Nat :=
  outMask ((List.range 24).filter (fun o => s.on (R.TTH_OUT_PRIO o) f))

/-! ### Mode commands (R273, R278) -/

/-- A mask and code that R273 refuses. -/
def State.modeBad (s : State) (mask code : Nat) : Bool :=
  decide (6 < code) || mask == 0 || (code == 2 && (maskOuts mask).any (fun o => decide (8 ≤ o) || s.isFollower o))
    || (code != 0 && (mask.testBit 22 || mask.testBit 23))

/-- Every cause of the named outputs, but HOST, has ended (R278). -/
def State.causesEnded (s : State) (mask : Nat) : Bool :=
  (maskOuts mask).all (fun o =>
    !((s.hasCause 0 o || s.hasCause 1 o) && s.dependsDown o)
      && !(s.hasCause 2 o && !s.linkUp)
      && !(s.hasCause 3 o && !s.on R.TTH_TKO_CAUSE F.TTH_TKO_CAUSE_HUB_PWR_OK))

/-- Every cause of the named outputs clears, and the takeover of each that had one ends (R278). -/
def State.clearCauses (s : State) (mask ts : Nat) : State :=
  let os := (maskOuts mask).filter s.caused
  let clr (s : State) (o : Nat) : State :=
    (s.setF (R.TTH_OUT_STS o) F.TTH_OUT_STS_CAUSE 0).setF (R.TTH_OUT_STS o) F.TTH_OUT_STS_CAUSE_HOST 0
  let ended (s : State) (o : Nat) : State := s.raiseFAt 0x0905 (0x0C00 + o) ts []
  if os.isEmpty then s else State.modesShow ts os (os.foldl ended ((os.foldl clr s).tlog 0x06 (outMask os)))

/-- A mode command at the commit point of block k: what it does, or the status that refuses it (R273, R278, R295). -/
def State.modeCommand (s : State) (mask code k : Nat) : Status × State :=
  let ts := s.stampOf k 0
  if s.modeBad mask code then (.badParam, s)
  else if code < 3 then
    if s.on R.TTH_CTL F.TTH_CTL_MAINT then (.denied, s) else (.done, State.setModes code k (maskOuts mask) s)
  else
    match code with
    | 3 => (.done, s.latchCause 4 mask ts)
    | 4 => (.done, s.prioSet 2 mask ts)
    | 5 => if s.causesEnded mask then (.done, s.clearCauses mask ts) else (.denied, s)
    | _ => (.done, (s.prioClear 2 mask ts).prioClear 3 mask ts)

/-! ### Voting (R267 to R269) -/

/-- The three words of an output are captured with the block. -/
def State.voteCapture (s : State) (o : Nat) (w : Fin 3 → BitVec 24) : State :=
  (((s.wr (R.TTH_VOTE_CAP o 0) ((w 0).setWidth 32)).wr (R.TTH_VOTE_CAP o 1) ((w 1).setWidth 32)).wr (R.TTH_VOTE_CAP o 2)
    ((w 2).setWidth 32)).wr (R.TTH_VOTE_BLK o) (BitVec.ofNat 32 s.clk.blk)

/-- A three-way disagreement of an output (R268); the self-test suppresses it (R294). -/
def State.tthFault (s : State) (o : Nat) : State :=
  if s.tth.test.isSome then s
  else (((s.setF (R.TTH_OUT_STS o) F.TTH_OUT_STS_FAULT 1).incSat (R.TTH_OUT_CNT o) F.TTH_OUT_CNT_FAULTS).tlog 0x30
    (2 ^ o)).raiseF 0x0903 (0x0C00 + o)

/-- FAULT of an output clears; its word fades in over FADE (R269). -/
def State.tthClrFault (s : State) (o : Nat) : State :=
  if s.on (R.TTH_OUT_STS o) F.TTH_OUT_STS_FAULT then
    (s.setF (R.TTH_OUT_STS o) F.TTH_OUT_STS_FAULT 0).fadeOut o (tthFade (s.fld (R.TTH_OUT_CFG o) F.TTH_OUT_CFG_FADE))
  else s

/-- FAULT of the outputs of a list clears. -/
def State.tthClrFaults : List Nat → State → State
  | [], s => s
  | o :: os, s => State.tthClrFaults os (s.tthClrFault o)

/-! ### Events -/

/-- TETHER_SCRUB (R267) of one node: what the scrubber finds in its three copies. -/
def execTetherScrub (set_ : Fin 3) (node : Fin 384) (f : NodeFind) (s : State) : Out :=
  .next (match f with
  | .good => s
  | .single => s.incSat R.TTH_SCRUB_CNT F.TTH_SCRUB_CNT_SECDED
  | .minority => s.incSat R.TTH_SCRUB_CNT F.TTH_SCRUB_CNT_CORR
  | .uncorrectable => s
  | .threeWay =>
    ((s.setF R.TTH_SCRUB_STS F.TTH_SCRUB_STS_THREEWAY 1).setF R.TTH_SCRUB_STS F.TTH_SCRUB_STS_NODE
      (384 * set_.val + node.val)).tthFault (node.val / 16))

/-- TETHER_VOTE_MASKED (R268): two of three words agree. -/
def execTetherVoteMasked (o : Fin 24) (w0 w1 w2 : BitVec 24) (s : State) : Out :=
  .next (if s.tth.test.isSome then s
  else ((s.incSat (R.TTH_OUT_CNT o) F.TTH_OUT_CNT_MASKED).voteCapture o (fun i => if i = 0 then w0 else if i = 1 then w1
    else w2)).raiseFLimited (500000 * s.fld R.TTH_EVT_CFG F.TTH_EVT_CFG_HOLDOFF) 0x0902 (0x0C00 + o.val))

/-- TETHER_FAULT (R268): the three words differ. -/
def execTetherFault (o : Fin 24) (w0 w1 w2 : BitVec 24) (s : State) : Out :=
  .next (if s.tth.test.isSome then s
  else (s.voteCapture o (fun i => if i = 0 then w0 else if i = 1 then w1 else w2)).tthFault o)

/-- TAKEOVER_REQUEST (R274): the oldest request of H, DEADLINE or MEMORY, arrives on F. -/
def execTakeoverRequest (s : State) : Out :=
  .next (match s.tth.requests with
  | [] => s
  | (code, mask) :: rest =>
    if s.linkUp then
      (s.modTth (fun y => { y with requests := rest })).latchCause (code - 1) mask s.nextSample
    else s)

/-- MESSAGE_FRAME_DECODE (R284): one sample of a code. -/
def decodeStep (acc : Int × Nat × List Int) (c : Nat) : Int × Nat × List Int :=
  let (p, q, out) := acc
  let n := c % 8
  let d : Int := ((2 * n + 1) * q / 2 : Nat)
  let p1 := max (-32768) (min 32767 (if 8 ≤ c then p - d else p + d))
  let f := if n < 4 then 230 else if n = 4 then 307 else if n = 5 then 410 else if n = 6 then 512 else 614
  (p1, max 16 (min 16384 (q * f / 256)), p1 :: out)

/-- The codes of a byte, low nibble first. -/
def nibbles (b : Byte) : List Nat := [b.toNat % 16, b.toNat / 16]

/-- MESSAGE_FRAME_DECODE (R284): the next frame of the message that plays. -/
def execMessageFrameDecode (s : State) : Out :=
  let p := s.tth.player
  .next (if s.playState = 1 ∧ p.done < p.samples then
    let a := p.offset + 256 * (p.done / 504)
    let code := s.partBytes a 252
    let n := min 504 (p.samples - p.done)
    if crc32 code = BitVec.ofNat 32 (s.partNat (a + 252) 4) then
      let (pr, q, out) := ((code.flatMap nibbles).take n).foldl decodeStep (p.pred, p.step, [])
      s.modPlayer (fun x => { x with done := x.done + n, pred := pr, step := q, pcm := out.reverse })
    else
      ((s.modPlayer (fun x => { x with done := x.done + n, pcm := List.replicate n 0 })).incSat R.TTH_PLAY_CNT
        F.TTH_PLAY_CNT_CRC).raiseF 0x090C 0x0C21
  else s)

/-- MESSAGE_END (R285): at SAMPLES. -/
def execMessageEnd (s : State) : Out :=
  let p := s.tth.player
  .next (if s.playState = 1 ∧ p.samples ≤ p.done then
    let last := p.left == some 1
    let s1 := s.modPlayer (fun x => { x with since := s.clk.now3, left := x.left.map (· - 1)
                                             now := if last then none else x.now })
    let s2 := if last then s1.incSat R.TTH_PLAY_CNT F.TTH_PLAY_CNT_DONE else s1
    (s2.setF R.TTH_PLAY_STS F.TTH_PLAY_STS_STATE 2).raiseF 0x090B 0x0C21
  else s)

/-- MESSAGE_GAP_END (R285): after 500 ms, the next repeat or the next request. -/
def execMessageGapEnd (s : State) : Out :=
  let p := s.tth.player
  .next (if s.playState = 2 ∧ p.since + 1500000000 ≤ s.clk.now3 then
    match p.now with
    | some q =>
      (((s.modPlayer (fun x => { x with done := 0, pred := 0, step := 16 })).setF R.TTH_PLAY_STS F.TTH_PLAY_STS_STATE
        1).setF R.TTH_PLAY_STS F.TTH_PLAY_STS_MSG q.msg).raiseF 0x090A 0x0C21
    | none => State.playNext 9 s
  else s)

/-- MESSAGE_STOP_FADE_END (R285): the 5 ms fade of a stop ends; a request that has come meanwhile waits its 500 ms. -/
def execMessageStopFadeEnd (s : State) : Out :=
  let p := s.tth.player
  .next (if s.playState = 3 ∧ p.since + 15000000 ≤ s.clk.now3 then
    ((s.modPlayer (fun x => { x with now := none, since := s.clk.now3 })).setF R.TTH_PLAY_STS F.TTH_PLAY_STS_STATE
      (if p.queue.isEmpty then 0 else 2)).raiseF 0x090B 0x0C21
  else s)

/-- PSAP_LOCK (R289): 16 frames of SAP3's receiver have been measured. -/
def execPsapLock (s : State) : Out :=
  .next (if s.on R.TTH_PSAP_CFG F.TTH_PSAP_CFG_EN && s.on (R.SAP_STS 6) F.SAP_STS_CLK_OK then
    s.setF R.TTH_PSAP_CFG F.TTH_PSAP_CFG_LOCK 1 else s)

/-- SERVO_OPEN (R291): c at the clamp for a whole block. -/
def execServoOpen (m : Fin 8) (s : State) : Out :=
  .next (if s.on (R.TTH_SRV_STS m) F.TTH_SRV_STS_CLOSED then
    let s1 := s.modTth (fun y => { y with opened := y.opened.set m true })
    (((s1.setF (R.TTH_SRV_STS m) F.TTH_SRV_STS_OPENED 1).servoShow m).incSat (R.TTH_SRV_CNT m)
      F.TTH_SRV_CNT_OPENS).raiseF 0x0908 (0x0C00 + m.val)
  else s)

/-- TTH_SRV_CFG.CLOSE (R291). -/
def State.servoClose (s : State) (m : Nat) : State :=
  (s.modTth (fun y => { y with opened := y.opened.set m false })).servoShow m

/-- SELFTEST_DONE (R294): after 48 blocks; `failed` names the outputs that failed. -/
def execSelftestDone (failed : BitVec 24) (s : State) : Out :=
  .next (match s.tth.test with
  | none => s
  | some (id, k) =>
    if k + 48 ≤ s.clk.blk then
      let s1 := s.modTth (fun y => { y with test := none })
      (((s1.setF R.TTH_STS F.TTH_STS_BIST_RUN 0).setF R.TTH_BIST_STS F.TTH_BIST_STS_RESULT
        (if failed = 0 then 1 else 2)).setF R.TTH_BIST_STS F.TTH_BIST_STS_FAILED failed.toNat).finish id (doneAt k)
    else s)

/-! ### What register writes and commands run -/

/-- The self-test begins at its commit point; it needs MAINT (R294). -/
def State.selftestBegin (s : State) (id : DescId) (k : Nat) : State :=
  if s.on R.TTH_CTL F.TTH_CTL_MAINT && s.tth.test.isNone then
    (s.modTth (fun y => { y with test := some (id, k) })).setF R.TTH_STS F.TTH_STS_BIST_RUN 1
  else s.finishBad id .refusedBusy

/-- TTH_CTL.CNT_CLR clears every TTH_ counter. -/
def State.tthCntClr (s : State) : State :=
  State.zeroAll (addrs R.TTH_OUT_CNT 24 ++ addrs R.TTH_SRV_CNT 8 ++ [R.TTH_SCRUB_CNT, R.TTH_PLAY_CNT]) s

/-- TTH_PLAY_CTL.GO (R285). -/
def State.playGo (s : State) (msg rep : Nat) : State :=
  if s.playRoom then s.playQueue ⟨msg, rep⟩ else s.setF R.TTH_STS F.TTH_STS_CFG_ERR 1

/-- A write of TTH_TONE_CFG or TTH_TONE_FREQ starts the pattern at its beginning, at the next sample boundary (R288). -/
def State.toneRestart (s : State) : State :=
  s.modTth (fun y => { y with toneAt := s.time3At s.clk.blk (s.clk.smp + 1) })

/-- TTH_PLAY_Q[q] as the queue gives it. -/
def State.playQReg (s : State) (q : Nat) : Word :=
  match s.tth.player.queue[q]? with
  | none => (0 : Word).setFld F.TTH_PLAY_Q_REPEAT 1
  | some r => (((0 : Word).setFld F.TTH_PLAY_Q_VALID 1).setFld F.TTH_PLAY_Q_REPEAT r.rep).setFld F.TTH_PLAY_Q_MSG r.msg

/-- The main path of every output that does not enter TAKEOVER is muted on loss of the link (R276). -/
def State.mainMute : List Nat → State → State
  | [], s => s
  | o :: os, s =>
    State.mainMute os (if s.caused o then s else s.setF (R.TTH_OUT_STS o) F.TTH_OUT_STS_MAIN_MUTED 1)

/-- What the loss of the link does to Tether (R274, R276, R279). -/
def State.tthLinkLost (s : State) : State :=
  let s := s.setF R.TTH_TKO_CAUSE F.TTH_TKO_CAUSE_LINK_UP 0
  let s := if s.leaving then s else s.latchCause 2 allOuts s.nextSample
  State.mainMute (List.range 24) s

/-- What the return of the link does to Tether (R276). -/
def State.tthLinkBack (s : State) : State :=
  State.setAll F.TTH_OUT_STS_MAIN_MUTED 0 (addrs R.TTH_OUT_STS 24) (s.setF R.TTH_TKO_CAUSE F.TTH_TKO_CAUSE_LINK_UP 1)

end Sys2Proof.Machine
end

