-- ==== Sys2Proof/Machine/Modes.lean ====
section
/-!
DEFINITION. Power modes: QUIET and its entry and return (R136, R137, R247, R419), the mode history and the wake request.
-/
namespace Sys2Proof.Machine

/-- The code of a mode in events and in the history (CLK_HIST_HI). -/
def modeCode : Mode → Nat
  | .run => 0
  | .quiet => 1
  | .listen => 2
  | .shelf => 3
  | .off => 4

/-- The µs since the running transition began. -/
def State.transUs (s : State) : Nat := (s.clk.now3 - s.power.since) / 3000

/-- A finished transition goes to the history (R420). -/
def State.histEntry (s : State) (old new : Mode) (cause : Nat) : State :=
  let i := s.fld R.CLK_HIST_HEAD F.CLK_HIST_HEAD_NEXT
  let hi := ((((0 : Word).setFld F.CLK_HIST_HI_FROM (modeCode old)).setFld F.CLK_HIST_HI_TO (modeCode new)).setFld
    F.CLK_HIST_HI_CAUSE cause).setFld F.CLK_HIST_HI_DUR (min 0xFFFF (s.transUs / 100))
  let s := (s.wr (R.CLK_HIST_LO i) (BitVec.ofNat 32 s.clk.blk)).wr (R.CLK_HIST_HI i) hi
  let s := (s.incWrap R.CLK_HIST_HEAD F.CLK_HIST_HEAD_NEXT).incWrap R.CLK_HIST_HEAD F.CLK_HIST_HEAD_COUNT
  s.wr R.CLK_MODE_TIME (BitVec.ofNat 32 s.transUs)

/-- POWER_MODE_CHANGED (R420). -/
def State.modeChangedEvent (s : State) (old new : Mode) (cause : Nat) : State :=
  s.raise 0x0C04 0x0E00 ([modeCode old, modeCode new, cause, 0, 0, 0, 0, 0] ++ (leBytes 8 s.clk.blk).map (·.toNat))

/-! ### Rails (R410) -/

/-- The crosspoint and the P dies are clocked in a wake (R307). -/
def State.woken (s : State) : Bool := s.power.trans == some .run && s.power.step == 3

/-- Rail i is on in the present mode, in RUN and QUIET and in LISTEN; a microphone supply only where it is enabled. -/
def State.railOn (s : State) (i : Nat) : Bool :=
  let lsn := s.power.mode == .listen
  let mic (f : Fld) : Bool := s.on R.AFE_PDM_CFG f
  if i = 12 then mic F.AFE_PDM_CFG_MICVDD_A_EN && (!lsn || s.on R.AFE_LSN_STS F.AFE_LSN_STS_RUNNING)
  else if i = 13 then mic F.AFE_PDM_CFG_MICVDD_B_EN && !lsn
  else if !lsn then true
  else if i = 2 then s.on R.AFE_LSN_CFG F.AFE_LSN_CFG_KEEP_PLL || s.woken
  else if i = 3 then s.woken
  else if i = 0 ∨ i = 1 ∨ i = 10 ∨ i = 11 ∨ i = 14 then true
  else s.power.hubUp

/-- CLK_RAIL follows the rails that have changed: S enables or removes them. -/
def State.railsShow : List Nat → State → State
  | [], s => s
  | i :: is, s =>
    let on := s.railOn i
    State.railsShow is (if s.on (R.CLK_RAIL i) F.CLK_RAIL_ON == on then s
      else (s.setF (R.CLK_RAIL i) F.CLK_RAIL_ON on.toNat).setF (R.CLK_RAIL i) F.CLK_RAIL_PG on.toNat)

/-! ### QUIET -/

/-- The PWR and EXT sinks, which the entry into QUIET fades. -/
def quietSinks : List Nat := List.range 16

/-- A sink passes signal. -/
def State.sinkPlays (s : State) (id : Nat) : Bool :=
  match (s.sink id).phase with
  | .stopped | .waiting | .starting _ _ => false
  | _ => true

/-- Every PWR and EXT sink is silent (MP_QUIET_STS.SILENT); a stopped sink counts as silent (R136). -/
def State.allSilent (s : State) : Bool :=
  quietSinks.all (fun i => (s.sink i).phase == .stopped || s.bit R.MP_QUIET_STS i)

/-- An entry into QUIET begins: the running PWR and EXT sinks fade to zero over 64 samples (R136, R419). -/
def State.quietBegin (s : State) (cause : Nat) : State :=
  let s := s.transBegin .quiet cause
  s.modMp (fun y => { y with quietFade := quietSinks.filter s.sinkPlays, quietAt := some (s.clk.blk + 1) })

/-- QUIET_REQUEST (R136). -/
def execQuietRequest (s : State) : Out :=
  .next (if s.on R.MP_QUIET_CFG F.MP_QUIET_CFG_EN && s.power.mode == .run && s.power.trans.isNone && s.allSilent
      && s.tthIdle16 then
    s.quietBegin 1 else s)

/-- QUIET_ENTRY_ABANDON (R136): a sample at or above THR, or another trigger, during the entry fade. -/
def execQuietEntryAbandon (s : State) : Out := .next s.quietAbandon

/-- QUIET_ENTERED (R419): the boundary after the 64 samples of the fade, which begins at the next data block. -/
def execQuietEntered (s : State) : Out :=
  .next (match s.mp.quietAt with
  | some k =>
    if s.power.trans = some .quiet ∧ k + 4 ≤ s.clk.blk then
      let s1 := ((State.park (List.range 16) s).transEnd .quiet).setF R.CLK_MODE_STS F.CLK_MODE_STS_OUT_READY 0
      let s2 := (s1.modMp (fun y => { y with quietAt := none })).incSat R.MP_QUIET_STS F.MP_QUIET_STS_COUNT
      ((s2.histEntry .run .quiet s.power.cause).raise 0x0106 0x3FF).modeChangedEvent .run .quiet s.power.cause
    else s
  | none => s)

/-- QUIET_WAKE (R137): by a signal or a Tether output leaving IDLE (cause 2), or by a host command (cause 0). -/
def execQuietWake (host : Bool) (s : State) : Out := .next (s.quietTrigger (if host then 0 else 2))

/-- OUT_READY (R137, R247): 12 blocks after the boundary that follows the trigger. -/
def execOutReady (s : State) : Out :=
  .next (match s.mp.quietAt with
  | some k =>
    if s.power.mode = .quiet ∧ s.power.trans = some .run ∧ k + 12 ≤ s.clk.blk then
      let s1 := (s.transEnd .run).setF R.CLK_MODE_STS F.CLK_MODE_STS_OUT_READY 1
      let s2 := State.resumeAll (List.range 8) (State.unpark (List.range 16) s1)
      let s3 := s2.modMp (fun m => { m with quietAt := none, quietFade := [] })
      ((s3.histEntry .quiet .run s.power.cause).raise 0x0107 0x3FF).modeChangedEvent .quiet .run s.power.cause
    else s
  | none => s)

/-! ### Waking from LISTEN -/

/-- The WAKE_STS code of a cause: 1 alarm tone, 2 glass break, 3 PRIO, 4 GPIO. -/
def wakeSrc (cause : Nat) : Nat := cause - 2

/-- An entry into LISTEN or SHELF that has not removed the rails ends where it stands (R423). -/
def State.entryCancel (s : State) (cause : Nat) : State :=
  match s.power.trans with
  | some .listen =>
    let s1 := (s.transEnd .run).incSat R.CLK_MODE_CNT F.CLK_MODE_CNT_CANCEL
    let s2 := s1.modPower (fun y => { y with reading := true })
    (State.unpark (List.range 8) s2).modeChangedEvent .listen .run cause
  | _ => s

/-- A wake source becomes active (R307, R419, R423): 3 alarm tone, 4 glass break, 5 PRIO, 6 GPIO. -/
def State.wakeRequest (s : State) (cause : Nat) : State :=
  if s.power.mode = .listen ∧ s.power.trans = none then
    let s := s.modPower (fun y => { y with trans := some .run, cause := cause, since := s.clk.now3 })
    s.setF R.CLK_WAKE_STS F.CLK_WAKE_STS_SRC (wakeSrc cause)
  else if s.power.trans = some .listen then s.entryCancel cause
  else s

end Sys2Proof.Machine
end

