-- ==== Sys2Proof/Machine/Listener.lean ====
section
/-!
DEFINITION. Alarm listening and the gather buffer (chapter 10). Frame energies are measured inputs in 0.01 dBFS.
-/
namespace Sys2Proof.Machine

/-- A number brought into a range. -/
def clampNat (lo hi x : Nat) : Nat := min hi (max lo x)

/-- The smallest of a list of energies (a floor); the largest negative code where there is none. -/
def floorOf : List Int → Int
  | [] => 0
  | [e] => e
  | e :: es => min e (floorOf es)

/-! ### Alarm tones (R300, R301) -/

/-- Limits of the segments of a pattern in frames of 10 ms: number of on segments, on and short off, long off. -/
structure AlmPattern where
  ons : Nat
  lo : Nat
  hi : Nat
  longLo : Nat
  longHi : Nat

def temporalThree : AlmPattern := ⟨3, 45, 55, 135, 165⟩

def temporalFour : AlmPattern := ⟨4, 8, 12, 450, 550⟩

/-- The limits of the segment at a position of a cycle: even positions are on, the last one is the long off. -/
def AlmPattern.limits (p : AlmPattern) (pos : Nat) : Nat × Nat :=
  if pos = 2 * p.ons - 1 then (p.longLo, p.longHi) else (p.lo, p.hi)

/-- A segment of `len` frames has ended where the match expects one of its class. -/
def AlmX.segment (p : AlmPattern) (x : AlmX) (on_ : Bool) (len : Nat) : AlmX :=
  let (lo, hi) := p.limits x.pos
  if (x.pos % 2 == 0) == on_ && decide (lo ≤ len) && decide (len ≤ hi) then
    if x.pos = 2 * p.ons - 1 then { x with pos := 0, cyc := x.cyc + 1 } else { x with pos := x.pos + 1 }
  else { x with pos := 0, cyc := 0 }

/-- A frame of a class: a change of class ends the segment before it; a segment past its limit ends the match; a first on
segment sets the pattern start. -/
def AlmX.frame (p : AlmPattern) (x : AlmX) (was on_ : Bool) (len idx ts : Nat) : AlmX :=
  let x := if was == on_ then (if (p.limits x.pos).2 < len + 1 then { x with pos := 0, cyc := 0 } else x)
    else x.segment p was len
  if on_ && was != on_ && x.pos == 0 && x.cyc == 0 then { x with start := idx, startTs := ts } else x

/-- The long off of the deciding cycle reaches its minimum length with this frame. -/
def AlmX.decides (p : AlmPattern) (x : AlmX) (on_ : Bool) (len cycles : Nat) : Bool :=
  !x.held && !on_ && x.pos == 2 * p.ons - 1 && decide (cycles ≤ x.cyc) && len == p.longLo

/-- A match is in progress: segments or cycles matched, or a first on segment that runs. -/
def AlmX.partly (p : AlmPattern) (x : AlmX) (on_ : Bool) (len : Nat) : Bool :=
  x.pos != 0 || x.cyc != 0 || (on_ && decide (len ≤ p.hi))

/-! ### Glass break (R302) -/

/-- One frame of an attempt: goes on, ends, or is decided (the flag). -/
def GlassX.frame (x : GlassX) (e floor shatter decay : Int) : Option GlassX × Bool :=
  match x.stage with
  | .shatter left =>
    if floor + shatter ≤ e then (some { x with stage := .decay e 0 0 }, false)
    else if left = 0 then (none, false)
    else (some { x with stage := .shatter (left - 1) }, false)
  | .decay peak since above =>
    if peak < e then (some { x with stage := .decay e 0 0 }, false)
    else
      let above := if floor + 600 < e ∧ above = since then above + 1 else above
      let since := since + 1
      if e ≤ peak - decay ∧ 4 ≤ above then (none, true)
      else if (above < since ∧ above < 4) ∨ 30 ≤ since then (none, false)
      else (some { x with stage := .decay peak since above }, false)

/-- A frame for every attempt: the ones that go on, and the first that is decided. -/
def glassFrames (e floor shatter decay : Int) : List GlassX → List GlassX × Option GlassX
  | [] => ([], none)
  | x :: xs =>
    let (rest, d) := glassFrames e floor shatter decay xs
    match x.frame e floor shatter decay with
    | (some y, _) => (y :: rest, d)
    | (none, true) => (rest, some x)
    | (none, false) => (rest, d)

/-! ### Decisions (R303) -/

/-- The lane time in ns of a sample: in LISTEN with the PLL stopped it follows from the anchor (R305), else it is given. -/
def State.laneTime (s : State) (idx given : Nat) : Nat :=
  if s.power.mode = .listen ∧ s.on R.AFE_LSN_CFG F.AFE_LSN_CFG_KEEP_PLL = false then
    let err := sgn 20 (s.fld R.AFE_LCLK_CAL F.AFE_LCLK_CAL_ERR)
    let d : Int := ((idx - s.lsn.anchor.1) * 31250 : Nat) * (10000000 + err)
    s.lsn.anchor.2 + (d.toNat + 9999999) / 10000000
  else given

/-- A decision of kind 1 temporal-three, 2 temporal-four or 3 glass break: the log, the event, the wake and priority. -/
def State.decision (s : State) (kind start startTs frames : Nat) : State :=
  let i := s.fld R.AFE_LSN_STS F.AFE_LSN_STS_NEXT
  let hi := (((0 : Word).setFld F.AFE_LSN_LOG_HI_KIND kind).setFld F.AFE_LSN_LOG_HI_IN_LISTEN
    (if s.power.mode = .listen then 1 else 0)).setFld F.AFE_LSN_LOG_HI_DECIDE frames
  let s := ((s.wr (R.AFE_LSN_LOG_LO i) (BitVec.ofNat 32 start)).wr (R.AFE_LSN_LOG_HI i) hi).setF R.AFE_LSN_STS
    F.AFE_LSN_STS_NEXT ((i + 1) % 48)
  let s := s.raiseFAt (if kind = 3 then 0x0A02 else 0x09FF + kind) (if kind = 3 then 0x0B01 else 0x0B00) (startTs - 750000) []
  let s := if s.on R.AFE_LSN_CFG (if kind = 3 then F.AFE_LSN_CFG_PRIO_GB else F.AFE_LSN_CFG_PRIO_ALM) then
    s.prioSet 3 (s.prioOuts F.TTH_OUT_PRIO_LSN_EN) s.nextSample else s
  if s.on R.AFE_LSN_CFG (if kind = 3 then F.AFE_LSN_CFG_WAKE_GB else F.AFE_LSN_CFG_WAKE_ALM) then
    s.wakeRequest (if kind = 3 then 4 else 3) else s

/-- A floor as −dBFS, 0 to 255. -/
def floorCode (e : Int) : Nat := min 255 (scaleCode (-e).toNat 100)

/-- The energies that a frame is judged by: a frame with switch-window samples takes those of the frame before (R299). -/
def State.judged (s : State) (f : FrameMeas) : FrameMeas :=
  if f.sw then
    { f with alm := s.lsn.alm.headD f.alm, low := s.lsn.low.headD f.low, sh := s.lsn.sh.headD f.sh }
  else f

/-- The class of a frame (R300). -/
def State.frameOn (s : State) (f : FrameMeas) (floor : Int) : Bool :=
  if f.sw then s.lsn.on_
  else
    let snr : Int := (100 * clampNat 6 40 (s.fld R.AFE_ALM_THR F.AFE_ALM_THR_SNR) : Nat)
    let minL : Int := (100 * s.fld R.AFE_ALM_THR F.AFE_ALM_THR_MIN_LVL : Nat)
    let tonal : Int := (100 * clampNat 3 30 (s.fld R.AFE_ALM_THR F.AFE_ALM_THR_TONAL) : Nat)
    decide (floor + snr ≤ f.alm) && decide (-minL ≤ f.alm) && decide (tonal ≤ f.tonal)

/-- A frame qualifies as a thud (R302 stage 1). -/
def State.frameThud (s : State) (f : FrameMeas) (floor : Int) : Bool :=
  let thud : Int := (100 * clampNat 6 40 (s.fld R.AFE_GB_THR F.AFE_GB_THR_THUD) : Nat)
  let minL : Int := (100 * s.fld R.AFE_GB_THR F.AFE_GB_THR_MIN_LVL : Nat)
  decide (floor + thud ≤ f.low) && decide (-minL ≤ f.low)

/-- The alarm part of a frame. -/
def State.almFrame (s : State) (on_ : Bool) (idx ts : Nat) : State :=
  let x := s.lsn
  let len := if x.on_ == on_ then x.len + 1 else 1
  let quiet := if on_ then 0 else x.quiet + 1
  let cyc := s.fld R.AFE_LSN_CFG F.AFE_LSN_CFG_CYCLES
  let calm (a : AlmX) : AlmX := if 1000 ≤ quiet then { a with held := false } else a
  let t3 := (calm x.t3).frame temporalThree x.on_ on_ x.len idx ts
  let t4 := (calm x.t4).frame temporalFour x.on_ on_ x.len idx ts
  let d3 := s.on R.AFE_LSN_CFG F.AFE_LSN_CFG_T3_EN && t3.decides temporalThree on_ len cyc
  let d4 := s.on R.AFE_LSN_CFG F.AFE_LSN_CFG_T4_EN && t4.decides temporalFour on_ len cyc
  let s1 := s.modLsn (fun x => { x with
    on_ := on_, len := len, quiet := quiet
    t3 := if d3 then { t3 with held := true } else t3
    t4 := if d4 then { t4 with held := true } else t4 })
  let s2 := s1.setF R.AFE_LSN_STS F.AFE_LSN_STS_ALM_PARTIAL
    ((s.on R.AFE_LSN_CFG F.AFE_LSN_CFG_T3_EN && t3.partly temporalThree on_ len)
      || (s.on R.AFE_LSN_CFG F.AFE_LSN_CFG_T4_EN && t4.partly temporalFour on_ len)).toNat
  let s3 := if d3 then s2.decision 1 t3.start t3.startTs ((idx + 320 - t3.start) / 320) else s2
  if d4 then s3.decision 2 t4.start t4.startTs ((idx + 320 - t4.start) / 320) else s3

/-- The glass part of a frame. -/
def State.glassFrame (s : State) (f : FrameMeas) (lowFloor shFloor : Int) (idx ts : Nat) : State :=
  if s.on R.AFE_LSN_CFG F.AFE_LSN_CFG_GB_EN then
    let sh : Int := (100 * clampNat 6 40 (s.fld R.AFE_GB_THR F.AFE_GB_THR_SHATTER) : Nat)
    let dec : Int := (100 * clampNat 6 40 (s.fld R.AFE_GB_THR F.AFE_GB_THR_DECAY) : Nat)
    let starts := if s.frameThud f lowFloor then [(⟨idx, ts, .shatter 15⟩ : GlassX)] else []
    let (rest, d) := glassFrames f.sh shFloor sh dec (s.lsn.glass ++ starts)
    let s1 := (s.modLsn (fun x => { x with glass := rest })).setF R.AFE_LSN_STS F.AFE_LSN_STS_GB_PARTIAL
      (!rest.isEmpty).toNat
    match d with
    | none => s1
    | some g => s1.decision 3 g.start g.startTs ((idx + 320 - g.start) / 320)
  else (s.modLsn (fun x => { x with glass := [] })).setF R.AFE_LSN_STS F.AFE_LSN_STS_GB_PARTIAL 0

/-- DETECTOR_FRAME (R300 to R303): one frame of 320 samples with its measured energies; alarm before glass. -/
def execDetectorFrame (f : FrameMeas) (s : State) : Out :=
  .next (if s.on R.AFE_LSN_STS F.AFE_LSN_STS_RUNNING then
    let idx := s.lsn.idx / 320 * 320
    let ts := s.laneTime idx f.ts
    let g := s.judged f
    let alm := (f.alm :: s.lsn.alm).take 400
    let low := (f.low :: s.lsn.low).take 400
    let sh := (f.sh :: s.lsn.sh).take 400
    let on_ := s.frameOn g (floorOf alm)
    let s1 := s.modLsn (fun x => { x with alm := alm, low := low, sh := sh, idx := idx + 320 })
    let s2 := (s1.setF R.AFE_LSN_STS F.AFE_LSN_STS_FLOOR_ALM (floorCode (floorOf alm))).setF R.AFE_LSN_STS
      F.AFE_LSN_STS_FLOOR_GB (floorCode (floorOf sh))
    ((s2.wr R.AFE_GTH_IDX (BitVec.ofNat 32 (idx + 320))).almFrame on_ idx ts).glassFrame g (floorOf low) (floorOf sh) idx ts
  else s)

/-- LCLK_CALIBRATE (R297): the measured error in 0.1 ppm, once per second in RUN. -/
def execLclkCalibrate (err : BitVec 20) (s : State) : Out :=
  .next (if s.power.mode = .run then
    (s.setF R.AFE_LCLK_CAL F.AFE_LCLK_CAL_ERR err.toNat).setF R.AFE_LCLK_CAL F.AFE_LCLK_CAL_VALID 1
  else s)

/-- A switch window begins at a sample (R298). -/
def State.switchWindow (s : State) (idx : Nat) (listenPath : Bool) : State :=
  if s.on R.AFE_LSN_STS F.AFE_LSN_STS_RUNNING then
    ((s.modLsn (fun x => { x with windows := idx :: x.windows.take 63 })).setF R.AFE_LSN_STS F.AFE_LSN_STS_SWITCH 1).setF
      R.AFE_LSN_STS F.AFE_LSN_STS_LCLK_PATH listenPath.toNat
  else s

/-! ### The gather buffer and the handover (R308 to R311) -/

/-- The encoder's choice of n: the step nearest |e|, the lower n on a tie. -/
def nearestStep (q e : Nat) : Nat → Nat
  | 0 => 0
  | n + 1 =>
    let best := nearestStep q e n
    let dist (k : Nat) : Nat :=
      let st := (2 * k + 1) * q / 2
      if st ≤ e then e - st else st - e
    if dist (n + 1) < dist best then n + 1 else best

/-- One sample encoded: the predictor, the step and the codes so far, newest first (R308). -/
def encodeStep (acc : Int × Nat × List Nat) (x : Int) : Int × Nat × List Nat :=
  let (p, q, out) := acc
  let e := x - p
  let c := nearestStep q e.natAbs 7 + (if e < 0 then 8 else 0)
  let (p1, q1, _) := decodeStep (p, q, []) c
  (p1, q1, c :: out)

/-- Codes packed two to a byte, low nibble first. -/
def packCodes : List Nat → List Byte
  | [] => []
  | [a] => [BitVec.ofNat 8 a]
  | a :: b :: rest => BitVec.ofNat 8 (a + 16 * b) :: packCodes rest

/-- The samples that a code frame decodes to (R284). -/
def CodeFrame.decode (f : CodeFrame) : List Int := ((f.code.flatMap nibbles).foldl decodeStep (f.p, f.q, [])).2.2.reverse

/-- The oldest unsent samples are lost (R311): the next packet sets GAP. -/
def State.gatherLost (s : State) (upTo : Nat) : State :=
  match s.lsn.handover with
  | some h =>
    if h.next < upTo then
      ((s.modLsn (fun x => { x with handover := some { h with next := upTo, gap := true } })).setF R.AFE_LSN_STS
        F.AFE_LSN_STS_OVERRUN 1).raiseF 0x0A03 0x0B02
    else s
  | none => s

/-- The oldest PCM segment is encoded into the oldest code frame (R308). -/
def State.encodeOldest (s : State) : State :=
  match s.lsn.pcm with
  | [] => s
  | (i, xs) :: rest =>
    let (p, q, out) := xs.foldl encodeStep (s.lsn.p, s.lsn.q, [])
    let f : CodeFrame := ⟨i, s.lsn.p, s.lsn.q, packCodes out.reverse⟩
    let s1 := match s.lsn.frames with
      | [] => s
      | g :: _ => if 96 ≤ s.lsn.frames.length then s.gatherLost (g.idx + 500) else s
    s1.modLsn (fun x => { x with pcm := rest, p := p, q := q
                                 frames := (if 96 ≤ x.frames.length then x.frames.drop 1 else x.frames) ++ [f] })

/-- A packet holds switch-window samples. -/
def State.inWindow (s : State) (i : Nat) : Bool := s.lsn.windows.any (fun w => decide (w < i + 500 ∧ i < w + 64))

/-- The header of a packet (R310). -/
def State.packetHead (s : State) (h : HandoverX) (i fmt : Nat) (p : Int) (q : Nat) : List Byte :=
  let flags := (if i < h.live then 1 else 0) + (if s.inWindow i then 2 else 0) + (if h.gap then 4 else 0)
  leBytes 4 i ++ leBytes 2 500 ++ [BitVec.ofNat 8 fmt, BitVec.ofNat 8 flags] ++ leBytes 2 (BitVec.ofInt 16 p).toNat
    ++ leBytes 2 q ++ [0, 0, 0, 0]

/-- Samples as 16-bit PCM. -/
def pcmBytes (xs : List Int) : List Byte := xs.flatMap (fun x => leBytes 2 (BitVec.ofInt 16 x).toNat)

/-- The packet that begins at the next unsent sample, where the buffer holds it complete. -/
def State.nextPacket (s : State) (h : HandoverX) : Option (List Byte) :=
  match s.lsn.frames.find? (fun f => f.idx == h.next) with
  | some f =>
    if h.fmt = 1 then some (s.packetHead h f.idx 1 f.p f.q ++ f.code)
    else some (s.packetHead h f.idx 0 0 0 ++ pcmBytes f.decode)
  | none =>
    match s.lsn.pcm.find? (fun x => x.1 == h.next) with
    | some (i, xs) => some (s.packetHead h i 0 0 0 ++ pcmBytes xs)
    | none => none

/-- Packets go to the GATHER ring while it has room and the buffer holds the next one (R309). -/
def State.gatherPump : Nat → State → State
  | 0, s => s
  | n + 1, s =>
    match s.lsn.handover with
    | none => s
    | some h =>
      if s.ringRoom 5 && s.linkUp then
        match s.nextPacket h with
        | none => s
        | some bs =>
          State.gatherPump n ((s.ringPost 5 bs).modLsn (fun x => { x with
            handover := some { h with next := h.next + 500, gap := false } }))
      else s

/-- A handover that was asked to stop is over. -/
def State.gatherEnd (s : State) : State :=
  match s.lsn.handover with
  | some h => if h.stop then s.modLsn (fun x => { x with handover := none }) else s
  | none => s

/-- Packets of the whole buffer at most. -/
def gatherMax : Nat := 130

/-- A handover begins: history from the oldest retained sample, then live segments (R309). -/
def State.gatherStart (s : State) (fmt : Nat) : State :=
  if s.lsn.handover.isSome then s
  else
    let newest := match s.lsn.pcm.getLast? with
      | some (i, _) => i + 500
      | none => s.lsn.idx / 500 * 500
    let oldest := match s.lsn.frames, s.lsn.pcm with
      | f :: _, _ => f.idx
      | [], (i, _) :: _ => i
      | [], [] => newest
    State.gatherPump gatherMax (s.modLsn (fun x => { x with handover := some ⟨oldest, newest, fmt, false, false⟩ }))

/-- The handover ends after the segment in progress (R309). -/
def State.gatherStop (s : State) : State :=
  s.modLsn (fun x => { x with handover := x.handover.map (fun h => { h with stop := true }) })

/-- GATHER_SEGMENT_COMPLETE (R308, R309): the 500 samples of the segment, as 16-bit numbers. -/
def execGatherSegmentComplete (xs : List (BitVec 16)) (s : State) : Out :=
  .next (if s.on R.AFE_LSN_STS F.AFE_LSN_STS_RUNNING then
    let i := match s.lsn.pcm.getLast? with
      | some (i, _) => i + 500
      | none => 0
    let s1 := s.modLsn (fun x => { x with pcm := x.pcm ++ [(i, xs.map (·.toInt))], idx := max x.idx (i + 500) })
    let s2 := s1.wr R.AFE_GTH_IDX (BitVec.ofNat 32 s1.lsn.idx)
    let s3 := if 33 ≤ s2.lsn.pcm.length then s2.encodeOldest else s2
    (State.gatherPump gatherMax s3).gatherEnd
  else s)

/-! ### What register writes run -/

/-- AFE_LSN_CFG.EN written: the sample index starts at zero when the listener is enabled (R296, R308). -/
def State.lsnCfgWritten (s : State) (old : Bool) : State :=
  let new := s.on R.AFE_LSN_CFG F.AFE_LSN_CFG_EN
  if new && !old then
    (s.modLsn (fun _ => { LsnX.reset with handover := none })).setF R.AFE_LSN_STS F.AFE_LSN_STS_RUNNING 1 |>.wr R.AFE_GTH_IDX 0
  else if old && !new then
    (s.modLsn (fun x => { x with handover := none })).setF R.AFE_LSN_STS F.AFE_LSN_STS_RUNNING 0
      |>.setF R.AFE_LSN_STS F.AFE_LSN_STS_ALM_PARTIAL 0 |>.setF R.AFE_LSN_STS F.AFE_LSN_STS_GB_PARTIAL 0
  else s

/-- AFE_ALM_BAND written: a band narrower than 200 Hz sets CFG_ERR. -/
def State.almBandWritten (s : State) : State :=
  let lo := clampNat 500 3500 (s.fld R.AFE_ALM_BAND F.AFE_ALM_BAND_F_LO)
  let hi := clampNat 500 3500 (s.fld R.AFE_ALM_BAND F.AFE_ALM_BAND_F_HI)
  if hi < lo + 200 then s.setF R.AFE_LSN_STS F.AFE_LSN_STS_CFG_ERR 1 else s

/-- Entering SHELF or OFF discards matches, the buffer and the log (R304). -/
def State.lsnDiscard (s : State) : State :=
  State.zeroAll (addrs R.AFE_LSN_LOG_LO 48 ++ addrs R.AFE_LSN_LOG_HI 48) (s.modLsn (fun _ => LsnX.reset))

/-- PRIO_BALL_CHANGE (R280, R281): the filtered ball. -/
def execPrioBallChange (active : Bool) (s : State) : Out :=
  .next (if s.on R.TTH_PRIO_BALL F.TTH_PRIO_BALL_EN then
    let s1 := s.setF R.TTH_PRIO_STS F.TTH_PRIO_STS_BALL_LVL active.toNat
    if active then
      let s2 := s1.prioSet 0 (s1.prioOuts F.TTH_OUT_PRIO_BALL_EN) s1.nextSample
      if s2.on R.CLK_WAKE_CFG F.CLK_WAKE_CFG_PRIO_WAKE then s2.wakeRequest 5 else s2
    else s1.prioClear 0 allOuts s1.nextSample
  else s)

end Sys2Proof.Machine
end

