-- ==== Sys2Proof/Machine/Locks.lean ====
section
/-!
DEFINITION. Punty locks (R356 to R361).
-/
namespace Sys2Proof.Machine

/-- The lock states (LCK_STS.STATE). -/
def lockOpen : Nat := 1
def lockCommitting : Nat := 2

def State.lock (s : State) (k : Nat) : Lock := s.locks.getD k ⟨[], false, 0, none⟩

def State.modLock (s : State) (k : Nat) (f : Lock → Lock) : State := s.modLocks (fun y => y.modify k f)

def State.lockHeld (s : State) (k : Nat) : Bool := s.on (R.LCK_STS k) F.LCK_STS_HELD
def State.lockState (s : State) (k : Nat) : Nat := s.fld (R.LCK_STS k) F.LCK_STS_STATE

/-- The lock that an owner holds: its sequence is open (R359). -/
def State.lockOf (s : State) (owner : Nat) : Option Nat :=
  (List.range 32).find? (fun k => s.lockHeld k && s.lockState k == lockOpen && s.fld (R.LCK_STS k) F.LCK_STS_OWNER == owner)

/-- Descriptors and payload bytes that a lock, and the whole staging area, hold. -/
def State.stagedAll (s : State) : Nat := s.locks.foldl (fun t l => t + l.staged.length) 0
def State.stagedBytes (s : State) : Nat := s.locks.foldl (fun t l => t + l.bytes) 0

/-- LCK_STAGED and LCK_STAGE follow the staging area; a part of a unit counts as one. -/
def State.stagedShow (s : State) (k : Nat) : State :=
  let l := s.lock k
  let s := (s.setF (R.LCK_STAGED k) F.LCK_STAGED_DESC l.staged.length).setF (R.LCK_STAGED k) F.LCK_STAGED_DATA
    ((l.bytes + 63) / 64)
  (s.setF R.LCK_STAGE F.LCK_STAGE_DESC s.stagedAll).setF R.LCK_STAGE F.LCK_STAGE_DATA ((s.stagedBytes + 1023) / 1024)

/-- The flight entries of every queue changed. -/
def State.mapFlights (s : State) (f : InFlight → InFlight) : State :=
  s.modHost (fun y => { y with queues := y.queues.map (fun q => { q with flight := q.flight.map f }) })

/-- A lock is free, and its staging area empty. -/
def State.lockFree (s : State) (k : Nat) : State :=
  let s := s.mapFlights (fun f => if f.inLock = some k then { f with inLock := none } else f)
  let s := ((s.setF (R.LCK_STS k) F.LCK_STS_HELD 0).setF (R.LCK_STS k) F.LCK_STS_STATE 0).setBit R.LCK_HELD k false
  ((s.wr (R.LCK_LEASE k) 0).modLock k (fun _ => ⟨[], false, 0, none⟩)).stagedShow k

/-- Descriptors complete ABORTED. -/
def State.abortAll : List DescId → State → State
  | [], s => s
  | i :: is, s => State.abortAll is (s.finishBad i .aborted)

/-- The staged descriptors of a lock complete ABORTED and the lock is free (R359). -/
def State.lockDrop (s : State) (k : Nat) : State :=
  let ids := (s.lock k).staged.map (·.1)
  (State.abortAll ids s).lockFree k

/-- The holder of an open sequence abandons it: 0 owner reset, 1 lease expiry, 2 LCK_OWNER_RST (R360). -/
def State.abandon (s : State) (k cause : Nat) : State :=
  let owner := s.fld (R.LCK_STS k) F.LCK_STS_OWNER
  let s := ((s.lockDrop k).setF (R.LCK_STS k) F.LCK_STS_ABANDONED 1).setBit R.LCK_ABANDONED k true
  let s := (s.incSat (R.LCK_CNT k) F.LCK_CNT_ABANDONS).setPair (R.LCK_REL_BLK_LO k) (R.LCK_REL_BLK_HI k) s.clk.blk
  let s := ((s.setF R.LCK_LAST F.LCK_LAST_CAUSE cause).setF R.LCK_LAST F.LCK_LAST_LOCK k).setF R.LCK_LAST
    F.LCK_LAST_OWNER owner
  s.raise 0x0B04 (0x0A40 + k) [owner, cause]

/-- An owner reset (R356, R360). -/
def State.ownerReset (s : State) (owner cause : Nat) : State :=
  match s.lockOf owner with
  | some k => s.abandon k cause
  | none => s

/-- A lease in thirds of ns. -/
def leaseEnd (now3 ms : Nat) : Option Nat := if ms = 0 then none else some (now3 + ms * 3000000)

/-- The longest lease in ms (R352). -/
def leaseMax : Nat := 60000

/-- LOCK_ACQUIRE by an owner (R357): the status and the state after it. -/
def State.lockAcquire (s : State) (owner k lease : Nat) : Status × State :=
  if 28 ≤ k ∧ owner ≠ 0x10 ∧ ¬(0x20 ≤ owner ∧ owner < 0x30) then (.denied, s)
  else if (s.lockOf owner).isSome then (.denied, s)
  else if s.lockHeld k then (.refusedBusy, s.incWrap R.LCK_REFUSED F.LCK_REFUSED_COUNT)
  else
    let was := s.on (R.LCK_STS k) F.LCK_STS_ABANDONED
    let s := ((s.setF (R.LCK_STS k) F.LCK_STS_HELD 1).setF (R.LCK_STS k) F.LCK_STS_OWNER owner).setF (R.LCK_STS k)
      F.LCK_STS_STATE lockOpen
    let s := ((s.setF (R.LCK_STS k) F.LCK_STS_ABANDONED 0).setBit R.LCK_ABANDONED k false).setBit R.LCK_HELD k true
    let s := (s.setF (R.LCK_LEASE k) F.LCK_LEASE_LEASE lease).setPair (R.LCK_ACQ_BLK_LO k) (R.LCK_ACQ_BLK_HI k) s.clk.blk
    (if was then .lockAbandoned else .done, s.modLock k (fun _ => ⟨[], false, 0, leaseEnd s.clk.now3 lease⟩))

/-- The lease of a lock has reached its instant (R361). -/
def State.leaseOver (s : State) (k : Nat) : Bool :=
  match (s.lock k).expires with
  | some t => s.lockHeld k && s.lockState k == lockOpen && decide (t ≤ s.clk.now3)
  | none => false

/-- Every lease that has reached its instant is abandoned; the part decides so before it reads a descriptor (R361). -/
def State.leases : List Nat → State → State
  | [], s => s
  | k :: ks, s => State.leases ks (if s.leaseOver k then s.abandon k 1 else s)

/-- LEASE_EXPIRY (R360). -/
def execLeaseExpiry (k : Fin 32) (s : State) : Out := .next (if s.leaseOver k then s.abandon k 1 else s)

/-- The descriptors and bytes that one sequence, and the staging area, take at most (R358). -/
def seqMax : Nat := 256
def seqBytes : Nat := 262144
def stageMax : Nat := 2048
def stageBytes : Nat := 1048576

/-- A chained descriptor that fails: its status is fixed and the sequence will not commit (R358, R359). -/
def State.chainFail (s : State) (k : Nat) (id : DescId) (st : Status) : State :=
  ((s.finishBad id st).modLock k (fun l => { l with failed := true })).modQueue id.org (fun q =>
    { q with flight := q.flight.map (fun f => if f.ord = id.ord then { f with inLock := some k } else f) })

/-- A chained descriptor that passed its checks is staged in the open sequence of its owner (R358). -/
def State.chainStage (s : State) (k : Nat) (id : DescId) (act : Act) (len : Nat) : State :=
  let l := s.lock k
  if seqMax ≤ l.staged.length ∨ seqBytes < l.bytes + len ∨ stageMax ≤ s.stagedAll ∨ stageBytes < s.stagedBytes + len then
    (s.chainFail k id .refusedBusy).setF R.LCK_GLB_STS F.LCK_GLB_STS_STAGE_FULL 1
  else (s.modLock k (fun l => { l with staged := l.staged ++ [(id, act)], bytes := l.bytes + len })).stagedShow k

/-- The flight entry of a descriptor takes the mark of a committing sequence, and its wanted block. -/
def State.markChained (s : State) (id : DescId) (want : Option Nat) : State :=
  s.modQueue id.org (fun q => { q with flight := q.flight.map (fun f =>
    if f.ord = id.ord then { f with chained := true, want := want } else f) })

/-- The descriptors of a sequence are staged for one block (R39, R359). -/
def State.commitAll (eff k : Nat) (want : Option Nat) : List (DescId × Act) → State → State
  | [], s => s
  | (id, act) :: rest, s =>
    State.commitAll eff k want rest ((s.markChained id want).stageAct ⟨some id, eff, originRank id.org, some k, act⟩)

/-- LOCK_RELEASE of lock k by its holder (R359), with the AT_BLOCK index where there is one. -/
def State.lockRelease (s : State) (id : DescId) (k : Nat) (want : Option Nat) : State :=
  let l := s.lock k
  if l.failed then ((s.lockDrop k).incWrap R.LCK_FAILED F.LCK_FAILED_COUNT).finishBad id .badParam
  else
    let eff := max (want.getD 0) (s.openFor (l.staged.map (·.2)))
    let s := (s.setF (R.LCK_STS k) F.LCK_STS_STATE lockCommitting).modLock k (fun l => { l with expires := none })
    let s := State.commitAll eff k want l.staged s
    (s.markChained id want).stageAct ⟨some id, eff, originRank id.org, some k, .lockRelease k⟩

/-- The commit point of a released sequence frees its lock (R359). -/
def State.lockCommitted (s : State) (id : Option DescId) (k eff : Nat) : State :=
  let s := ((s.lockFree k).incSat (R.LCK_CNT k) F.LCK_CNT_COMMITS).incWrap R.LCK_COMMITS F.LCK_COMMITS_COUNT
  (s.setPair (R.LCK_REL_BLK_LO k) (R.LCK_REL_BLK_HI k) eff).finishOpt id (doneAt eff)

/-- LOCK_DISCARD (R359). -/
def State.lockDiscard (s : State) (k : Nat) : State := s.lockDrop k

/-- LOCK_RENEW (R361). -/
def State.lockRenew (s : State) (k lease : Nat) : State :=
  (s.setF (R.LCK_LEASE k) F.LCK_LEASE_LEASE lease).modLock k (fun l => { l with expires := leaseEnd s.clk.now3 lease })

/-- LCK_LEASE as read: the ms left, a part of one counted as `roundUp` says. -/
def State.leaseShown (s : State) (k : Nat) : Word :=
  let w := s.rd (R.LCK_LEASE k)
  match (s.lock k).expires with
  | some t =>
    let d := t - s.clk.now3
    w.setFld F.LCK_LEASE_REMAIN (d / 3000000 + (if d % 3000000 = 0 then 0 else (Config.roundUp d 3000000).toNat))
  | none => w.setFld F.LCK_LEASE_REMAIN 0

/-- The lock registers' counters (LCK_GLB_CTL.CNT_CLR). -/
def State.lckCntClr (s : State) : State :=
  State.zeroAll (addrs R.LCK_CNT 32 ++ [R.LCK_COMMITS, R.LCK_REFUSED, R.LCK_FAILED]) s

/-- A W1C write of an ABANDONED bit in one of its two places clears it in both. -/
def State.abandonClear (s : State) (k : Nat) : State :=
  (s.setF (R.LCK_STS k) F.LCK_STS_ABANDONED 0).setBit R.LCK_ABANDONED k false

end Sys2Proof.Machine
end

