-- ==== Sys2Proof/Machine/Host.lean ====
section
/-!
DEFINITION. The host interface but for its commands: protection (R416), rings, doorbells, the status block, interrupts,
host streams, and how rings are disabled (R332, R335 to R345, R354, R355).
-/
namespace Sys2Proof.Machine

/-! ### Protection (R415, R416) -/

/-- The hub is sealed. -/
def State.isSealed (s : State) : Bool := s.on R.CLK_BOOTSEAL F.CLK_BOOTSEAL_SEAL

/-- The 1 KiB page of an address (R433). -/
def pageOf (a : Nat) : Nat := a / 1024 % 128

/-- An agent may read, or write, the page of an address; before the seal the window answers only agent 13. -/
def State.mayRead (s : State) (ag a : Nat) : Bool :=
  if s.isSealed then s.bit (R.PROT_RD ag (pageOf a / 32)) (pageOf a % 32) else ag == 13
def State.mayWrite (s : State) (ag a : Nat) : Bool :=
  if s.isSealed then s.bit (R.PROT_WR ag (pageOf a / 32)) (pageOf a % 32) else ag == 13

/-- A refusal is reported (R416): kind 0 read, 1 write, 2 RWB after the seal. -/
def State.protViolation (s : State) (ag kind a : Nat) : State :=
  let s := ((s.incSat R.CLK_PROT_VIOL F.CLK_PROT_VIOL_COUNT).setF R.CLK_PROT_VIOL F.CLK_PROT_VIOL_AGENT ag).setF
    R.CLK_PROT_VIOL F.CLK_PROT_VIOL_KIND kind
  (s.wr R.CLK_PROT_ADDR (BitVec.ofNat 32 a)).raiseLimited second3 0x0C03 0x0E00
    ([ag, kind, 0, 0] ++ (leBytes 4 a).map (·.toNat))

/-! ### Rings (R335, R336) -/

def State.ringX (s : State) (r : Nat) : RingX := s.host.rings.getD r RingX.reset

def State.modRing (s : State) (r : Nat) (f : RingX → RingX) : State :=
  s.modHost (fun y => { y with rings := y.rings.modify r f })

/-- Rings whose entries the host writes. -/
def hostProduced (r : Nat) : Bool := r == 0 || r == 3 || (decide (10 ≤ r) && decide (r ≤ 13))

/-- The queue that a descriptor ring feeds. -/
def ringOrigin (r : Nat) : Option Origin := if r = 0 then some .cmd else if r = 3 then some .mcmd else none

def State.ringEn (s : State) (r : Nat) : Bool := s.on (R.HIF_RING_CTL r) F.HIF_RING_CTL_EN

/-- Channels of a stream ring. -/
def State.chanCount (s : State) (r : Nat) : Nat :=
  max 1 (min 64 (s.fld (R.HIF_RING_CHAN r) F.HIF_RING_CHAN_COUNT))
def State.chanFirst (s : State) (r : Nat) : Nat := s.fld (R.HIF_RING_CHAN r) F.HIF_RING_CHAN_FIRST

/-- The smallest entry of a stream ring (R341, R343). -/
def State.streamNeed (s : State) (r : Nat) : Nat :=
  if r < 6 ∨ 13 < r then 0 else if 10 ≤ r then 16 + 64 * s.chanCount r else 16 + 72 * s.chanCount r

/-- The window bytes of a ring: first and first after. -/
def State.ringSpan (s : State) (r : Nat) : Nat × Nat := (s.ringBase r, s.ringBase r + s.ringSize r * s.ringEsize r)

/-- The status block is enabled, lies in the window, and its address. -/
def State.sbOn (s : State) : Bool := s.on R.HIF_SB_LO F.HIF_SB_LO_EN
def State.sbLocal (s : State) : Bool := s.on R.HIF_SB_LO F.HIF_SB_LO_LOCAL
def State.sbAddr (s : State) : Nat := s.fld R.HIF_SB_LO F.HIF_SB_LO_ADDR * 64 + (s.rd R.HIF_SB_HI).toNat * 2 ^ 32

/-- Two spans share a byte. -/
def overlap (a b : Nat × Nat) : Bool := decide (a.1 < b.2) && decide (b.1 < a.2)

/-- A local ring fits the window and overlaps nothing enabled there (R336). -/
def State.localOk (s : State) (r : Nat) : Bool :=
  decide (s.ringBase r % 64 = 0) && decide ((s.ringSpan r).2 ≤ 65536)
    && (List.range 15).all (fun q => q == r || !(s.ringEn q && s.ringLocal q && overlap (s.ringSpan r) (s.ringSpan q)))
    && !(s.sbOn && s.sbLocal && overlap (s.ringSpan r) (s.sbAddr, s.sbAddr + 64))

/-- The part accepts the enable of a ring (R336). -/
def State.enableOk (s : State) (r : Nat) : Bool :=
  decide (r < 15) && (if s.ringLocal r then s.localOk r else decide (s.ringBase r % 4096 = 0))
    && decide (s.streamNeed r ≤ s.ringEsize r)
    && !(decide (10 ≤ r ∧ r ≤ 13) && decide (64 < s.chanFirst r + s.chanCount r))
    && !(decide (6 ≤ r ∧ r ≤ 9) && decide (128 < s.chanFirst r + s.chanCount r))
    && !(r == 0 && !s.ringEn 1) && !(r == 3 && !s.ringEn 4)

def State.ringErr (s : State) (r : Nat) : State := s.setF (R.HIF_RING_STS r) F.HIF_RING_STS_CFG_ERR 1

def State.ringTo (s : State) (r st : Nat) : State := s.setF (R.HIF_RING_STS r) F.HIF_RING_STS_STATE st

/-- Setting EN (R336). -/
def State.ringEnable (s : State) (r : Nat) : State :=
  if s.ringState r ≠ ringDisabled then s
  else if !s.enableOk r then (s.ringErr r).setF (R.HIF_RING_CTL r) F.HIF_RING_CTL_EN 0
  else
    let s := (((s.ringTo r ringRunning).wr (R.HIF_RING_IDX r) 0).ringFull r).modRing r (fun x =>
      { RingX.reset with door := x.door })
    let s := match ringOrigin r with
      | some o => s.modQueue o (fun q => { q with base := q.nextOrd })
      | none => s
    if r = 2 then s.pumpAll else s

/-- A ring is DISABLED; it carries no stream. -/
def State.ringOff (s : State) (r : Nat) : State :=
  (s.ringTo r ringDisabled).modRing r (fun x => { RingX.reset with door := x.door })

/-! ### Disabling a ring (R354) -/

/-- A released sequence, or a lone change, can still be taken back: its cutoff has not passed. -/
def State.takeBack (s : State) (c : Staged) : Bool :=
  match c.lock with
  | some k => decide (s.openFor ((s.stage.changes.filter (fun d => d.lock == some k)).map (·.act)) ≤ c.eff)
  | none => decide (s.openFor [c.act] ≤ c.eff)

/-- The change belongs to a descriptor of an origin. -/
def ofOrigin (o : Origin) (id : Option DescId) : Bool :=
  match id with
  | some i => decide (i.org = o)
  | none => false

/-- Staged changes of an origin whose cutoff has not passed are removed and complete ABORTED; a released sequence among them
frees its lock without abandonment. -/
def State.cancelStaged (s : State) (o : Origin) : State :=
  let gone := s.stage.changes.filter (fun c => ofOrigin o c.id && s.takeBack c)
  let keep := s.stage.changes.filter (fun c => !(ofOrigin o c.id && s.takeBack c))
  let s := s.modStage (fun y => { y with changes := keep })
  let s := State.abortAll (gone.filterMap (·.id)) s
  gone.foldl (fun s c => match c.act with
    | .lockRelease k => s.lockFree k
    | _ => s) s

/-- Swap requests of an origin that wait behind a fade are removed. -/
def State.cancelSwaps (o : Origin) : List Nat → State → State
  | [], s => s
  | c :: cs, s =>
    State.cancelSwaps o cs (match (s.chan c).queued with
    | some q => if ofOrigin o q.id then (State.abortAll q.id.toList s).clearQueued c else s
    | none => s)

/-- Route requests of an origin that wait behind a fade or a stop are removed. -/
def State.cancelRoutes (s : State) (o : Origin) : State :=
  let waits (q : Option RouteReq) : Bool := match q with
    | some r => ofOrigin o r.id
    | none => false
  let ids := (s.mp.routes.filterMap (fun p => if waits p.2.queued then p.2.queued.bind (·.id) else none))
    ++ s.mp.sinks.filterMap (fun p => if waits p.2.held then p.2.held.bind (·.id) else none)
  let muxes := s.mp.routes.filterMap (fun p => if waits p.2.queued then some p.1 else none)
  let s := State.abortAll ids s
  muxes.foldl State.routeShow (s.modMp (fun y => { y with
    routes := y.routes.map (fun p => (p.1, if waits p.2.queued then { p.2 with queued := none } else p.2))
    sinks := y.sinks.map (fun p => (p.1, if waits p.2.held then { p.2 with held := none } else p.2)) }))

/-- A descriptor takes the next number of its origin (R347). -/
def State.newFlight (s : State) (o : Origin) (op tag : Nat) (noCpl : Bool) : DescId × State :=
  let n := (s.queue o).nextOrd
  (⟨o, n⟩, s.modQueue o (fun q => { q with
    nextOrd := n + 1
    flight := q.flight ++ [⟨n, n - q.base, op, tag, noCpl, true, none, false, false, none, none⟩] }))

/-- Descriptors that were not read complete ABORTED; a tag that neither the window nor the host's memory supplied is free. -/
def State.abortUnread (o : Origin) (r : Nat) : Nat → List Nat → State → State
  | 0, _, s => s
  | n + 1, tags, s =>
    let (tag, s) : Nat × State :=
      if s.ringLocal r then (leNat (Mem.getMany 0 s.window (s.ringAddr r (s.ringHead r) + 2) 2), s)
      else match tags with
        | t :: _ => (t % 65536, s)
        | [] => let (v, s) := s.fresh 16; (v.toNat, s)
    let s := s.setF (R.HIF_RING_IDX r) F.HIF_RING_IDX_HEAD ((s.ringHead r + 1) % 65536)
    let (id, s) := s.newFlight o 0 tag false
    State.abortUnread o r n (tags.drop 1) (s.finishBad id .aborted)

/-- What ABORT does to the descriptors of an origin at the clearing write (R354). -/
def State.abortOrigin (s : State) (o : Origin) : State :=
  let s := ((State.cancelSwaps o (List.range 16) (s.cancelStaged o)).cancelRoutes o)
  match originOwner o with
  | some w => s.ownerReset w 0
  | none => s

/-- Every accepted descriptor of a ring has been read and has its completion, but for those that an open sequence of the
owner holds. -/
def State.drained (s : State) (r : Nat) (o : Origin) : Bool :=
  let held := match originOwner o with
    | some w => (match s.lockOf w with
      | some k => (s.lock k).staged.map (fun (p : DescId × Act) => p.1.ord)
      | none => [])
    | none => []
  decide (s.ringHead r = (s.ringX r).accepted) && (s.queue o).flight.all (fun f => f.cpl.isSome || held.contains f.ord)

/-- A drained ring takes its owner reset and is DISABLED (R354, R356). -/
def State.drainDone (s : State) (r : Nat) (o : Origin) : State :=
  let s := match originOwner o with
    | some w => s.ownerReset w 0
    | none => s
  s.ringOff r

/-- RING_DRAIN_DONE (R354). -/
def execRingDrainDone (r : Fin 16) (s : State) : Out :=
  .next (if s.ringState r ≠ ringDraining then s
  else
    match ringOrigin r with
    | some o => if s.drained r o then s.drainDone r o else s
    | none => if (s.ringX r).entries.isEmpty && (s.ringX r).ready.isEmpty then s.ringOff r else s)

/-- Clearing EN (R354): `tags` are the tags of descriptors in host memory that were not read. A ring in ERROR can carry out
nothing more, so it ends as ABORT gives. -/
def State.ringDisable (s : State) (r : Nat) (abort : Bool) (tags : List Nat) : State :=
  if s.ringState r = ringDisabled ∨ s.ringState r = ringDraining then s
  else if !hostProduced r then s.ringOff r
  else
    match ringOrigin r with
    | none =>
      if abort then s.ringOff r else (s.ringTo r ringDraining).modRing r (fun x => { x with accepted := s.ringTail r })
    | some o =>
      if abort || s.ringState r == ringError then
        let s := State.abortUnread o r (s.ringHolds r) tags s
        let s := (s.abortOrigin o).modRing r (fun x => { x with accepted := s.ringHead r })
        let s := s.ringTo r ringDraining
        if (s.queue o).flight.all (fun f => f.cpl.isSome) then s.ringOff r else s
      else
        let s := (s.ringTo r ringDraining).modRing r (fun x => { x with accepted := s.ringTail r })
        if s.drained r o then s.drainDone r o else s

/-- A write that clears EN of a completion ring whose command ring is enabled is dropped (R336). -/
def State.disableOk (s : State) (r : Nat) : Bool := !(r == 1 && s.ringEn 0) && !(r == 4 && s.ringEn 3)

/-! ### Function-level reset and loss of PCIe (R355) -/

/-- The rings in host memory end as ABORT gives, and post nothing. -/
def State.dropHostRings : List Nat → State → State
  | [], s => s
  | r :: rs, s =>
    State.dropHostRings rs (if s.ringLocal r || s.ringState r == ringDisabled then s
    else
      let s := match ringOrigin r with
        | some o =>
          let unread := s.ringHolds r
          let s := s.abortOrigin o
          let n := (s.queue o).flight.length + unread
          (s.modQueue o (fun q => { q with flight := [], nextOrd := q.nextOrd + unread })).addSat R.HIF_DESC_CNT
            F.HIF_DESC_CNT_LOST n
        | none => s
      (s.ringOff r).setF (R.HIF_RING_CTL r) F.HIF_RING_CTL_EN 0)

/-- The status block in host memory is disabled, and the part writes nothing to host memory. -/
def State.dropHostMemory (s : State) : State :=
  let s := State.dropHostRings (List.range 15) s
  let s := if s.sbLocal then s else s.setF R.HIF_SB_LO F.HIF_SB_LO_EN 0
  (s.setF R.HIF_PCIE_STS F.HIF_PCIE_STS_BME 0).setF R.HIF_PCIE_STS F.HIF_PCIE_STS_MSIX_EN 0

/-- FUNCTION_LEVEL_RESET (R355): the FLR is also the owner reset of owner 0x00 (R356). -/
def execFunctionLevelReset (s : State) : Out :=
  .next (if s.power.hubUp then (s.dropHostMemory.ownerReset 0 0).setF R.HIF_PCIE_STS F.HIF_PCIE_STS_FLR 1 else s)

/-- PCIE_LINK_DOWN (R355). -/
def execPcieLinkDown (s : State) : Out :=
  .next (if s.on R.HIF_PCIE_STS F.HIF_PCIE_STS_LINK then
    (s.dropHostMemory.setF R.HIF_PCIE_STS F.HIF_PCIE_STS_LINK 0).incSat R.HIF_PCIE_ERR F.HIF_PCIE_ERR_LINK_DOWN
  else s)

/-- An MSI-X message goes out, or is pending where the host masks it. -/
def State.msix (s : State) (v : Nat) : State :=
  if !s.on R.HIF_PCIE_STS F.HIF_PCIE_STS_MSIX_EN || !s.on R.HIF_PCIE_STS F.HIF_PCIE_STS_BME then s
  else if s.host.msixFnMask || s.host.msixMask.testBit v then
    s.modHost (fun y => { y with msixPend := y.msixPend ||| 2 ^ v })
  else s.emit (.msix v)

/-- PCIE_LINK_UP (R411): the link is up, and the host's settings of bus mastering, MSI-X and its masks, which PCIe defines. -/
def execPcieLinkUp (bme msix fmask : Bool) (vmask : BitVec 16) (s : State) : Out :=
  .next (if s.isSealed then
    let s := ((s.setF R.HIF_PCIE_STS F.HIF_PCIE_STS_LINK 1).setF R.HIF_PCIE_STS F.HIF_PCIE_STS_BME bme.toNat).setF
      R.HIF_PCIE_STS F.HIF_PCIE_STS_MSIX_EN msix.toNat
    let pend := s.host.msixPend
    let s := s.modHost (fun y => { y with msixFnMask := fmask, msixMask := vmask.toNat, msixPend := 0 })
    ((List.range 16).filter (fun v => pend.testBit v)).foldl (fun s v => s.msix v) s
  else s)

/-! ### The status block and interrupts (R339, R340) -/

/-- The index of a ring in the status block: the part's own. -/
def State.ringIndex (s : State) (r : Nat) : Nat := if hostProduced r then s.ringHead r else s.ringTail r

/-- The bits of a mask of numbers below n that a test accepts. -/
def maskOf (n : Nat) (p : Nat → Bool) : Nat := ((List.range n).filter p).foldl (fun m i => m + 2 ^ i) 0

/-- A status block is written (R339). -/
def State.statusBlock (s : State) : State :=
  if !s.sbOn || s.host.sbDead then s
  else
    let s := s.incWrap R.HIF_SB_SEQ F.HIF_SB_SEQ_SEQ
    let errs := maskOf 16 (fun r => (s.rd (R.HIF_RING_STS r)).fld ⟨0, 4⟩ != 0)
    let fired := maskOf 16 (fun v => !s.on (R.HIF_VEC_STS v) F.HIF_VEC_STS_ARMED)
    let bs := leBytes 4 (s.rd R.HIF_SB_SEQ).toNat ++ leBytes 4 s.col.nextSeq ++ leBytes 8 s.clk.blk
      ++ (List.range 16).flatMap (fun r => leBytes 2 (s.ringIndex r)) ++ leBytes 4 errs ++ leBytes 4 fired
      ++ leBytes 8 s.nowNs
    (s.putBytes s.sbLocal s.sbAddr bs).modHost (fun h => { h with idxChanged := false })

/-- Entries that make an armed vector fire. -/
def State.vecMax (s : State) (v : Nat) : Nat := max 1 (s.fld (R.HIF_VEC_CFG v) F.HIF_VEC_CFG_MAX_CNT)

/-- A vector is due (R340). -/
def State.vecDue (s : State) (v : Nat) : Bool :=
  s.on (R.HIF_VEC_STS v) F.HIF_VEC_STS_ARMED && (match (s.host.vecs.getD v ⟨none⟩).firstAt with
    | some t => decide (s.vecMax v ≤ s.fld (R.HIF_VEC_STS v) F.HIF_VEC_STS_COUNT)
      || decide (t + 3000 * s.fld (R.HIF_VEC_CFG v) F.HIF_VEC_CFG_MAX_TIME ≤ s.clk.now3)
    | none => false)

/-- ALERT_N follows the vectors that fired with ALERT_EN. -/
def State.alertShow (s : State) : State :=
  s.setF R.HIF_ALERT F.HIF_ALERT_LEVEL (if s.fld R.HIF_ALERT F.HIF_ALERT_FIRED = 0 then 0 else 1)

/-- VECTOR_FIRE (R340). -/
def execVectorFire (k : Fin 16) (s : State) : Out :=
  .next (if s.vecDue k then
    let s := s.statusBlock.msix k
    let s := s.modHost (fun y => { y with vecs := y.vecs.set k ⟨none⟩ })
    let s := ((s.setF (R.HIF_VEC_STS k) F.HIF_VEC_STS_ARMED 0).setF (R.HIF_VEC_STS k) F.HIF_VEC_STS_COUNT 0).setF
      (R.HIF_VEC_STS k) F.HIF_VEC_STS_PENDING 0
    let s := s.incWrap (R.HIF_VEC_CNT k) F.HIF_VEC_CNT_FIRED
    if s.on (R.HIF_VEC_CFG k) F.HIF_VEC_CFG_ALERT_EN then (s.setBit R.HIF_ALERT k true).alertShow else s
  else s)

/-- A write of doorbell 16 + v (R340). -/
def State.rearm (s : State) (v x : Nat) : State :=
  let s := (s.setF (R.HIF_VEC_STS v) F.HIF_VEC_STS_ARMED 1).setBit R.HIF_ALERT v false
  let s := s.modHost (fun y => { y with rearm := y.rearm.set v (x % 65536) })
  let s := if s.fld (R.HIF_VEC_STS v) F.HIF_VEC_STS_COUNT = 0 then s
    else s.modHost (fun y => { y with vecs := y.vecs.set v ⟨some s.clk.now3⟩ })
  s.alertShow

/-- Agents that have doorbells, and the address by which a refused access is reported (R444). -/
def doorAddr (i : Nat) : Nat := 0x20000 + 8 * i

/-- A doorbell write by an agent: only agents 0 and 1 reach the doorbells (R444). -/
def State.doorGuard (s : State) (ag i : Nat) (f : State → State) : State :=
  if 2 ≤ ag then s
  else if s.mayWrite ag 0x2000 then f s else s.protViolation ag 1 (doorAddr i)

/-- VECTOR_REARM (R340). -/
def execVectorRearm (a : Agent) (k : Fin 16) (v : Word) (s : State) : Out :=
  .next (s.doorGuard a (16 + k) (fun s => s.rearm k v.toNat))

/-! ### Doorbells of rings (R337) -/

/-- The entries of a local STR_IN ring. -/
def State.localEntries (s : State) (r : Nat) : Nat → Nat → List StrEntry
  | 0, _ => []
  | n + 1, i =>
    let a := s.ringAddr r i
    let c := leNat (Mem.getMany 0 s.window (a + 8) 2)
    ⟨leNat (Mem.getMany 0 s.window a 8), c, (List.range (16 * c)).map (fun j =>
      BitVec.ofNat 32 (leNat (Mem.getMany 0 s.window (a + 16 + 4 * j) 4)))⟩ :: State.localEntries s r n (i + 1)

/-- A write of a ring's doorbell (R337, R338): `es` are the entries that a STR_IN tail announces. -/
def State.doorbell (s : State) (r x : Nat) (es : List StrEntry) : State :=
  let v := x % 65536
  let s := s.modRing r (fun y => { y with door := v })
  let bad (s : State) : State := s.setF (R.HIF_RING_STS r) F.HIF_RING_STS_DB_ERR 1
  if s.ringState r = ringDisabled ∨ s.ringState r = ringDraining then bad s
  else
    let holds := if hostProduced r then (v + 65536 - s.ringHead r) % 65536 else (s.ringTail r + 65536 - v) % 65536
    if s.ringSize r < holds then
      let key := evKey 0x0B01 (0x0A00 + r)
      if s.rested key second3 then (bad (s.touch key)).raise 0x0B01 (0x0A00 + r) else bad s
    else if hostProduced r then
      let n := (v + 65536 - s.ringTail r) % 65536
      let got := if s.ringLocal r then s.localEntries r n (s.ringTail r) else es.take n
      let s := (s.setF (R.HIF_RING_IDX r) F.HIF_RING_IDX_TAIL v).ringFull r
      if 10 ≤ r then s.modRing r (fun y => { y with entries := y.entries ++ got.map (fun e => ⟨e.k, s.clk.blk, e.count, e.data⟩) })
      else s
    else
      let s := (s.setF (R.HIF_RING_IDX r) F.HIF_RING_IDX_HEAD v).ringFull r
      if r = 2 then s.pumpAll else if r = 5 then State.gatherPump gatherMax s else s

/-- DOORBELL_RING (R337). -/
def execDoorbellRing (a : Agent) (r : Fin 16) (v : Word) (entries : List StrEntry) (s : State) : Out :=
  .next (s.doorGuard a r (fun s => s.doorbell r v.toNat entries))

/-! ### Errors of DMA reads (R332, R345) -/

/-- DMA_ERROR (R332): a read of host memory failed. -/
def execDmaError (t : DmaTarget) (s : State) : Out :=
  .next (let s1 := s.incSat R.HIF_PCIE_ERR F.HIF_PCIE_ERR_DMA
    match t with
    | .statusBlock =>
      (s1.setF R.HIF_GLB_STS F.HIF_GLB_STS_SB_ERR 1).modHost (fun h => { h with sbDead := true })
    | .fetch mgmt =>
      let r := if mgmt then 3 else 0
      if s1.ringState r = ringRunning then
        (s1.setF (R.HIF_RING_STS r) F.HIF_RING_STS_DMA_ERR 1).ringTo r ringError
      else s1
    | .payload org ord =>
      let s2 := match org with
        | .cmd => s1.setF (R.HIF_RING_STS 0) F.HIF_RING_STS_DMA_ERR 1
        | .mcmd => s1.setF (R.HIF_RING_STS 3) F.HIF_RING_STS_DMA_ERR 1
        | _ => s1
      let s3 := s2.modStage (fun g => { g with changes := g.changes.filter (fun c => c.id != some (DescId.mk org ord)) })
      s3.finish ⟨org, ord⟩ ⟨.faulted, false, false, false, s.clk.blk, none⟩)

/-! ### Host streams (R342, R343) -/

/-- A ring carries data block k. -/
def State.carries (s : State) (r k : Nat) : Bool :=
  let x := s.ringX r
  match x.streamOn, x.streamOff with
  | some a, some b => decide (a ≤ k) && (decide (k < b) || decide (b < a))
  | some a, none => decide (a ≤ k)
  | none, _ => false

/-- Entries of a STR_IN ring are consumed in order until one lies more than 48 blocks ahead (R342). -/
def State.strConsume (r b : Nat) : Nat → State → State
  | 0, s => s
  | n + 1, s =>
    match (s.ringX r).entries with
    | [] => s
    | ⟨k, at_, c, data⟩ :: rest =>
      if b + 48 < k then s
      else
        let late := decide (k ≤ at_ + 1) || decide (k < b) || (match (s.ringX r).played with
          | some p => decide (k ≤ p)
          | none => false)
        let bad := late || c != s.chanCount r
        let s := s.modRing r (fun x => { x with entries := rest, ready := if bad then x.ready else x.ready ++ [(k, data)] })
        let s := (s.setF (R.HIF_RING_IDX r) F.HIF_RING_IDX_HEAD ((s.ringHead r + 1) % 65536)).ringFull r
        let s := s.modHost (fun h => { h with idxChanged := true })
        State.strConsume r b n (if bad then s.incSat (R.HIF_RING_CNT r) F.HIF_RING_CNT_DROP else s)

/-- STREAM_IN (R342): the block b begins at the source multiplexer. -/
def State.streamIn (b : Nat) : List Nat → State → State
  | [], s => s
  | r :: rs, s =>
    State.streamIn b rs (if !s.carries r b || s.ringState r == ringDisabled || s.ringState r == ringError then s
    else
      let s := State.strConsume r b (s.ringX r).entries.length s
      if (s.ringX r).ready.any (fun p => p.1 == b) then
        s.modRing r (fun x => { x with
          ready := x.ready.filter (fun p => p.1 != b), played := some b, playing := lookupKey [] x.ready b })
      else
        ((s.modRing r (fun x => { x with ready := x.ready.filter (fun p => decide (b < p.1)) })).incSat (R.HIF_RING_CNT r)
          F.HIF_RING_CNT_MISS).raiseLimited second3 0x0B02 (0x0A00 + r))

/-- STREAM_OUT (R343): the entry for data block k; `data` are the tag words and samples that the sink stage delivers. -/
def State.streamOut (k : Nat) (data : List (Nat × List Byte)) : List Nat → State → State
  | [], s => s
  | r :: rs, s =>
    State.streamOut k data rs (if !s.carries r k || s.ringState r != ringRunning then s
    else if s.ringRoom r then
      let gap := (s.ringX r).gap
      let bs := leBytes 8 k ++ leBytes 2 (s.chanCount r) ++ leBytes 2 gap.toNat ++ leBytes 4 0
        ++ (lookupKey [] data r).take (72 * s.chanCount r)
      (s.ringPost r bs).modRing r (fun x => { x with gap := false })
    else
      (((s.incSat (R.HIF_RING_CNT r) F.HIF_RING_CNT_MISS).setF (R.HIF_RING_STS r) F.HIF_RING_STS_OVERRUN 1).modRing r
        (fun x => { x with gap := true })).raiseLimited second3 0x0B03 (0x0A00 + r))

/-- The counters of the page (HIF_GLB_CTL.CNT_CLR). -/
def State.hifCntClr (s : State) : State :=
  State.zeroAll (addrs R.HIF_RING_CNT 16 ++ addrs R.HIF_VEC_CNT 16
    ++ [R.HIF_PCIE_ERR, R.HIF_TRACE_CNT, R.HIF_DESC_CNT]) s

/-! ### Completions (R347, R362) -/

/-- The fault event that a completion depends on has not been written to ring 2 (R362). -/
def State.eventWaits (s : State) (c : Completion) : Bool :=
  match c.dep with
  | some q => s.col.queue.any (fun e => e.seq == q)
  | none => false

/-- The oldest descriptor of an origin has its completion, and nothing holds it. -/
def State.postable (s : State) (o : Origin) : Option (InFlight × Completion) :=
  match (s.queue o).flight with
  | [] => none
  | f :: _ =>
    match f.cpl with
    | none => none
    | some c => if f.inLock.isSome || s.eventWaits c then none else some (f, c)

/-- The oldest descriptor of an origin leaves its queue. -/
def State.dropFlight (s : State) (o : Origin) : State := s.modQueue o (fun q => { q with flight := q.flight.drop 1 })

/-- No record is posted for a DONE with NO_CPL (R347). -/
def silent (f : InFlight) (c : Completion) : Bool := f.noCpl && decide (c.status = .done)

/-- The record of a completion. -/
def InFlight.record (f : InFlight) (c : Completion) : List Byte := cplBytes f.tag f.num c

/-- A completion on a ring: the host ring and its completion ring. -/
def State.postRing (s : State) (r cr : Nat) (o : Origin) : State :=
  match s.postable o with
  | some (f, c) =>
    if silent f c then s.dropFlight o
    else if s.ringRoom cr then ((s.dropFlight o).ringPost cr (f.record c)).setF (R.HIF_RING_STS r) F.HIF_RING_STS_HELD 0
    else s.setF (R.HIF_RING_STS r) F.HIF_RING_STS_HELD 1
  | none =>
    match (s.queue o).flight with
    | [] => s.setF (R.HIF_RING_STS r) F.HIF_RING_STS_HELD 0
    | _ :: rest => s.setF (R.HIF_RING_STS r) F.HIF_RING_STS_HELD (if rest.any (fun g => g.cpl.isSome) then 1 else 0)

end Sys2Proof.Machine
end

