-- ==== Sys2Proof/Machine/Program.lean ====
section
/-!
DEFINITION. Ianos programs (chapter 5): the image, the block catalogue and admission (R146 to R150, R159, R228, R231).
-/
namespace Sys2Proof.Machine

/-! ### Reading an image -/

/-- The little-endian number of n bytes at an offset (R7). -/
def bytesAt (bs : List Byte) (o n : Nat) : Nat := leNat ((bs.drop o).take n)

/-- The words that bytes spell, a last part word dropped. -/
def wordsOf : List Byte → List Word
  | a :: b :: c :: d :: rest => BitVec.ofNat 32 (leNat [a, b, c, d]) :: wordsOf rest
  | _ => []

/-- The set bits of a number below 2^w. -/
def popCount : Nat → Nat → Nat
  | 0, _ => 0
  | w + 1, x => x % 2 + popCount w (x / 2)

/-- The set bits of a 64-bit mask, rising. -/
def bitList (x : Nat) : List Nat := (List.range 64).filter (fun i => x.testBit i)

/-- A multiple of 64 at or above a number. -/
def up64 (x : Nat) : Nat := (x + 63) / 64 * 64

/-- The value of bits [lo + w − 1 : lo] of ARG. -/
def argF (a lo w : Nat) : Nat := a / 2 ^ lo % 2 ^ w

/-- Channels c of a record: the outputs, or the inputs of XOVER and of the blocks with no outputs (R159). -/
def ProgRec.c (r : ProgRec) : Nat :=
  if r.typ = 0x07 ∨ r.typ = 0x0F ∨ r.typ = 0x1D then r.m else r.n

/-! ### The catalogue (R159) -/

/-- What the catalogue gives for a record: the bits that ARG may hold, whether its fields are in range, whether the masks
fit, the parameter words, state bytes in SRAM and DRAM, cycles per sample, DRAM bytes per block, and log value words. -/
structure CatRow where
  argMask : Nat
  argOk : Bool
  mapOk : Bool
  params : Nat
  state : Nat
  dramState : Nat
  cycles : Nat
  dram : Nat
  log : Nat

/-- The row of a per-channel block without DRAM of its own. -/
def catPlain (r : ProgRec) (argMask : Nat) (argOk : Bool) (params state cycles : Nat) : CatRow :=
  ⟨argMask, argOk, r.m == r.n && r.n != 0, params, state, 0, cycles, Config.dramBytes r.typ r.n state, state / 4⟩

/-- The catalogue row of a record; none for a TYPE that is refused. -/
def ProgRec.row (r : ProgRec) : Option CatRow :=
  let c := r.c
  let a := r.arg
  match r.typ with
  | 0x01 => some (catPlain r 0 true (1 + c) (8 * c) (2 * c))
  | 0x03 =>
    some { catPlain r 0 true (1 + r.n * r.m) (4 * r.m * r.n) ((r.m * r.n + 3) / 4 + 2 * r.n) with
      mapOk := r.m != 0 && r.n != 0 }
  | 0x04 =>
    let sec := argF a 0 5
    some (catPlain r 0x31F (decide (1 ≤ sec ∧ sec ≤ 16)) (5 * sec * (if argF a 8 1 = 1 then 1 else c)) (24 * sec * c)
      (c * (3 * sec + 2) * (1 + argF a 9 1)))
  | 0x05 =>
    let t := argF a 0 11
    some { catPlain r 0x17FF (decide (1 ≤ t ∧ t ≤ 1024)) (t * (if argF a 12 1 = 1 then 1 else c)) (4 * t * c)
      (c * ((t + 3) / 4 + 6)) with log := 17 * c }
  | 0x06 =>
    let t := argF a 0 17
    some { catPlain r 0x19FFFF (decide (64 ≤ t ∧ t ≤ 65536 ∧ t % 64 = 0)) 8 (2048 * c)
      (c * (96 + t / 32) * (if argF a 19 2 = 0 then 1 else 2)) with
      dramState := 24 * t * c, dram := c * (64 + t / 4), log := 529 * c }
  | 0x07 =>
    let w := argF a 0 2 + 2
    let o := 2 * (argF a 4 2 + 1)
    some { catPlain r 0x33 (decide (w ≤ 4)) w (16 * c * (w - 1) * o) (c * ((w - 1) * (3 * o + 4) + 2 * w)) with
      mapOk := c != 0 && r.n == c * w }
  | 0x08 =>
    let d := argF a 0 18
    let fr := argF a 18 1
    some { catPlain r 0x1FFFFF (decide (16 ≤ d ∧ d ≤ 192000) && (argF a 19 2 != 3 || fr == 1)) (1 + c)
      (9 * c * (d + 48) / 2) (c * (3 + 3 * fr)) with dram := c * (if fr = 1 then 180 else 144), log := 19 * c }
  | 0x09 => some (catPlain r 1 true 6 (8 * c) (14 * c))
  | 0x0A =>
    let la := argF a 0 8
    some { catPlain r 0x1FF (decide (la ≤ 192)) 2 (c * (4 * la + 8)) (16 * c) with log := 19 * c }
  | 0x0B => some (catPlain r 0 true 6 (12 * c) (10 * c))
  | 0x0C =>
    let b := argF a 0 3
    some (catPlain r 7 (decide (1 ≤ b ∧ b ≤ 4)) (8 * b) (40 * b * c) (c * (6 + 24 * b)))
  | 0x0D => some (catPlain r 0 true 4 (48 * c) (12 * c))
  | 0x0E => some (catPlain r 0 true 5 (64 * c) (30 * c))
  | 0x0F =>
    let p := argF a 0 13
    some { catPlain r 0x1FFF (decide (1 ≤ p ∧ p ≤ 6000)) 2 (16 * c) (5 * c) with mapOk := c != 0 && r.n == 0 }
  | 0x10 => some { catPlain r 0 true (3 * c) (16 * c) (6 * c) with mapOk := c != 0 && r.m == 0 }
  | 0x11 =>
    some { catPlain r 1 true 2 (16 * c) (if argF a 0 1 = 1 then 10 * c else 4 * c) with mapOk := c != 0 && r.m == 0 }
  | 0x12 =>
    let n := argF a 0 4
    some (catPlain r 0xF (decide (1 ≤ n ∧ n ≤ 12)) 6 (c * (512 + 32 * n)) (c * (40 + 6 * n)))
  | 0x13 => some { catPlain r 0 true 5 (16 + 8 * c) (4 + 6 * c) with mapOk := c != 0 && r.m == c + 1 }
  | 0x14 =>
    some { catPlain r 0 true r.m 0 ((r.m + 3) / 4 + 2 * r.n) with mapOk := r.m != 0 && r.n != 0 && r.m % r.n == 0 }
  | 0x17 =>
    let d := argF a 0 18
    some { catPlain r 0x1BFFFF (decide (16 ≤ d ∧ d ≤ 192000)) (1 + 2 * c) (9 * c * (d + 48) / 2 + 8 * c) (9 * c) with
      dram := 180 * c, log := 21 * c }
  | 0x18 => some { catPlain r 3 true r.n (8 * r.n) (4 * r.n) with mapOk := r.m != 0 && r.n != 0 }
  | 0x19 => some (catPlain r 0 true 8 (24 * c) (12 * c))
  | 0x1A =>
    let la := argF a 0 7
    some { catPlain r 0x7F (decide (la ≤ 96)) 10 (c * (4 * la + 64)) (40 * c) with log := 33 * c }
  | 0x1B => some (catPlain r 0 true 1 (8 * c) (3 * c))
  | 0x1D => some { catPlain r 0 true 1 0 (2 * c) with mapOk := c != 0 && r.n == 0 }
  | 0x1E => some (catPlain r 0 true 2 (8 * c) (5 * c))
  | _ => none

/-- The cost of a record in cycles per block (R149). -/
def ProgRec.cost (r : ProgRec) (w : CatRow) : Nat := if r.bypass then 32 else 32 + 16 * w.cycles

/-- State bytes of a record in data SRAM, and in DRAM (R147, R164): CONV has both, the others the one that FLAGS names. -/
def ProgRec.sramState (r : ProgRec) (w : CatRow) : Nat := if r.dram && r.typ != 0x06 then 0 else up64 w.state
def ProgRec.dramState (r : ProgRec) (w : CatRow) : Nat :=
  if r.typ = 0x06 then up64 w.dramState else if r.dram then up64 w.state else 0

/-- DRAM bytes per block of a record, rounded up to 64 (R149); a BYPASS record moves none. -/
def ProgRec.dramBytes (r : ProgRec) (w : CatRow) : Nat :=
  if r.bypass then 0 else if r.typ = 0x06 ∨ r.dram then up64 w.dram else 0

/-- The log words of a record in one data block (R228). -/
def ProgRec.logWords (r : ProgRec) (w : CatRow) : Nat := if r.bypass then 0 else w.log + 2 * r.c

/-- The release-queue entries of a record in one data block (R231). -/
def ProgRec.ents (r : ProgRec) : Nat :=
  if r.typ = 0x0F ∨ r.typ = 0x19 ∨ r.typ = 0x1A ∨ r.typ = 0x12 then r.c else 0

/-! ### Admission (R149, R150) -/

/-- The limits of an engine at the moment of a check. -/
structure Limits where
  ahead : Bool
  window : Nat
  quota : Nat

/-- The cycles of the CONCEAL record that a cluster which renders ahead pays for (R149). -/
def concealCost : Nat := 24608

/-- The log words of CONCEAL and of the block mark (R228): 16 lanes of 24 value words and 2 header words, and 1. -/
def concealLog : Nat := 417

/-- The totals over the records before one. -/
structure Totals where
  cyc : Nat
  sram : Nat
  dram : Nat
  dramBlk : Nat
  taps : Nat
  need : Nat
  ents : Nat

/-- The totals before the first record. -/
def Totals.start (l : Limits) (pimgLen : Nat) : Totals :=
  ⟨if l.ahead then concealCost else 0, 8192 + pimgLen, 0, 0, 0, concealLog, 0⟩

/-- The totals after a record. -/
def Totals.add (t : Totals) (r : ProgRec) (w : CatRow) : Totals :=
  ⟨t.cyc + r.cost w, t.sram + r.sramState w, t.dram + r.dramState w, t.dramBlk + r.dramBytes w / 64,
    t.taps + (if r.typ = 0x06 then argF r.arg 0 17 * r.c else 0), t.need + r.logWords w, t.ents + r.ents⟩

/-- A record as it stands in an image, with the fields that only admission reads. -/
structure RawRec where
  r : ProgRec
  flagsOk : Bool
  state : Nat

/-- Record i of an image (R147). -/
def rawRec (bs : List Byte) (i : Nat) : RawRec :=
  let o := 64 + 32 * i
  let fl := bytesAt bs (o + 1) 1
  ⟨⟨bytesAt bs o 1, fl % 2 == 1, fl / 2 % 2 == 1, popCount 64 (bytesAt bs (o + 4) 8), popCount 64 (bytesAt bs (o + 12) 8),
    bytesAt bs (o + 2) 2, bytesAt bs (o + 20) 4, bytesAt bs (o + 28) 4, bitList (bytesAt bs (o + 4) 8),
    bitList (bytesAt bs (o + 12) 8)⟩, decide (fl < 4), bytesAt bs (o + 24) 4⟩

/-- The reason for which a record is refused (R150), the lowest code first; `t` holds the totals with the record. -/
def RawRec.reason (x : RawRec) (l : Limits) (pimgLen : Nat) (w : CatRow) (t : Totals) : Option Nat :=
  let r := x.r
  if !w.mapOk then some 3
  else if !w.argOk || !x.flagsOk || (r.arg ||| w.argMask) != w.argMask then some 4
  else if r.plen % 4 != 0 || r.poff % 4 != 0 || decide (r.poff < 0x2000) || decide (0x2000 + pimgLen < r.poff + r.plen)
    || decide (r.plen < 4 * w.params) then some 5
  else if 262144 < t.sram then some 6
  else if l.window < t.dram then some 7
  else if 124000 < t.cyc then some 8
  else if l.quota < t.dramBlk then some 9
  else if 65536 < t.taps then some 10
  else if x.state ≠ up64 (w.state + w.dramState) then some 11
  else none

/-- The first failing record with its reason, or the totals of all of them. -/
def checkRecs (l : Limits) (pimgLen : Nat) : Nat → List RawRec → Totals → Except (Nat × Nat) Totals
  | _, [], t => .ok t
  | i, x :: xs, t =>
    match x.r.row with
    | none => .error (i, 2)
    | some w =>
      let t := t.add x.r w
      match x.reason l pimgLen w t with
      | some e => .error (i, e)
      | none => checkRecs l pimgLen (i + 1) xs t

/-- The header of an image is good (R146). -/
def headerOk (bs : List Byte) : Bool :=
  let nrec := bytesAt bs 6 2
  let off := bytesAt bs 16 4
  let len := bytesAt bs 20 4
  decide (64 ≤ bs.length ∧ bs.length ≤ 65536) && bytesAt bs 0 4 == 0x534E4149 && bytesAt bs 4 2 == 1
    && decide (1 ≤ nrec ∧ nrec ≤ 512) && bytesAt bs 8 4 == bs.length && bytesAt bs 12 4 != 0
    && decide (64 + 32 * nrec ≤ off) && len % 4 == 0 && decide (off + len ≤ bs.length)
    && ((bs.drop 24).take 36).all (fun b => b == 0)
    && decide (crc32 (bs.take 60 ++ [0, 0, 0, 0] ++ bs.drop 64) = BitVec.ofNat 32 (bytesAt bs 60 4))

/-- The program that an image gives, or the failing record and the reason; 0x1FF stands for the header (R150). -/
def admission (l : Limits) (bs : List Byte) : Except (Nat × Nat) Prog :=
  if headerOk bs then
    let off := bytesAt bs 16 4
    let len := bytesAt bs 20 4
    let raws := (List.range (bytesAt bs 6 2)).map (rawRec bs)
    match checkRecs l len 0 raws (Totals.start l len) with
    | .error e => .error e
    | .ok t =>
      .ok ⟨bytesAt bs 12 4, raws.map (·.r), wordsOf ((bs.drop off).take len), t.cyc, (t.sram + 63) / 64, t.dramBlk,
        t.need, t.ents⟩
  else .error (0x1FF, 1)

end Sys2Proof.Machine
end

