-- ==== Sys2Proof/Machine/Flash.lean ====
section
/-!
DEFINITION. The flash die N, its fences, and the configuration journal (R424 to R432), with the flash operations of the
management commands.
-/
namespace Sys2Proof.Machine

/-! ### Records and halves (R427, R428) -/

/-- Bytes of a half. -/
def halfSize : Nat := 1048576

/-- The bytes that a record takes. -/
def JRec.size (r : JRec) : Nat := 32 + (r.payload.length + 15) / 16 * 16

/-- The records of a half that its scan sees: a torn record ends it (R431). -/
def scanned : List JRec → List JRec
  | [] => []
  | r :: rs => if r.st = .torn then [] else r :: scanned rs

/-- A half holds a torn record. -/
def JHalf.torn (h : JHalf) : Bool := h.recs.any (fun r => decide (r.st = .torn))

/-- Bytes used of a half; behind a torn record everything counts as used. -/
def JHalf.used (h : JHalf) : Nat := if h.torn then halfSize else 16 + h.recs.foldl (fun t r => t + r.size) 0

/-- The valid records that the scan of a half sees. -/
def JHalf.valid (h : JHalf) : List JRec := (scanned h.recs).filter (fun r => decide (r.st = .valid))

def JRegion.active (x : JRegion) : JHalf := if x.upperActive then x.upper else x.lower
def JRegion.spare (x : JRegion) : JHalf := if x.upperActive then x.lower else x.upper
def JRegion.setActive (x : JRegion) (h : JHalf) : JRegion :=
  if x.upperActive then { x with upper := h } else { x with lower := h }
def JRegion.setSpare (x : JRegion) (h : JHalf) : JRegion :=
  if x.upperActive then { x with lower := h } else { x with upper := h }

/-- A region has a committed half. -/
def JRegion.live (x : JRegion) : Bool := x.active.commit

def FlashX.region (f : FlashX) (j : Nat) : JRegion := if j = 0 then f.j0 else f.j1
def FlashX.setRegion (f : FlashX) (j : Nat) (x : JRegion) : FlashX := if j = 0 then { f with j0 := x } else { f with j1 := x }

/-- The state with the Tether's own flash changed. -/
def State.modPart (s : State) (f : Mem → Mem) : State := s.modTth (fun y => { y with part := f y.part })

/-- The valid records of a region. -/
def JRegion.valid (x : JRegion) : List JRec := if x.live then x.active.valid else []

/-- The newest of records of one key: the highest GEN, the last written of equals. -/
def newestOf (key : Nat) (rs : List JRec) : Option JRec :=
  rs.foldl (fun b r => if r.key ≠ key then b else match b with
    | none => some r
    | some q => if q.gen ≤ r.gen then some r else b) none

/-- The keys of records, each once, in rising order. -/
def keysOf (rs : List JRec) : List Nat := (sortBy (fun (a b : Nat) => decide (a ≤ b)) (rs.map (·.key))).eraseDups

/-- What the two regions say of a key (R431): none, the record used, or a divergence. -/
inductive KeyView where
  | absent
  | record (r : JRec)
  | divergent

/-- The view of a key. -/
def FlashX.view (f : FlashX) (key : Nat) : KeyView :=
  match newestOf key f.j0.valid, newestOf key f.j1.valid with
  | none, none => .absent
  | some a, none => .record a
  | none, some b => .record b
  | some a, some b =>
    if b.gen < a.gen then .record a else if a.gen < b.gen then .record b
    else if a.payload = b.payload then .record a else .divergent

/-- The highest GEN seen for a key in either region, 0 for none. -/
def FlashX.topGen (f : FlashX) (key : Nat) : Nat :=
  ((f.j0.valid ++ f.j1.valid).filter (fun r => r.key == key)).foldl (fun m r => max m r.gen) 0

/-! ### What the registers show -/

/-- A journal operation is in progress or waits. -/
def FlashJob.isJournal : FlashJob → Bool
  | .journal _ _ => true
  | _ => false

/-- The registers of region j, and BUSY. -/
def State.jnlRegion (s : State) (j : Nat) : State :=
  let x := s.flash.region j
  let w := (((0 : Word).setFld F.JNL_REGION_ACTIVE x.upperActive.toNat).setFld F.JNL_REGION_SPARE_ERASED
    (!x.spare.magic).toNat).setFld F.JNL_REGION_RECORDS (keysOf x.valid).length
  ((s.wr (R.JNL_REGION j) w).wr (R.JNL_FREE j) (BitVec.ofNat 32 (if x.live then halfSize - x.active.used else 0))).wr
    (R.JNL_EPOCH j) (BitVec.ofNat 32 (if x.live then x.active.epoch else 0))

def State.jnlShow (s : State) : State :=
  let busy := s.flash.compacting.isSome || s.flash.ops.any (fun o => o.job.isJournal)
  let s := (s.jnlRegion 0).jnlRegion 1
  let s := (s.setF R.JNL_STS F.JNL_STS_BUSY busy.toNat).setF R.JNL_STS F.JNL_STS_COMPACTING s.flash.compacting.isSome.toNat
  let s := s.setF R.JNL_STS F.JNL_STS_REGION (s.flash.compacting.getD 0)
  let s := s.setF R.JNL_FLASH_STS F.JNL_FLASH_STS_OP (if s.flash.ops.isEmpty && s.flash.compacting.isNone then 0 else 1)
  s.wr R.JNL_ERASE_MAX (BitVec.ofNat 32 ([s.flash.j0.lower, s.flash.j0.upper, s.flash.j1.lower, s.flash.j1.upper].foldl
    (fun m h => max m h.erases) 0))

/-! ### Writing records (R429) -/

/-- A region takes records. -/
def State.regionOk (s : State) (j : Nat) : Bool :=
  !s.on R.JNL_STS (if j = 0 then F.JNL_STS_FAIL0 else F.JNL_STS_FAIL1)

/-- A region without a committed half begins one, in its active half. -/
def JRegion.ready (x : JRegion) : JRegion :=
  if x.live then x else x.setActive { x.active with magic := true, commit := true, epoch := max 1 x.active.epoch }

/-- A record goes to a region. -/
def FlashX.append (f : FlashX) (j : Nat) (r : JRec) : FlashX :=
  let x := (f.region j).ready
  f.setRegion j (x.setActive { x.active with recs := x.active.recs ++ [r] })

/-- One key is written to J0 and then to J1, but for a region that has failed. -/
def State.writeKey (s : State) (key : Nat) (bs : List Byte) : State :=
  let r : JRec := ⟨key, s.flash.topGen key + 1, bs, .valid⟩
  let s := if s.regionOk 0 then s.modFlash (fun f => f.append 0 r) else s
  let s := if s.regionOk 1 then s.modFlash (fun f => f.append 1 r) else s
  let s := (s.incWrap R.JNL_CNT F.JNL_CNT_COUNT).wr R.JNL_LAST_KEY (BitVec.ofNat 32 key)
  s.wr R.JNL_LAST_GEN (BitVec.ofNat 32 r.gen)

def State.writeKeys : List (Nat × List Byte) → State → State
  | [], s => s
  | (k, bs) :: rest, s => State.writeKeys rest (s.writeKey k bs)

/-- JNL_GRP of the groups of a PERSIST. -/
def State.groupsDone : List Nat → State → State
  | [], s => s
  | g :: gs, s => State.groupsDone gs (s.wr (R.JNL_GRP g) (BitVec.ofNat 32 s.clk.blk))

/-! ### Compaction (R430) -/

/-- The free space below which a region is compacted. -/
def compactBelow : Nat := 262144

/-- A region needs compaction. -/
def State.compactDue (s : State) (j : Nat) : Bool :=
  let x := s.flash.region j
  (x.live && decide (halfSize - x.active.used < compactBelow)) || s.flash.wantCompact.contains j

/-- JOURNAL_COMPACT (R430): a region begins to be compacted, after the write in progress, and never beside the other. -/
def execJournalCompact (j : Fin 2) (s : State) : Out :=
  .next (if s.compactDue j && s.regionOk j && s.flash.compacting.isNone && s.power.hubUp
      && !(match s.flash.ops with
        | o :: _ => o.job.isJournal
        | [] => false) then
    (s.modFlash (fun f =>
      let x := (f.region j).ready
      { (f.setRegion j (x.setSpare { x.spare with magic := true, epoch := x.active.epoch + 1, commit := false, recs := [] }))
        with compacting := some j.val, wantCompact := f.wantCompact.filter (fun k => k != j.val) })).jnlShow
  else s)

/-- The records that a compaction keeps: the newest valid one of every key. -/
def JRegion.kept (x : JRegion) : List JRec := (keysOf x.valid).filterMap (fun k => newestOf k x.valid)

/-- JOURNAL_COMPACT_DONE (R430): COMMIT is written, the spare becomes the active half, the old half is erased. -/
def execJournalCompactDone (j : Fin 2) (s : State) : Out :=
  .next (if s.flash.compacting = some j.val then
    ((s.modFlash (fun f =>
      let x := f.region j
      let new : JHalf := { x.spare with commit := true, recs := x.kept }
      let old : JHalf := ⟨false, 0, x.active.erases + 1, false, []⟩
      let y := (x.setSpare new).setActive old
      { (f.setRegion j { y with upperActive := !x.upperActive }) with compacting := none })).incWrap R.JNL_COMPACT_CNT
        F.JNL_COMPACT_CNT_COUNT).jnlShow
  else s)

/-- JNL_CTL.COMPACT: J0 and then J1 (R430). -/
def State.compactGo (s : State) : State := s.modFlash (fun f => { f with wantCompact := [0, 1] })

def State.jnlCntClr (s : State) : State :=
  State.zeroAll [R.JNL_CNT, R.JNL_CRC_CNT, R.JNL_COMPACT_CNT, R.JNL_DIV_CNT, R.JNL_FENCE_CNT]
    (s.setF R.JNL_FLASH_STS F.JNL_FLASH_STS_FAULTS 0)

/-! ### The scan at boot (R431) -/

/-- The active half of a region by COMMIT and EPOCH. -/
def JRegion.choose (x : JRegion) : JRegion :=
  let drop (h : JHalf) : JHalf := if h.magic && !h.commit then ⟨false, 0, h.erases + 1, false, []⟩ else h
  let x := { x with lower := drop x.lower, upper := drop x.upper }
  { x with upperActive := x.upper.commit && (!x.lower.commit || decide (x.lower.epoch < x.upper.epoch)) }

/-- What the scan of a region counts and flags. -/
def State.scanRegion (s : State) (j : Nat) : State :=
  let s := s.modFlash (fun f => f.setRegion j (f.region j).choose)
  let h := (s.flash.region j).active
  if !h.commit then s
  else
    let bad := ((scanned h.recs).filter (fun r => decide (r.st = .corrupt))).length
    let s := if bad = 0 then s
      else (s.addSat R.JNL_CRC_CNT F.JNL_CRC_CNT_CORRUPT bad).setF R.JNL_STS F.JNL_STS_CRC_ERR 1
    if h.torn then (s.setF R.JNL_STS F.JNL_STS_TORN 1).modFlash (fun f => { f with wantCompact := f.wantCompact ++ [j] })
    else s

/-- The keys that diverge. -/
def FlashX.divergentKeys (f : FlashX) : List Nat :=
  (keysOf (f.j0.valid ++ f.j1.valid)).filter (fun k => match f.view k with
    | .divergent => true
    | _ => false)

/-- A divergent key is logged; its event waits for the events of the boot. -/
def State.logDivergent : List Nat → State → State
  | [], s => s
  | k :: ks, s =>
    let i := s.fld R.JNL_DIV_CNT F.JNL_DIV_CNT_COUNT % 16
    let w := ((0 : Word).setFld F.JNL_DIV_KEY k).setFld F.JNL_DIV_VALID 1
    State.logDivergent ks (((s.wr (R.JNL_DIV i) w).incSat R.JNL_DIV_CNT F.JNL_DIV_CNT_COUNT).setF R.JNL_STS
      F.JNL_STS_DIVERGENT 1)

/-- The boot scan of the journal. -/
def State.jnlScan (s : State) : State :=
  let s := (s.modFlash (fun f => { f with wantCompact := [], compacting := none })).scanRegion 0 |>.scanRegion 1
  let ks := s.flash.divergentKeys
  ((State.logDivergent ks (s.modFlash (fun f => { f with divergent := ks }))).setF R.JNL_STS F.JNL_STS_READY 1).jnlShow

/-! ### Fences and protection (R425) -/

/-- PROT_FLASH_WP forbids the H port to change a byte of N. -/
def State.writeProtected (s : State) (a : Nat) : Bool := s.bit (R.PROT_FLASH_WP (a / 131072 / 32)) (a / 131072 % 32)

/-- Any byte of a range is protected. -/
def State.rangeProtected (s : State) (a n : Nat) : Bool :=
  (List.range (n / 131072 + 2)).any (fun i => decide (131072 * (a / 131072 + i) < a + n)
    && s.writeProtected (131072 * (a / 131072 + i)))

/-- Where the partitions begin in N (R424). -/
def bootBase (image : Nat) : Nat := 0x400000 * image
def journalBase : Nat := 0x800000
def messageBase : Nat := 0xC00000

/-! ### Tether boot images (R292, R293) -/

/-- A copy of the Tether boot image: its generation and its pairs, where it is valid. -/
def State.tthCopy (s : State) (c : Nat) : Option (Nat × List Word) :=
  let a := 0x10000 * c
  let n := s.partNat (a + 8) 4
  if s.partNat a 4 = 0x4C454854 ∧ 1 ≤ n ∧ n ≤ 2048
      ∧ crc32 (s.partBytes a 28 ++ [0, 0, 0, 0] ++ s.partBytes (a + 32) (8 * n)) = BitVec.ofNat 32 (s.partNat (a + 28) 4) then
    some (s.partNat (a + 4) 4, wordsOf (s.partBytes (a + 32) (8 * n)))
  else none

/-- The copy that the image store writes: the one that was not used, copy 0 where none was. -/
def State.tthTarget (s : State) : Nat := if s.fld R.TTH_BOOT_STS F.TTH_BOOT_STS_SRC = 1 then 1 else 0

/-- The higher generation of the valid copies. -/
def State.tthGen (s : State) : Nat :=
  max ((s.tthCopy 0).map (·.1) |>.getD 0) ((s.tthCopy 1).map (·.1) |>.getD 0)

/-- An image that the store accepts: its header and length fit. -/
def tthImageOk (bs : List Byte) : Bool :=
  let n := bytesAt bs 8 4
  bytesAt bs 0 4 == 0x4C454854 && decide (1 ≤ n) && decide (n ≤ 2048) && bs.length == 32 + 8 * n
    && (bs.drop 12).take 16 == List.replicate 16 0
    && decide (crc32 (bs.take 28 ++ [0, 0, 0, 0] ++ bs.drop 32) = BitVec.ofNat 32 (bytesAt bs 28 4))

/-- The image with a generation, and its CRC made good. -/
def tthImageGen (bs : List Byte) (g : Nat) : List Byte :=
  let h := bs.take 4 ++ leBytes 4 g ++ (bs.drop 8).take 20
  h ++ leBytes 4 (crc32 (h ++ [0, 0, 0, 0] ++ bs.drop 32)).toNat ++ bs.drop 32

/-! ### Messages (R283, R284, R287) -/

/-- Code bytes in frames of 252 with their CRC; the last frame is filled with zeros. -/
def framesOf : Nat → List Byte → List Byte
  | 0, _ => []
  | n + 1, bs =>
    let f := (bs.take 252) ++ List.replicate (252 - (bs.take 252).length) 0
    f ++ leBytes 4 (crc32 f).toNat ++ framesOf n (bs.drop 252)

/-- The frames of a message. -/
def frameCount (samples : Nat) : Nat := (samples + 503) / 504

/-- Where frames may lie. -/
def framesBase : Nat := 0x30000

/-- Where the part puts the frames of a message, which the spec does not say: somewhere that R283 allows. -/
def framePlace (j n : Nat) : Nat :=
  framesBase + 256 * (Config.messagePlace j n % ((partSize - framesBase) / 256 - n + 1))

/-- The frames of a message, and then its directory entry. -/
def State.storeMessage (s : State) (j samples level : Nat) (bs : List Byte) : State :=
  let n := frameCount samples
  let a := framePlace j n
  let e := leBytes 4 a ++ leBytes 4 samples ++ leBytes 2 level ++ leBytes 2 0
  s.modPart (fun m => Mem.setMany 0xFF (Mem.setMany 0xFF m a (framesOf n bs)) (0x20000 + 16 * j)
    (e ++ leBytes 4 (crc32 e).toNat))

/-! ### Flash operations -/

/-- An operation begins: it takes its turn behind the others. -/
def State.flashBegin (s : State) (id : Option DescId) (job : FlashJob) : State :=
  (s.modFlash (fun f => { f with ops := f.ops ++ [⟨id, job, s.clk.blk⟩] })).jnlShow

/-- The bytes of a boot image. -/
def FlashX.image (f : FlashX) (i : Nat) : Mem := if i = 0 then f.bootA else f.bootB
def FlashX.setImage (f : FlashX) (i : Nat) (m : Mem) : FlashX := if i = 0 then { f with bootA := m } else { f with bootB := m }

/-- Bytes of a sector that is programmed anew. -/
def sectorSize : Nat := 65536

/-- A 64 KiB sector of an image is erased and programmed. -/
def State.programSector (s : State) (i off : Nat) (bs : List Byte) : State :=
  s.modFlash (fun f => f.setImage i (Mem.setMany 0xFF (f.image i) off
    (bs ++ List.replicate (sectorSize - bs.length) 0xFF)))

/-- What an operation leaves in flash. -/
def State.flashApply (s : State) : FlashJob → State
  | .journal recs groups => State.groupsDone groups (State.writeKeys recs s)
  | .firmware i off bs => s.programSector i off bs
  | .message j n lev bs => s.storeMessage j n lev bs
  | .tetherImage bs =>
    s.modPart (fun m => Mem.setMany 0xFF m (0x10000 * s.tthTarget) (tthImageGen bs (s.tthGen + 1)))
  | .recovery off bs => s.programSector 0 off bs

/-- Blocks of the 4 s after which a flash operation ends TIMEOUT (R349). -/
def flashLimit : Nat := 24000

/-- A region has failed (R429). -/
def State.regionFail (s : State) (j : Nat) : State :=
  s.setF R.JNL_STS (if j = 0 then F.JNL_STS_FAIL0 else F.JNL_STS_FAIL1) 1

/-- FLASH_OPERATION_DONE (R425, R429, R349): the oldest operation ends. A journal write waits for a compaction. -/
def execFlashOperationDone (res : FlashResult) (s : State) : Out :=
  .next (match s.flash.ops with
  | [] => s
  | o :: rest =>
    if o.job.isJournal && s.flash.compacting.isSome then s
    else
      let s1 := s.modFlash (fun f => { f with ops := rest })
      match res with
      | .ok => ((s1.flashApply o.job).finishOpt o.id ⟨.done, false, false, false, s.clk.blk, none⟩).jnlShow
      | .fail j =>
        let s2 := s1.incSat R.JNL_FLASH_STS F.JNL_FLASH_STS_FAULTS
        let s3 := if o.job.isJournal then (s2.regionFail j).flashApply o.job else s2
        (s3.finishOpt o.id ⟨.faulted, false, false, false, o.began, none⟩).jnlShow
      | .timeout =>
        if o.began + flashLimit ≤ s.clk.blk then
          (s1.finishOpt o.id ⟨.timeout, false, false, false, noBlock, none⟩).jnlShow
        else s)

/-- The records of a journal write that a loss of power cuts: so many record copies are written, J0 before J1 record by
record, and one more may be torn (R407, R428). -/
def State.cutRecords : Nat → Bool → List (Nat × List Byte) → State → State
  | _, _, [], s => s
  | n, torn, (key, bs) :: rest, s =>
    let r : JRec := ⟨key, s.flash.topGen key + 1, bs, .valid⟩
    let t : JRec := { r with st := .torn }
    match n with
    | 0 => if torn then s.modFlash (fun f => f.append 0 t) else s
    | 1 =>
      let s := s.modFlash (fun f => f.append 0 r)
      if torn then s.modFlash (fun f => f.append 1 t) else s
    | n + 2 => State.cutRecords n torn rest (s.modFlash (fun f => (f.append 0 r).append 1 r))

/-- A program in progress is cut short: how far it came is free, and so are the bytes of the page that was being
programmed (R407). -/
def State.flashCut (s : State) : State :=
  let s1 := s.modFlash (fun f => { f with ops := [], compacting := none })
  match s.flash.ops with
  | [] => s1
  | o :: _ =>
    let (v, s1) := s1.fresh 20
    match o.job with
    | .journal recs _ => State.cutRecords (v.toNat / 2 % (2 * recs.length + 1)) (v.getLsbD 0) recs s1
    | .firmware i off bs =>
      let n := 256 * (v.toNat % (bs.length / 256 + 1))
      let (page, s1) := s1.freshBytes 256
      s1.programSector i off (bs.take n ++ page)
    | .recovery off bs =>
      let n := 256 * (v.toNat % (bs.length / 256 + 1))
      let (page, s1) := s1.freshBytes 256
      s1.programSector 0 off (bs.take n ++ page)
    | .message j n _ bs =>
      let fs := framesOf (frameCount n) bs
      let k := 256 * (v.toNat % (frameCount n + 1))
      let (page, s1) := s1.freshBytes 256
      s1.modPart (fun m => Mem.setMany 0xFF m (framePlace j (frameCount n)) (fs.take k ++ page))
    | .tetherImage bs =>
      let k := 256 * (v.toNat % (bs.length / 256 + 1))
      let (page, s1) := s1.freshBytes 256
      let written := (tthImageGen bs (s.tthGen + 1)).take k ++ page
      s1.modPart (fun m => Mem.setMany 0xFF m (0x10000 * s1.tthTarget) written)

end Sys2Proof.Machine
end

