-- ==== Sys2Proof/Machine/Engine.lean ====
section
/-!
DEFINITION. The signal engines (chapter 5) and clusters that render ahead (chapter 7): the swap sequence, parameter
commits, rendering, concealment, annealing, alignment groups, and the DRAM arbiter.
-/
namespace Sys2Proof.Machine

/-! ### Programs -/

/-- The limits that a load is checked against now (R151). -/
def State.limits (s : State) (n : Nat) : Limits :=
  ⟨s.on (R.ENG_CTL n) F.ENG_CTL_RUNAHEAD, 65536 * s.fld (R.ENG_DRAM n) F.ENG_DRAM_SIZE,
    s.fld (R.ENG_QUOTA n) F.ENG_QUOTA_QUOTA⟩

def State.engPhase (s : State) (n : Nat) : Nat := s.fld (R.ENG_STS n) F.ENG_STS_PHASE

/-- Steps 2 or 3 of the sequence of R152 run. -/
def State.swapping (s : State) (n : Nat) : Bool := s.engPhase n == 1 || s.engPhase n == 2

/-- PROG_LOAD (R150, R151). -/
def State.progLoad (s : State) (n : Nat) (bs : List Byte) : Status × State :=
  if s.swapping n then (.refusedBusy, s)
  else
    match admission (s.limits n) bs with
    | .ok p => (.done, (s.modEng n (fun x => { x with staged := some p })).setF (R.ENG_STS n) F.ENG_STS_STAGED 1)
    | .error (i, e) =>
      (.badParam, (s.setF (R.ENG_REC_ERR n) F.ENG_REC_ERR_REASON e).setF (R.ENG_REC_ERR n) F.ENG_REC_ERR_RECORD i)

/-- The program of an engine with an identifier, running or staged. -/
def State.progOf (s : State) (n id : Nat) : Option Prog :=
  let x := s.engX n
  match x.running, x.staged with
  | some p, q => if p.id = id then some p else q.filter (fun q => q.id == id)
  | none, q => q.filter (fun q => q.id == id)

/-- The log words that one data block can take (R228), and its release-queue entries (R231). -/
def EngX.need (x : EngX) : Nat := (x.running.map (·.need)).getD concealLog
def EngX.ents (x : EngX) : Nat := (x.running.map (·.ents)).getD 0

/-! ### Arbiter masks (R171, R173) -/

/-- A requester is masked (R171). -/
def State.maskCond (s : State) (r : Nat) : Bool :=
  if r < 8 then s.fld (R.ENG_STS r) F.ENG_STS_MODE_ACT == 0 || s.on (R.ENG_STS r) F.ENG_STS_DOWN
  else if r = 8 ∨ r = 10 then !s.power.hubUp
  else if r = 9 then !s.on R.HIF_PCIE_STS F.HIF_PCIE_STS_LINK
  else !s.on R.MEM_SCRUB_CFG F.MEM_SCRUB_CFG_DRAM_EN

/-- ARB_STS.MASK and ENG_STS.MASKED follow a requester's condition. -/
def State.maskShow (s : State) (r : Nat) : State :=
  let s1 := s.setBit R.ARB_STS (16 + r) (s.maskCond r)
  if r < 8 then s1.setF (R.ENG_STS r) F.ENG_STS_MASKED (s.maskCond r).toNat else s1

/-- Live counters of a requester that is not masked advance (R173). -/
def State.arbCount (s : State) (r grants wait longest : Nat) : State :=
  if s.bit R.ARB_STS (16 + r) then s
  else s.modEngines (fun y => { y with
    arb := y.arb.modify r (fun a => ⟨(a.grants + grants) % 2 ^ 32, (a.wait + wait) % 2 ^ 48, min 0xFFFF (max a.longest longest)⟩) })

/-- The snapshot registers of the requesters of a list take the live counters. -/
def State.arbCopy : List Nat → State → State
  | [], s => s
  | r :: rs, s =>
    let a := s.eng.arb.getD r ⟨0, 0, 0⟩
    State.arbCopy rs (((s.wr (R.ARB_GRANT r) (BitVec.ofNat 32 a.grants)).wr (R.ARB_WAIT_LO r)
      (BitVec.ofNat 32 a.wait)).wr (R.ARB_WAIT_HI r) (BitVec.ofNat 32 (a.longest * 65536 + a.wait / 2 ^ 32)))

/-- ARB_CTL.SNAP, with CLR (R174). -/
def State.arbSnap (s : State) (clr : Bool) : State :=
  let s := (State.arbCopy (List.range 12) s).setPair R.ARB_SNAP_BLK_LO R.ARB_SNAP_BLK_HI s.clk.blk
  if clr then
    (s.setF R.ARB_STS F.ARB_STS_OVR 0).modEngines (fun y => { y with arb := List.replicate 12 ⟨0, 0, 0⟩ })
  else s

/-! ### Lanes of a cluster (R208) -/

/-- The lanes of an engine that leaves STOP take the sources that their registers give, or 0x3FF with the error bits. -/
def State.lanesAgain : List Nat → State → State
  | [], s => s
  | l :: ls, s =>
    let x := s.route (.lane l)
    let w := s.wanted (.lane l)
    let s1 := if x.busy || x.cur.sel == w.sel then s
      else (s.setRoute (.lane l) { x with cur := { x.cur with sel := w.sel } }).routeShow (.lane l)
    let s2 := if s.rendersAhead (l / 16) && !s.sourceOk l (s.fld (R.MP_LANE_SRC l) F.MP_LANE_SRC_SRC) then
      (s1.setF (R.MP_LANE_STS l) F.MP_LANE_STS_SRC_ERR 1).setF R.MP_GLB_STS F.MP_GLB_STS_SRC_ERR 1 else s1
    State.lanesAgain ls s2

/-! ### The swap sequence (R152) -/

/-- The blocks of SWAP_FADE. -/
def State.swapFade (s : State) (n : Nat) : Nat := fadeSamples (s.fld (R.ENG_CTL n) F.ENG_CTL_SWAP_FADE) / 16

/-- ENG_ADMIT.CYC and ENG_MEM of the program in effect; without one, the buffers alone. -/
def State.admitShow (s : State) (n : Nat) : State :=
  let (cyc, sram, dram) : Nat × Nat × Nat := match (s.engX n).running with
    | some p => (p.cyc, p.sram, p.dramBlk)
    | none => (if s.rendersAhead n then concealCost else 0, 128, 0)
  ((s.setF (R.ENG_ADMIT n) F.ENG_ADMIT_CYC (cyc / 4)).setF (R.ENG_MEM n) F.ENG_MEM_SRAM sram).setF (R.ENG_MEM n)
    F.ENG_MEM_DRAM_BLK dram

/-- The words of a parameter image in data SRAM, from 0x2000 on (R148). -/
def pimgWords (p : Prog) : List (Nat × Word) := (List.range p.pimg.length).map (fun i => (0x800 + i, p.pimg.getD i 0))

/-- Step 3 at data block G (R152): the new program is copied and its state placed, or the engine halts. -/
def State.swapLoad (s : State) (n mode k : Nat) : State :=
  let s := s.setF (R.ENG_STS n) F.ENG_STS_PHASE 2
  match mode with
  | 2 =>
    (s.modEng n (fun x => { x with
      running := x.staged, staged := none, irs := [], irFade := []
      params := (x.staged.map pimgWords).getD [] })).setF (R.ENG_STS n) F.ENG_STS_STAGED 0
  | 0 =>
    let s := s.modEng n (fun x => { x with running := none, params := [], irs := [], irFade := [], busy := none, queue := [] })
    let s := ((s.setF (R.ENG_STS n) F.ENG_STS_MODE_ACT 0).setF (R.ENG_PROG_ID n) F.ENG_PROG_ID_ID 0).setPair
      (R.ENG_PROG_BLK_LO n) (R.ENG_PROG_BLK_HI n) k
    (s.maskShow n).admitShow n
  | _ => s.modEng n (fun x => { x with running := none, params := [], irs := [], irFade := [] })

/-- DOWN clears and CLUSTER_UP is raised (R369). -/
def State.clusterUp (s : State) (n k : Nat) : State :=
  if s.on (R.ENG_STS n) F.ENG_STS_DOWN then
    let s := (s.setF (R.ENG_STS n) F.ENG_STS_DOWN 0).raiseAt 0x0221 (0xF00 + n) (s.stampOf k 0) []
    s.modErr (fun y => { y with lost := y.lost.set n none })
  else s

/-- Step 4 at data block G + 1 (R152): the new mode is in effect. -/
def State.swapStart (s : State) (n mode k : Nat) : State :=
  let s := s.clusterUp n k
  let s := s.setF (R.ENG_STS n) F.ENG_STS_PHASE (if mode ≠ 0 ∧ s.swapFade n ≠ 0 then 3 else 0)
  if mode = 0 then s
  else
    let stopped := s.fld (R.ENG_STS n) F.ENG_STS_MODE_ACT == 0
    let id := ((s.engX n).running.map (·.id)).getD 0
    let s := (((s.setF (R.ENG_STS n) F.ENG_STS_MODE_ACT mode).setF (R.ENG_PROG_ID n) F.ENG_PROG_ID_ID id).setPair
      (R.ENG_PROG_BLK_LO n) (R.ENG_PROG_BLK_HI n) k).modEng n
      (fun x => if stopped then { x with next := k, misses := 0, conc := List.replicate 16 LaneConc.reset } else x)
    let s := ((s.maskShow n).admitShow n).raiseAt 0x0601 (0xF00 + n) (s.stampOf k 0) []
    if stopped then State.lanesAgain (addrs (fun j => 16 * n + j) 16) s else s

/-- The sequence of an engine at the boundary of block b (R152), by the step that PHASE shows. A counter that has passed G
loads at this boundary. -/
def State.swapStep (s : State) (n b : Nat) : State :=
  match (s.engX n).swap with
  | none => s
  | some w =>
    match s.engPhase n with
    | 1 =>
      if w.k + w.f ≤ b then (s.modEng n (fun x => { x with swap := some { w with k := b - w.f } })).swapLoad n w.mode b else s
    | 2 =>
      let s := s.swapStart n w.mode b
      if w.f = 0 ∨ w.mode = 0 then s.modEng n (fun x => { x with swap := none }) else s
    | _ =>
      if w.k + 2 * w.f + 1 ≤ b then (s.setF (R.ENG_STS n) F.ENG_STS_PHASE 0).modEng n (fun x => { x with swap := none })
      else s

/-- The sequences of the engines of a list. -/
def State.swapSteps (b : Nat) : List Nat → State → State
  | [], s => s
  | n :: ns, s => State.swapSteps b ns (s.swapStep n b)

/-- The sequence begins at block k (R152); with no fade, block k is the silent block. -/
def State.swapBegin (s : State) (n mode k : Nat) : State :=
  let f := s.swapFade n
  let s := ((s.modEng n (fun x => { x with swap := some ⟨mode, k, f⟩ })).setF (R.ENG_CTL n) F.ENG_CTL_MODE mode).setF
    (R.ENG_STS n) F.ENG_STS_PHASE 1
  if f = 0 then s.swapLoad n mode k else s

/-- The status that refuses PROG_START or ENGINE_MODE at its commit point (R151, R152). -/
def State.engModeBad (s : State) (n mode : Nat) : Option Status :=
  if s.swapping n then some .refusedBusy
  else if mode = 2 ∧ (s.engX n).staged = none then some .badParam
  else none

/-- PROG_START or ENGINE_MODE in effect at block k; a mode that is in effect changes nothing (R152, R153). -/
def State.engModeApply (s : State) (n mode k : Nat) : State :=
  if mode ≠ 2 ∧ mode = s.fld (R.ENG_STS n) F.ENG_STS_MODE_ACT ∧ ¬ s.on (R.ENG_STS n) F.ENG_STS_DOWN then s
  else s.swapBegin n mode k

/-- A write of ENG_CTL.MODE in effect at block k; `old` is the word before (R152, R153). -/
def State.engCtlCommit (s : State) (n : Nat) (old : Word) (k : Nat) : State :=
  let mode := s.fld (R.ENG_CTL n) F.ENG_CTL_MODE
  let back := s.setF (R.ENG_CTL n) F.ENG_CTL_MODE (old.fld F.ENG_CTL_MODE)
  if mode = old.fld F.ENG_CTL_MODE ∧ mode = s.fld (R.ENG_STS n) F.ENG_STS_MODE_ACT then s
  else if mode = 3 ∨ (mode = s.fld (R.ENG_STS n) F.ENG_STS_MODE_ACT ∧ ¬ s.on (R.ENG_STS n) F.ENG_STS_DOWN) then back
  else if s.swapping n || (mode == 2 && (s.engX n).staged.isNone) then back.setF (R.ENG_STS n) F.ENG_STS_CFG_ERR 1
  else s.swapBegin n mode k

/-! ### Parameter writes (R154 to R157) -/

/-- The words of data SRAM after a run of writes. -/
def putWords : Nat → List Word → List (Nat × Word) → List (Nat × Word)
  | _, [], l => l
  | a, w :: ws, l => putWords (a + 1) ws (putKey l a w)

/-- The slot that a CONV record's ACTIVE word names (R164). -/
def EngX.activeSlot (x : EngX) (r : ProgRec) : Nat := (lookupKey (0 : Word) x.params (r.poff / 4 + 1)).toNat % 2

/-- The samples of a CONV record's slot fade. -/
def convFade (r : ProgRec) : Nat := fadeSamples (argF r.arg 19 2)

/-- The end of a slot fade of `len` blocks after a change of ACTIVE at block k: a change during a fade waits for its end, and
one that turns back before the waiting change has begun takes its place. -/
def irFadeEnd (old : Option Nat) (k len : Nat) : Nat :=
  match old with
  | none => k + len
  | some e => if e ≤ k then k + len else if e < k + len then e + len else if k + len < e then e - len else e

/-- A parameter write of a running program in effect at block k; a change of ACTIVE begins a slot fade (R164). -/
def EngX.write (x : EngX) (i : Nat) (r : ProgRec) (off : Nat) (ws : List Word) (k : Nat) : EngX :=
  let y := { x with params := putWords (r.poff / 4 + off) ws x.params }
  if r.typ = 0x06 ∧ y.activeSlot r ≠ x.activeSlot r ∧ convFade r ≠ 0 then
    let e := irFadeEnd ((y.irFade.find? (fun p => p.1 == i)).map (·.2)) k (convFade r / 16)
    { y with irFade := (i, e) :: y.irFade.filter (fun p => p.1 != i) }
  else y

/-- A parameter write at the commit point of block k: DENIED unless the named program renders data block k, BAD_PARAM for a
range beyond PARAM_LEN (R154, R155). -/
def State.paramApply (s : State) (id : Option DescId) (n pid rec off : Nat) (ws : List Word) (k : Nat) : State :=
  let denied := s.finishOpt id ⟨.denied, false, false, false, noBlock, none⟩
  match (s.engX n).running with
  | none => denied
  | some p =>
    if p.id ≠ pid ∨ s.engPhase n = 2 ∨ s.on (R.ENG_STS n) F.ENG_STS_DOWN = true then denied
    else
      match p.recs[rec]? with
      | none => s.finishOpt id ⟨.badParam, false, false, false, noBlock, none⟩
      | some r =>
        if r.plen < 4 * (off + ws.length) then s.finishOpt id ⟨.badParam, false, false, false, noBlock, none⟩
        else (s.modEng n (fun x => x.write rec r off ws k)).finishOpt id (doneAt k)

/-- Words that a change copies into engine n (R157). -/
def paramWords (n : Nat) : Act → Nat
  | .param m _ _ _ ws => if m = n then ws.length else 0
  | _ => 0

/-- IR_LOAD (R164): the payload names a CONV record of the running program and a slot that is not in use. -/
def State.irLoad (s : State) (n : Nat) (bs : List Byte) : Status × State :=
  let rec_ := bytesAt bs 4 2
  let slot := bytesAt bs 6 1
  let ch := bytesAt bs 8 2
  let t := bytesAt bs 12 4
  if bs.length ≠ 16 + 4 * t ∨ bytesAt bs 7 1 ≠ 0 ∨ bytesAt bs 10 2 ≠ 0 ∨ 1 < slot then (.badParam, s)
  else
    let x := s.engX n
    match x.running with
    | none => (.denied, s)
    | some p =>
      if p.id ≠ bytesAt bs 0 4 ∨ s.engPhase n = 2 then (.denied, s)
      else
        match p.recs[rec_]? with
        | none => (.badParam, s)
        | some r =>
          if r.typ ≠ 0x06 ∨ r.c ≤ ch ∨ t = 0 ∨ argF r.arg 0 17 < t then (.badParam, s)
          else if x.activeSlot r = slot ∨ x.irFade.any (fun f => f.1 == rec_ && decide (s.clk.blk < f.2)) = true then
            (.refusedBusy, s)
          else
            let keep := x.irs.filter (fun q => !(q.1 == rec_ && q.2.1 == slot && q.2.2.1 == ch))
            (.done, s.modEng n (fun x => { x with irs := (rec_, slot, ch, wordsOf (bs.drop 16)) :: keep }))

/-! ### Writes that a guard drops (R153, R169, R170, R467) -/

/-- A window in units of 64 KiB that R169 allows for engine n. -/
def State.dramOk (s : State) (n : Nat) (v : Word) : Bool :=
  let b := v.fld F.ENG_DRAM_BASE
  let z := v.fld F.ENG_DRAM_SIZE
  s.fld (R.ENG_STS n) F.ENG_STS_MODE_ACT == 0 && decide (b + z ≤ 768) && (List.range 8).all (fun m =>
    m == n || z == 0 || s.fld (R.ENG_DRAM m) F.ENG_DRAM_SIZE == 0
      || decide (b + z ≤ s.fld (R.ENG_DRAM m) F.ENG_DRAM_BASE)
      || decide (s.fld (R.ENG_DRAM m) F.ENG_DRAM_BASE + s.fld (R.ENG_DRAM m) F.ENG_DRAM_SIZE ≤ b))

/-- A quota that R170 allows for engine n. -/
def State.quotaOk (s : State) (n : Nat) (v : Word) : Bool :=
  let q := v.fld F.ENG_QUOTA_QUOTA
  decide (s.fld (R.ENG_MEM n) F.ENG_MEM_DRAM_BLK ≤ q)
    && decide ((List.range 8).foldl (fun t m => t + if m = n then q else s.fld (R.ENG_QUOTA m) F.ENG_QUOTA_QUOTA) 0 ≤ 6144)

/-! ### Run-ahead settings and status (R209, R238) -/

/-- RUNAHEAD_SET. -/
def State.raSet (s : State) (bs : List Byte) : Status × State :=
  let n := bytesAt bs 0 1
  let h := bytesAt bs 1 1
  let m := bytesAt bs 2 1
  if bs.length ≠ 8 ∨ 7 < n ∨ h < 2 ∨ 48 < h ∨ m < 2 ∨ h < m ∨ (bs.drop 3).any (fun b => b != 0) = true then (.badParam, s)
  else if s.fld (R.ENG_STS n) F.ENG_STS_MODE_ACT ≠ 0 then (.refusedBusy, s)
  else (.done, s.modEng n (fun x => { x with lead := h, margin := m }))

/-- Log words that the rendered data blocks hold. -/
def EngX.logUsed (x : EngX) : Nat := x.queue.foldl (fun t r => t + r.words) 0

/-- Release-queue entries that the rendered data blocks hold. -/
def EngX.fxUsed (x : EngX) : Nat := x.queue.foldl (fun t r => t + r.effects.length) 0

/-- The 64 bytes of RUNAHEAD_STATUS. -/
def State.raStatus (s : State) (n : Nat) : List Byte :=
  let x := s.engX n
  let flags := (s.rendersAhead n).toNat + 2 * (x.queue.any (·.parison)).toNat
    + 4 * (decide (x.waitBlk = some s.clk.blk)).toNat + 8 * (decide (16384 < x.need)).toNat
  leBytes 1 n ++ leBytes 1 x.lead ++ leBytes 1 x.margin ++ leBytes 1 flags ++ leBytes 4 x.need ++ leBytes 4 x.logUsed
    ++ leBytes 4 x.logPeak ++ leBytes 8 x.rendered ++ leBytes 8 x.annealed ++ leBytes 4 x.squash ++ leBytes 4 x.replayed
    ++ leBytes 4 x.lateDrop ++ leBytes 4 x.waits ++ leBytes 4 x.concealed ++ leBytes 4 x.restart ++ leBytes 8 x.lastK0

/-- CLEAR of RUNAHEAD_STATUS: the counters at offsets 32 to 55, and LOG_PEAK. -/
def State.raClear (s : State) (n : Nat) : State :=
  s.modEng n (fun x => { x with squash := 0, replayed := 0, lateDrop := 0, waits := 0, concealed := 0, restart := 0
                                logPeak := x.logUsed })

/-! ### Concealment (R215, R216) -/

/-- Samples of data block k that a listener has in hub SRAM. -/
def State.heldMask (s : State) (st k : Nat) : Nat := lookupKey 0 (s.net.ls.getD st ⟨0, none, false, [], []⟩).held k

/-- CHANS of a listener or talker: 0 acts as 1, above 8 as 8. -/
def chansOf (v : Word) : Nat := max 1 (min 8 (v.fld F.NET_LS_CFG_CHANS))

/-- The samples of data block k that are missing on lane l of a cluster that renders ahead, as a mask (R215). -/
def State.missingMask (s : State) (l k : Nat) : Nat :=
  let r := (s.route (.lane l)).cur
  match listenerOf r.sel with
  | none => 0
  | some st =>
    if r.en && s.on (R.NET_LS_CFG st) F.NET_LS_CFG_EN && decide ((r.sel - 0x80) % 8 < chansOf (s.rd (R.NET_LS_CFG st))) then
      if s.listenerConverts st then 0xFFFF else 0xFFFF - s.heldMask st k
    else 0

/-- The network samples of data block k that lane l of a cluster which renders ahead has, none where one is missing; no list
for a lane without a listener (R215). -/
def State.heardOf (s : State) (l k : Nat) : List (Option Word) :=
  let r := (s.route (.lane l)).cur
  match listenerOf r.sel with
  | none => []
  | some st =>
    let miss := s.missingMask l k
    let x := s.net.ls.getD st ⟨0, none, false, [], []⟩
    (List.range 16).map (fun j =>
      if miss.testBit j then none else some ((lookupKey [] x.vals (16 * k + j)).getD ((r.sel - 0x80) % 8) 0))

/-- One sample through CONCEAL: the state after it, and whether it carries C (R216). -/
def LaneConc.step (x : LaneConc) (missing : Bool) : LaneConc × Bool :=
  match x.run, missing with
  | none, false => (x, false)
  | none, true => (⟨some 1, 0⟩, true)
  | some r, true => (⟨some (r + 1), 0⟩, true)
  | some r, false =>
    match x.fade with
    | 0 => (⟨some r, 15⟩, true)
    | 1 => (⟨none, 0⟩, true)
    | f + 1 => (⟨some r, f⟩, true)

/-- The samples from j on through CONCEAL: the state after the data block, and whether any of them carries C. -/
def concealFrom (mask : Nat) : Nat → Nat → LaneConc × Bool → LaneConc × Bool
  | 0, _, r => r
  | n + 1, j, (x, c) =>
    let (y, d) := x.step (mask.testBit j)
    concealFrom mask n (j + 1) (y, c || d)

/-! ### Release (R213, R230) -/

/-- The event code of a record's TYPE (R165). -/
def recEvent (typ : Nat) : Option Nat :=
  match typ with
  | 0x19 => some 0x0604
  | 0x1A => some 0x0605
  | 0x12 => some 0x0606
  | _ => none

/-- An effect is released (R165, R230, R344). -/
def State.releaseOne (s : State) (n k : Nat) (e : RecEffect) : State :=
  match e with
  | .event r smp =>
    let typ := match (s.engX n).running with
      | some p => (p.recs[r]?.map (·.typ)).getD 0
      | none => 0
    match recEvent typ with
    | some code => s.raiseAt code (0x1000 + 0x200 * n + r) (s.stampOf k smp) []
    | none => s
  | .meter ch peak rms =>
    if s.ringState 14 = ringRunning then
      if s.ringRoom 14 then
        s.ringPost 14 (leBytes 1 1 ++ leBytes 1 n ++ leBytes 2 ch ++ leBytes 4 peak.toNat ++ leBytes 4 rms.toNat
          ++ leBytes 4 0 ++ leBytes 8 k ++ leBytes 8 0)
      else s.incSat R.HIF_TRACE_CNT F.HIF_TRACE_CNT_METER_DROP
    else s
  | .contained =>
    let s := s.incSat R.MEM_LEVEL_CNT F.MEM_LEVEL_CNT_CONTAINED
    s.setF R.MEM_STS F.MEM_STS_WORST (max 2 (s.fld R.MEM_STS F.MEM_STS_WORST))

/-- The effects of a list are released. -/
def State.releaseAll (n k : Nat) : List RecEffect → State → State
  | [], s => s
  | e :: es, s => State.releaseAll n k es (s.releaseOne n k e)

/-- The held form of what a data block produces: METER channels are the record's first channel and on. -/
def State.effectsOf (s : State) (n : Nat) : List RecFx → List RecEffect
  | [] => []
  | .event r smp :: fs => .event r.val smp.val :: s.effectsOf n fs
  | .meter r vals :: fs =>
    let x := s.engX n
    let base := match x.running with
      | some p => match p.recs[r.val]? with
        | some rec_ => (lookupKey (0 : Word) x.params (rec_.poff / 4 + 1)).toNat
        | none => 0
      | none => 0
    ((List.range vals.length).map (fun c => .meter (base + c) (vals.getD c (0, 0)).1 (vals.getD c (0, 0)).2))
      ++ s.effectsOf n fs

/-! ### Alignment groups (R235, R236) -/

/-- A member data block of a lane counts as concealed or as clean (R235, R236). -/
def State.laneRun (s : State) (l : Nat) (c : Bool) : State :=
  s.modEngines (fun y => { y with runs := y.runs.modify l (fun r => if c then r + 1 else 0),
                                  clean := y.clean.modify l (fun r => if c then 0 else r + 1) })

/-- The data blocks of the lanes of a cluster count from lane l on. -/
def State.laneRuns : Nat → List Bool → State → State
  | _, [], s => s
  | l, c :: cs, s => State.laneRuns (l + 1) cs (s.laneRun l c)

/-- The lanes that ARR_LANE_AG assigns to a group slot. -/
def State.members (s : State) (g : Nat) : List Nat :=
  (List.range 128).filter (fun l => s.on (R.ARR_LANE_AG l) F.ARR_LANE_AG_EN
    && s.fld (R.ARR_LANE_AG l) F.ARR_LANE_AG_SLOT == g)

def State.holdGroup (s : State) (g : Nat) : Bool :=
  s.on (R.ARR_AG_CFG g) F.ARR_AG_CFG_EN && s.on (R.ARR_AG_CFG g) F.ARR_AG_CFG_HOLD_TOGETHER

/-- CONCEALING of the slots of a list. -/
def State.concealShow : List Nat → State → State
  | [], s => s
  | g :: gs, s =>
    State.concealShow gs (s.setBit R.ARR_AG_SUM g
      (s.holdGroup g && (s.members g).any (fun l => s.eng.runs.getD l 0 != 0)))

/-! ### Annealing (R213) -/

/-- The lanes of a data block that carry C. -/
def Rendered.concealed (r : Rendered) : Nat := (r.carries.filter (fun c => c)).length

/-- A data block of a cluster anneals: its effects are released and its log entries freed. -/
def State.annealOne (s : State) (n : Nat) (r : Rendered) : State :=
  let s := State.releaseAll n r.k r.effects s
  let s := s.modEng n (fun x => { x with
    annealed := r.k, concealed := (x.concealed + r.concealed) % 2 ^ 32, queue := x.queue.filter (fun q => q.k != r.k)
    given := (r.k, r.heard) :: x.given.take 3 })
  State.laneRuns (16 * n) r.carries s

/-- The data blocks of a list anneal in order. -/
def State.annealList (n : Nat) : List Rendered → State → State
  | [], s => s
  | r :: rs, s => State.annealList n rs (s.annealOne n r)

/-- Every cluster that renders ahead anneals the data blocks whose anneal point is at or before block b, in cluster order. -/
def State.annealAll (b : Nat) : List Nat → State → State
  | [], s => s
  | n :: ns, s =>
    let due := (s.engX n).queue.filter (fun r => decide (r.k + 2 ≤ b + (s.engX n).margin))
    State.annealAll b ns (State.annealList n due s)

/-! ### Rendering (R143, R211, R212, R229, R231) -/

/-- The engine renders: it is in PASS or RUN and its cluster is not down. -/
def State.renders (s : State) (n : Nat) : Bool :=
  s.fld (R.ENG_STS n) F.ENG_STS_MODE_ACT != 0 && !s.on (R.ENG_STS n) F.ENG_STS_DOWN

/-- The data block that an engine begins next: never one whose deadline has passed. -/
def State.nextData (s : State) (n : Nat) : Nat := max (s.engX n).next (s.clk.blk - 1)

/-- The log and the release queue have room for one data block (R229, R231). -/
def EngX.room (x : EngX) : Bool := decide (x.logUsed + x.need ≤ 16384) && decide (x.fxUsed + x.ents ≤ 1024)

/-- The engine waits in this block (R229). -/
def State.engWaits (s : State) (n : Nat) : State :=
  if (s.engX n).waitBlk = some s.clk.blk then s
  else (s.modEng n (fun x => { x with waitBlk := some s.clk.blk, waits := (x.waits + 1) % 2 ^ 32 })).raiseLimited
    second3 0x0611 (0xF00 + n)

/-- A data block of a cluster that renders ahead begins. -/
def State.beginAhead (s : State) (n k : Nat) (parison : Bool) : State :=
  let x := s.engX n
  let out := (List.range 16).map (fun j =>
    concealFrom (s.missingMask (16 * n + j) k) 16 0 (x.conc.getD j LaneConc.reset, false))
  s.modEng n (fun x => { x with
    busy := some ⟨k, parison, 0, out.map (·.2), x.conc, [], (List.range 16).map (fun j => s.heardOf (16 * n + j) k)⟩, conc := out.map (·.1), next := k, waitBlk := none })

/-- ENGINE_RENDER_START (R211). -/
def execEngineRenderStart (n : Fin 8) (s : State) : Out :=
  .next (
    let x := s.engX n
    let k := s.nextData n
    if s.renders n = false ∨ x.busy ≠ none then s
    else if s.rendersAhead n then
      if s.clk.blk + x.lead < k + 2 then s
      else
        let spec := decide (s.clk.blk + x.margin < k + 2) && decide (x.need ≤ 16384)
        if spec && !x.room then s.engWaits n else s.beginAhead n k spec
    else if s.clk.blk = k + 1 then s.modEng n (fun x => { x with busy := some ⟨k, false, 0, [], [], [], []⟩, next := k })
    else s)

/-- ENGINE_RENDER_DONE (R143, R212): the last record has run; `words` are the log words used, `fx` what the data block
produced. A final block releases its effects at once. -/
def execEngineRenderDone (n : Fin 8) (words : Nat) (fx : List RecFx) (s : State) : Out :=
  .next (
    let x := s.engX n
    match x.busy with
    | none => s
    | some r =>
      let r1 := { r with words := if r.parison then min words x.need else 0, effects := s.effectsOf n fx ++ List.replicate x.contained .contained }
      let s1 := s.modEng n (fun x => { x with busy := none, contained := 0, next := r.k + 1, rendered := r.k, misses := 0 })
      if r.parison then
        let s2 := s1.modEng n (fun x => { x with queue := x.queue ++ [r1] })
        s2.modEng n (fun x => { x with logPeak := max x.logPeak x.logUsed })
      else if s.rendersAhead n then s1.annealOne n r1
      else State.releaseAll n r.k r1.effects s1)

/-- The data block whose deadline an engine has missed (R167): in progress, or not begun by the end of its slot. -/
def State.missed (s : State) (n : Nat) : Option Nat :=
  let x := s.engX n
  let k := match x.busy with
    | some r => r.k
    | none => max x.next (s.clk.blk - 2)
  if s.renders n && decide (2 ≤ s.clk.blk) && decide (k + 2 ≤ s.clk.blk) then some k else none

/-- A missed deadline, but for the loss of the cluster (R167). -/
def State.engMiss (s : State) (n k : Nat) : State :=
  ((((s.incSat (R.ENG_CNT n) F.ENG_CNT_MISS).setF (R.ENG_STS n) F.ENG_STS_MISS 1).raise 0x0602 (0xF00 + n))).modEng n
    (fun x => { x with busy := none, next := k + 1, misses := x.misses + 1, breaks := (k, k) :: x.breaks.take 3
                       queue := x.queue.filter (fun r => r.k != k) })

/-- The cycles of a slot and its DRAM stall (R168, R170). -/
def State.engSlot (s : State) (n cycles stall : Nat) : State :=
  let u := min 0xFFFF (scaleCode cycles 4)
  let s := (s.setF (R.ENG_LOAD n) F.ENG_LOAD_LAST u).setF (R.ENG_LOAD n) F.ENG_LOAD_MAX
    (max u (s.fld (R.ENG_LOAD n) F.ENG_LOAD_MAX))
  let s := s.setF (R.ENG_QUOTA n) F.ENG_QUOTA_STALL_MAX
    (min 0xFFFF (max stall (s.fld (R.ENG_QUOTA n) F.ENG_QUOTA_STALL_MAX)))
  if 4 * s.fld (R.ENG_ADMIT n) F.ENG_ADMIT_WARN < cycles then
    (s.setF (R.ENG_STS n) F.ENG_STS_LOAD_HIGH 1).raiseLimited second3 0x0603 (0xF00 + n)
  else s

/-- The restart of a cluster that renders ahead when the block counter reloads to b (R233). -/
def State.aheadRestart (b : Nat) : List Nat → State → State
  | [], s => s
  | n :: ns, s =>
    State.aheadRestart b ns (
      if s.rendersAhead n then
        let k0 := match (s.engX n).queue ++ (s.engX n).busy.toList with
          | r :: _ => r.k
          | [] => (s.engX n).next
        ((s.squash n k0).modEng n (fun x => { x with
          busy := none, queue := [], next := b + x.margin - 2, conc := List.replicate 16 LaneConc.reset
          breaks := (b - 2, b + x.margin - 3) :: x.breaks.take 3
          restart := (x.restart + 1) % 2 ^ 32 })).raise 0x0612 (0xF00 + n)
      else s)

/-- CNT_CLR of ENG_GLB_CTL (R10). -/
def State.engCntClr (s : State) : State :=
  ((s.setAll F.ENG_LOAD_MAX 0 (addrs R.ENG_LOAD 8)).setAll F.ENG_QUOTA_STALL_MAX 0 (addrs R.ENG_QUOTA 8)).zeroAll
    (addrs R.ENG_CNT 8)

/-- ARB_MASK_CHANGE (R173): the mask of a requester follows its condition; its counters hold while it is masked. -/
def execArbMaskChange (r : Fin 12) (s : State) : Out := .next (s.maskShow r)

/-! ### Group events -/

/-- The 8 bytes of a number in an event's detail. -/
def detail8 (x : Nat) : List Nat := (leBytes 8 x).map (·.toNat)

/-- GROUP_MUTED (R236): a member's run reached N + 1 at data block j. -/
def execGroupMuted (g : Fin 16) (j : Nat) (s : State) : Out :=
  .next (if s.holdGroup g = true ∧ s.bit R.ARR_AG_SUM (16 + g) = false
      ∧ (s.members g).any (fun l => decide (max 1 (s.fld (R.ARR_AG_CFG g) F.ARR_AG_CFG_N) < s.eng.runs.getD l 0)) = true then
    ((s.setBit R.ARR_AG_SUM (16 + g) true).modEngines (fun y => { y with mutes := (g.val, j, true) :: y.mutes.take 31 })).raise 0x0613 (0x640 + g) (detail8 j ++ [s.fld (R.ARR_AG_CFG g) F.ARR_AG_CFG_ID])
  else s)

/-- GROUP_UNMUTED (R236): every member has had 12 data blocks that are not concealed; `j` is the last of them. -/
def execGroupUnmuted (g : Fin 16) (j : Nat) (s : State) : Out :=
  .next (if s.bit R.ARR_AG_SUM (16 + g) = true ∧ (s.members g).all (fun l => decide (12 ≤ s.eng.clean.getD l 0)) = true then
    ((s.setBit R.ARR_AG_SUM (16 + g) false).modEngines (fun y => { y with mutes := (g.val, j + 1, false) :: y.mutes.take 31 })).raise 0x0614 (0x640 + g) (detail8 j ++ [s.fld (R.ARR_AG_CFG g) F.ARR_AG_CFG_ID])
  else s)

end Sys2Proof.Machine
end

