-- ==== Sys2Proof/Machine/Net.lean ====
section
/-!
DEFINITION. The network (chapter 6): ports and the switch, array time, listeners, talkers, Bridle.
-/
namespace Sys2Proof.Machine

/-! ### Addresses -/

/-- The MAC that a pair of registers holds: octets 0 and 1 in HI, octets 2 to 5 in LO. -/
def State.macAt (s : State) (lo hi : Nat) : Mac :=
  BitVec.ofNat 48 ((s.rd hi).toNat % 65536 * 2 ^ 32 + (s.rd lo).toNat)

def State.ownMac (s : State) : Mac := s.macAt R.NET_MAC_LO R.NET_MAC_HI

/-- The low bit of octet 0: a group address. -/
def isGroup (m : Mac) : Bool := m.getLsbD 40

def macBroadcast : Mac := BitVec.allOnes 48

/-! ### Ports (R175) -/

/-- A port passes frames: it is enabled, and an SGMII port has its link. -/
def State.portUp (s : State) (p : Nat) : Bool :=
  s.on (R.NET_PORT_CFG p) F.NET_PORT_CFG_EN && (p == 2 || s.on (R.NET_PORT_STS p) F.NET_PORT_STS_LINK)

/-- NET_LINK_UP (R175): the partner's speed in Mb/s and full duplex. Other speeds are known only from the control word. -/
def execNetLinkUp (p : Fin 2) (mbps : Nat) (full : Bool) (s : State) : Out :=
  .next (
    let an := s.on (R.NET_PORT_CFG p) F.NET_PORT_CFG_AN_EN
    if s.on (R.NET_PORT_CFG p) F.NET_PORT_CFG_EN = false ∨ s.on (R.NET_PORT_STS p) F.NET_PORT_STS_LINK = true then s
    else
      let s := s.setF (R.NET_PORT_STS p) F.NET_PORT_STS_AN_DONE an.toNat
      if an && (mbps != 1000 || !full) then s
      else ((s.setF (R.NET_PORT_STS p) F.NET_PORT_STS_LINK 1).setF (R.NET_PORT_STS p) F.NET_PORT_STS_LINK_CHG 1).raise
        0x0701 (0x620 + p))

/-- A port loses its link. -/
def State.portDown (s : State) (p : Nat) : State :=
  if s.on (R.NET_PORT_STS p) F.NET_PORT_STS_LINK then
    (((s.setF (R.NET_PORT_STS p) F.NET_PORT_STS_LINK 0).setF (R.NET_PORT_STS p) F.NET_PORT_STS_LINK_CHG 1).setF
      (R.NET_PORT_STS p) F.NET_PORT_STS_AN_DONE 0).raise 0x0702 (0x620 + p)
  else s

/-- NET_LINK_DOWN (R175). -/
def execNetLinkDown (p : Fin 2) (s : State) : Out := .next (s.portDown p)

/-- NET_MDIO_CTL.GO (R175): a frame that runs is not disturbed. -/
def State.mdioGo (s : State) : State :=
  let v := s.rd R.NET_MDIO_CTL
  if s.on R.NET_MDIO_CTL F.NET_MDIO_CTL_BUSY then s
  else
    (s.setF R.NET_MDIO_CTL F.NET_MDIO_CTL_BUSY 1).emit (.mdio (v.fld F.NET_MDIO_CTL_READ == 1) (v.fld F.NET_MDIO_CTL_PHY)
          (v.fld F.NET_MDIO_CTL_REG) (s.fld R.NET_MDIO_DATA F.NET_MDIO_DATA_DATA))

/-- MDIO_DONE (R175): `data` is what a read frame brought. -/
def execMdioDone (data : BitVec 16) (s : State) : Out :=
  .next (if s.on R.NET_MDIO_CTL F.NET_MDIO_CTL_BUSY then
    let s1 := s.setF R.NET_MDIO_CTL F.NET_MDIO_CTL_BUSY 0
    if s.on R.NET_MDIO_CTL F.NET_MDIO_CTL_READ then s1.setF R.NET_MDIO_DATA F.NET_MDIO_DATA_DATA data.toNat else s1
  else s)

/-- The idle slopes of classes A and B keep within 750 Mb/s (R177); `b` names the class that is written. -/
def State.shaperOk (s : State) (p : Nat) (b : Bool) (v : Word) : Bool :=
  let other := if b then s.fld (R.NET_PORT_SHP_A p) F.NET_PORT_SHP_A_IDLE else s.fld (R.NET_PORT_SHP_B p) F.NET_PORT_SHP_B_IDLE
  decide (v.fld F.NET_PORT_SHP_A_IDLE + other ≤ 750000)

/-! ### Zhevdom acceptance (R190, R191) -/

/-- The part address: values above 4,095 act as 0xFFFF. -/
def State.zvAddr (s : State) : Nat :=
  let a := s.fld R.NET_ZV_ADDR F.NET_ZV_ADDR_ADDR
  if 4095 < a then 0xFFFF else a

/-- A message is addressed to this part (R190). -/
def State.zvToUs (s : State) (d : Nat) : Bool :=
  d == 0xFFFF || (d == 0xFFFE && s.zvAddr == 0xFFFF) || (d == s.zvAddr && decide (d ≤ 4095))
    || (List.range 16).any (fun g => s.on (R.ARR_AG_CFG g) F.ARR_AG_CFG_EN
      && d == 0x1000 + s.fld (R.ARR_AG_CFG g) F.ARR_AG_CFG_ID)

/-- Entry i is valid. -/
def State.ctrlValid (s : State) (i : Nat) : Bool := s.on (R.NET_ZV_CTRL_HI i) F.NET_ZV_CTRL_HI_VALID

/-- The valid controller entry of a source MAC. -/
def State.ctrlOf (s : State) (m : Mac) : Option Nat :=
  (List.range 8).find? (fun i => s.ctrlValid i && decide (s.macAt (R.NET_ZV_CTRL_LO i) (R.NET_ZV_CTRL_HI i) = m))

/-- How a message meets the trust model (R191): ignored, refused, or accepted from an entry, or from anyone while no entry
is valid. -/
inductive ZvTake where
  | ignore | refuse | accept (entry : Option Nat)

/-- The decision for a message of a TYPE (R190, R191, R193). -/
def State.zvTake (s : State) (typ : Nat) (m : ZvMsg) : ZvTake :=
  if !s.on R.NET_ZV_CFG F.NET_ZV_CFG_EN || m.version != 1 || !s.zvToUs m.dest then .ignore
  else
    match s.ctrlOf m.src with
    | some i =>
      if typ = 0x05 ∧ s.on (R.NET_ZV_CTRL_HI i) F.NET_ZV_CTRL_HI_PRIO = false then .refuse else .accept (some i)
    | none =>
      if (typ == 1 || typ == 2) && s.on R.NET_ZV_CFG F.NET_ZV_CFG_OPEN_DISC && (List.range 8).all (fun i => !s.ctrlValid i)
      then .accept none else .refuse

/-- A message of another part that carries this part's address (R195). -/
def State.zvConflict (s : State) (typ : Nat) (m : ZvMsg) : State :=
  if (typ == 6 || typ == 7) && decide (m.src ≠ s.ownMac) && m.sender == s.zvAddr && s.zvAddr != 0xFFFF then
    (s.setF R.NET_ZV_ADDR F.NET_ZV_ADDR_CONFLICT 1).raise 0x0709 0x631
  else s

/-- A refused message is counted (R191). -/
def State.zvRefuse (s : State) (typ : Nat) (m : ZvMsg) : State :=
  match s.zvTake typ m with
  | .refuse => (s.incSat R.NET_ZV_CNT F.NET_ZV_CNT_REJECTED).raiseLimited second3 0x0708 0x631
  | _ => s

/-! ### The switch (R176, R177) -/

/-- A port counter counts one up; it wraps. -/
def State.portCnt (s : State) (p k : Nat) : State := s.incWrap (R.NET_PORT_CNT p k) F.NET_PORT_CNT_COUNT

/-- The ports of the NET_FDB entry of a destination. -/
def State.fdbPorts (s : State) (m : Mac) : Option Nat :=
  ((List.range 128).find? (fun e => s.on (R.NET_FDB_HI e) F.NET_FDB_HI_VALID
    && decide (s.macAt (R.NET_FDB_LO e) (R.NET_FDB_HI e) = m))).map (fun e => s.fld (R.NET_FDB_HI e) F.NET_FDB_HI_PORTS)

/-- Port 2 takes a flooded frame (rule 5 of R176). -/
def State.macTakes (s : State) (d : Mac) : Bool :=
  decide (d = macBroadcast) || decide (d = s.macAt R.NET_ZV_MCAST_LO R.NET_ZV_MCAST_HI) || decide (d = s.ownMac)
    || (List.range 16).any (fun st => decide (s.macAt (R.NET_LS_DMAC_LO st) (R.NET_LS_DMAC_HI st) = d))

/-- The class of a tagged frame: PCP 3 class A, PCP 2 class B (R177). -/
def frameClass (f : EthFrame) : Option Bool :=
  match f.pcp with
  | some p => if p.val = 3 then some false else if p.val = 2 then some true else none
  | none => none

/-- Where a frame goes (R176): none for one that rule 4 drops. -/
def State.route6 (s : State) (p : Nat) (f : EthFrame) : Option (List Nat) :=
  match s.fdbPorts f.dst with
  | some m => some ((List.range 3).filter (fun q => m.testBit q))
  | none =>
    match (if isGroup f.dst then none else s.net.learned.find? (fun e => decide (e.mac = f.dst))) with
    | some e => some [e.port]
    | none =>
      if isGroup f.dst && (frameClass f).isSome then none
      else some ((List.range 3).filter (fun q => q != p && (q != 2 || s.macTakes f.dst)))

/-- A frame on one egress port: the class needs its shaper, and a buffer. -/
def State.egress (s : State) (q : Nat) (f : EthFrame) : State :=
  if !s.portUp q then s
  else
    let pass := match frameClass f with
      | some false => s.on (R.NET_PORT_SHP_A q) F.NET_PORT_SHP_A_EN
      | some true => s.on (R.NET_PORT_SHP_B q) F.NET_PORT_SHP_B_EN
      | none => true
    if !pass then s
    else if f.full.getLsbD q then s.portCnt q 2
    else
      let s := s.portCnt q 3
      let s := match frameClass f with
        | some false => s.portCnt q 4
        | some true => s.portCnt q 5
        | none => s
      s.emit (.forward (2 ^ q) f.dst f.src)

/-- A frame on the egress ports of a list. -/
def State.egressAll (f : EthFrame) : List Nat → State → State
  | [], s => s
  | q :: qs, s => State.egressAll f qs (s.egress q f)

/-- Addresses that the switch can learn (R176). -/
def learnedMax : Nat := 1024

/-- The source of a frame is learned, or its use is noted (R176); a full table learns no more. -/
def State.learn (s : State) (p : Nat) (m : Mac) : State :=
  if !s.on (R.NET_PORT_CFG p) F.NET_PORT_CFG_LEARN || isGroup m then s
  else
    let rest := s.net.learned.filter (fun e => decide (e.mac ≠ m))
    if rest.length < learnedMax then s.modNet (fun y => { y with learned := ⟨m, p, s.clk.now3⟩ :: rest }) else s

/-- The use of a learned destination is noted. -/
def State.useLearned (s : State) (m : Mac) : State :=
  s.modNet (fun y => { y with learned := y.learned.map (fun e => if e.mac = m then { e with used := s.clk.now3 } else e) })

/-- FRAME_RECEIVE (R176): a frame arrives at a port. -/
def execFrameReceive (p : Fin 3) (f : EthFrame) (s : State) : Out :=
  .next (if !s.portUp p then s
  else if !f.good then s.portCnt p 1
  else
    let s := (s.portCnt p 0).learn p f.src
    if f.etype = 0x88F7 then s.portCnt p 7
    else
      let s := s.useLearned f.dst
      match s.route6 p f with
      | none => s.portCnt p 6
      | some qs =>
        let s := State.egressAll f qs s
        match f.zv with
        | some (typ, m) =>
          if qs.contains 2 && f.etype == s.fld R.NET_ZV_CFG F.NET_ZV_CFG_ETYPE && f.pcp.isNone then
            (s.zvConflict typ m).zvRefuse typ m
          else s
        | none => s)

/-- FDB_AGEING (R176): 300 s without use. -/
def execFdbAgeing (m : Mac) (s : State) : Out :=
  .next (s.modNet (fun y => { y with learned := y.learned.filter (fun e => !(decide (e.mac = m) && decide
                                     (e.used + 300 * second3 ≤ s.clk.now3))) }))

/-! ### Array time (R178 to R181) -/

def State.ptpState (s : State) : Nat := s.fld R.ARR_PTP_STS F.ARR_PTP_STS_STATE

/-- The audio PLL is locked to array time. -/
def State.pllOnTime (s : State) : Bool := s.sap.ref == 3 && s.on R.CLK_APLL_STS F.CLK_APLL_STS_LOCK

/-- BLK_ALIGN and ALIGNED follow the reference, the lock and the servo (R28, R179, R206). -/
def State.alignShow (s : State) : State :=
  let ok := s.pllOnTime && s.ptpState == 2
  let was := s.on R.ARR_BRIDLE_STS F.ARR_BRIDLE_STS_ALIGNED
  let s := (s.setF R.ARR_PTP_STS F.ARR_PTP_STS_BLK_ALIGN (ok && decide (s.net.ptp.hops ≤ 7)).toNat).setF R.ARR_BRIDLE_STS
    F.ARR_BRIDLE_STS_ALIGNED ok.toNat
  if ok && !was then s.raise 0x070B 0x632 else if was && !ok then s.raise 0x070C 0x632 else s

def State.modPtp (s : State) (f : PtpX → PtpX) : State := s.modNet (fun y => { y with ptp := f y.ptp })

/-- The servo enters a state. -/
def State.ptpTo (s : State) (st : Nat) : State :=
  let s := (s.setF R.ARR_PTP_STS F.ARR_PTP_STS_STATE st).modPtp (fun x => { x with near := 0, holdAt := s.clk.now3 })
  let s := if st = 2 then s.raise 0x0703 0x630 else if st = 3 then s.raise 0x0704 0x630 else s
  s.alignShow

/-- The servo is free: no grandmaster. -/
def State.ptpFree (s : State) : State :=
  ((s.setF R.ARR_PTP_STS F.ARR_PTP_STS_SLAVE_PORT 2).modPtp (fun x => { x with gm := none })).ptpTo 0

/-- Half a block in thirds of ns (R181). -/
def halfBlock3 : Nat := 250000

/-- Array time steps by a whole offset (R180, R181); it never goes below zero. -/
def State.timeStep (s : State) (off : Int) : State :=
  let now := ((s.clk.now3 : Int) - 3 * off).toNat
  let s := (s.modClk (fun y => { y with now3 := now })).incSat R.ARR_CNT F.ARR_CNT_STEP
  let s := s.setF R.ARR_PTP_STS F.ARR_PTP_STS_STEPPED 1
  if halfBlock3 ≤ 3 * off.natAbs ∧ s.sap.ref = 3 then
    (s.modClk (fun y => { y with reload := true })).modPtp (fun x => { x with step := true })
  else s

/-- PTP_SYNC (R179, R180): a Sync of a grandmaster at a port, so many switch hops away, with the offset in ns. -/
def execPtpSync (p : Fin 2) (gm : BitVec 64) (hops : Nat) (off : Int) (s : State) : Out :=
  .next (if !s.on R.ARR_PTP_CFG F.ARR_PTP_CFG_EN || !s.portUp p || !s.on (R.NET_PORT_CFG p) F.NET_PORT_CFG_PTP_EN then s
  else
    let fresh := s.net.ptp.gm ≠ some gm.toNat
    let s := ((s.setPair R.ARR_PTP_GM_LO R.ARR_PTP_GM_HI gm.toNat).setF R.ARR_PTP_STS F.ARR_PTP_STS_SLAVE_PORT p.val).setF
      R.ARR_PTP_STS F.ARR_PTP_STS_IS_GM 0
    let s := s.modPtp (fun x => { x with gm := some gm.toNat, hops := hops, lastSync := s.clk.now3 })
    let s := if fresh ∨ s.ptpState = 0 ∨ s.ptpState = 3 then s.ptpTo 1 else s
    let s := s.wr R.ARR_PTP_OFS (BitVec.ofInt 32 (max (-0x80000000) (min 0x7FFFFFFF off)))
    if 10000 < off.natAbs then ((s.timeStep off).modPtp (fun x => { x with near := 0 })).alignShow
    else if off.natAbs < 50 then
      let s := s.modPtp (fun x => { x with near := x.near + 1 })
      if s.ptpState = 1 ∧ 16 ≤ s.net.ptp.near then s.ptpTo 2 else s.alignShow
    else (s.modPtp (fun x => { x with near := 0 })).alignShow)

/-- The Sync interval in thirds of ns (ARR_PTP_CFG.SYNC_INTV). -/
def State.syncInterval3 (s : State) : Nat :=
  second3 / 8 * 2 ^ s.fld R.ARR_PTP_CFG F.ARR_PTP_CFG_SYNC_INTV

/-- SYNC_TIMEOUT (R179): 3 Sync intervals without a Sync while LOCKED. -/
def execSyncTimeout (s : State) : Out :=
  .next (if s.ptpState = 2 ∧ s.net.ptp.lastSync + 3 * s.syncInterval3 ≤ s.clk.now3 then s.ptpTo 3 else s)

/-- HOLDOVER_EXPIRE (R179): 60 s in HOLDOVER. -/
def execHoldoverExpire (s : State) : Out :=
  .next (if s.ptpState = 3 ∧ s.net.ptp.holdAt + 60 * second3 ≤ s.clk.now3 then s.ptpFree else s)

/-- ANNOUNCE_TIMEOUT (R178, R179): announces time out; `other` tells whether the best master clock algorithm finds another
master. Without one the servo is free, and the part becomes grandmaster unless PRIO1 is 255; its own clock identity is a
free value. -/
def execAnnounceTimeout (other : Bool) (s : State) : Out :=
  .next (if other ∨ s.on R.ARR_PTP_CFG F.ARR_PTP_CFG_EN = false then s
  else
    let s1 := s.ptpFree
    if s.fld R.ARR_PTP_CFG F.ARR_PTP_CFG_PRIO1 = 255 then s1
    else
      let (v, s2) := s1.fresh 64
      (s2.setPair R.ARR_PTP_GM_LO R.ARR_PTP_GM_HI v.toNat).setF R.ARR_PTP_STS F.ARR_PTP_STS_IS_GM 1)

/-- What a write of ARR_PTP_CFG runs: EN at 0 is FREE. -/
def State.ptpCfgWritten (s : State) : State :=
  if s.on R.ARR_PTP_CFG F.ARR_PTP_CFG_EN = false ∧ s.ptpState ≠ 0 then s.ptpFree else s

/-- PDELAY_TIMER (R178): a gPTP port measures its peer delay; none where the peer does not answer. -/
def execPdelayTimer (p : Fin 2) (delay : Option Nat) (s : State) : Out :=
  .next (if !s.on R.ARR_PTP_CFG F.ARR_PTP_CFG_EN || !s.portUp p || !s.on (R.NET_PORT_CFG p) F.NET_PORT_CFG_PTP_EN then s
  else
    match delay with
    | none => s.setF (R.ARR_PDELAY p) F.ARR_PDELAY_AS_CAPABLE 0
    | some d =>
      (s.setF (R.ARR_PDELAY p) F.ARR_PDELAY_AS_CAPABLE 1).setF (R.ARR_PDELAY p) F.ARR_PDELAY_DELAY (min 0xFFFF d))

/-! ### Listeners (R182 to R186, R215, R217) -/

def State.lsX (s : State) (st : Nat) : ListenerX := s.net.ls.getD st ⟨0, none, false, [], []⟩

def State.modLs (s : State) (st : Nat) (f : ListenerX → ListenerX) : State :=
  s.modNet (fun y => { y with ls := y.ls.modify st f })

/-- The part accepts a frame (R182). -/
def State.aafOk (s : State) (st : Nat) (f : AafFrame) : Bool :=
  let cfg := s.rd (R.NET_LS_CFG st)
  (match f.fmt with
    | .int32 d => decide (16 ≤ d ∧ d ≤ 32)
    | .int24 => true
    | .other => false)
    && f.khz == (if cfg.fld F.NET_LS_CFG_NSR = 1 then 48 else 96) && decide (1 ≤ f.count ∧ f.count ≤ 64) && f.tv
    && f.chans == chansOf cfg

/-- The 64-bit time of a 32-bit timestamp nearest to now (R184). -/
def State.extendTs (s : State) (ts : Word) : Int :=
  (s.nowNs : Int) + sgn 32 ((ts - BitVec.ofNat 32 s.nowNs).toNat)

/-- The sample of the block counter, 16 k + s, whose slot start lies nearest a time in thirds of ns (R184). -/
def State.slotNear (s : State) (t3 : Int) : Int :=
  let d := t3 - s.clk.now3
  let q := d / 31250
  let r := d % 31250
  (16 * s.clk.blk + s.clk.smp : Nat) +
    (if r < 15625 then q else if 15625 < r then q + 1 else q + (Config.roundUp d.natAbs 31250).toNat)

/-- The lanes that take channel c of stream s. -/
def State.lanesOf (s : State) (st c : Nat) : List Nat :=
  (List.range 128).filter (fun l => (s.route (.lane l)).cur.sel == 0x80 + 8 * st + c && (s.route (.lane l)).cur.en)

/-- Late samples of a listener (R185, R217). -/
def State.lateCount (s : State) (st n : Nat) : State :=
  if n = 0 then s
  else (s.addSat (R.NET_LS_ERR st) F.NET_LS_ERR_LATE n).setF (R.NET_LS_STS st) F.NET_LS_STS_LATE 1

/-- One sample of a channel for the lanes of clusters that render ahead (R217, R219). -/
def State.sampleAhead (s : State) (st k : Nat) : List Nat → State
  | [] => s
  | l :: ls =>
    let s := State.sampleAhead s st k ls
    let n := l / 16
    if !s.rendersAhead n then s
    else if k + 2 ≤ s.clk.blk + (s.engX n).margin then
      ((s.lateCount st 1).modEng n (fun x => { x with lateDrop := (x.lateDrop + 1) % 2 ^ 32 })).raiseLimited second3
        0x0610 (0xF00 + n)
    else s

/-- One sample of one channel: data sample x. -/
def State.sampleOne (s : State) (st c x : Nat) : State :=
  let ls := s.lanesOf st c
  let past := decide (x ≤ 16 * s.clk.blk + s.clk.smp)
  let s := if past && (ls.isEmpty || ls.any (fun l => !s.rendersAhead (l / 16))) then s.lateCount st 1 else s
  s.sampleAhead st (x / 16) ls

/-- One sample on the channels of a list. -/
def State.sampleChans (st x : Nat) : List Nat → State → State
  | [], s => s
  | c :: cs, s => State.sampleChans st x cs (s.sampleOne st c x)

/-- The samples of a frame from index j on: those in time are held, data blocks that have passed are dropped. -/
def State.placeSamples (st chans : Nat) (t0 : Int) (data : List (List Word)) : Nat → Nat → State → State
  | 0, _, s => s
  | n + 1, j, s =>
    let x := s.slotNear (3 * t0 + 31250 * j)
    let s := if x < 0 then s else State.sampleChans st x.toNat (List.range chans) s
    let s := if (16 * s.clk.blk + s.clk.smp : Nat) < x then
      let k := x.toNat / 16
      s.modLs st (fun l => { l with
        held := putKey l.held k (lookupKey 0 l.held k ||| 2 ^ (x.toNat % 16)), vals := putKey l.vals x.toNat (data.getD j []) })
      else s
    State.placeSamples st chans t0 data n (j + 1) s

/-- The first data block of a frame that a cluster has rendered and not annealed, where a lane of it takes the stream. -/
def State.squashFrame (st chans : Nat) (ks : List Nat) : List Nat → State → State
  | [], s => s
  | n :: ns, s =>
    let takes := s.rendersAhead n && (List.range chans).any (fun c => (s.lanesOf st c).any (fun l => l / 16 == n))
    let due := ks.filter (fun k => decide (s.clk.blk + (s.engX n).margin < k + 2) && !((s.engX n).victims k).isEmpty
      && (((s.engX n).victims k).any (fun r => r.k == k)))
    State.squashFrame st chans ks ns (if takes then
      match due with
      | [] => s
      | k :: _ => s.squash n k
    else s)

/-- The data blocks of a frame, rising. -/
def State.frameBlocks (s : State) (t0 : Int) (n : Nat) : List Nat :=
  ((List.range n).map (fun (j : Nat) => (s.slotNear (3 * t0 + 31250 * j)).toNat / 16)).eraseDups

/-- A valid frame of a stream (R184, R186). -/
def State.frameTaken (s : State) (st : Nat) (f : AafFrame) : State :=
  let t0 := s.extendTs f.ts
  let x := s.lsX st
  let a := R.NET_LS_STS st
  let gap := match x.seq with
    | some q => q != f.seq % 256
    | none => false
  let s := ((s.setF a F.NET_LS_STS_ACTIVE 1).wr (R.NET_LS_TS st) f.ts).wr (R.NET_LS_OFS st)
    (BitVec.ofInt 32 (t0 - s.nowNs))
  let s := if gap then (s.incSat (R.NET_LS_ERR st) F.NET_LS_ERR_SEQ).setF a F.NET_LS_STS_SEQ_ERR 1 else s
  let s := if x.lost then s.raise 0x0707 (0x600 + st) else s
  let conv := s.listenerConverts st
  let s := s.modLs st (fun x =>
    { x with heard := s.clk.blk, seq := some ((f.seq + 1) % 256), lost := false
             held := x.held.filter (fun h => decide (s.clk.blk ≤ h.1 + 3))
             vals := x.vals.filter (fun v => decide (16 * s.clk.blk ≤ v.1 + 48)) })
  if conv then s
  else State.squashFrame st f.chans (s.frameBlocks t0 f.count) (List.range 8)
    (State.placeSamples st f.chans t0 f.data f.count 0 s)

/-- LISTENER_FRAME (R182, R184): a frame of stream s. -/
def execListenerFrame (st : Fin 16) (f : AafFrame) (s : State) : Out :=
  .next (if s.on (R.NET_LS_CFG st) F.NET_LS_CFG_EN then
    let s1 := s.incWrap (R.NET_LS_FRAMES st) F.NET_LS_FRAMES_COUNT
    if s1.aafOk st f then s1.frameTaken st f else s1.setF (R.NET_LS_STS st) F.NET_LS_STS_FMT_ERR 1
  else s)

/-- STREAM_LOST (R186): 12 blocks with no valid frame. -/
def execStreamLost (st : Fin 16) (s : State) : Out :=
  .next (if s.on (R.NET_LS_CFG st) F.NET_LS_CFG_EN = true ∧ (s.lsX st).lost = false
      ∧ (s.lsX st).heard + 12 ≤ s.clk.blk then
    (((s.setF (R.NET_LS_STS st) F.NET_LS_STS_LOST 1).setF (R.NET_LS_STS st) F.NET_LS_STS_ACTIVE 0).modLs st
      (fun x => { x with lost := true })).raise 0x0706 (0x600 + st)
  else s)

/-- CHANS, CLASS and NSR change only while EN is 0 (R189); the field places are the same for listeners and talkers. -/
def streamCfgOk (old v : Word) : Bool :=
  old.fld F.NET_LS_CFG_EN == 0 || (old.fld F.NET_LS_CFG_CHANS == v.fld F.NET_LS_CFG_CHANS
    && old.fld F.NET_LS_CFG_CLASS == v.fld F.NET_LS_CFG_CLASS && old.fld F.NET_LS_CFG_NSR == v.fld F.NET_LS_CFG_NSR)

/-- What a write of NET_LS_CFG runs (R186). -/
def State.lsCfgWritten (s : State) (st : Nat) (old : Word) : State :=
  if old.fld F.NET_LS_CFG_EN = 0 ∧ s.on (R.NET_LS_CFG st) F.NET_LS_CFG_EN = true then
    s.modLs st (fun _ => ⟨s.clk.blk, none, false, [], []⟩)
  else if s.on (R.NET_LS_CFG st) F.NET_LS_CFG_EN then s
  else s.setF (R.NET_LS_STS st) F.NET_LS_STS_ACTIVE 0

/-- What a write of NET_TK_CFG runs. -/
def State.tkCfgWritten (s : State) (st : Nat) : State :=
  if s.on (R.NET_TK_CFG st) F.NET_TK_CFG_EN then s else s.setF (R.NET_TK_STS st) F.NET_TK_STS_ACTIVE 0

/-! ### Talkers (R187) -/

/-- TALKER_FRAME_SEND (R187): the first sample of the frame left the sink stage in sample `smp` of block k; `room` tells
whether the queue takes the frame. -/
def execTalkerFrameSend (st : Fin 16) (k : Nat) (smp : Fin 16) (room : Bool) (s : State) : Out :=
  .next (if s.on (R.NET_TK_CFG st) F.NET_TK_CFG_EN then
    if room then
      let ts := BitVec.ofNat 32 (s.stampOf k smp + (s.rd (R.NET_TK_OFS st)).toNat)
      let s1 := ((s.incWrap (R.NET_TK_FRAMES st) F.NET_TK_FRAMES_COUNT).wr (R.NET_TK_TS st) ts).setF (R.NET_TK_STS st)
        F.NET_TK_STS_ACTIVE 1
      s1.emit (.talker st ts)
    else s.incSat (R.NET_TK_ERR st) F.NET_TK_ERR_DROP
  else s)

/-- CNT_CLR of NET_GLB_CTL (R10): every counter of the page. -/
def State.netCntClr (s : State) : State :=
  let s := State.zeroAll (addrs R.NET_LS_FRAMES 16 ++ addrs R.NET_LS_ERR 16 ++ addrs R.NET_TK_FRAMES 16
    ++ addrs R.NET_TK_ERR 16 ++ [R.NET_ZV_CNT]) s
  State.zeroAll ((List.range 3).flatMap (fun p => addrs (R.NET_PORT_CNT p) 8)) s

/-! ### Bridle (R204 to R206) -/

/-- The carrier period of carrier i in TCLK: power channels 0 to 7, EXT channels 8 to 15. -/
def State.carrierP (s : State) (i : Nat) : Nat :=
  if s.on R.PWR_GLB_CFG (if i < 8 then F.PWR_GLB_CFG_CARRIER else F.PWR_GLB_CFG_EXT_CARRIER) then 256 else 512

/-- The Bridle phase of a carrier in TCLK after a period boundary of the block (R204). -/
def State.bridlePhase (s : State) (i : Nat) : Nat :=
  let p := s.carrierP i
  let o := s.fld R.ARR_BRIDLE_CFG F.ARR_BRIDLE_CFG_OFFSET
  if i < 8 then (o + i * (p / 8)) % p else (o + (i - 8) * s.fld R.ARR_BRIDLE_CFG F.ARR_BRIDLE_CFG_EXT_STEP) % p

/-- The phase of a carrier now: 1 TCLK a period along the shorter way (R205). -/
def BridleX.cur (x : BridleX) (p now3 : Nat) : Nat :=
  let n := (now3 - x.at3) * 1024 / (15625 * p)
  let up := (x.target + p - x.start % p) % p
  if up ≤ p - up then (if up ≤ n then x.target else (x.start + n) % p)
  else if p - up ≤ n then x.target
  else (x.start + p - n % p) % p

/-- A change of OFFSET or EXT_STEP in effect (R205). -/
def State.bridleCommit (s : State) (old : Word) : State :=
  let v := s.rd R.ARR_BRIDLE_CFG
  if v.fld F.ARR_BRIDLE_CFG_EN = 1 ∧ (old.fld F.ARR_BRIDLE_CFG_OFFSET ≠ v.fld F.ARR_BRIDLE_CFG_OFFSET
      ∨ old.fld F.ARR_BRIDLE_CFG_EXT_STEP ≠ v.fld F.ARR_BRIDLE_CFG_EXT_STEP) then
    let xs := (List.range 16).map (fun i =>
      (⟨(s.net.bridle.getD i ⟨0, 0, 0⟩).cur (s.carrierP i) s.clk.now3, s.bridlePhase i, s.clk.now3⟩ : BridleX))
    (s.modNet (fun y => { y with bridle := xs })).setF R.ARR_BRIDLE_STS F.ARR_BRIDLE_STS_SLEWING 1
  else if v.fld F.ARR_BRIDLE_CFG_EN = 1 ∧ old.fld F.ARR_BRIDLE_CFG_EN = 0 then
    s.modNet (fun y => { y with bridle := (List.range 16).map (fun i => ⟨s.bridlePhase i, s.bridlePhase i, s.clk.now3⟩) })
  else s

/-- BRIDLE_SLEW_END (R205): every carrier has reached its new phase. -/
def execBridleSlewEnd (s : State) : Out :=
  .next (if (List.range 16).all (fun i =>
      let x := s.net.bridle.getD i ⟨0, 0, 0⟩
      x.cur (s.carrierP i) s.clk.now3 == x.target) then
    s.setF R.ARR_BRIDLE_STS F.ARR_BRIDLE_STS_SLEWING 0
  else s)

end Sys2Proof.Machine
end

