-- ==== Sys2Proof/Machine/Sha256.lean ====
section
/-!
DEFINITION. SHA-256, which LINK of a legal record and HEAD use (R386, R390). The spec names it and gives no more; the
function is the one of FIPS 180-4 (PRESUMED).
-/
namespace Sys2Proof.Machine

abbrev W32 := BitVec 32

def shaK0 : List W32 := [0x428a2f98, 0x71374491, 0xb5c0fbcf, 0xe9b5dba5, 0x3956c25b, 0x59f111f1, 0x923f82a4, 0xab1c5ed5]
def shaK1 : List W32 := [0xd807aa98, 0x12835b01, 0x243185be, 0x550c7dc3, 0x72be5d74, 0x80deb1fe, 0x9bdc06a7, 0xc19bf174]
def shaK2 : List W32 := [0xe49b69c1, 0xefbe4786, 0x0fc19dc6, 0x240ca1cc, 0x2de92c6f, 0x4a7484aa, 0x5cb0a9dc, 0x76f988da]
def shaK3 : List W32 := [0x983e5152, 0xa831c66d, 0xb00327c8, 0xbf597fc7, 0xc6e00bf3, 0xd5a79147, 0x06ca6351, 0x14292967]
def shaK4 : List W32 := [0x27b70a85, 0x2e1b2138, 0x4d2c6dfc, 0x53380d13, 0x650a7354, 0x766a0abb, 0x81c2c92e, 0x92722c85]
def shaK5 : List W32 := [0xa2bfe8a1, 0xa81a664b, 0xc24b8b70, 0xc76c51a3, 0xd192e819, 0xd6990624, 0xf40e3585, 0x106aa070]
def shaK6 : List W32 := [0x19a4c116, 0x1e376c08, 0x2748774c, 0x34b0bcb5, 0x391c0cb3, 0x4ed8aa4a, 0x5b9cca4f, 0x682e6ff3]
def shaK7 : List W32 := [0x748f82ee, 0x78a5636f, 0x84c87814, 0x8cc70208, 0x90befffa, 0xa4506ceb, 0xbef9a3f7, 0xc67178f2]

/-- The 64 round constants. -/
def shaK : List W32 := shaK0 ++ shaK1 ++ shaK2 ++ shaK3 ++ shaK4 ++ shaK5 ++ shaK6 ++ shaK7

/-- The eight words of the state. -/
structure ShaState where
  a : W32
  b : W32
  c : W32
  d : W32
  e : W32
  f : W32
  g : W32
  h : W32
deriving DecidableEq, Repr

/-- The initial state. -/
def ShaState.init : ShaState :=
  ⟨0x6a09e667, 0xbb67ae85, 0x3c6ef372, 0xa54ff53a,
    0x510e527f, 0x9b05688c, 0x1f83d9ab, 0x5be0cd19⟩

def shaS0 (x : W32) : W32 := x.rotateRight 7 ^^^ x.rotateRight 18 ^^^ (x >>> 3)
def shaS1 (x : W32) : W32 := x.rotateRight 17 ^^^ x.rotateRight 19 ^^^ (x >>> 10)

/-- One round with a constant and a schedule word. -/
def ShaState.round (x : ShaState) (k w : W32) : ShaState :=
  let t1 := x.h + (x.e.rotateRight 6 ^^^ x.e.rotateRight 11 ^^^ x.e.rotateRight 25) + ((x.e &&& x.f) ^^^ (~~~ x.e &&& x.g))
    + k + w
  let t2 := (x.a.rotateRight 2 ^^^ x.a.rotateRight 13 ^^^ x.a.rotateRight 22)
    + ((x.a &&& x.b) ^^^ (x.a &&& x.c) ^^^ (x.b &&& x.c))
  ⟨t1 + t2, x.a, x.b, x.c, x.d + t1, x.e, x.f, x.g⟩

/-- The schedule goes on by one word; the list holds the last 16 words, oldest first. -/
def shaNext (ws : List W32) : List W32 :=
  ws.drop 1 ++ [shaS1 (ws.getD 14 0) + ws.getD 9 0 + shaS0 (ws.getD 1 0) + ws.getD 0 0]

/-- The rounds over a list of constants. -/
def shaRounds : List W32 → List W32 → ShaState → ShaState
  | [], _, x => x
  | k :: ks, ws, x => shaRounds ks (shaNext ws) (x.round k (ws.getD 0 0))

/-- One block of 16 words. -/
def ShaState.block (x : ShaState) (ws : List W32) : ShaState :=
  let y := shaRounds shaK ws x
  ⟨x.a + y.a, x.b + y.b, x.c + y.c, x.d + y.d, x.e + y.e, x.f + y.f, x.g + y.g, x.h + y.h⟩

/-- A number as big-endian bytes. -/
def beBytes (n x : Nat) : List Byte := (leBytes n x).reverse

/-- Words of big-endian bytes. -/
def beWords : List Byte → List W32
  | a :: b :: c :: d :: rest => BitVec.ofNat 32 (leNat [d, c, b, a]) :: beWords rest
  | _ => []

/-- Blocks of 16 words. -/
def shaBlocks : Nat → List W32 → ShaState → ShaState
  | 0, _, x => x
  | n + 1, ws, x => shaBlocks n (ws.drop 16) (x.block (ws.take 16))

/-- The padding of a message of n bytes. -/
def shaPad (n : Nat) : List Byte := 0x80 :: List.replicate ((119 - n % 64) % 64) 0 ++ beBytes 8 (8 * n)

/-- The digest of a message, 32 bytes. -/
def sha256 (m : List Byte) : List Byte :=
  let p := m ++ shaPad m.length
  let x := shaBlocks (p.length / 64) (beWords p) ShaState.init
  [x.a, x.b, x.c, x.d, x.e, x.f, x.g, x.h].flatMap (fun w => beBytes 4 w.toNat)

end Sys2Proof.Machine
end

