-- ==== Sys2Proof/Machine/Metro.lean ====
section
/-!
DEFINITION. The metrology die M and the calendar clock (chapter 14): the legal log, MUART, calibration and sealing, what H
sees of M, the level limiter, the calendar.
-/
namespace Sys2Proof.Machine

/-- M is not fused off (R3): GLB_ORDER.METRO reads 0 on an MA part. -/
def State.metroFitted (s : State) : Bool := s.fld R.GLB_ORDER F.GLB_ORDER_METRO == 0

/-- M is fitted and its supply from S is on (R381). -/
def State.mOn (s : State) : Bool := s.metroFitted && s.metro.on_

/-! ### The calendar (R399) -/

/-- Ticks of 1/1024 s in one second. -/
def tickHz : Nat := 1024

/-- TIME48 now: 32 crystal cycles to a tick. -/
def MetroX.time48 (m : MetroX) : Nat := m.cyc / 32 % 2 ^ 48

/-- Seconds of a TIME48. -/
def time48Sec (t : Nat) : Nat := t / tickHz

/-- The first second that SET_TIME refuses: 2256-01-01 00:00:00 (R402). -/
def timeLimit : Nat := 8078572800

/-- A Gregorian leap year. -/
def leapYear (y : Nat) : Bool := y % 4 == 0 && (y % 100 != 0 || y % 400 == 0)

/-- The year, and the days left in it, of a count of days from the first of January of a year on. -/
def yearOf : Nat → Nat → Nat → Nat × Nat
  | 0, y, d => (y, d)
  | n + 1, y, d =>
    let len := if leapYear y then 366 else 365
    if d < len then (y, d) else yearOf n (y + 1) (d - len)

/-- The month from 1, and the day from 1, of a count of days of a year. -/
def monthOf : List Nat → Nat → Nat → Nat × Nat
  | [], m, d => (m, d + 1)
  | len :: rest, m, d => if d < len then (m, d + 1) else monthOf rest (m + 1) (d - len)

/-- CAL_DATE of a TIME48; 2000-01-01 was a Saturday. -/
def calDate (t : Nat) : Word :=
  let days := time48Sec t / 86400
  let (y, d) := yearOf 400 2000 (days % 146097)
  let (m, dd) := monthOf [31, if leapYear y then 29 else 28, 31, 30, 31, 30, 31, 31, 30, 31, 30, 31] 1 d
  ((((0 : Word).setFld F.CAL_DATE_WEEKDAY ((days + 5) % 7)).setFld F.CAL_DATE_YEAR (y - 2000)).setFld
    F.CAL_DATE_MONTH m).setFld F.CAL_DATE_DAY dd

/-- CAL_CLOCK of a TIME48. -/
def calClock (t : Nat) : Word :=
  let x := time48Sec t
  (((0 : Word).setFld F.CAL_CLOCK_HOUR (x / 3600 % 24)).setFld F.CAL_CLOCK_MIN (x / 60 % 60)).setFld
    F.CAL_CLOCK_SEC (x % 60)

/-! ### Records (R385, R386) -/

/-- Slots of the legal partition, and of a sub-sector (R385). -/
def legalSlots : Nat := 65536
def legalSub : Nat := 64

/-- The 64 bytes of a record. -/
def LegalRec.bytes (r : LegalRec) : List Byte :=
  leBytes 4 r.seq ++ leBytes 1 r.typ ++ leBytes 1 r.flags ++ leBytes 6 r.time ++ r.body
    ++ List.replicate (20 - r.body.length) 0 ++ r.link

/-- LINK of the record that follows. -/
def MetroX.nextLink (m : MetroX) : List Byte :=
  match m.log with
  | [] => List.replicate 32 0
  | r :: _ => if m.nextSeq = 0 then List.replicate 32 0 else sha256 r.bytes

/-- A record that M may erase: acknowledged, or more than 45 days old (R388). -/
def MetroX.erasable (m : MetroX) (r : LegalRec) : Bool :=
  decide (r.seq < m.ack) || decide (r.time + 45 * 86400 * tickHz < m.time48)

/-- The sub-sector ahead is erased where each of its records allows it (R388). -/
def MetroX.eraseAhead (m : MetroX) : MetroX :=
  let old := m.erasedTo - legalSlots
  if m.erasedTo < (m.nextSeq / legalSub + 2) * legalSub
      ∧ (m.log.filter (fun r => decide (r.seq < old + legalSub))).all m.erasable = true then
    { m with log := m.log.filter (fun r => decide (old + legalSub ≤ r.seq)), erasedTo := m.erasedTo + legalSub }
  else m

/-- A record goes to the next slot. -/
def MetroX.store (m : MetroX) (h : HeldRec) : MetroX :=
  let r : LegalRec := ⟨m.nextSeq, h.typ, h.flags, h.time, h.body, m.nextLink⟩
  ({ m with log := r :: m.log, nextSeq := m.nextSeq + 1, news := r :: m.news }).eraseAhead

/-- Records that M holds in its RAM at most (R388). -/
def heldMax : Nat := 16

/-- A slot is erased for the next record. -/
def MetroX.room (m : MetroX) : Bool := decide (m.nextSeq < m.erasedTo)

/-- A record is written, or held (R387, R388). -/
def MetroX.put (m : MetroX) (h : HeldRec) : MetroX :=
  let m := m.eraseAhead
  if m.room && m.held.isEmpty then m.store h
  else
    let m := { m with logFull := true, held := m.held ++ [h] }
    if heldMax < m.held.length then
      match m.held with
      | [] => m
      | o :: rest =>
        let lost := if o.typ = 1 then 1 else 0
        { m with held := rest, lostMinutes := m.lostMinutes + lost, lostNow := m.lostNow + lost }
    else m

/-- Held records are written in order while slots are erased, LOST behind them (R388). -/
def MetroX.flush : Nat → MetroX → MetroX
  | 0, m => m
  | n + 1, m =>
    let m := m.eraseAhead
    if !m.logFull || !m.room then m
    else
      match m.held with
      | h :: rest => MetroX.flush n (({ m with held := rest }).store h)
      | [] =>
        { (m.store ⟨0x0B, if m.valid then 0 else 0x20, m.time48, leBytes 4 m.lostNow⟩) with logFull := false, lostNow := 0 }

def MetroX.flushAll (m : MetroX) : MetroX := m.flush (heldMax + 1)

/-- The flags of an event record: UNVERIFIED and TIME_INVALID. -/
def MetroX.evFlags (m : MetroX) : Nat := (if m.legalOk then 0 else 1) + (if m.valid then 0 else 0x20)

/-- An event record at the present time. -/
def MetroX.note (m : MetroX) (typ : Nat) (body : List Byte) : MetroX := m.put ⟨typ, m.evFlags, m.time48, body⟩

/-- A retained record by its SEQ. -/
def MetroX.record (m : MetroX) (q : Nat) : Option LegalRec := m.log.find? (fun r => r.seq == q)

/-! ### Calibration (R391, R392) -/

/-- A slot is written when any of its copies is not all zero. -/
def slotWritten (sl : List (List Byte)) : Bool := sl.any (fun c => c.any (fun b => b != 0))

/-- Slots written. -/
def MetroX.slots (m : MetroX) : Nat := (m.otp.filter slotWritten).length

/-- The highest written slot. -/
def MetroX.slot (m : MetroX) : Option Nat :=
  ((List.range 4).reverse).find? (fun i => slotWritten (m.otp.getD i []))

/-- One word of three copies: its value, and whether all three differ. -/
def voteWord (a b c : List Byte) : List Byte × Bool :=
  if a = b ∨ a = c then (a, false) else if b = c then (b, false) else (a, true)

/-- The voted block of three copies, and whether any word is disputed. -/
def voteBlock : Nat → List Byte → List Byte → List Byte → List Byte × Bool
  | 0, _, _, _ => ([], false)
  | n + 1, a, b, c =>
    let (w, d) := voteWord (a.take 4) (b.take 4) (c.take 4)
    let (ws, ds) := voteBlock n (a.drop 4) (b.drop 4) (c.drop 4)
    (w ++ ws, d || ds)

/-- The voted block of the highest written slot, and whether it votes valid. -/
def MetroX.voted (m : MetroX) : Option (Nat × List Byte × Bool) :=
  m.slot.map (fun i =>
    let sl := m.otp.getD i []
    let (bs, d) := voteBlock 16 (sl.getD 0 []) (sl.getD 1 []) (sl.getD 2 [])
    (i, bs, !d && bytesAt bs 0 4 == 0x4D43414C && decide (crc32 (bs.take 60) = BitVec.ofNat 32 (bytesAt bs 60 4))))

/-- The values of a calibration block. -/
def calVals (bs : List Byte) : CalVals :=
  { sens := bytesAt bs 4 4, corr := sgn 16 (bytesAt bs 8 2), input := bytesAt bs 10 1 % 4
    trim := sgn 16 (bytesAt bs 12 2), tc := sgn 16 (bytesAt bs 14 2), t0 := sgn 8 (bytesAt bs 16 1) }

/-- The values without a written slot. -/
def calNone : CalVals := ⟨50000, 0, 0, 0, 0, 0⟩

/-- The values that M measures with. -/
def MetroX.cal0 (m : MetroX) : CalVals :=
  match m.staged with
  | some v => v
  | none =>
    match m.voted with
    | some (_, bs, _) => calVals bs
    | none => calNone

/-- A number of any sign as little-endian bytes. -/
def leInt (n : Nat) (x : Int) : List Byte := leBytes n (BitVec.ofInt (8 * n) x).toNat

/-- The 64 bytes of a block committed at a time. -/
def CalVals.block (v : CalVals) (t : Nat) : List Byte :=
  let bs := leBytes 4 0x4D43414C ++ leBytes 4 v.sens ++ leInt 2 v.corr ++ leBytes 1 v.input ++ leBytes 1 0
    ++ leInt 2 v.trim ++ leInt 2 v.tc ++ leInt 1 v.t0 ++ List.replicate 37 0 ++ leBytes 6 t
  bs ++ leBytes 4 (crc32 bs).toNat

/-! ### Reasons and LEGAL_OK (R394) -/

/-- LEGAL_OK follows the seal and the reasons. -/
def MetroX.legalNow (m : MetroX) : Bool := m.sealed && !m.cal && m.valid && !m.time && !m.osc

/-- LEGAL_OK is driven; a minute in which it was low remembers it. -/
def MetroX.legal (m : MetroX) : MetroX :=
  let ok := m.legalNow
  { m with legalOk := ok, minute := { m.minute with low := m.minute.low || !ok } }

/-- A change of one reason: bit number, entered or left. The record stands under LEGAL_OK of before and after. -/
def MetroX.reason (m : MetroX) (bit : Nat) (on : Bool) : MetroX :=
  let was := match bit with
    | 0 => m.cal
    | 1 => m.time
    | _ => m.osc
  if was = on then m.legal
  else
    let before := m.legalOk
    let m := (match bit with
      | 0 => { m with cal := on }
      | 1 => { m with time := on }
      | _ => { m with osc := on }).legal
    m.put ⟨9, (if before && m.legalOk then 0 else 1) + (if m.valid then 0 else 0x20), m.time48,
      leBytes 1 (2 ^ bit) ++ leBytes 1 (!on).toNat⟩

/-- The vote at start and at each minute (R392). -/
def MetroX.revote (m : MetroX) : MetroX :=
  m.reason 0 (match m.voted with
    | some (_, _, ok) => !ok
    | none => false)

/-! ### Minutes (R384, R387) -/

/-- The largest and the smallest of values, with a default for none. -/
def maxOf (d : Nat) : List Nat → Nat
  | [] => d
  | x :: xs => xs.foldl max x
def minOf (d : Nat) : List Nat → Nat
  | [] => d
  | x :: xs => xs.foldl min x

/-- The energy mean of levels: it lies between the smallest and the largest; 0xFFFF for none (R386). -/
def levelMean (xs : List Nat) : Nat :=
  if xs.isEmpty then 0xFFFF else max (minOf 0 xs) (min (maxOf 0 xs) (Config.energyMean xs))

/-- Bytes 12 to 31 of a MINUTE record. -/
def MinuteX.body (x : MinuteX) : List Byte :=
  let xs := x.secs
  leBytes 2 (levelMean (xs.map (·.laeq))) ++ leBytes 2 (levelMean (xs.map (·.lceq)))
    ++ leBytes 2 (levelMean (xs.map (·.lzeq))) ++ leBytes 2 (maxOf 0xFFFF (xs.map (·.lafmax)))
    ++ leBytes 2 (minOf 0xFFFF (xs.map (·.lafmin))) ++ leBytes 2 (maxOf 0xFFFF (xs.map (·.lasmax)))
    ++ leBytes 2 (maxOf 0xFFFF (xs.map (·.lcpeak))) ++ leBytes 1 xs.length ++ leBytes 1 x.overs

/-- FLAGS of a MINUTE record; `adj` marks TIME_ADJ, `cut` a minute closed before its end. -/
def MetroX.minuteFlags (m : MetroX) (cut adj : Bool) : Nat :=
  let x := m.minute
  (if x.low || !m.legalOk then 1 else 0) + (if x.overs ≠ 0 then 2 else 0)
    + (if x.secs.any (fun c => decide (c.laeq < 2000)) then 4 else 0) + (if cut || decide (x.secs.length < 60) then 8 else 0)
    + (if adj then 0x10 else 0) + (if m.valid then 0 else 0x20) + (if x.settling then 0x40 else 0)

/-- The minute in progress is closed and the next begins at a time. -/
def MetroX.closeMinute (m : MetroX) (cut adj : Bool) (next : Nat) : MetroX :=
  let m := m.put ⟨1, m.minuteFlags cut adj, m.minute.start, m.minute.body⟩
  { m with minute := ⟨next, [], 0, false, !m.legalOk⟩ }

/-! ### Start and end of measuring (R381, R385, R387) -/

/-- The newest SETTINGS record. -/
def MetroX.settingsRec (m : MetroX) : Option LegalRec := m.log.find? (fun r => r.typ == 0x0A)

/-- M_START (R385, R387, R392): M finds its newest record and begins to measure. The slot byte of START is free while no slot
is written. -/
def execMStart (cause : Fin 2) (s : State) : Out :=
  .next (if !s.metroFitted || s.metro.on_ then s
  else
    let (fv, s1) := s.fresh 8
    s1.modMetro (fun m =>
      let m := { m with on_ := true, settle := 10, refused := 0, adjCnt := 0, staged := none, run := none, held := []
                        news := [], logFull := false, oscBad := 0, oscGood := 0, osc := false, lastSec := none
                        minute := ⟨m.time48, [], 0, false, false⟩ }
      let m := match m.log with
        | [] => m
        | r :: _ => if r.typ = 3 then m else m.note 3 (leBytes 1 1 ++ leBytes 6 r.time)
      let m := m.note 2 (leBytes 1 cause.val ++ leBytes 1 (match m.slot with
        | some i => i
        | none => fv.toNat))
      let m := match m.settingsRec with
        | some r => { m with baud := bytesAt r.body 0 1, fwd := bytesAt r.body 1 1 == 1 }
        | none => { m with baud := 0, fwd := true }
      (m.reason 1 (!m.valid)).revote))

/-- M loses its supply without warning: what it held in RAM is gone (R387). -/
def MetroX.drop (m : MetroX) : MetroX :=
  { m with on_ := false, legalOk := false, staged := none, run := none, held := [], news := [], frame := none, setTo := none }

/-- M_SUPPLY_REMOVE (R387): the minute in progress with PARTIAL, then STOP. -/
def execMSupplyRemove (s : State) : Out :=
  .next (if s.mOn then
    s.modMetro (fun m => ((m.closeMinute true false m.time48).note 3 (leBytes 1 0)).drop)
  else s)

/-! ### Seconds (R383, R394, R395) -/

/-- M's oscillator is within its limits for a second (R394). -/
def oscGoodSec (c : Nat) : Bool := decide (c ≤ 24000000 + 2400 ∧ 24000000 ≤ c + 2400)

/-- The oscillator check of a second. -/
def MetroX.oscSec (m : MetroX) (c : Nat) : MetroX :=
  if oscGoodSec c then
    let m := { m with oscBad := 0, oscGood := m.oscGood + 1 }
    if m.osc && decide (60 ≤ m.oscGood) then m.reason 2 false else m
  else
    let m := { m with oscBad := m.oscBad + 1, oscGood := 0 }
    if !m.osc && decide (3 ≤ m.oscBad) then m.reason 2 true else m

/-- The oscillator error in 0.1 ppm: (cycles − 24,000,000) × 5 / 12. -/
def oscErr (c : Nat) : Int :=
  let d : Int := (c : Int) - 24000000
  let n := d * 5
  n / 12 + (if n % 12 = 0 then 0 else (Config.roundUp c 12).toNat)

/-- A value that saturates at 16 bits. -/
def sat16 (n : Nat) : Nat := min 0xFFFF n

/-- M counts seconds. -/
def MetroX.measuring (m : MetroX) : Bool := m.on_ && m.settle == 0

/-- The words of the mirrors at a second edge (R395). -/
def MetroX.mirrorWords (m : MetroX) (x : SecondMeas) : List (Nat × Word) :=
  let b (v : Bool) : Nat := v.toNat
  let cv := m.cal0
  let sts := (((((((0 : Word).setFld F.MLK_STS_SEALED (b m.sealed)).setFld F.MLK_STS_LEGAL_OK (b m.legalOk)).setFld
    F.MLK_STS_REASON (b m.cal + 2 * b m.time + 4 * b m.osc)).setFld F.MLK_STS_LOG_FULL (b m.logFull)).setFld
    F.MLK_STS_MEASURING (b m.measuring)).setFld F.MLK_STS_VER_EN (b m.verEn)).setFld F.MLK_STS_OVERLOAD (b x.overload)
  let laeq := if m.fwd then
    ((0 : Word).setFld F.MLK_LAEQ_SECOND (time48Sec m.time48 - 1)).setFld F.MLK_LAEQ_LAEQ x.laeq else 0
  let head := match m.log with
    | r :: _ => sha256 r.bytes
    | [] => List.replicate 32 0
  let newest := m.nextSeq - 1
  let oldest := match m.log.getLast? with
    | some r => r.seq
    | none => 0
  [(R.MLK_STS, sts), (R.MLK_LAEQ, laeq), (R.MLK_SEQ_NEW, BitVec.ofNat 32 newest), (R.MLK_SEQ_OLD, BitVec.ofNat 32 oldest),
    (R.MLK_SEQ_ACK, BitVec.ofNat 32 (m.ack - 1)),
    (R.MLK_CAL_SLOT, ((0 : Word).setFld F.MLK_CAL_SLOT_WRITTEN m.slots).setFld F.MLK_CAL_SLOT_CORR
      (BitVec.ofInt 16 cv.corr).toNat),
    (R.MLK_SENS, BitVec.ofNat 32 cv.sens),
    (R.MLK_SETTINGS, ((0 : Word).setFld F.MLK_SETTINGS_FWD_EN (b m.fwd)).setFld F.MLK_SETTINGS_BAUD m.baud),
    (R.MLK_CNT, ((0 : Word).setFld F.MLK_CNT_REFUSED (sat16 m.refused)).setFld F.MLK_CNT_LOST (sat16 m.lostMinutes)),
    (R.CAL_STS, (((0 : Word).setFld F.CAL_STS_ON_VBAK (b m.onVbak)).setFld F.CAL_STS_LOST (b m.lost)).setFld
      F.CAL_STS_VALID (b m.valid)),
    (R.CAL_TRIM, ((0 : Word).setFld F.CAL_TRIM_TC (BitVec.ofInt 16 cv.tc).toNat).setFld F.CAL_TRIM_TRIM
      (BitVec.ofInt 16 cv.trim).toNat),
    (R.CAL_ADJ_CNT, BitVec.ofNat 32 (sat16 m.adjCnt)),
    (R.CAL_ADJ_OLD_LO, BitVec.ofNat 32 m.adj.1), (R.CAL_ADJ_OLD_HI, BitVec.ofNat 32 (m.adj.1 / 2 ^ 32)),
    (R.CAL_ADJ_NEW_LO, BitVec.ofNat 32 m.adj.2), (R.CAL_ADJ_NEW_HI, BitVec.ofNat 32 (m.adj.2 / 2 ^ 32)),
    (R.CAL_VBAK, (0 : Word).setFld F.CAL_VBAK_MV m.vbak),
    (R.CAL_TEMP, (0 : Word).setFld F.CAL_TEMP_TEMP (BitVec.ofInt 16 x.temp).toNat),
    (R.CAL_OSC, (0 : Word).setFld F.CAL_OSC_ERR (BitVec.ofInt 20 (oscErr x.cycles)).toNat)]
    ++ (List.range 8).map (fun i => (R.MLK_HEAD i, BitVec.ofNat 32 (bytesAt head (4 * i) 4)))

/-- INTEGRATION_SECOND (R383, R384, R394, R395): a calendar second ends; `ver` is the level of VER_EN. -/
def execIntegrationSecond (m : SecondMeas) (ver : Bool) (s : State) : Out :=
  .next (if s.mOn then
    s.modMetro (fun x =>
      let x := { x with verEn := ver, lastSec := some m }
      let x := if x.settle ≠ 0 then { x with settle := x.settle - 1, minute := { x.minute with settling := true } }
        else { x with minute := { x.minute with secs := m :: x.minute.secs, overs := x.minute.overs + m.overload.toNat } }
      let x := (x.oscSec m.cycles).flushAll
      { x with news := [], frame := some ⟨x.mirrorWords m, if x.fwd then some m.laeq else none, x.nextSeq - 1, x.legalOk,
          (match x.frame with
            | some f => f.recs
            | none => []) ++ x.news.reverse⟩ })
  else s)

/-- MINUTE_CLOSE (R384, R387, R392): second 59 has ended. -/
def execMinuteClose (vbak : Nat) (s : State) : Out :=
  .next (if s.mOn then
    s.modMetro (fun x => ({ (x.closeMinute false false (x.time48 / tickHz * tickHz)) with vbak := vbak }).revote)
  else s)

/-! ### MUART (R389, R390) -/

/-- A MUART reply. -/
def State.muart (s : State) (cmd st : Nat) (bs : List Byte) : State := s.emit (.muart cmd st bs)

/-- A refused change of a sealed part (R390, R403). -/
def State.muartSealed (s : State) (cmd : Nat) : State :=
  (s.modMetro (fun m => { (m.note 5 (leBytes 1 cmd)) with refused := m.refused + 1 })).muart cmd 3 []

/-- A request that M takes up: M is on, the CRC holds, no measurement runs, the payload has its length. A command marked V
needs VER_EN, and one that changes a legal parameter an unsealed part. -/
def State.muartTake (s : State) (r : MuartReq) (cmd len : Nat) (v legal : Bool) (f : State → State) : State :=
  if !s.mOn || !r.crcOk then s
  else
    let s := s.modMetro (fun m => { m with verEn := r.ver })
    if v && !r.ver then s.muart cmd 2 []
    else if legal && s.metro.sealed then s.muartSealed cmd
    else if s.metro.run.isSome then s.muart cmd 4 []
    else if r.payload.length ≠ len then s.muart cmd 1 []
    else f s

/-- Bytes where there is a number, free ones where there is none. -/
def State.bytesOr (s : State) (n : Nat) (x : Option Nat) : List Byte × State :=
  match x with
  | some v => (leBytes n v, s)
  | none => s.freshBytes n

/-- MUART_GAP_TIMEOUT (R389): the bytes received so far are discarded, and no reply is sent. A request reaches this model
whole, so nothing is kept of one that is cut. -/
def execMuartGapTimeout (s : State) : Out := .next s

/-- STATUS (R390). -/
def execStatus (r : MuartReq) (s : State) : Out :=
  .next (s.muartTake r 1 0 false false (fun s =>
    let m := s.metro
    let (a, s) := s.bytesOr 4 (m.log.head?.map (·.seq))
    let (b, s) := s.bytesOr 4 (m.log.getLast?.map (·.seq))
    let (c, s) := s.bytesOr 4 (if m.ack = 0 then none else some (m.ack - 1))
    let (d, s) := s.bytesOr 2 (m.lastSec.map (·.laeq))
    let (e, s) := s.bytesOr 1 m.slot
    s.muart 1 0 (a ++ b ++ c ++ leBytes 6 m.time48 ++ d ++ leBytes 1 (m.sealed.toNat + 2 * m.legalOk.toNat
      + 4 * m.logFull.toNat + 8 * m.verEn.toNat + 16 * m.valid.toNat + 32 * m.measuring.toNat) ++ e
      ++ List.replicate 10 0)))

/-- READ (R390). -/
def execRead (r : MuartReq) (s : State) : Out :=
  .next (s.muartTake r 2 6 false false (fun s =>
    let q := bytesAt r.payload 0 4
    let n := bytesAt r.payload 4 2
    let rs := (List.range n).filterMap (fun i => s.metro.record (q + i))
    if 1 ≤ n ∧ n ≤ 16 ∧ rs.length = n then s.muart 2 0 (rs.flatMap LegalRec.bytes) else s.muart 2 1 []))

/-- ACK (R390): acknowledged records may let a sub-sector be erased (R388). -/
def execAck (r : MuartReq) (s : State) : Out :=
  .next (s.muartTake r 3 4 false false (fun s =>
    let q := bytesAt r.payload 0 4
    if q < s.metro.nextSeq then
      (s.modMetro (fun m => ({ m with ack := max m.ack (q + 1) }).flushAll)).muart 3 0 []
    else s.muart 3 1 []))

/-- HEAD (R390). -/
def execHead (r : MuartReq) (s : State) : Out :=
  .next (s.muartTake r 4 0 false false (fun s =>
    match s.metro.log with
    | h :: _ => s.muart 4 0 (leBytes 4 h.seq ++ sha256 h.bytes)
    | [] =>
      let (bs, s) := s.freshBytes 36
      s.muart 4 0 bs))

/-- SETTINGS (R390). -/
def execSettings (r : MuartReq) (s : State) : Out :=
  .next (s.muartTake r 6 2 false false (fun s =>
    let b := bytesAt r.payload 0 1
    let f := bytesAt r.payload 1 1
    if b ≤ 1 ∧ f ≤ 1 then
      (s.modMetro (fun m => { (m.note 0x0A (leBytes 1 b ++ leBytes 1 f)) with baud := b, fwd := f == 1 })).muart 6 0 []
    else s.muart 6 1 []))

/-- The step of a SET_TIME in ticks, without its sign. -/
def MetroX.stepTo (m : MetroX) (t : Nat) : Nat := ((t : Int) - m.time48).natAbs

/-- A sealed part with VER_EN low accepts a SET_TIME (R403). -/
def MetroX.timeOpen (m : MetroX) (t : Nat) : Bool :=
  !m.valid || (decide (m.stepTo t ≤ 60 * tickHz) && (match m.lastAdj with
    | some a => decide (a + 86400 * tickHz ≤ m.time48)
    | none => true))

/-- SET_TIME (R402, R403): it takes effect at the next tick. -/
def execSetTime (r : MuartReq) (s : State) : Out :=
  .next (s.muartTake r 5 6 false false (fun s =>
    let t := bytesAt r.payload 0 6
    if timeLimit ≤ time48Sec t then s.muart 5 1 []
    else if !s.metro.sealed || r.ver || s.metro.timeOpen t then
      (s.modMetro (fun m => { m with setTo := some (t, r.ver.toNat) })).muart 5 0 []
    else s.muartSealed 5))

/-- CAL_READ (R390): the reply is free while no slot is written. -/
def execCalRead (r : MuartReq) (s : State) : Out :=
  .next (s.muartTake r 0x10 0 false false (fun s =>
    match s.metro.voted with
    | some (i, bs, _) => s.muart 0x10 0 (bs ++ leBytes 1 i)
    | none =>
      let (bs, s) := s.freshBytes 65
      s.muart 0x10 0 bs))

/-- CAL_SET (R390): bytes 4 to 17 of the block; measuring starts again with 10 s of settling. -/
def execCalSet (r : MuartReq) (s : State) : Out :=
  .next (s.muartTake r 0x11 14 true true (fun s =>
    let v := calVals ([0, 0, 0, 0] ++ r.payload)
    if 1000 ≤ v.sens ∧ v.sens ≤ 200000 then
      (s.modMetro (fun m => { m with staged := some v, settle := 10 })).muart 0x11 0 []
    else s.muart 0x11 1 []))

/-- CAL_MEASURE (R390): the reply comes with CAL_MEASURE_DONE. -/
def execCalMeasure (r : MuartReq) (s : State) : Out :=
  .next (s.muartTake r 0x12 2 true true (fun s =>
    s.modMetro (fun m => { m with run := some ⟨false, bytesAt r.payload 0 2, m.time48⟩ })))

/-- CAL_CHECK (R390): allowed when sealed. -/
def execCalCheck (r : MuartReq) (s : State) : Out :=
  .next (s.muartTake r 0x15 2 true false (fun s =>
    s.modMetro (fun m => { m with run := some ⟨true, bytesAt r.payload 0 2, m.time48⟩ })))

/-- CAL_MEASURE_DONE (R390): the LZeq values of the ten seconds, in 0.01 dB; CORR is in 0.001 dB. -/
def execCalMeasureDone (vals : List Nat) (s : State) : Out :=
  .next (match s.mOn, s.metro.run with
  | true, some run =>
    if run.check || vals.isEmpty then s
    else
      let s := s.modMetro (fun m => { m with run := none })
      let lz := levelMean vals
      let corr : Int := ((run.level : Int) - lz) * 10
      if 10 < maxOf 0 vals - minOf 0 vals ∨ 3000 < corr.natAbs then s.muart 0x12 1 []
      else
        (s.modMetro (fun m => { m with staged := some { m.cal0 with corr := corr } })).muart 0x12 0
          (leBytes 2 lz ++ leInt 2 corr)
  | _, _ => s)

/-- CAL_CHECK_DONE (R390). -/
def execCalCheckDone (vals : List Nat) (s : State) : Out :=
  .next (match s.mOn, s.metro.run with
  | true, some run =>
    if !run.check || vals.isEmpty then s
    else
      let lz := levelMean vals
      (s.modMetro (fun m => ({ m with run := none }).note 8 (leBytes 2 run.level ++ leBytes 2 lz))).muart 0x15 0
        (leBytes 2 lz)
  | _, _ => s)

/-- CAL_COMMIT (R390): the staged block goes to the next free slot in three copies. -/
def execCalCommit (r : MuartReq) (s : State) : Out :=
  .next (s.muartTake r 0x13 0 true true (fun s =>
    match s.metro.staged with
    | none => s.muart 0x13 1 []
    | some v =>
      let i := match s.metro.slot with
        | some j => j + 1
        | none => 0
      if 4 ≤ i then s.muart 0x13 5 []
      else
        let bs := v.block s.metro.time48
        (s.modMetro (fun m => ({ m with otp := m.otp.set i [bs, bs, bs], staged := none }).note 6
          (leBytes 1 i ++ leBytes 4 v.sens ++ leInt 2 v.corr))).muart 0x13 0 (leBytes 1 i)))

/-- SEAL (R393). -/
def execSeal (r : MuartReq) (s : State) : Out :=
  .next (s.muartTake r 0x14 0 true true (fun s =>
    match s.metro.voted with
    | some (i, _, true) =>
      (s.modMetro (fun m => (({ m with sealed := true }).legal).note 7 (leBytes 1 i))).muart 0x14 0 []
    | _ => s.muart 0x14 1 []))

/-! ### The calendar's own steps (R400 to R404) -/

/-- A waiting SET_TIME takes effect (R402). -/
def MetroX.applySet (m : MetroX) : MetroX :=
  match m.setTo with
  | none => m
  | some (t, port) =>
    let old := m.time48
    let m := m.closeMinute true true t
    let m := m.note 4 (leBytes 6 old ++ leBytes 6 t ++ leBytes 1 port)
    let m := { m with setTo := none, cyc := 32 * t, valid := true, lost := false, lastAdj := some t
                      adjCnt := m.adjCnt + 1, adj := (old, t), minute := { m.minute with start := t } }
    m.reason 1 false

/-- CALENDAR_TICK (R399, R402, R404): 1/1024 s passes; M sends the calendar to H, which captures array time. -/
def execCalendarTick (s : State) : Out :=
  .next (if !s.metroFitted || !s.metro.going then s
  else
    let s := s.modMetro (fun m => { m with cyc := (m.cyc / 32 + 1) * 32, ticks := m.ticks + 1 })
    if !s.metro.on_ then s
    else
      let s := s.modMetro MetroX.applySet
      if s.power.hubUp then s.modMetro (fun m => { m with tick := (m.time48, s.nowNs) }) else s)

/-- Ticks between two trims: 64 s of 2,097,152 cycles (R400). -/
def trimTicks : Nat := 65536

/-- The cycles of a trim at a die temperature in 0.1 °C: TRIM + TC × (T − T0)² in steps of 1 cycle in 2,097,152, clamped at
255 (R400). -/
def CalVals.trimCycles (v : CalVals) (temp : Int) : Int :=
  let d := temp - 10 * v.t0
  let q := (v.trim * 10000 + v.tc * (d * d)) * 2097152
  let n := q / 1000000000000 + (if q % 1000000000000 = 0 then 0 else (Config.roundUp q.natAbs 1000000000000).toNat)
  max (-255) (min 255 n)

/-- CALENDAR_TRIM (R400): 64 s have passed; `temp` is the die temperature in 0.1 °C. -/
def execCalendarTrim (temp : Int) (s : State) : Out :=
  .next (if s.mOn && s.metro.going && decide (s.metro.trimAt + trimTicks ≤ s.metro.ticks) then
    s.modMetro (fun m => { m with trimAt := m.ticks, cyc := ((m.cyc : Int) + m.cal0.trimCycles temp).toNat })
  else s)

/-- CALENDAR_STOP (R401): the calendar domain loses its supply, which needs VSYS absent. What it counts afterwards is
free. -/
def execCalendarStop (s : State) : Out :=
  .next (if s.metroFitted && s.metro.going && !s.metro.on_ then
    let (v, s) := s.fresh 48
    s.modMetro (fun m => { m with going := false, valid := false, lost := true, cyc := 32 * v.toNat, setTo := none })
  else s)

/-! ### What H sees (R395 to R398, R374) -/

/-- M's results are stale (R374). -/
def State.mStale (s : State) : Bool := s.on R.MEM_MLINK_CNT F.MEM_MLINK_CNT_STALE

/-- MLINK_SECOND_MARKER (R395): H latches its block counter. -/
def execMlinkSecondMarker (s : State) : Out :=
  .next (if s.mOn && s.power.hubUp && !s.mStale then
    (s.modMetro (fun m => { m with secBlk := s.clk.blk })).wr R.MLK_LAST_SEC (BitVec.ofNat 32 s.clk.blk)
  else s)

/-- Registers written from a list. -/
def State.wrAll : List (Nat × Word) → State → State
  | [], s => s
  | (a, v) :: rest, s => State.wrAll rest (s.wr a v)

/-- H's event for a record (R397). -/
def State.announce (s : State) (r : LegalRec) : State :=
  let byte (i : Nat) : Nat := bytesAt r.body i 1
  if r.typ = 9 then s.raise 0x0D01 0x0E04 [byte 0, byte 1]
  else if r.typ = 5 then s.raise 0x0D02 0x0E04 ((leBytes 4 r.seq).map BitVec.toNat ++ [byte 0])
  else if r.typ = 4 then s.raise 0x0D03 0x0E04 ((List.range 6).map byte ++ [0, 0] ++ (List.range 6).map (fun i => byte (6 + i)))
  else s

def State.announceAll : List LegalRec → State → State
  | [], s => s
  | r :: rs, s => State.announceAll rs (s.announce r)

/-- A message of the part (R190), which takes its own next SEQ. -/
def State.zvSendOwn (s : State) (dst : Mac) (typ flags : Nat) (bs : List Byte) : State :=
  (s.emit (.zv dst typ flags s.net.zv.seq bs)).modNet (fun y => { y with zv := { y.zv with seq := (y.zv.seq + 1) % 2 ^ 32 } })

/-- A message to each valid entry with REPORT among the first i entries, entry 0 first. -/
def State.toReport (typ flags : Nat) (bs : List Byte) : List Nat → State → State
  | [], s => s
  | i :: is, s =>
    let s := if s.ctrlValid i && s.on (R.NET_ZV_CTRL_HI i) F.NET_ZV_CTRL_HI_REPORT then
      s.zvSendOwn (s.macAt (R.NET_ZV_CTRL_LO i) (R.NET_ZV_CTRL_HI i)) typ flags bs else s
    State.toReport typ flags bs is s

/-- LEVEL_SEND (R202). -/
def State.levelSend (s : State) (laeq seq : Nat) (legal : Bool) : State :=
  if s.on R.NET_ZV_CFG F.NET_ZV_CFG_EN && s.on R.NET_ZV_CFG F.NET_ZV_CFG_LEVEL_EN then
    State.toReport 0x07 0 (leBytes 2 laeq ++ leBytes 4 seq ++ leBytes 1 legal.toNat ++ leBytes 1 0 ++ leBytes 8 s.metro.secBlk)
      (List.range 8) s
  else s

/-- The running Leq of the limiter (R398). -/
def State.limLeq (s : State) : Nat :=
  levelMean (s.metro.window.take (min 900 (max 1 (s.fld R.MLK_LIM_CFG F.MLK_LIM_CFG_WINDOW))))

/-- LEVEL_LIMITER_UPDATE (R398): one second, with the LAeq that arrived, or none while FWD_EN is clear. -/
def State.limUpdate (s : State) (laeq : Option Nat) : State :=
  let s := match laeq with
    | some x => s.modMetro (fun m => { m with window := (x :: m.window).take 900 })
    | none => s
  if !s.on R.MLK_LIM_CFG F.MLK_LIM_CFG_EN then s
  else
    let gr := s.fld R.MLK_LIM_STS F.MLK_LIM_STS_GR
    let top := 10 * min 40 (s.fld R.MLK_LIM_RATE F.MLK_LIM_RATE_MAX_GR)
    let up := max 1 (s.fld R.MLK_LIM_RATE F.MLK_LIM_RATE_ATTACK)
    let down := max 1 (s.fld R.MLK_LIM_RATE F.MLK_LIM_RATE_RELEASE)
    match laeq with
    | none => s.setF R.MLK_LIM_STS F.MLK_LIM_STS_GR (min top (gr - down))
    | some _ =>
      let leq := s.limLeq
      let tgt := s.fld R.MLK_LIM_TGT F.MLK_LIM_TGT_TARGET
      let g := if tgt < leq then gr + up
        else if leq + 10 * s.fld R.MLK_LIM_TGT F.MLK_LIM_TGT_HYST < tgt then gr - down else gr
      (s.setF R.MLK_LIM_STS F.MLK_LIM_STS_LEQ (min 0xFFFF leq)).setF R.MLK_LIM_STS F.MLK_LIM_STS_GR (min top g)

/-- What a write of MLK_LIM_CFG runs: EN at 0 sets GR to 0 dB. -/
def State.limCfgWritten (s : State) : State :=
  if s.on R.MLK_LIM_CFG F.MLK_LIM_CFG_EN then s else s.setF R.MLK_LIM_STS F.MLK_LIM_STS_GR 0

/-- The frames of a second reach H (R395, R397, R398). -/
def State.secFrame (s : State) (f : SecFrame) : State :=
  let s := State.announceAll f.recs (State.wrAll f.words (s.modMetro (fun m => { m with frame := none })))
  let s := match f.laeq with
    | some x => s.levelSend x f.seq f.legal
    | none => s
  s.limUpdate f.laeq

/-- MLINK_FRAME (R374, R395): a result frame reaches H with a bad or a good CRC; a bad one is requested again, so what it
carried waits. -/
def execMlinkFrame (f : MFrame) (s : State) : Out :=
  .next (if !s.mOn || !s.power.hubUp then s
  else
    match f with
    | .bad =>
      let s := s.incSat R.MEM_MLINK_CNT F.MEM_MLINK_CNT_BAD
      let s := s.modErr (fun y => { y with mBad := y.mBad + 1 })
      if s.err.mBad = 16 then
        ((s.setF R.MEM_MLINK_CNT F.MEM_MLINK_CNT_STALE 1).setF R.MLK_STS F.MLK_STS_STALE 1).raise 0x0205 0x0E04
      else s
    | .good =>
      let s := s.modErr (fun y => { y with mBad := 0 })
      let s := (s.setF R.MEM_MLINK_CNT F.MEM_MLINK_CNT_STALE 0).setF R.MLK_STS F.MLK_STS_STALE 0
      match s.metro.frame with
      | some fr => s.secFrame fr
      | none => s)

/-- The bytes of a METROLOGY_READ answer: records from a SEQ on, zero records after the newest (R396). -/
def MetroX.answer (m : MetroX) (q n : Nat) : List Byte :=
  (List.range n).flatMap (fun i =>
    match m.record (q + i) with
    | some r => r.bytes
    | none => List.replicate 64 0)

/-- M_READ_REQUEST (R380, R396): M answers the read that waits; nothing of M changes. -/
def execMReadRequest (s : State) : Out :=
  .next (match s.mOn && s.power.hubUp, s.metro.read with
  | true, some (id, q, n, a, _) =>
    let s := s.modMetro (fun m => { m with read := none })
    if (s.metro.record q).isSome then (s.putPayload id.org a (s.metro.answer q n)).finishDone id
    else s.finishBad id .badParam
  | _, _ => s)

/-- METROLOGY_READ_TIMEOUT (R396): 100 ms without an answer. -/
def execMetrologyReadTimeout (s : State) : Out :=
  .next (match s.metro.read with
  | some (id, _, _, _, t) =>
    if t + second3 / 10 ≤ s.clk.now3 then (s.modMetro (fun m => { m with read := none })).finishBad id .timeout else s
  | none => s)

/-- The tick that an agent has latched (R404). -/
def State.latchedTick (s : State) (a : Nat) : Nat × Nat := lookupKey (0, 0) s.metro.latched a

/-- A read of CAL_TIME_LO latches the newest tick that has reached H (R404); an MX part reads zero (R3). -/
def State.calTimeRead (s : State) (a : Nat) : Word × State :=
  if !s.metroFitted then (0, s)
  else (BitVec.ofNat 32 s.metro.tick.1, s.modMetro (fun m => { m with latched := putKey m.latched a m.tick }))

end Sys2Proof.Machine
end

