-- ==== Sys2Proof/Machine/Errors.lean ====
section
/-!
DEFINITION. Errors and recovery (chapter 13): the four fault levels, clusters and hub stages at the DEGRADED level, muted
sinks, the hub reset, scrubbing and row repair.
-/
namespace Sys2Proof.Machine

/-! ### Counting (R366) -/

/-- MEM_STS.WORST keeps the worst level since it was cleared, and the HEALTH payload the worst since the last report
(R201): 1 CORRECTED, 2 CONTAINED, 3 DEGRADED. -/
def State.worst (s : State) (level : Nat) : State :=
  let s := s.modNet (fun y => { y with zv := { y.zv with worst := max level y.zv.worst } })
  s.setF R.MEM_STS F.MEM_STS_WORST (max level (s.fld R.MEM_STS F.MEM_STS_WORST))

/-- Stores 26 and 27 lie on F (R363). -/
def storeOnF (st : Nat) : Bool := st == 26 || st == 27

/-- A corrected error of a store (R364, R366). -/
def State.corrected (s : State) (st addr : Nat) : State :=
  let s := ((s.incSat (R.MEM_CNT st) F.MEM_CNT_CORR).setF R.MEM_STS F.MEM_STS_CORR 1).worst 1
  let s := match s.err.inject with
    | some (x, false) => if x = st then s.modErr (fun e => { e with inject := none }) else s
    | _ => s
  let row := addr / 2048
  let s := if st = 25 then
    s.modErr (fun e => { e with rows := putKey e.rows row (lookupKey 0 e.rows row + 1) }) else s
  if s.on R.MEM_CTL F.MEM_CTL_EVT_CORR then
    (if storeOnF st then s.raiseFLimited second3 0x0210 (0x0E40 + st) else s.raiseLimited second3 0x0210 (0x0E40 + st))
  else s

/-- MEM_SINGLE_BIT_ERROR (R364): found by an owner or by a scrubber. -/
def execMemSingleBitError (st : Fin 28) (addr : Nat) (s : State) : Out := .next (s.corrected st addr)

/-- An uncorrectable error of a store is counted. -/
def State.uncorrected (s : State) (st : Nat) : State :=
  let s := (s.incSat (R.MEM_CNT st) F.MEM_CNT_UNCORR).setF R.MEM_STS F.MEM_STS_UNCORR 1
  match s.err.inject with
  | some (x, true) => if x = st then s.modErr (fun e => { e with inject := none }) else s
  | _ => s

/-- MEM_LAST, MEM_LAST_ADDR and MEM_LAST_BLK. -/
def State.memLast (s : State) (st addr level kind index : Nat) : State :=
  let w := ((((0 : Word).setFld F.MEM_LAST_LEVEL level).setFld F.MEM_LAST_STORE st).setFld F.MEM_LAST_KIND kind).setFld
    F.MEM_LAST_INDEX index
  ((s.wr R.MEM_LAST w).wr R.MEM_LAST_ADDR (BitVec.ofNat 32 addr)).wr R.MEM_LAST_BLK (BitVec.ofNat 32 s.clk.blk)

/-- Bytes of a word as event detail. -/
def detail4 (x : Nat) : List Nat := (leBytes 4 x).map (·.toNat)

/-- MEM_UNCORRECTABLE for an error at the DEGRADED level (R366, R367). -/
def State.memDegraded (s : State) (st addr kind index : Nat) : State :=
  let s := s.memLast st addr 2 kind index
  let d := detail4 addr ++ detail4 (s.rd R.MEM_LAST).toNat ++ detail8 s.clk.blk
  if storeOnF st then s.raiseF 0x0211 (0x0E40 + st) d else s.raise 0x0211 (0x0E40 + st) d

/-- A declaration at the DEGRADED level is counted. -/
def State.degradedCount (s : State) : State := (s.incSat R.MEM_LEVEL_CNT F.MEM_LEVEL_CNT_DEGRADED).worst 3

/-! ### Sinks of a degraded scope (R371) -/

/-- Dependent output sinks are muted. -/
def State.muteSinks : List Nat → State → State
  | [], s => s
  | k :: ks, s =>
    State.muteSinks ks (if s.err.muted.contains k then s
      else (s.modErr (fun y => { y with muted := y.muted ++ [k] })).raise 0x0224 (0x400 + k))

/-- The output sinks that depend on a scope are handed to Tether where they are armed for its cause (1 DEADLINE, 2 MEMORY,
0 neither), and muted otherwise (R274, R275, R371). -/
def State.sinksOf (s : State) (dep : Nat → Bool) (cause : Nat) : State :=
  let hit := (List.range 22).filter dep
  let armed := hit.filter (fun o => cause != 0 && s.bit (R.TTH_OUT_CFG o) (24 + (cause - 1)))
  let s := State.muteSinks (hit.filter (fun o => !armed.contains o)) s
  if armed.isEmpty then s
  else s.modTth (fun y => { y with requests := y.requests ++ [(cause, outMask armed)] })

/-- The mute of a sink ends when nothing on which it depends is at the DEGRADED level (R371). -/
def State.unmuteList (ts : Nat) : List Nat → State → State
  | [], s => s
  | k :: ks, s =>
    State.unmuteList ts ks (if s.dependsDown k then s
      else (s.modErr (fun y => { y with muted := y.muted.filter (fun x => x != k) })).raiseAt 0x0225 (0x400 + k) ts [])

def State.unmuteAll (s : State) (ts : Nat) : State := State.unmuteList ts s.err.muted s

/-! ### A cluster at the DEGRADED level (R368, R369) -/

/-- The first lost block of a cluster. -/
def State.firstLost (s : State) (n : Nat) : Nat :=
  let x := s.engX n
  if s.rendersAhead n then
    match x.queue ++ x.busy.toList with
    | r :: _ => r.k
    | [] => x.next
  else
    match x.busy with
    | some r => r.k
    | none => s.nextData n

/-- A register of engine n. -/
def engineReg (n a : Nat) : Bool := decide (R.ENG_CTL n ≤ a ∧ a < R.ENG_CTL n + 0x40)

/-- A staged change is for SE n. -/
def forEngine (n : Nat) : Act → Bool
  | .engMode m _ => m == n
  | .param m .. => m == n
  | .reg a _ _ => engineReg n a
  | .regMask a _ _ => engineReg n a
  | .regRun a vs => (List.range vs.length).any (fun i => engineReg n (a + 4 * i))
  | _ => false

/-- Changes of a list complete FAULTED with the blocks at which they were to take effect (R369). -/
def State.faultAll (dep : Option Nat) : List Staged → State → State
  | [], s => s
  | c :: cs, s => State.faultAll dep cs (s.finishOpt c.id ⟨.faulted, false, false, false, c.eff, dep⟩)

/-- Cluster n is declared DEGRADED with first lost block l: cause 1 memory, 2 deadline, 3 escape (R368, R369, R371). -/
def State.clusterDown (s : State) (n cause l : Nat) : State :=
  if s.on (R.ENG_STS n) F.ENG_STS_DOWN then s
  else
    let seq := s.col.nextSeq
    let s := s.degradedCount.raise 0x0220 (0xF00 + n) ([cause, 0, 0, 0, 0, 0, 0, 0] ++ detail8 l)
    let dep := if s.col.nextSeq = seq then none else some seq
    let s := (s.setF (R.ENG_STS n) F.ENG_STS_DOWN 1).setF (R.ENG_STS n) F.ENG_STS_PHASE 0
    let s := s.modErr (fun e => { e with lost := e.lost.set n (some l), faultSeq := e.faultSeq.set n dep })
    let s := s.modEng n (fun x => { x with
      running := none, swap := none, params := [], irs := [], irFade := [], busy := none, queue := [], contained := 0 })
    let s := (s.setF (R.ENG_STS n) F.ENG_STS_MODE_ACT 0).setF (R.ENG_PROG_ID n) F.ENG_PROG_ID_ID 0
    let s := ((s.maskShow n).admitShow n).ownerReset (0x20 + n) 0
    let hit (c : Staged) : Bool := forEngine n c.act && decide (l ≤ c.eff)
    let gone := s.stage.changes.filter hit
    let s := s.modStage (fun g => { g with changes := g.changes.filter (fun c => !hit c) })
    let s := State.faultAll dep gone s
    s.sinksOf (fun o => s.dependsCluster o n) (if cause = 2 then 1 else if cause = 1 then 2 else 0)

/-- ENGINE_DEADLINE_MISS (R167, R232): the third miss in a row takes the cluster down. -/
def execEngineDeadlineMiss (n : Fin 8) (s : State) : Out :=
  .next (match s.missed n with
  | some k =>
    let s1 := s.engMiss n k
    if 3 ≤ (s1.engX n).misses then s1.clusterDown n 2 k else s1
  | none => s)

/-- PARISON_ESCAPE (R42). -/
def execParisonEscape (n : Fin 8) (s : State) : Out :=
  .next ((s.raise 0x0109 (0xF00 + n.val)).clusterDown n 3 (s.firstLost n))

/-! ### A hub stage at the DEGRADED level (R370) -/

/-- The scope code and index of a hub stage in MEM_LAST. -/
def stageKind : Stg → Nat × Nat
  | .lane l => (2, l.val)
  | .bus b => (3, b.val)
  | .sink i => (4, i)

/-- The state of a stage is zeroed and rebuilt from the registers in effect (R370). -/
def State.stageRebuild (s : State) : Stg → State
  | .lane l => s.setF (R.MP_LANE_STS l) F.MP_LANE_STS_SILENT 1
  | .bus b => ((s.modMp (fun y => { y with ballast := putKey y.ballast b.val ⟨32768, 32768, s.clk.blk⟩ })).setF
      (R.MIX_BUS_STS b) F.MIX_BUS_STS_N 0).scaleShow b s.clk.blk
  | .sink _ => s

/-- MEM_STS.STAGE_DOWN follows the list of stages. -/
def State.stageShow (s : State) : State := s.setF R.MEM_STS F.MEM_STS_STAGE_DOWN (if s.err.stages.isEmpty then 0 else 1)

/-- A hub stage is declared DEGRADED. -/
def State.stageDown (s : State) (g : Stg) : State :=
  if s.err.stages.any (fun p => p.1 == g) then s
  else
    let s := s.degradedCount.raise 0x0222 0x0E30 ([0, 0, 0, 0] ++ detail4 (s.rd R.MEM_LAST).toNat)
    let s := s.modErr (fun y => { y with
      stages := y.stages ++ [(g, s.clk.blk)]
      stageLog := (g, 16 * s.clk.blk + s.clk.smp, false) :: y.stageLog.filter (fun p => p.1 != g) })
    let s := s.stageShow.stageRebuild g
    s.sinksOf (fun o => s.dependsStage o g) 2

/-- STAGE_RESUME (R370): the commit point 64 blocks after the declaration. -/
def execStageResume (g : Stg) (s : State) : Out :=
  .next (if s.err.stages.any (fun p => p.1 == g && decide (p.2 + 64 ≤ s.clk.blk)) then
    let s1 := s.modErr (fun y => { y with
      stages := y.stages.filter (fun p => p.1 != g), stageLog := (g, 16 * s.clk.blk, true) :: y.stageLog })
    let s2 := s1.stageShow.raiseAt 0x0223 0x0E30 (s.stampOf s.clk.blk 0) []
    let s3 := match g with
      | .bus b => s2.ballastEval b s.clk.blk
      | _ => s2
    s3.unmuteAll (s.stampOf s.clk.blk 0)
  else s)

/-! ### FATAL (R372) -/

/-- The registers that a hub reset resets (R435); the losses of lock count since power-on. -/
def resetByHub (a : Nat) : Bool := heldOn a == Die.hub && a != R.CLK_SYSPLL_STS

/-- What H keeps beside registers is lost; descriptors are numbered on, so that no earlier one is taken for a later. -/
def State.hubClear (s : State) : State :=
  { s with
    regs := s.regs.resetWhere resetByHub
    mirror := []
    window := []
    host := { HostX.reset with queues := s.host.queues.map (fun q => ⟨q.nextOrd, q.nextOrd, []⟩) }
    stage := ⟨[], [], []⟩
    locks := List.replicate 32 ⟨[], false, 0, none⟩
    err := ErrX.reset
    mp := MpX.reset
    sig := SigX.reset
    eng := EnginesX.reset
    net := { NetX.reset with bridle := s.net.bridle }
    col := { Collector.reset with front := s.col.front, holdoff := s.col.holdoff }
    link := { s.link with
      down := { LinkDir.reset with rxSeq := s.link.down.rxSeq, nak := s.link.down.nak }
      up := { s.link.up with rxSeq := 0, nak := none, good := 0 }
      downAt := none }
    tth := { s.tth with requests := [] }
    metro := { s.metro with tick := (0, 0), latched := [], secBlk := 0, window := [], read := none }
    test := { s.test with data := 0, done := false, refused := false } }

/-- A mode transition that H drives ends with H: an entry into QUIET, LISTEN or SHELF leaves the part in RUN, a return from
QUIET leaves it in QUIET. The transitions of a boot and of a wake go on. -/
def PowerX.hubLost (p : PowerX) : PowerX :=
  match p.mode, p.trans with
  | .quiet, _ => { p with trans := none, step := 0 }
  | _, some .run => p
  | _, _ => { p with trans := none, step := 0 }

/-- The hub resets: F, P0, P1, M, N and S go on (R372). A flash operation that H drove ends where it stands. -/
def State.hubReset (s : State) (cause : Nat) : State :=
  let pll := s.rd R.CLK_SYSPLL_STS
  let s1 := s.flashCut.hubClear
  let s2 := (s1.wr R.CLK_SYSPLL_STS (pll &&& F.CLK_SYSPLL_STS_LOSS.mask)).setF R.MEM_RST_CAUSE F.MEM_RST_CAUSE_CAUSE cause
  let s3 := s2.incSat R.MEM_RST_CAUSE F.MEM_RST_CAUSE_COUNT
  s3.modPower (fun y => { y.hubLost with hubUp := false, reading := false, released := s.clk.now3, rstCause := cause,
                                         rstBlk := s.clk.blk, rstAt := s.nowNs, fallback := none })

/-- HUB_RESET (R372): an error whose scope is the hub. -/
def execHubReset (s : State) : Out := .next (if s.power.hubUp then s.hubReset 2 else s)

/-- MC_WATCHDOG_EXPIRE (R372). -/
def execMcWatchdogExpire (s : State) : Out := .next (if s.power.hubUp then s.hubReset 3 else s)

/-- SYSPLL_LOCK_LOSS (R372). -/
def execSyspllLockLoss (s : State) : Out :=
  .next (if s.power.hubUp then (s.incSat R.CLK_SYSPLL_STS F.CLK_SYSPLL_STS_LOSS).hubReset 4 else s)

/-! ### Uncorrectable errors (R367) -/

/-- The event of the F store that is lost (R367). -/
def eventGone (e : HeldEvent) (now : Nat) : HeldEvent := { e with src := 0x0E01, code := 0x010A, ts := now, detail := [0, 0, 0, 0, 1, 0, 0, 0] }

/-- Samples of the gather buffer are lost: the frame or segment that holds sample i; the next packet sets GAP (R310). -/
def State.gatherGone (s : State) (i : Nat) : State :=
  let out (first len : Nat) : Bool := !(decide (first ≤ i ∧ i < first + len))
  s.modLsn (fun x => { x with
    pcm := x.pcm.filter (fun p => out p.1 p.2.length)
    frames := x.frames.filter (fun f => out f.idx 500)
    handover := x.handover.map (fun h => { h with gap := true }) })

/-- A cluster loses a word that no squash restores. -/
def State.clusterError (s : State) (st addr n : Nat) : State :=
  if s.on (R.ENG_STS n) F.ENG_STS_DOWN then s else (s.memDegraded st addr 1 n).clusterDown n 1 (s.firstLost n)

/-- An uncorrectable word is handled at the level of its place (R367). -/
def State.uncorrectable (s : State) (st addr : Nat) (place : ErrPlace) : State :=
  let s := s.uncorrected st
  match place with
  | .unused => s
  | .tetherGain _ => s
  | .hubState => s.hubReset 2
  | .cluster n => s.clusterError st addr n
  | .parison n =>
    let x := s.engX n
    match x.queue ++ x.busy.toList with
    | r :: _ =>
      if s.rendersAhead n && r.parison then
        ((s.memLast st addr 1 0 0).squash n r.k).modEng n (fun x => { x with contained := x.contained + 1 })
      else s.clusterError st addr n
    | [] => s.clusterError st addr n
  | .stage g => (s.memDegraded st addr (stageKind g).1 (stageKind g).2).stageDown g
  | .netBuffer => ((s.memLast st addr 1 0 0).incSat R.MEM_LEVEL_CNT F.MEM_LEVEL_CNT_CONTAINED).worst 2
  | .history c =>
    let s := (s.memDegraded st addr 5 c).degradedCount.chainReset c
    s.setF (R.FLT_SETTLE c) F.FLT_SETTLE_UNSETTLED 1
  | .coefBank c bank => ((s.memDegraded st addr 5 c).degradedCount).coefBankFail c bank
  | .eventStore i =>
    let s := (s.memDegraded st addr 6 0).degradedCount
    s.modCol (fun y => { y with front := { y.front with events := y.front.events.modify i (fun e => eventGone e s.nowNs) } })
  | .gather i => ((s.memDegraded st addr 7 0).degradedCount).gatherGone i

/-- MEM_UNCORRECTABLE (R367). -/
def execMemUncorrectable (st : Fin 28) (addr : Nat) (place : ErrPlace) (s : State) : Out := .next (s.uncorrectable st addr place)

/-! ### Scrubbing and repair (R364, R365) -/

/-- What a scrubber finds in a word. -/
def State.scrubbed (s : State) (st addr : Nat) : ScrubFind → State
  | .good => s
  | .single => s.corrected st addr
  | .double place => s.uncorrectable st addr place

/-- SRAM_SCRUB (R364) of a store that is scrubbed so; the DRAM and Tether's gain memory have scrubbers of their own. -/
def execSramScrub (st : Fin 28) (addr : Nat) (find : ScrubFind) (s : State) : Out :=
  .next (if st.val = 25 ∨ st.val = 26 then s else s.scrubbed st addr find)

/-- A row whose corrected-error count has reached REPAIR_THR moves to a repair unit (R365). -/
def State.rowRepair (s : State) (row : Nat) : State :=
  let thr := max 1 (s.fld R.MEM_DRAM_CFG F.MEM_DRAM_CFG_REPAIR_THR)
  if !s.on R.MEM_DRAM_CFG F.MEM_DRAM_CFG_REPAIR_EN || s.err.repaired.contains row || decide (lookupKey 0 s.err.rows row < thr) then s
  else if s.fld R.MEM_DRAM_REPAIR F.MEM_DRAM_REPAIR_FREE = 0 then
    let s1 := s.setF R.MEM_STS F.MEM_STS_REPAIR_FULL 1
    if s.err.exhausted then s1
    else (s1.modErr (fun y => { y with exhausted := true })).raise 0x0213 0x0E59 (detail4 (2048 * row))
  else
    let s1 := s.setF R.MEM_DRAM_REPAIR F.MEM_DRAM_REPAIR_FREE (s.fld R.MEM_DRAM_REPAIR F.MEM_DRAM_REPAIR_FREE - 1)
    let s2 := s1.incSat R.MEM_DRAM_REPAIR F.MEM_DRAM_REPAIR_USED
    (s2.modErr (fun y => { y with repaired := y.repaired ++ [row] })).raise 0x0212 0x0E59 (detail4 (2048 * row))

/-- DRAM_SCRUB (R364, R365): one 64-byte grant; a row that has reached its threshold is repaired in this scrub. -/
def execDramScrub (addr : Nat) (find : ScrubFind) (s : State) : Out :=
  .next (if s.power.hubUp && s.on R.MEM_SCRUB_CFG F.MEM_SCRUB_CFG_DRAM_EN then
    (s.rowRepair (addr / 2048)).scrubbed 25 addr find
  else s)

/-- MEM_CTL.CNT_CLR. -/
def State.memCntClr (s : State) : State :=
  (State.zeroAll (addrs R.MEM_CNT 28 ++ [R.MEM_LEVEL_CNT, R.MEM_LINK_CNT]) s
    |>.setF R.MEM_MLINK_CNT F.MEM_MLINK_CNT_BAD 0).setF R.MEM_STS F.MEM_STS_WORST 0

/-! ### Details of events (R375) -/

/-- The sequence number that the selected slot of the detail store holds. -/
def State.detSel (s : State) : Word :=
  match s.col.details.find? (fun d => d.1 == (s.rd R.MEM_EVT_DET_SEL).toNat % 256) with
  | some (_, n, _) => BitVec.ofNat 32 n
  | none => 0

/-- MEM_EVT_DET[i]: bytes 4i to 4i + 3 of the selected detail; bytes that no detail gives are zero. -/
def State.detWord (s : State) (i : Nat) : Word :=
  match s.col.details.find? (fun d => d.1 == (s.rd R.MEM_EVT_DET_SEL).toNat % 256) with
  | some (_, _, bs) => BitVec.ofNat 32 (leNat ((List.range 4).map (fun j => BitVec.ofNat 8 (bs.getD (4 * i + j) 0))))
  | none => 0

end Sys2Proof.Machine
end

