-- ==== Sys2Proof/Machine/Sap.lean ====
section
/-!
DEFINITION. Serial audio ports and rate conversion (chapter 3, R82 to R102).
-/
namespace Sys2Proof.Machine

/-! ### Shared operations -/

def State.dir (s : State) (d : Nat) : SapDir := s.sap.dirs.getD d SapDir.reset

def State.modDir (s : State) (d : Nat) (f : SapDir → SapDir) : State :=
  s.modSap (fun y => { y with dirs := y.dirs.modify d f })

/-- Direction d transmits: directions 2p receive and 2p + 1 transmit on port p. -/
def isTx (d : Nat) : Bool := d % 2 == 1

/-- The source of a direction's events (R90). -/
def sapSource (d : Nat) : Nat := if isTx d then 0x420 + 16 * (d / 2) else 0x010 + 16 * (d / 2)

def State.master (s : State) (d : Nat) : Bool := s.on (R.SAP_CFG d) F.SAP_CFG_MASTER

def State.flen (s : State) (d : Nat) : Nat := s.fld (R.SAP_FMT d) F.SAP_FMT_FLEN

/-- The frame rate of a master direction lies between 8 and 192 kHz: bit clock 24.576 MHz / (BDIV + 1), frame sync at
that rate over FLEN (R87). -/
def State.masterRateOk (s : State) (d : Nat) : Bool :=
  let div := (s.fld (R.SAP_CFG d) F.SAP_CFG_BDIV + 1) * s.flen d
  decide (8000 * div ≤ 24576000) && decide (24576000 ≤ 192000 * div)

/-- A direction is synchronous when it is master, or a slave whose bit clock is the audio PLL reference (R95). -/
def State.synchronous (s : State) (d : Nat) : Bool :=
  s.master d || (s.sap.ref == 4 && s.sap.refSap == d / 2 + 4 * (d % 2))

/-- 96 kHz in the units of RATE. -/
def rate96 : Nat := 384000

/-- The converter use that a mode code gives at a measured rate (R95). -/
def State.useOf (s : State) (d mode rate : Nat) : SapUse :=
  match mode with
  | 1 => .bypass
  | 2 => .track
  | _ =>
    if rate = rate96 ∧ s.synchronous d = true then .bypass
    else if s.master d && rate != rate96 then .locked
    else .track

/-- The time of a zero-crossing search in thirds of ns: ZC_TIMEOUT in ms, at least 1 and at most 100 (R93). -/
def State.sapZ (s : State) (d : Nat) : Nat := min 100 (max 1 (s.fld (R.SAP_CFG d) F.SAP_CFG_ZC_TIMEOUT)) * 3000000

/-- A slot is set in the active mask. -/
def State.slotSet (s : State) (d i : Nat) : Bool := s.bit (R.SAP_MASK d) (16 + i)

/-- Every set slot searches for its first zero crossing (R93 step 4). -/
def State.startSlots (s : State) (d : Nat) : State :=
  s.modDir d (fun x => { x with slots := (List.range 16).map (fun i =>
    if s.slotSet d i then .starting (s.clk.now3 + s.sapZ d) else .off) })

/-- Step 3 of R93: U clears, LOCK is set, and the slots start. -/
def State.sapLock (s : State) (d : Nat) : State :=
  ((s.setF (R.SAP_STS d) F.SAP_STS_LOCK 1).modDir d (fun x => { x with lockNext := false })).startSlots d

/-- The converter use of a direction begins: the BYPASS bit, and step 3 at the next boundary unless a tracker must lock
first (R93, R95). -/
def State.beginUse (s : State) (d : Nat) (u : SapUse) : State :=
  ((s.setF (R.SAP_STS d) F.SAP_STS_BYPASS (if u = .bypass then 1 else 0)).setF (R.SAP_STS d) F.SAP_STS_LOCK 0).modDir d
    (fun x => { x with use := u, lockNext := u == .bypass || u == .locked, slots := List.replicate 16 .off })

/-- Steps 2 to 4 of the start sequence begin at a first frame sync (R93). -/
def State.firstFrame (s : State) (d rate : Nat) : State :=
  let s := ((((s.setF (R.SAP_STS d) F.SAP_STS_RUNNING 1).setF (R.SAP_STS d) F.SAP_STS_CLK_OK 1).wr (R.SAP_FRAME_CNT d)
    0).setF (R.SAP_RATE d) F.SAP_RATE_RATE rate).modDir d (fun x => { x with phase := .running })
  s.beginUse d (s.useOf d (s.fld (R.SAP_CFG d) F.SAP_CFG_SRC_MODE) rate)

/-- Setting EN (R87, R93 step 1, R94): a start that fails sets CFG_ERR and leaves EN clear; before the end of a stop the
direction resumes at step 4. -/
def State.sapStart (s : State) (d : Nat) : State :=
  match (s.dir d).phase with
  | .stopping => (s.startSlots d).modDir d (fun x => { x with phase := .running })
  | .stopped =>
    if s.fld (R.SAP_FMT d) F.SAP_FMT_FORMAT = 3 ∨ (s.master d = true ∧ s.masterRateOk d = false) then
      (s.setF (R.SAP_STS d) F.SAP_STS_CFG_ERR 1).setF (R.SAP_CFG d) F.SAP_CFG_EN 0
    else s.modDir d (fun x => { x with phase := .watching, use := .none, lockNext := false })
  | _ => s

/-- Clearing EN (R94 step 1): each set slot goes to zero at its next zero crossing or timeout. -/
def State.sapStop (s : State) (d : Nat) : State :=
  match (s.dir d).phase with
  | .running => s.modDir d (fun x => { x with phase := .stopping, slots := x.slots.map (fun p =>
      match p with
      | .off => .off
      | _ => .stopping (s.clk.now3 + s.sapZ d)) })
  | .watching => s.modDir d (fun _ => { SapDir.reset with crossing := (s.dir d).crossing })
  | _ => s

/-- A shadow write crosses on its own while HOLD is 0 (R91); index 16 stands for the mask. -/
def State.sapShadow (s : State) (d i : Nat) (v : Word) : State :=
  if s.on (R.SAP_CFG d) F.SAP_CFG_HOLD then s.setF (R.SAP_STS d) F.SAP_STS_PENDING 1
  else (s.setF (R.SAP_STS d) F.SAP_STS_PENDING 1).modDir d (fun x => { x with crossing := x.crossing ++ [[(i, v)]] })

/-- Clearing HOLD sends the whole shadow table and mask across together (R91). -/
def State.sapRelease (s : State) (d : Nat) : State :=
  let table := (List.range 16).map (fun i => (i, s.rd (R.SAP_SLOT d i)))
  (s.setF (R.SAP_STS d) F.SAP_STS_PENDING 1).modDir d
    (fun x => { x with crossing := x.crossing ++ [table ++ [(16, s.rd (R.SAP_MASK d))]] })

/-- The word length of a slot entry (LEN). -/
def slotLen (v : Word) : Nat :=
  match v.fld F.SAP_SLOT_LEN with
  | 0 => 16
  | 1 => 20
  | 2 => 24
  | _ => 32

/-- Two set slots share no bit: of the frame in TDM, of the same half otherwise (R85). -/
def slotsApart (tdm : Bool) (a b : Word) : Bool :=
  decide (a.fld F.SAP_SLOT_START + slotLen a ≤ b.fld F.SAP_SLOT_START)
    || decide (b.fld F.SAP_SLOT_START + slotLen b ≤ a.fld F.SAP_SLOT_START)
    || (!tdm && a.fld F.SAP_SLOT_HALF != b.fld F.SAP_SLOT_HALF)

/-- Each slot of a list fits a frame of n bits and shares no bit with a later one (R85). -/
def slotsOk (tdm : Bool) (n : Nat) : List Word → Bool
  | [] => true
  | a :: as => decide (a.fld F.SAP_SLOT_START + slotLen a ≤ n) && as.all (slotsApart tdm a) && slotsOk tdm n as

/-- The entry that a list of shadow writes leaves for an index. -/
def lastWrite (i : Nat) (old : Word) (ws : List (Nat × Word)) : Word :=
  ws.foldl (fun v w => if w.1 = i then w.2 else v) old

/-- The shadow writes of one frame sync are checked and applied as one update, or refused with TABLE_ERR (R85, R91). -/
def State.sapApply (s : State) (d : Nat) (ws : List (Nat × Word)) (frame : Nat) : State :=
  let table := (List.range 16).map (fun i => lastWrite i (s.rd (R.SAP_SLOT_ACT d i)) ws)
  let mask := (lastWrite 16 (BitVec.ofNat 32 (s.fld (R.SAP_MASK d) F.SAP_MASK_ACTIVE)) ws).fld F.SAP_MASK_MASK
  let tdm := s.fld (R.SAP_FMT d) F.SAP_FMT_FORMAT == 2
  let set := (List.range 16).filterMap (fun i => if mask.testBit i then table[i]? else none)
  if slotsOk tdm (if tdm then s.flen d else s.flen d / 2) set then
    let old := s
    let s1 := (List.range 16).foldl (fun s i => s.wr (R.SAP_SLOT_ACT d i) (table.getD i 0)) s
    let s2 := (s1.setF (R.SAP_MASK d) F.SAP_MASK_ACTIVE mask).modDir d (fun x => { x with
      slots := (List.range 16).map (fun i =>
        if !mask.testBit i then .off
        else if !old.slotSet d i && old.on (R.SAP_STS d) F.SAP_STS_LOCK then .on
        else x.slots.getD i .off) })
    (s2.wr (R.SAP_FRAME_CNT d) (BitVec.ofNat 32 frame)).wr (R.SAP_FRAME_APPLIED d) (BitVec.ofNat 32 frame)
  else
    (s.setF (R.SAP_STS d) F.SAP_STS_TABLE_ERR 1).raiseF 0x0404 (sapSource d)

/-- A direction's converter loses lock or its input: its lanes fade to zero and deliver U until it locks again (R102). -/
def State.sapUnlock (s : State) (d : Nat) : State :=
  (s.setF (R.SAP_STS d) F.SAP_STS_LOCK 0).modDir d (fun x => { x with lockNext := false, slots := List.replicate 16 .off })

/-- A changed SRC_MODE takes effect at a block boundary (R96). -/
def State.sapNewUse (s : State) (d : Nat) : State :=
  match (s.dir d).newUse with
  | none => s
  | some u => (s.modDir d (fun x => { x with newUse := none })).beginUse d u

/-- A write of SRC_MODE on a running direction (R96): refused for BYPASS at a foreign rate; a change of converter use
takes effect at the next block boundary. `old` is the mode before the write. -/
def State.srcModeWritten (s : State) (d old : Nat) : State :=
  let rate := s.fld (R.SAP_RATE d) F.SAP_RATE_RATE
  let mode := s.fld (R.SAP_CFG d) F.SAP_CFG_SRC_MODE
  if s.on (R.SAP_STS d) F.SAP_STS_RUNNING then
    if mode = 1 ∧ rate ≠ rate96 then
      (s.setF (R.SAP_CFG d) F.SAP_CFG_SRC_MODE old).setF (R.SAP_STS d) F.SAP_STS_CFG_ERR 1
    else
      let u := s.useOf d mode rate
      s.modDir d (fun x => { x with newUse := if u = x.use then none else some u })
  else s

/-- What a write of SAP_CFG runs, by the word before it. -/
def State.sapCfgWritten (s : State) (d : Nat) (old : Word) : State :=
  let v := s.rd (R.SAP_CFG d)
  let s := if old.fld F.SAP_CFG_SRC_MODE = v.fld F.SAP_CFG_SRC_MODE then s else s.srcModeWritten d (old.fld F.SAP_CFG_SRC_MODE)
  let s := if old.fld F.SAP_CFG_HOLD = 1 ∧ v.fld F.SAP_CFG_HOLD = 0 then s.sapRelease d else s
  if old.fld F.SAP_CFG_EN = 0 ∧ v.fld F.SAP_CFG_EN = 1 then s.sapStart d
  else if old.fld F.SAP_CFG_EN = 1 ∧ v.fld F.SAP_CFG_EN = 0 then s.sapStop d
  else s

/-- What a block boundary does for a direction: a mode change, and step 3 of R93. -/
def State.sapBoundary (s : State) (d : Nat) : State :=
  let s := s.sapNewUse d
  if (s.dir d).lockNext then s.sapLock d else s

/-! ### Events -/

/-- SAP_FIRST_FRAME (R93 step 2); `rate` is the measured frame rate in 0.25 Hz. -/
def execSapFirstFrame (d : Fin 8) (rate : Nat) (s : State) : Out :=
  .next (if (s.dir d).phase = .watching then s.firstFrame d rate else s)

/-- SAP_SLOT_START (R93 step 4): at the slot's first zero crossing, or at the timeout. -/
def execSapSlotStart (d : Fin 8) (i : Fin 16) (timeout : Bool) (s : State) : Out :=
  .next (match (s.dir d).slots.getD i .off with
  | .starting by3 =>
    if timeout = false ∨ by3 ≤ s.clk.now3 then s.modDir d (fun x => { x with slots := x.slots.set i .on }) else s
  | _ => s)

/-- SAP_STOPPED (R94 step 3): after all slots reached zero and 8 zero frames passed. -/
def execSapStopped (d : Fin 8) (s : State) : Out :=
  .next (if (s.dir d).phase = .stopping then
    let s1 := ((s.setF (R.SAP_STS d) F.SAP_STS_RUNNING 0).setF (R.SAP_STS d) F.SAP_STS_LOCK 0).setF (R.SAP_STS d)
      F.SAP_STS_BYPASS 0
    let s2 := if s.master d then (s1.setF (R.SAP_STS d) F.SAP_STS_CLK_OK 0).setF (R.SAP_RATE d) F.SAP_RATE_RATE 0 else s1
    s2.modDir d (fun x => { SapDir.reset with crossing := x.crossing })
  else s)

/-- SAP_SHADOW_APPLY (R85, R91): at a frame sync, the first `n` batches that have crossed apply as one update; `frame` is
the frame that opens. -/
def execSapShadowApply (d : Fin 8) (n frame : Nat) (s : State) : Out :=
  let ws := ((s.dir d).crossing.take n).flatten
  if ws.isEmpty then .next s
  else
    let s1 := (s.sapApply d ws frame).modDir d (fun x => { x with crossing := x.crossing.drop n })
    .next (if (s1.dir d).crossing.isEmpty then s1.setF (R.SAP_STS d) F.SAP_STS_PENDING 0 else s1)

/-- SAP_CLOCK_LOST (R88, R102): a slave direction; SAP3's receiver also feeds T14 and T15, which lose lock (R289). -/
def execSapClockLost (d : Fin 8) (s : State) : Out :=
  .next (if (s.dir d).phase = .running && !s.master d && s.on (R.SAP_STS d) F.SAP_STS_CLK_OK then
    let s1 := ((s.setF (R.SAP_STS d) F.SAP_STS_CLK_LOST 1).setF (R.SAP_STS d) F.SAP_STS_CLK_OK 0).setF (R.SAP_RATE d)
      F.SAP_RATE_RATE 0
    let s2 := (s1.sapUnlock d).raiseF 0x0401 (sapSource d)
    if d.val = 6 then s2.setF R.TTH_PSAP_CFG F.TTH_PSAP_CFG_LOCK 0 else s2
  else s)

/-- SAP_CLOCK_RESTORED (R88): the direction restarts at step 2. -/
def execSapClockRestored (d : Fin 8) (rate : Nat) (s : State) : Out :=
  .next (if (s.dir d).phase = .running && !s.master d && !s.on (R.SAP_STS d) F.SAP_STS_CLK_OK then
    (s.raiseF 0x0402 (sapSource d)).firstFrame d rate
  else s)

/-- SAP_FRAME_ERROR (R89). -/
def execSapFrameError (d : Fin 8) (s : State) : Out :=
  .next (if s.on (R.SAP_STS d) F.SAP_STS_RUNNING then
    ((s.incSat (R.SAP_ERR_CNT d) F.SAP_ERR_CNT_FRAME_ERR).setF (R.SAP_STS d) F.SAP_STS_FRAME_ERR 1).raiseFLimited second3
      0x0403 (sapSource d)
  else s)

/-- SAP_SLIP (R99): a bypassed slave direction that is not synchronous. -/
def execSapSlip (d : Fin 8) (s : State) : Out :=
  .next (if (s.dir d).use = .bypass && !s.synchronous d then
    ((s.incSat (R.SAP_ERR_CNT d) F.SAP_ERR_CNT_SLIP).setF (R.SAP_STS d) F.SAP_STS_SLIP 1).raiseFLimited second3 0x0405
      (sapSource d)
  else s)

/-- SRC_LOCKED of a port direction (R100): lock in TRACK mode. -/
def State.sapTracked (s : State) (d rate : Nat) : State :=
  if (s.dir d).use = .track && !s.on (R.SAP_STS d) F.SAP_STS_LOCK && (s.dir d).phase = .running then
    ((s.setF (R.SAP_RATE d) F.SAP_RATE_RATE rate).sapLock d).raiseF 0x0406 (sapSource d)
  else s

/-- SRC_UNLOCKED of a port direction (R101, R102). -/
def State.sapTrackLost (s : State) (d : Nat) : State :=
  if (s.dir d).use = .track && s.on (R.SAP_STS d) F.SAP_STS_LOCK then (s.sapUnlock d).raiseF 0x0407 (sapSource d) else s

end Sys2Proof.Machine
end

