-- ==== Sys2Proof/Machine/Clocks.lean ====
section
/-!
DEFINITION. The die-to-die links (R19 to R24, R276, R373), space in the event collector (R469) and the audio PLL (R46, R103 to
R105).
-/
namespace Sys2Proof.Machine

/-! ### The H-F link (R19, R373) -/

/-- One direction of the link. -/
def State.dirOf (s : State) (w : LinkWay) : LinkDir :=
  match w with
  | .hToF => s.link.down
  | .fToH => s.link.up

def State.modDirOf (s : State) (w : LinkWay) (f : LinkDir → LinkDir) : State :=
  match w with
  | .hToF => s.modLink (fun y => { y with down := f y.down })
  | .fToH => s.modLink (fun y => { y with up := f y.up })

/-- The last 64 of a list of flits (R19). -/
def lastKept (fs : List Flit) : List Flit := fs.drop (fs.length - 64)

/-- The sender's part in a flit that arrives: a new one is kept for replay, a replayed one is no longer due. -/
def LinkDir.sent (d : LinkDir) (f : Flit) : LinkDir :=
  if f.seq = d.txSeq then { d with txSeq := (d.txSeq + 1) % 256, kept := lastKept (d.kept ++ [f]) }
  else { d with resend := d.resend.filter (fun g => g.seq != f.seq) }

/-- FLIT_RECEIVED (R19): delivered in order, or answered with a NAK that names the first missing sequence number; a flit that
has been delivered before is ignored. Good flits in a row count while the link trains (R373). -/
def execFlitReceived (dir : LinkWay) (seq : Fin 256) (crcOk : Bool) (kind : FlitKind) (s : State) : Out :=
  .next (if !s.power.hubUp then s
  else
    let d := (s.dirOf dir).sent ⟨seq.val, kind⟩
    let ahead := (seq.val + 256 - d.rxSeq) % 256
    if crcOk && ahead == 0 then
      s.modDirOf dir (fun _ => { d with rxSeq := (d.rxSeq + 1) % 256, nak := none, good := d.good + 1 })
    else if crcOk && decide (128 ≤ ahead) then s.modDirOf dir (fun _ => d)
    else
      let s1 := s.modDirOf dir (fun _ => { d with nak := some d.rxSeq, good := 0 })
      (s1.emit (.nak dir d.rxSeq)))

/-- LINK_REPLAY (R19): the sender has the NAK, and replays its kept flits from the one that it names. -/
def execLinkReplay (dir : LinkWay) (first : Fin 256) (s : State) : Out :=
  .next (
    let d := s.dirOf dir
    let fs := d.kept.dropWhile (fun f => f.seq != first.val)
    if d.nak = some first.val ∧ fs ≠ [] then
      let s1 := s.modDirOf dir (fun d => { d with nak := none, resend := fs })
      let s2 := (s1.incSat R.MEM_LINK_CNT F.MEM_LINK_CNT_REPLAY).worst 1
      s2.emit (.flits dir (fs.map (·.seq)))
    else s)

/-- LINK_SAMPLE_SUBSTITUTE (R21, R373): so many samples are substituted in this block. -/
def execLinkSampleSubstitute (n : Nat) (s : State) : Out :=
  .next (if n = 0 ∨ s.link.fUp = false then s
  else
    let s1 := s.addSat R.MEM_LINK_CNT F.MEM_LINK_CNT_SUBST n
    if s1.link.substSeen then s1
    else (s1.modLink (fun y => { y with substSeen := true })).degradedCount.raiseF 0x0201 0x0E01)

/-- F_LINK_DOWN (R22): F declares the link down. -/
def execFLinkDown (s : State) : Out :=
  .next (if s.link.fUp then
    (s.modLink (fun y => { y with fUp := false, down := { y.down with good := 0 } })).tthLinkLost
  else s)

/-- H_LINK_DOWN (R373). -/
def execHLinkDown (s : State) : Out :=
  .next (if s.power.hubUp && s.on R.MEM_LINK_STS F.MEM_LINK_STS_UP then
    let s1 := (s.setF R.MEM_LINK_STS F.MEM_LINK_STS_UP 0).incSat R.MEM_LINK_STS F.MEM_LINK_STS_DOWN
    let s2 := s1.modLink (fun y => { y with downAt := some s.clk.blk, up := { y.up with good := 0 },
                                            down := { y.down with good := 0 } })
    s2.raise 0x0203 0x0E01
  else s)

/-- The collector takes what waits, and ring 2 what the collector holds (R45, R469). -/
def State.spaceReturn (s : State) : State := (s.modCol (fun y => y.takeSpace s.linkUp s.nowNs)).pumpAll

/-- COLLECTOR_SPACE_RETURN (R469). -/
def execCollectorSpaceReturn (s : State) : Out := .next (if s.power.hubUp then s.spaceReturn else s)

/-- JOURNAL_DIVERGENT for the keys of a list (R431). -/
def State.divergentEvents : List Nat → State → State
  | [], s => s
  | k :: ks, s => State.divergentEvents ks (s.raise 0x0C01 0x0E05 [k % 256, k / 256])

/-- What boot found is raised after PART_RESET and the events held on F (R413, R431). -/
def State.bootEvents (s : State) : State :=
  let s := match s.power.fallback with
    | some (sel, used, why) => (s.modPower (fun y => { y with fallback := none })).raise 0x0C02 0x0E00 [sel, used, why]
    | none => s
  State.divergentEvents s.flash.divergent (s.modFlash (fun f => { f with divergent := [] }))

/-- DIE_LINK_UP (R373, R276, R277): 64 good flits in each direction. F sends what it held, and every register. The event is
raised where H had declared the link down. -/
def execDieLinkUp (s : State) : Out :=
  .next (if s.power.hubUp && !s.on R.MEM_LINK_STS F.MEM_LINK_STS_UP && decide (64 ≤ s.link.down.good)
      && decide (64 ≤ s.link.up.good) then
    let s1 := (s.setF R.MEM_LINK_STS F.MEM_LINK_STS_UP 1).setF R.GLB_MIRROR_STS F.GLB_MIRROR_STS_REFRESHING 1
    let s2 := s1.modLink (fun y => { y with fUp := true, downAt := none })
    let s3 := (s2.tthLinkBack).spaceReturn
    let s4 := if s.link.downAt.isSome then s3.raise 0x0204 0x0E01 else s3
    s4.bootEvents
  else s)

/-- LINK_RETRAIN_TIMEOUT (R373): 600 blocks after H declared the link down. -/
def execLinkRetrainTimeout (s : State) : Out :=
  .next (match s.link.downAt with
  | some b =>
    if s.power.hubUp && !s.on R.MEM_LINK_STS F.MEM_LINK_STS_UP && decide (b + 600 ≤ s.clk.blk) then s.hubReset 5 else s
  | none => s)

/-! ### The F-P links (R23, R24, R374) -/

/-- The index of a link: F to P0, P0 to F, F to P1, P1 to F. -/
def parLink (d : Fin 2) (up : Bool) : Nat := 2 * d.val + up.toNat

/-- PARITY_WORD_REPLACED (R23, R374). -/
def execParityWordReplaced (d : Fin 2) (up : Bool) (s : State) : Out :=
  let i := parLink d up
  let s1 := (s.incSat (R.PWR_LINK_CNT d) (if up then F.PWR_LINK_CNT_UP else F.PWR_LINK_CNT_DOWN)).worst 1
  .next (s1.modLink (fun l => { l with parBlk := l.parBlk.modify i (· + 1), parSec := l.parSec.set i true }))

/-- DIE_LINK_PARITY (R23): once per second for a link whose counter has advanced. -/
def execDieLinkParity (d : Fin 2) (up : Bool) (s : State) : Out :=
  let i := parLink d up
  let key := 2 ^ 32 + i
  .next (if s.link.parSec.getD i false && s.rested key second3 then
    let s1 := s.touch key
    (s1.modLink (fun y => { y with parSec := y.parSec.set i false })).raiseF 0x0202 (0x0E02 + d.val) [up.toNat]
  else s)

/-- LINK_PARITY_TRIP (R24): more than 1,024 replaced words in one block. -/
def execLinkParityTrip (d : Fin 2) (up : Bool) (s : State) : Out :=
  .next (if 1024 < s.link.parBlk.getD (parLink d up) 0 then
    State.pwrTrips 2 (addrs (fun j => 4 * d.val + j) 4) s
  else s)

/-! ### The audio PLL (R46, R103 to R105) -/

/-- The direction that SAP_SEL names. -/
def apllDir (v : Word) : Nat :=
  let x := v.fld F.CLK_APLL_CFG_SAP_SEL
  2 * (x % 4) + x / 4

/-- A bit clock of at most 24.576 MHz that divides 196.608 MHz (R103), by the measured frame rate. -/
def State.bitClockOk (s : State) (d : Nat) : Bool :=
  let r := s.fld (R.SAP_RATE d) F.SAP_RATE_RATE
  let f := r * s.flen d
  decide (0 < f ∧ f ≤ 4 * 24576000) && (decide (4 * 196608000 % f = 0) || Config.nearInteger r (s.flen d))

/-- A selection meets its condition (R103, R104). -/
def State.apllOk (s : State) (v : Word) : Bool :=
  match v.fld F.CLK_APLL_CFG_REF with
  | 0 | 1 | 3 => true
  | 2 => v.fld F.CLK_APLL_CFG_MCLK_IN_FREQ != 3
  | 4 =>
    let d := apllDir v
    !s.master d && (s.dir d).phase == .running && s.bitClockOk d
  | _ => false

/-- CLK_APLL_CFG has changed at the commit point of block k (R103, R104); `old` is the word before. -/
def State.apllCommit (s : State) (old : Word) (k : Nat) : State :=
  let v := s.rd R.CLK_APLL_CFG
  let sel (w : Word) := (w.fld F.CLK_APLL_CFG_REF, w.fld F.CLK_APLL_CFG_SAP_SEL, w.fld F.CLK_APLL_CFG_MCLK_IN_FREQ)
  if sel v = sel old then s
  else if !s.apllOk v then (s.setF R.CLK_APLL_STS F.CLK_APLL_STS_REF_ERR 1).raiseFAt 0x0105 0x3FF (s.stampOf k 0) []
  else
    let r := v.fld F.CLK_APLL_CFG_REF
    if r = s.sap.ref ∧ (r ≠ 4 ∨ apllDir v = 2 * (s.sap.refSap % 4) + s.sap.refSap / 4) ∧ r ≠ 2 then s
    else
      let s := s.modSap (fun y => { y with ref := r, refSap := v.fld F.CLK_APLL_CFG_SAP_SEL })
      let s := s.modClk (fun y => { y with reload := true })
      ((s.setF R.CLK_APLL_STS F.CLK_APLL_STS_LOCK 0).setF R.CLK_APLL_STS F.CLK_APLL_STS_SLEWING 1).alignShow

/-- AUDIO_PLL_REF_LOST (R46). -/
def execAudioPllRefLost (s : State) : Out :=
  .next (if s.on R.CLK_APLL_STS F.CLK_APLL_STS_HOLDOVER then s
  else
    let s1 := (s.setF R.CLK_APLL_STS F.CLK_APLL_STS_HOLDOVER 1).setF R.CLK_APLL_STS F.CLK_APLL_STS_LOCK 0
    ((s1.setF R.CLK_APLL_STS F.CLK_APLL_STS_SLEWING 0).raiseF 0x0103 0x3FF).alignShow)

/-- AUDIO_PLL_REF_RETURN (R46, R105): the PLL slews towards the reference; HOLDOVER clears with lock. -/
def execAudioPllRefReturn (s : State) : Out :=
  .next (if s.on R.CLK_APLL_STS F.CLK_APLL_STS_HOLDOVER then s.setF R.CLK_APLL_STS F.CLK_APLL_STS_SLEWING 1 else s)

/-- The audio PLL locks (R105, R28 to R30): the counter reloads at the next boundary. -/
def State.pllLocks (s : State) : State :=
  if s.on R.CLK_APLL_STS F.CLK_APLL_STS_LOCK then s
  else
    let s1 := (s.setF R.CLK_APLL_STS F.CLK_APLL_STS_LOCK 1).setF R.CLK_APLL_STS F.CLK_APLL_STS_HOLDOVER 0
    let s2 := (s1.setF R.CLK_APLL_STS F.CLK_APLL_STS_SLEWING 0).modClk (fun y => { y with reload := true, run := true })
    (s2.raiseF 0x0104 0x3FF).alignShow

/-- AUDIO_PLL_LOCKED (R105). In LISTEN the PLL locks as part of a wake (R307). -/
def execAudioPllLocked (s : State) : Out := .next (if s.power.mode = .listen then s else s.pllLocks)

/-- BLOCK_SLIP (R29): the counter and the array-time block index have drifted apart by a further whole block. -/
def execBlockSlip (s : State) : Out :=
  .next (if s.sap.ref = 3 then s
  else (s.modClk (fun y => { y with slips := y.slips + 1 })).raiseF 0x0102 0x3FF)

end Sys2Proof.Machine
end

