-- ==== Sys2Proof/Machine/RegAccess.lean ====
section
/-!
DEFINITION. The register window: what each field does on a write by its access code, reads through the mirror and the
shadow copies, the hold batch (R10, R433 to R443, R467), and the test multiplexers (R460 to R462).
-/
namespace Sys2Proof.Machine

/-! ### Access codes (R10) -/

/-- The bits of a register whose fields have an access code, as the tables give it. -/
def codeMask (a : Nat) (c : Acc) : Word :=
  (fieldsAt a).foldl (fun m f => if f.acc = c then m ||| f.fld.mask else m) 0

/-- The index of an address in an array of registers. -/
def regIdx (f : Nat → Nat) (n a : Nat) : Option Nat := (List.range n).find? (fun i => f i == a)

/-- The bits of a field with code RW that are RO in this element of its array: the entry size of a ring that fixes it (R335),
and NSR of a talker. -/
def fixedBits (a : Nat) : Word :=
  match regIdx R.HIF_RING_CFG 16 a with
  | some r => if 6 ≤ r ∧ r ≤ 13 then 0 else F.HIF_RING_CFG_LOG2_ESIZE.mask
  | none => if (regIdx R.NET_TK_CFG 16 a).isSome then F.NET_TK_CFG_NSR.mask else 0

/-- The bits that a write changes at once, stages, clears, triggers, or changes before the seal alone. -/
def rwMask (a : Nat) : Word := codeMask a .rw &&& ~~~ fixedBits a
def rwsMask (a : Nat) : Word := codeMask a .rws
def w1cMask (a : Nat) : Word := codeMask a .w1c
def woMask (a : Nat) : Word := codeMask a .wo
def rwbMask (a : Nat) : Word := codeMask a .rwb

/-- The bits that act at once. -/
def nowMask (a : Nat) : Word := rwMask a ||| w1cMask a ||| woMask a ||| rwbMask a

/-- Every field of the register is RO. -/
def allRo (a : Nat) : Bool := nowMask a ||| rwsMask a == 0

/-- A word with the bits of a mask replaced. -/
def mix (old new mask : Word) : Word := (old &&& ~~~ mask) ||| (new &&& mask)

/-- A page is forwarded to another die (R434, R440). -/
def onFront (a : Nat) : Bool := heldOn a == Die.front || heldOn a == Die.super

/-! ### The test multiplexers (R460 to R462) -/

/-- A signal is analogue (TST_KIND). -/
def tstAnalogue (i : Nat) : Bool :=
  decide (112 ≤ i ∧ i < 128) || decide (152 ≤ i ∧ i < 176) || decide (216 ≤ i ∧ i < 224)

/-- The M signals are excluded: on a sealed part and on an MX part (R462). -/
def State.mExcluded (s : State) : Bool := !s.metroFitted || s.metro.sealed

/-- A signal takes effect on output k (R461): 2 is ATP. -/
def State.tstOk (s : State) (k i : Nat) : Bool :=
  s.bit (R.PROT_TMUX_EN k (i / 32)) (i % 32) && !s.bit (R.PROT_MSIG (i / 32)) (i % 32)
    && (tstAnalogue i == (k == 2)) && !(s.mExcluded && decide (192 ≤ i ∧ i < 224))

/-- Output k drives its selection: the conditions hold now. -/
def State.tstActive (s : State) (k : Nat) : Bool :=
  s.on (R.TST_SEL k) F.TST_SEL_EN && s.tstOk k (s.fld (R.TST_SEL k) F.TST_SEL_SIG)

/-- A write of TST_SEL[k] (R461). -/
def State.tstWritten (s : State) (k : Nat) : State :=
  if s.on (R.TST_SEL k) F.TST_SEL_EN && !s.tstActive k then
    (s.setBit R.TST_STS k true).incSat R.TST_REFUSED F.TST_REFUSED_COUNT
  else s

/-- The 32 bits of a test of signals, word w. -/
def sigWord (p : Nat → Bool) (w : Nat) : Word :=
  (List.range 32).foldl (fun v b => v.setFld ⟨b, 1⟩ (p (32 * w + b)).toNat) (0 : Word)

/-! ### The mirror of F's registers (R439, R440) -/

/-- The mirrored target of a Tether node, past the window. -/
def gwinSlot (i : Nat) : Nat := 0x40000 + 4 * i

/-- The node that the mirrored TTH_GWIN_ADDR names. -/
def gwinMirror (rf : RegFile) : Nat :=
  384 * (rf.fld R.TTH_GWIN_ADDR F.TTH_GWIN_ADDR_SET % 3) + min 383 (rf.fld R.TTH_GWIN_ADDR F.TTH_GWIN_ADDR_NODE)

/-- The mirrored address advances after a data access with AUTOINC. -/
def gwinStep (rf : RegFile) : RegFile :=
  if rf.fld R.TTH_GWIN_ADDR F.TTH_GWIN_ADDR_AUTOINC = 1 then
    let i := (gwinMirror rf + 1) % 1152
    (rf.setFld R.TTH_GWIN_ADDR F.TTH_GWIN_ADDR_SET (i / 384)).setFld R.TTH_GWIN_ADDR F.TTH_GWIN_ADDR_NODE (i % 384)
  else rf

/-- A write of the bits of a mask as the mirror takes it: RW bits are replaced, W1C bits cleared. -/
def mirrorWrite (rf : RegFile) (e : Nat × Word × Word) : RegFile :=
  let (a, m, v) := e
  if a = R.TTH_GWIN_DATA then gwinStep (if m = 0 then rf else rf.set (gwinSlot (gwinMirror rf)) (v &&& F.TTH_GWIN_DATA_GAIN.mask))
  else if a = R.SNS_CAL_GAIN ∧ m = 0 then rf
  else
    let old := rf.get a
    rf.set a (mix old v (rwMask a &&& m) &&& ~~~ (w1cMask a &&& m &&& v))

/-- The summary words of the FLT_ page, and the SYNC that awaits its commit point (R72). -/
def State.fltSums (s : State) : List (Nat × Word) :=
  let sat := maskOf 16 (fun c => s.on (R.FLT_OVR_STS c) F.FLT_OVR_STS_SAT)
  let thr := maskOf 32 (fun i => s.bit (R.FLT_THR_STS (i / 2)) (i % 2))
  let uns := maskOf 16 (fun c => s.on (R.FLT_SETTLE c) F.FLT_SETTLE_UNSETTLED)
  let fad := maskOf 16 s.fading
  let act := maskOf 16 s.activeBank
  let sync := s.stage.changes.any (fun c => isSyncFrom .ball c || isSyncFrom .command c || isSyncFrom .armed c)
  [(R.FLT_OVR_SUM, BitVec.ofNat 32 sat), (R.FLT_THR_SUM, BitVec.ofNat 32 thr), (R.FLT_SETTLE_SUM, BitVec.ofNat 32 uns),
    (R.FLT_BANK_SUM, BitVec.ofNat 32 (65536 * fad + act)),
    (R.FLT_SYNC_STS, (s.rd R.FLT_SYNC_STS).setFld F.FLT_SYNC_STS_PENDING sync.toNat)]

/-- The words of TTH_PRIO_STS and TTH_PLAY_STS: sources set on any output (R280), requests queued (R285). -/
def State.tthSums (s : State) : List (Nat × Word) :=
  [(R.TTH_PRIO_STS, (s.rd R.TTH_PRIO_STS).setFld F.TTH_PRIO_STS_ANY (maskOf 4 s.psrcAny)),
    (R.TTH_PLAY_STS, (s.rd R.TTH_PLAY_STS).setFld F.TTH_PLAY_STS_QLEN s.tth.player.queue.length)]

/-- The words of the front registers that F computes when it sends them. -/
def State.frontComputed (s : State) : List (Nat × Word) :=
  let faults := maskOf 24 (fun o => s.on (R.TTH_OUT_STS o) F.TTH_OUT_STS_FAULT)
  let modes := maskOf 24 (fun o => s.eff o != 0)
  s.fltSums ++ s.tthSums ++ (List.range 128).map (fun i => (R.FLT_COEF_WIN i, s.coefWin i)) ++ (List.range 8).map (fun q => (R.TTH_PLAY_Q q, s.playQReg q))
    ++ (List.range 24).map (fun o => (R.TTH_OUT_STS o, (s.rd (R.TTH_OUT_STS o)).setFld F.TTH_OUT_STS_FADING (s.tthFading o).toNat))
    ++ [(R.FLT_COEF_CRC, s.coefCrc), (R.TTH_FAULT_SUM, BitVec.ofNat 32 faults), (R.TTH_MODE_SUM, BitVec.ofNat 32 modes),
        (R.TTH_GWIN_CUR, s.gwinCur), (R.SNS_CAL_OFS, s.calShown.1), (R.SNS_CAL_GAIN, s.calShown.2)]

/-- A write of Tether's gain window is on its way to F. -/
def State.gwinOnWay (s : State) : Bool := s.stage.toF.any (fun e => e.1 == R.TTH_GWIN_ADDR || e.1 == R.TTH_GWIN_DATA)

/-- The mirrored gain targets: F's, or H's while a write of them is on its way. -/
def State.gwinTargets (s : State) : RegFile :=
  if s.gwinOnWay then s.mirror.filter (fun c => decide (0x40000 ≤ c.1))
  else (List.range 1152).foldl (fun rf i =>
    match s.node i with
    | some x => rf.set (gwinSlot i) (BitVec.ofNat 32 (gain18 x.target))
    | none => rf) []

/-- F's registers as they go to H at a block boundary, with the writes that are on their way to F (R439). -/
def State.capture (s : State) : RegFile :=
  let own : RegFile := s.regs.filter (fun c => onFront c.1)
  let sent := s.frontComputed.foldl (fun rf (p : Nat × Word) => rf.set p.1 p.2) own
  let way := s.stage.toF.filter (fun e => e.1 != R.TTH_GWIN_DATA && e.1 != R.TTH_GWIN_ADDR)
  let rf := way.foldl mirrorWrite sent
  let rf := if s.gwinOnWay then rf.set R.TTH_GWIN_ADDR (s.mirror.get R.TTH_GWIN_ADDR) else rf
  s.gwinTargets.foldl (fun rf c => rf.set c.1 c.2) rf

/-- MIRROR_REFRESH_ARRIVE (R439). -/
def execMirrorRefreshArrive (s : State) : Out :=
  .next (if s.linkUp && s.power.hubUp then
    let (b, rf) := s.snap.getD (s.clk.blk, s.capture)
    let s1 := (s.modMirror (fun _ => rf)).modSnap (fun _ => none)
    (s1.wr R.GLB_MIRROR_BLK (BitVec.ofNat 32 b)).setF R.GLB_MIRROR_STS F.GLB_MIRROR_STS_REFRESHING 0
  else s)

/-! ### Reads (R436 to R441) -/

/-- The shadow copy of a register after one staged change (R10, R37): a change by command acts as a write at its commit point
only (R351). -/
def shadowOf (a : Nat) (cur : Word) : Act → Word
  | .reg b v false => if b = a then mix cur v (rwsMask a) else cur
  | _ => cur

/-- The shadow copy of a register: the last staged value, and past that the hold batch (R10, R443). -/
def State.shadow (s : State) (a : Nat) (cur : Word) : Word :=
  if rwsMask a = 0 then cur
  else
    let v := (s.stage.changes.map (·.act)).foldl (shadowOf a) cur
    s.stage.held.foldl (fun w h => if h.1 = a then mix w h.2 (rwsMask a) else w) v

/-- Words that H computes when they are read, by page. -/
def State.computedLow (s : State) (a : Nat) : Option Word :=
  if a = R.GLB_STS then some ((s.rd a).setFld F.GLB_STS_SEALED s.isSealed.toNat)
  else if a = R.GLB_COMMIT_STS then
    let p := s.stage.changes.any (fun c => c.rank == rankWindow)
    some ((s.rd a).setFld F.GLB_COMMIT_STS_PENDING p.toNat |>.setFld F.GLB_COMMIT_STS_HELD s.stage.held.length)
  else if a = R.GLB_MIRROR_STS then
    let v := (s.rd a).setFld F.GLB_MIRROR_STS_F s.linkUp.toNat
    let v := v.setFld F.GLB_MIRROR_STS_M (s.metroFitted && !s.mStale).toNat
    let words (d : Nat) : Nat := (decide (s.link.parBlk.getD (2 * d + 1) 0 < 32768)).toNat
    some ((v.setFld F.GLB_MIRROR_STS_P0 (words 0)).setFld F.GLB_MIRROR_STS_P1 (words 1))
  else if a = R.HIF_EVT_SEQ then some (BitVec.ofNat 32 s.col.nextSeq)
  else if a = R.HIF_CMD_SEQ then some (BitVec.ofNat 32 ((s.queue .cmd).nextOrd - (s.queue .cmd).base))
  else if a = R.HIF_MCMD_SEQ then some (BitVec.ofNat 32 ((s.queue .mcmd).nextOrd - (s.queue .mcmd).base))
  else if a = R.ARR_TIME_LO then some (BitVec.ofNat 32 s.nowNs)
  else if a = R.ARR_TIME_HI then some (BitVec.ofNat 32 (s.nowNs / 2 ^ 32))
  else if a = R.ARR_BLK_LO then some (BitVec.ofNat 32 s.clk.blk)
  else if a = R.ARR_BLK_HI then some (BitVec.ofNat 32 (s.clk.blk / 2 ^ 32))
  else if a = R.ARR_SCHED_STS then some ((0 : Word).setFld F.ARR_SCHED_STS_USED s.net.zv.sched.length)
  else if R.NET_LS_STS 0 ≤ a ∧ a ≤ R.NET_LS_STS 15 ∧ (a - R.NET_LS_STS 0) % 64 = 0 then
    let n := (a - R.NET_LS_STS 0) / 64
    some ((s.rd a).setFld F.NET_LS_STS_SYNC (s.on (R.NET_LS_CFG n) F.NET_LS_CFG_EN && !s.listenerConverts n).toNat)
  else none

/-- CAL_ registers of the tick that an agent has latched (R404). -/
def State.calWord (s : State) (ag a : Nat) : Option Word :=
  let (t, arr) := s.latchedTick ag
  if a = R.CAL_TIME_LO then some (BitVec.ofNat 32 s.metro.tick.1)
  else if a = R.CAL_TIME_HI then some (BitVec.ofNat 32 (t / 2 ^ 32))
  else if a = R.CAL_ARR_LO then some (BitVec.ofNat 32 arr)
  else if a = R.CAL_ARR_HI then some (BitVec.ofNat 32 (arr / 2 ^ 32))
  else if a = R.CAL_DATE then some (calDate t)
  else if a = R.CAL_CLOCK then some (calClock t)
  else none

def State.computedHigh (s : State) (ag a : Nat) : Option Word :=
  if a = R.ENG_GLB_STS then
    some (((0 : Word).setFld F.ENG_GLB_STS_RUN (maskOf 8 (fun n => s.fld (R.ENG_STS n) F.ENG_STS_MODE_ACT == 2))).setFld
      F.ENG_GLB_STS_MISS (maskOf 8 (fun n => s.on (R.ENG_STS n) F.ENG_STS_MISS)))
  else if a = R.MEM_STS then some ((s.rd a).setFld F.MEM_STS_DOWN (maskOf 8 (fun n => s.on (R.ENG_STS n) F.ENG_STS_DOWN)))
  else if a = R.MEM_EVT_DET_SEL then some s.detSel
  else if a = R.TST_STS then
    let v := ((s.rd a).setFld F.TST_STS_MEXCL s.mExcluded.toNat).setFld F.TST_STS_TESTEN s.test.testen.toNat
    some (v.setFld F.TST_STS_ACTIVE (maskOf 3 s.tstActive))
  else if a = R.TST_JTAG then some ((s.rd a).setFld F.TST_JTAG_ACCESS (s.bit (R.PROT_AGENT 14) F.PROT_AGENT_JTAG.lo).toNat)
  else if 0x10000 ≤ a ∧ a < 0x10100 then
    match regIdx R.TST_AVAIL 8 a, regIdx R.TST_KIND 8 a with
    | some w, _ => some (sigWord (fun i => s.tstOk 0 i || s.tstOk 1 i || s.tstOk 2 i) w)
    | none, some w => some (sigWord tstAnalogue w)
    | none, none => none
  else if 0x10100 ≤ a then (if s.metroFitted then s.calWord ag a else some 0)
  else match regIdx R.LCK_LEASE 32 a, regIdx R.MEM_EVT_DET 4 a with
    | some k, _ => some (s.leaseShown k)
    | none, some i => some (s.detWord i)
    | none, none => none

/-- The word that a read by an agent returns, but for what it latches (R439). -/
def State.readWord (s : State) (ag a : Nat) : Word :=
  if a = R.TTH_GWIN_DATA then s.mirror.get (gwinSlot (gwinMirror s.mirror))
  else if onFront a then s.shadow a (s.mirror.get a)
  else
    let c := if a < 0x6000 then s.computedLow a else if 0xE000 ≤ a then s.computedHigh ag a else none
    s.shadow a (c.getD (s.rd a))

/-- Pairs of which a read of the low half latches the high half, by the low half (R441): the high half stands 4 above. -/
def latching (a : Nat) : Bool :=
  a == R.GLB_DIE_ID_LO || a == R.GLB_COMMIT_BLK_LO || a == R.ARR_TIME_LO || a == R.ARR_BLK_LO || a == R.FLT_SYNC_BLK_LO
    || a == R.FLT_SYNC_AT_LO || a == R.ARB_SNAP_BLK_LO || (regIdx R.FLT_BANK_BLK_LO 16 a).isSome
    || (regIdx R.ENG_PROG_BLK_LO 8 a).isSome || (regIdx R.LCK_ACQ_BLK_LO 32 a).isSome
    || (regIdx R.LCK_REL_BLK_LO 32 a).isSome

/-- The copy that an agent holds of a high half. -/
def State.latched (s : State) (ag a : Nat) : Option Word :=
  (s.host.latches.find? (fun l => l.1 == ag && l.2.1 == a)).map (·.2.2)

/-- A read of a latching low half copies both halves for the agent (R441). -/
def State.latch (s : State) (ag a : Nat) : State :=
  s.modHost (fun y => { y with
    latches := (ag, a + 4, s.readWord ag (a + 4)) :: y.latches.filter (fun l => !(l.1 == ag && l.2.1 == a + 4)) })

/-- A read of a register that is present: the word, and what the read does. Words of gather SRAM, whose layout the spec does
not state, are free. -/
def State.readReg (s : State) (ag a : Nat) : Word × State :=
  if latching a then (s.readWord ag a, s.latch ag a)
  else if 4 ≤ a ∧ latching (a - 4) = true then ((s.latched ag a).getD (s.readWord ag a), s)
  else if a = R.CAL_TIME_LO then s.calTimeRead ag
  else if a = R.TTH_GWIN_DATA then
    (s.readWord ag a, ((s.modMirror (fun y => gwinStep y)).modStage (fun y => { y with toF := y.toF ++ [(a, 0, 0)] })))
  else if a = R.SNS_CAL_GAIN then (s.readWord ag a, (s.modStage (fun y => { y with toF := y.toF ++ [(a, 0, 0)] })))
  else if R.AFE_GTH_WIN 0 ≤ a ∧ a < R.AFE_GTH_WIN 256 then s.fresh 32
  else (s.readWord ag a, s)

/-- An access to an address with no register, or a partial write, is counted (R436, R437). -/
def State.accErr (s : State) (ag kind a : Nat) : State :=
  let s := s.setF R.GLB_STS (if kind = 2 then F.GLB_STS_PARTIAL else F.GLB_STS_UNMAPPED) 1
  let s := ((s.incSat R.GLB_ACC_ERR F.GLB_ACC_ERR_COUNT).setF R.GLB_ACC_ERR F.GLB_ACC_ERR_AGENT ag).setF R.GLB_ACC_ERR
    F.GLB_ACC_ERR_KIND kind
  s.wr R.GLB_ACC_ERR_ADDR (BitVec.ofNat 32 a)

/-- The JTAG agent reaches the window only with its bit set (R465). -/
def State.agentOk (s : State) (ag : Nat) : Bool := ag != 14 || s.bit (R.PROT_AGENT 14) F.PROT_AGENT_JTAG.lo

/-- A read through the window (R437); a refused read returns zero. -/
def State.windowRead (s : State) (ag a : Nat) : Word × State :=
  if !(s.mayRead ag a && s.agentOk ag) then (0, s.protViolation ag 0 a)
  else if !regPresent a then (0, s.accErr ag 0 a)
  else s.readReg ag a

/-! ### What a write runs, by page -/

/-- The hold batch is staged as one released sequence (R443). -/
def State.holdRelease (s : State) : State :=
  match s.stage.held with
  | [] => s
  | held =>
    let acts := held.map (fun h => Act.reg h.1 h.2 false)
    let eff := s.openFor acts
    let s := s.modStage (fun y => { y with held := [] })
    (acts.foldl (fun s act => s.stageAct ⟨none, eff, rankWindow, none, act⟩) s).setPair R.GLB_COMMIT_BLK_LO
      R.GLB_COMMIT_BLK_HI eff

/-- A trigger bit was written with 1. -/
def hit (wo : Word) (f : Fld) : Bool := wo.fld f == 1

/-- CLK_RECOVERY.GO (R414): the bytes of the local window go to image A. -/
def State.recoveryStart (s : State) : State :=
  if s.fld R.CLK_BOOT_STS F.CLK_BOOT_STS_IMG = 2 ∧ s.fld R.CLK_RECOVERY F.CLK_RECOVERY_BUSY = 0 then
    let off := s.fld R.CLK_RECOVERY F.CLK_RECOVERY_OFFSET * 65536
    (s.setF R.CLK_RECOVERY F.CLK_RECOVERY_BUSY 1).flashBegin none (.recovery off (Mem.getMany 0 s.window 0 65536))
  else s

/-- GLB_ and CLK_ registers. -/
def State.hookClk (s : State) (a : Nat) (old wo : Word) : State :=
  if a = R.GLB_CTL then
    let s := if hit wo F.GLB_CTL_CNT_CLR then s.setF R.GLB_ACC_ERR F.GLB_ACC_ERR_COUNT 0 else s
    if hit wo F.GLB_CTL_REFRESH then s.setF R.GLB_MIRROR_STS F.GLB_MIRROR_STS_REFRESHING 1 else s
  else if a = R.GLB_COMMIT_CTL then
    if old.fld F.GLB_COMMIT_CTL_HOLD = 1 ∧ s.fld a F.GLB_COMMIT_CTL_HOLD = 0 then s.holdRelease else s
  else if a = R.CLK_BOOTSEAL then
    if old.fld F.CLK_BOOTSEAL_SEAL = 0 ∧ s.isSealed = true then
      s.setF R.CLK_BOOT_STS F.CLK_BOOT_STS_BOOT_MS (min 0xFFFF ((s.clk.now3 - s.power.released) / 3000000))
    else s
  else if a = R.CLK_RECOVERY then (if hit wo F.CLK_RECOVERY_GO then s.recoveryStart else s)
  else s

/-- A write of HIF_RING_CTL has changed EN (R336, R354); `tags` as in ringDisable. -/
def State.ringCtlWritten (s : State) (r : Nat) (old : Word) (tags : List Nat) : State :=
  let en := s.ringEn r
  if old.fld F.HIF_RING_CTL_EN = 0 ∧ en = true then s.ringEnable r
  else if old.fld F.HIF_RING_CTL_EN = 1 ∧ en = false then
    s.ringDisable r (s.on (R.HIF_RING_CTL r) F.HIF_RING_CTL_ABORT) tags
  else s

/-- HIF_ registers. -/
def State.hookHif (s : State) (a : Nat) (old wo : Word) : State :=
  match regIdx R.HIF_RING_CTL 16 a with
  | some r => s.ringCtlWritten r old []
  | none =>
    if a = R.HIF_GLB_CTL then (if hit wo F.HIF_GLB_CTL_CNT_CLR then s.hifCntClr else s)
    else if a = R.HIF_SB_LO then
      if old.fld F.HIF_SB_LO_EN = 0 ∧ s.sbOn = true then s.modHost (fun y => { y with sbDead := false }) else s
    else s

/-- NET_ and ARR_ registers. -/
def State.hookNet (s : State) (a : Nat) (old wo : Word) : State :=
  if a = R.NET_GLB_CTL then (if hit wo F.NET_GLB_CTL_CNT_CLR then s.netCntClr else s)
  else if a = R.NET_MDIO_CTL then (if hit wo F.NET_MDIO_CTL_GO then s.mdioGo else s)
  else if a = R.ARR_PTP_CFG then s.ptpCfgWritten
  else match regIdx R.NET_LS_CFG 16 a, regIdx R.NET_TK_CFG 16 a, regIdx R.NET_ZV_CTRL_HI 8 a with
    | some st, _, _ => s.lsCfgWritten st old
    | none, some st, _ => s.tkCfgWritten st
    | none, none, some i => if old.fld F.NET_ZV_CTRL_HI_VALID = 1 ∧ s.ctrlValid i = false then s.ownerReset (0x30 + i) 0 else s
    | none, none, none => s

/-- SAP_ registers: a slot and the mask are shadows that R91 sends across. -/
def State.hookSap (s : State) (a : Nat) (old v : Word) : State :=
  let d := (a - 0x6000) / 0x100
  if a = R.SAP_CFG d then s.sapCfgWritten d old
  else if a = R.SAP_MASK d then s.sapShadow d 16 v
  else match regIdx (R.SAP_SLOT d) 16 a with
    | some i => s.sapShadow d i v
    | none => s

/-- AFE_ registers. -/
def State.hookAfe (s : State) (a : Nat) (old wo : Word) : State :=
  if a = R.AFE_LSN_CFG then s.lsnCfgWritten (old.fld F.AFE_LSN_CFG_EN == 1)
  else if a = R.AFE_ALM_BAND then s.almBandWritten
  else if a = R.AFE_PDM_CFG then State.railsShow [12, 13] s
  else if a = R.AFE_GTH_CFG then
    let s := if hit wo F.AFE_GTH_CFG_GO then s.gatherStart (s.fld a F.AFE_GTH_CFG_FMT) else s
    if hit wo F.AFE_GTH_CFG_STOP then s.gatherStop else s
  else match regIdx R.AFE_IN_CFG 8 a, regIdx R.AFE_IN_GAIN 8 a with
    | some n, _ => if old = s.rd a then s else s.modeChanged n
    | none, some n => s.gainWritten n
    | none, none => s

/-- SNS_ registers. -/
def State.hookSns (s : State) (a : Nat) (old wo v : Word) : State :=
  if a = R.SNS_CAL_OFS then s.calOfsWritten v
  else if a = R.SNS_CAL_GAIN then s.calGainWritten v
  else if a = R.SNS_REF then s.refWritten old
  else if a = R.SNS_GLB_CTL then (if hit wo F.SNS_GLB_CTL_CNT_CLR then s.snsCntClr else s)
  else
    let c := if a < 0x8400 then 0 else 1
    if a = R.SNS_CFG c then s.snsCfgWritten c old
    else if a = R.SNS_TRIG c then (if hit wo F.SNS_TRIG_SW then s.snsSoftware c else s)
    else if a = R.SNS_INJ c then (if wo.getLsbD 31 then s.injGo c else s)
    else if a = R.SNS_CAL_CTL c then (if hit wo F.SNS_CAL_CTL_GO then s.calGo c else s)
    else s

/-- FLT_ registers. -/
def State.hookFlt (s : State) (a : Nat) (old wo v : Word) : State :=
  if a = R.FLT_GLB_CTL then (if hit wo F.FLT_GLB_CTL_CNT_CLR then s.fltCntClr else s)
  else if a = R.FLT_SYNC_CTL then
    let s := if hit wo F.FLT_SYNC_CTL_SW_SYNC then s.swSync else s
    if old.fld F.FLT_SYNC_CTL_ARM = 1 ∨ s.on a F.FLT_SYNC_CTL_ARM = true then s.armSync else s
  else if a = R.FLT_SYNC_AT_LO ∨ a = R.FLT_SYNC_AT_HI then (if s.on R.FLT_SYNC_CTL F.FLT_SYNC_CTL_ARM then s.armSync else s)
  else match regIdx R.FLT_CH_CFG 16 a, regIdx R.FLT_SWAP 16 a with
    | some c, _ => if old.fld F.FLT_CH_CFG_TAPS = s.fld a F.FLT_CH_CFG_TAPS then s else s.setDelay c
    | none, some c => if hit wo F.FLT_SWAP_GO then s.swapGo c v else s
    | none, none => s

/-- MP_ registers. -/
def State.hookMp (s : State) (a : Nat) (wo : Word) : State :=
  if a = R.MP_GLB_CTL then (if hit wo F.MP_GLB_CTL_CNT_CLR then s.mpCntClr else s)
  else if a = R.MP_PRESET_CTL then
    if hit wo F.MP_PRESET_CTL_GO then s.stagePreset (s.fld a F.MP_PRESET_CTL_INDEX) else s
  else s

/-- TTH_ registers. -/
def State.hookTth (s : State) (a : Nat) (old wo v : Word) : State :=
  if a = R.TTH_GWIN_DATA then s.gwinWrite v
  else if a = R.TTH_GWIN_ADDR then (if s.fld a F.TTH_GWIN_ADDR_SET = 3 then s.setF R.TTH_STS F.TTH_STS_CFG_ERR 1 else s)
  else if a = R.TTH_CTL then (if hit wo F.TTH_CTL_CNT_CLR then s.tthCntClr else s)
  else if a = R.TTH_RAMP then s.rateWritten (old.fld F.TTH_RAMP_RATE)
  else if a = R.TTH_TONE_CFG ∨ a = R.TTH_TONE_FREQ then s.toneRestart
  else if a = R.TTH_PLAY_CTL then
    let s := if hit wo F.TTH_PLAY_CTL_GO then s.playGo (s.fld a F.TTH_PLAY_CTL_MSG) (s.fld a F.TTH_PLAY_CTL_REPEAT) else s
    if hit wo F.TTH_PLAY_CTL_STOP then s.playStop else s
  else match regIdx R.TTH_OUT_CFG 24 a, regIdx R.TTH_SRV_CFG 8 a with
    | some o, _ => if hit wo F.TTH_OUT_CFG_CLR_FAULT then s.tthClrFault o else s
    | none, some m => if hit wo F.TTH_SRV_CFG_CLOSE then s.servoClose m else s
    | none, none => s

/-- PWR_ and EXT_ registers. -/
def State.hookPwr (s : State) (a : Nat) (old wo : Word) : State :=
  if a = R.PWR_GLB_CFG then
    let s := if hit wo F.PWR_GLB_CFG_CNT_CLR then s.pwrCntClr else s
    if old.fld F.PWR_GLB_CFG_PAR = s.fld a F.PWR_GLB_CFG_PAR then s else State.parWritten [0, 1, 2, 3] s
  else match regIdx R.PWR_CTL 8 a, regIdx R.EXT_CFG 8 a with
    | some m, _ =>
      let s := if hit wo F.PWR_CTL_CLR_FAULT then s.clearFault m else s
      if hit wo F.PWR_CTL_DIAG_GO then s.diagGo m else s
    | none, some e => if hit wo F.EXT_CFG_CLR_FAULT then s.clearFault (8 + e) else s
    | none, none => s

/-- The ABANDONED bits that a write of LCK_ABANDONED clears. -/
def State.abandonClears (w : Word) : List Nat → State → State
  | [], s => s
  | k :: ks, s => State.abandonClears w ks (if w.getLsbD k then s.abandonClear k else s)

/-- ENG_, ARB_ and LCK_ registers; `w1` are the W1C bits written. -/
def State.hookEng (s : State) (a : Nat) (wo w1 : Word) : State :=
  if a = R.ENG_GLB_CTL then (if hit wo F.ENG_GLB_CTL_CNT_CLR then s.engCntClr else s)
  else if a = R.ARB_CTL then (if hit wo F.ARB_CTL_SNAP then s.arbSnap (hit wo F.ARB_CTL_CLR) else s)
  else if a = R.LCK_GLB_CTL then (if hit wo F.LCK_GLB_CTL_CNT_CLR then s.lckCntClr else s)
  else if a = R.LCK_OWNER_RST then
    if hit wo F.LCK_OWNER_RST_GO then s.ownerReset (s.fld a F.LCK_OWNER_RST_OWNER) 2 else s
  else if a = R.LCK_ABANDONED then State.abandonClears w1 (List.range 32) s
  else match regIdx R.LCK_STS 32 a with
    | some k => if hit w1 F.LCK_STS_ABANDONED then s.abandonClear k else s
    | none => s

/-- MEM_ and JNL_ registers. -/
def State.hookMem (s : State) (a : Nat) (wo : Word) : State :=
  if a = R.MEM_CTL then (if hit wo F.MEM_CTL_CNT_CLR then s.memCntClr else s)
  else if a = R.MEM_SCRUB_CFG then s.maskShow 11
  else if a = R.MEM_INJ then
    if hit wo F.MEM_INJ_GO then
      s.modErr (fun y => { y with inject := some (s.fld a F.MEM_INJ_STORE, s.on a F.MEM_INJ_DOUBLE) })
    else s
  else if a = R.JNL_CTL then
    let s := if hit wo F.JNL_CTL_COMPACT then s.compactGo else s
    if hit wo F.JNL_CTL_CNT_CLR then s.jnlCntClr else s
  else s

/-- TST_ and MLK_ registers. -/
def State.hookTst (s : State) (a : Nat) (wo : Word) : State :=
  if a = R.TST_CTL then
    if hit wo F.TST_CTL_CNT_CLR then (s.wr R.TST_REFUSED 0).setF R.TST_JTAG F.TST_JTAG_REGWIN 0 else s
  else if a = R.MLK_LIM_CFG then s.limCfgWritten
  else match regIdx R.TST_SEL 3 a with
    | some k => s.tstWritten k
    | none => s

/-- What the immediate part of a write runs: `old` is the word before, `wo` the trigger bits, `w1` the W1C bits written, `v`
the word written. -/
def State.hook (s : State) (a : Nat) (old wo w1 v : Word) : State :=
  if a < 0x2000 then s.hookClk a old wo
  else if a < 0x3000 then s.hookHif a old wo
  else if a < 0x4000 then s
  else if a < 0x6000 then s.hookNet a old wo
  else if a < 0x7000 then s.hookSap a old v
  else if a < 0x8000 then s.hookAfe a old wo
  else if a < 0x9000 then s.hookSns a old wo v
  else if a < 0xA000 then s.hookFlt a old wo v
  else if a < 0xC000 then s.hookMp a wo
  else if a < 0xD000 then s.hookTth a old wo v
  else if a < 0xE000 then s.hookPwr a old wo
  else if a < 0xF000 then s.hookEng a wo w1
  else if a < 0x10000 then s.hookMem a wo
  else s.hookTst a wo

/-- The RW, RWB, W1C and WO bits of a mask act on the register's die (R437 step 4). A mask of 0 is a read that advances an
address. -/
def State.applyNow (s : State) (a : Nat) (m v : Word) : State :=
  match regIdx R.FLT_COEF_WIN 128 a with
  | some i => s.coefWinWrite i v
  | none =>
    if m = 0 then (if a = R.TTH_GWIN_DATA then s.gwinNext else if a = R.SNS_CAL_GAIN then s.calAdvance else s)
    else
      let old := s.rd a
      let w1 := w1cMask a &&& m &&& v
      (s.wr a (mix old v ((rwMask a ||| rwbMask a) &&& m) &&& ~~~ w1)).hook a old (woMask a &&& m &&& v) w1 v

/-- The oldest write on its way to F takes effect (R440). -/
def State.applyF (s : State) : State :=
  match s.stage.toF with
  | [] => s
  | (a, m, v) :: rest => (s.modStage (fun y => { y with toF := rest })).applyNow a m v

/-- F_WRITE_APPLY (R440). -/
def execFWriteApply (s : State) : Out := .next s.applyF

/-- Every write on its way to F takes effect in order. -/
def State.drainF : Nat → State → State
  | 0, s => s
  | n + 1, s => State.drainF n s.applyF

/-! ### Fields that are writable only in some state (R467) -/

/-- A guard: the bits of a field and whether its condition fails now. -/
abbrev Guard := Word × Bool

/-- The guards of the hub pages below 0x6000 and of the test for a word `v` over `old`; with the bit that reports them. -/
def State.guardLow (s : State) (a : Nat) (old v : Word) : List Guard × (Nat × Fld) :=
  let r := (a - 0x2000) / 0x20
  if 0x2000 ≤ a ∧ a < 0x2200 then
    let busy := s.ringState r != ringDisabled
    let e := (R.HIF_RING_STS r, F.HIF_RING_STS_CFG_ERR)
    if a = R.HIF_RING_CTL r then ([(F.HIF_RING_CTL_EN.mask, v.fld F.HIF_RING_CTL_EN == 0 && !s.disableOk r)], e)
    else if a = R.HIF_RING_CFG r then ([(rwMask a &&& ~~~ F.HIF_RING_CFG_VEC.mask, busy)], e)
    else if a = R.HIF_RING_BASE_LO r ∨ a = R.HIF_RING_BASE_HI r ∨ a = R.HIF_RING_CHAN r then ([(rwMask a, busy)], e)
    else ([], e)
  else match regIdx R.NET_LS_CFG 16 a, regIdx R.NET_TK_CFG 16 a with
    | some st, _ =>
      ([(F.NET_LS_CFG_CLASS.mask ||| F.NET_LS_CFG_NSR.mask ||| F.NET_LS_CFG_CHANS.mask, !streamCfgOk old v)],
        (R.NET_LS_STS st, F.NET_LS_STS_CFG_ERR))
    | none, some st =>
      ([(F.NET_TK_CFG_CLASS.mask ||| F.NET_TK_CFG_CHANS.mask, !streamCfgOk old (mix v old F.NET_TK_CFG_NSR.mask))],
        (R.NET_TK_STS st, F.NET_TK_STS_CFG_ERR))
    | none, none =>
      match regIdx R.NET_PORT_SHP_A 3 a, regIdx R.NET_PORT_SHP_B 3 a with
      | some p, _ => ([(F.NET_PORT_SHP_A_IDLE.mask, !s.shaperOk p false v)], (R.NET_GLB_STS, F.NET_GLB_STS_CFG_ERR))
      | none, some p => ([(F.NET_PORT_SHP_B_IDLE.mask, !s.shaperOk p true v)], (R.NET_GLB_STS, F.NET_GLB_STS_CFG_ERR))
      | none, none => ([], (R.NET_GLB_STS, F.NET_GLB_STS_CFG_ERR))

/-- The guards of SAP_, SNS_, FLT_ and MP_ registers. -/
def State.guardMid (s : State) (a : Nat) (v : Word) : List Guard × (Nat × Fld) :=
  if a < 0x6800 then
    let d := (a - 0x6000) / 0x100
    let e := (R.SAP_STS d, F.SAP_STS_CFG_ERR)
    let runs := s.on (R.SAP_STS d) F.SAP_STS_RUNNING
    if a = R.SAP_CFG d then ([(F.SAP_CFG_MASTER.mask ||| F.SAP_CFG_BDIV.mask, runs)], e)
    else if a = R.SAP_FMT d then ([(rwMask a, runs)], e)
    else ([], e)
  else if a = R.SNS_TDAC_SW then ([(F.SNS_TDAC_SW_SW.mask, tdacBad v)], (R.SNS_GLB_STS, F.SNS_GLB_STS_CFG_ERR))
  else match regIdx R.FLT_CH_CFG 16 a, regIdx R.MP_LIM 22 a with
    | some c, _ => ([(F.FLT_CH_CFG_TAPS.mask, s.chanOn c)], (R.FLT_GLB_STS, F.FLT_GLB_STS_TAPS_ERR))
    | none, some k => ([(F.MP_LIM_LOOKAHEAD.mask, !s.lookaheadOpen k)], (R.MP_GLB_STS, F.MP_GLB_STS_LOOKAHEAD_ERR))
    | none, none => ([], (R.FLT_GLB_STS, F.FLT_GLB_STS_TAPS_ERR))

/-- The guards of TTH_ registers. -/
def State.guardTth (s : State) (a : Nat) (v : Word) : List Guard × (Nat × Fld) :=
  let e := (R.TTH_STS, F.TTH_STS_CFG_ERR)
  let m := (a - 0xC400) / 0x40
  if a = R.TTH_CTL then ([(F.TTH_CTL_MAINT.mask, v.fld F.TTH_CTL_MAINT == 1 && !s.tthQuiet)], e)
  else if 0xC400 ≤ a ∧ a < 0xC600 then
    if a = R.TTH_SRV_DRV m ∨ a = R.TTH_SRV_KREF m ∨ (regIdx (R.TTH_SRV_COEF m) 10 a).isSome = true then
      ([(rwMask a, s.on (R.TTH_SRV_STS m) F.TTH_SRV_STS_CLOSED)], e)
    else ([], e)
  else if (regIdx R.TTH_OUT_CFG 24 a).isSome then ([(F.TTH_OUT_CFG_MODE.mask, s.on R.TTH_CTL F.TTH_CTL_MAINT)], e)
  else ([], e)

/-- The guards of PWR_, EXT_ and ENG_ registers. -/
def State.guardHigh (s : State) (a : Nat) (v : Word) : List Guard × (Nat × Fld) :=
  let e := (R.PWR_GLB_CFG, F.PWR_GLB_CFG_CFG_ERR)
  if a = R.PWR_GLB_CFG then
    ([(F.PWR_GLB_CFG_CARRIER.mask ||| F.PWR_GLB_CFG_PAR.mask, !s.allPwrOff),
      (F.PWR_GLB_CFG_EXT_CARRIER.mask, !s.allExtOff)], e)
  else if a < 0xE000 then
    match regIdx R.EXT_CFG 8 a, regIdx R.EXT_TIM 8 a with
    | some x, _ => ([(F.EXT_CFG_MODE.mask, s.chState (8 + x) != stOff)], e)
    | none, some x => ([(F.EXT_TIM_MIN_PULSE.mask, s.chState (8 + x) != stOff)], e)
    | none, none => ([], e)
  else
    let n := (a - 0xE000) / 0x40
    let e := (R.ENG_STS n, F.ENG_STS_CFG_ERR)
    if a = R.ENG_CTL n then
      ([(F.ENG_CTL_RUNAHEAD.mask, s.fld (R.ENG_STS n) F.ENG_STS_MODE_ACT != 0),
        (F.ENG_CTL_MODE.mask, v.fld F.ENG_CTL_MODE == 2 && (s.engX n).staged.isNone)], e)
    else if a = R.ENG_DRAM n then ([(rwMask a, !s.dramOk n v)], e)
    else if a = R.ENG_QUOTA n then ([(F.ENG_QUOTA_QUOTA.mask, !s.quotaOk n v)], e)
    else ([], e)

def State.guards (s : State) (a : Nat) (old v : Word) : List Guard × (Nat × Fld) :=
  if a < 0x6000 then s.guardLow a old v
  else if a < 0xC000 then s.guardMid a v
  else if a < 0xD000 then s.guardTth a v
  else if a < 0xE200 then s.guardHigh a v
  else ([], (R.PWR_GLB_CFG, F.PWR_GLB_CFG_CFG_ERR))

/-- The bits that a write of `v` over the word `shown` would write while their condition fails (R467). -/
def State.refusedBits (s : State) (a : Nat) (shown v : Word) : Word :=
  ((s.guards a shown v).1.filter (fun g => g.2 && ((shown ^^^ v) &&& g.1) != 0)).foldl (fun m g => m ||| g.1) 0

/-- The error bit of a refused field is set on its die, and in the mirror at the next refresh. -/
def State.guardErr (s : State) (a : Nat) (shown v : Word) : State :=
  let e := (s.guards a shown v).2
  s.setF e.1 e.2 1

/-! ### Writes (R436, R437, R440, R442, R443) -/

/-- Writes that the hold batch takes at most (R443). -/
def holdMax : Nat := 256

/-- The RWS part of a window write is staged, or joins the hold batch of agents 0, 1 and 2. -/
def State.stageWrite (s : State) (ag a : Nat) (v : Word) : State :=
  if s.on R.GLB_COMMIT_CTL F.GLB_COMMIT_CTL_HOLD && decide (ag ≤ 2) then
    if s.stage.held.length < holdMax then s.modStage (fun y => { y with held := y.held ++ [(a, v)] })
    else s.setF R.GLB_STS F.GLB_STS_HOLD_OVF 1
  else
    let act := Act.reg a v false
    let eff := s.openFor [act]
    (s.stageAct ⟨none, eff, rankWindow, none, act⟩).setPair R.GLB_COMMIT_BLK_LO R.GLB_COMMIT_BLK_HI eff

/-- The immediate part of a window write: at once on H, forwarded to F and mirrored at once (R439, R440). -/
def State.writeNow (s : State) (a : Nat) (m v : Word) : State :=
  if onFront a then
    let e := (a, m, v)
    ((s.modStage (fun y => { y with toF := y.toF ++ [e] })).modMirror (fun y => mirrorWrite y e)).modSnap (fun y => y.map
          (fun p => (p.1, mirrorWrite p.2 e)))
  else s.applyNow a m v

/-- Step 4 of R437: each field acts by its own access code, but for the bits that R467 refuses. -/
def State.writeFields (s : State) (ag a : Nat) (v : Word) : State :=
  let shown := s.readWord ag a
  let bad := s.refusedBits a shown v
  let s := if bad = 0 then s else s.guardErr a shown v
  let v := mix v shown bad
  let m := nowMask a &&& ~~~ bad
  let s := if nowMask a = 0 then s else s.writeNow a m v
  if rwsMask a = 0 then s else s.stageWrite ag a v

/-- The write needs a bit of PROT_AGENT that the agent lacks (R417). -/
def State.needsBit (s : State) (ag a : Nat) : Bool :=
  (decide (0x10000 ≤ a ∧ a < 0x10060) && !s.bit (R.PROT_AGENT ag) F.PROT_AGENT_TST.lo)
    || (a == R.MEM_INJ && !s.bit (R.PROT_AGENT ag) F.PROT_AGENT_INJ.lo)

/-- In recovery only CLK_RECOVERY acts on a write (R414). -/
def State.recoveryDrops (s : State) (a : Nat) : Bool :=
  s.fld R.CLK_BOOT_STS F.CLK_BOOT_STS_IMG == 2 && s.isSealed && a != R.CLK_RECOVERY

/-- On an MX part the MLK_ and CAL_ registers do not act (R3). -/
def State.metroDrops (s : State) (a : Nat) : Bool := decide (0x10100 ≤ a) && !s.metroFitted

/-- A whole-word write passes the checks that come before its fields. -/
def State.windowOk (s : State) (ag a : Nat) : Bool :=
  s.mayWrite ag a && s.agentOk ag && !(s.isSealed && s.needsBit ag a) && regPresent a && !s.recoveryDrops a
    && !s.metroDrops a && !(s.isSealed && rwbMask a != 0) && !(onFront a && !s.linkUp)

/-- A write through the window with its byte enables (R437). -/
def State.windowWrite (s : State) (ag a : Nat) (v : Word) (be : Nat) : State :=
  if !(s.mayWrite ag a && s.agentOk ag) || (s.isSealed && s.needsBit ag a) then s.protViolation ag 1 a
  else if be ≠ 15 then s.accErr ag 2 a
  else if !regPresent a then s.accErr ag 1 a
  else if s.recoveryDrops a || s.metroDrops a then s
  else if s.isSealed && rwbMask a != 0 then s.protViolation ag 2 a
  else if onFront a && !s.linkUp && !allRo a then s.setF R.GLB_STS F.GLB_STS_LINK_DROP 1
  else s.writeFields ag a v

/-- A window write, with the writes on their way to F carried out. -/
def State.writeThrough (s : State) (ag a : Nat) (v : Word) : State :=
  let s := s.windowWrite ag a v 15
  State.drainF s.stage.toF.length s

/-- A register as a read by an agent gives it, with one field replaced: the word that a write of that field alone carries. -/
def State.asRead (s : State) (ag a : Nat) (f : Fld) (x : Nat) : Word := (s.readWord ag a).setFld f x

end Sys2Proof.Machine
end

