-- ==== Sys2Proof/Machine/HostPorts.lean ====
section
/-!
DEFINITION. The SPI target (R333), the SMBus target but for its descriptors (R334), and the HEALTH payload (R201).
-/
namespace Sys2Proof.Machine

/-- The window, the doorbells and the buses answer: H runs and its boot has sealed it. -/
def State.served (s : State) : Bool := s.power.hubUp && s.isSealed

/-! ### SPI (R333, R338) -/

/-- The agent of the SPI port (R415). -/
def agSpi : Nat := 1

/-- A word written to a doorbell address. -/
def State.spiDoor (s : State) (off : Nat) (v : Word) : State :=
  let i := off / 8
  if off % 8 ≠ 0 ∨ 32 ≤ i then s
  else s.doorGuard agSpi i (fun s => if i < 16 then s.doorbell i v.toNat [] else s.rearm (i - 16) v.toNat)

/-- A word read from a doorbell address: the last value written. -/
def State.spiDoorRead (s : State) (off : Nat) : Word × State :=
  let i := off / 8
  if off % 8 ≠ 0 ∨ 32 ≤ i then (0, s)
  else if s.mayRead agSpi 0x2000 then
    (BitVec.ofNat 32 (if i < 16 then (s.ringX i).door else s.host.rearm.getD (i - 16) 0), s)
  else (0, s.protViolation agSpi 0 (doorAddr i))

/-- An address that reaches nothing. -/
def State.spiMiss (s : State) : State := s.setF R.HIF_GLB_STS F.HIF_GLB_STS_SPI_ADDR 1

/-- One word written. -/
def State.spiWrite (s : State) (a : Nat) (v : Word) : State :=
  if a < 0x20000 then s.writeThrough agSpi a v
  else if a < 0x20200 then s.spiDoor (a - 0x20000) v
  else if 0x30000 ≤ a ∧ a < 0x40000 then s.modWindow (fun y => y.setMany 0 (a - 0x30000) (leBytes 4 v.toNat))
  else s.spiMiss

/-- One word read. -/
def State.spiRead (s : State) (a : Nat) : Word × State :=
  if a < 0x20000 then
    let (v, s) := s.windowRead agSpi a
    (v, State.drainF s.stage.toF.length s)
  else if a < 0x20200 then s.spiDoorRead (a - 0x20000)
  else if 0x30000 ≤ a ∧ a < 0x40000 then (BitVec.ofNat 32 (leNat (Mem.getMany 0 s.window (a - 0x30000) 4)), s)
  else (0, s.spiMiss)

/-- The words of a write, each 4 above the one before. -/
def State.spiWrites : Nat → List Word → State → State
  | _, [], s => s
  | a, v :: vs, s => State.spiWrites (a + 4) vs (s.spiWrite a v)

/-- The words of a read. -/
def State.spiReads : Nat → Nat → State → List Word × State
  | _, 0, s => ([], s)
  | a, n + 1, s =>
    let (v, s) := s.spiRead a
    let (vs, s) := State.spiReads (a + 4) n s
    (v :: vs, s)

/-- SPI_CS_N has risen inside a word: that word is dropped. -/
def State.spiCut (s : State) (cut : Bool) : State := if cut then s.setF R.HIF_GLB_STS F.HIF_GLB_STS_SPI_FRAME 1 else s

/-- SPI_TRANSACTION (R333). -/
def execSpiTransaction (addr : Nat) (op : SpiOp) (s : State) : Out :=
  .next (if !s.served then s
  else
    match op with
    | .write ws cut => (State.spiWrites addr ws s).spiCut cut
    | .read n cut =>
      let (vs, s1) := State.spiReads addr n s
      (s1.emit (.spi vs)).spiCut cut)

/-! ### The HEALTH payload (R201) -/

/-- The corrected errors counted: of the stores, of the link, of the die links and of the link to M (R364, R366). -/
def State.correctedCount (s : State) : Nat :=
  (List.range 28).foldl (fun t i => t + s.fld (R.MEM_CNT i) F.MEM_CNT_CORR) 0 + s.fld R.MEM_LINK_CNT F.MEM_LINK_CNT_REPLAY
    + (List.range 2).foldl (fun t d => t + s.fld (R.PWR_LINK_CNT d) F.PWR_LINK_CNT_UP + s.fld (R.PWR_LINK_CNT d)
      F.PWR_LINK_CNT_DOWN) 0
    + s.fld R.MEM_MLINK_CNT F.MEM_MLINK_CNT_BAD

/-- The 64 bytes of a HEALTH reply; the highest die temperature, which the part measures, is a free value. -/
def State.healthPayload (s : State) : List Byte × State :=
  let (t, s) := s.fresh 16
  let ls (f : Fld) : Nat := maskOf 16 (fun i => s.on (R.NET_LS_STS i) f)
  (leBytes 8 (s.getPair R.GLB_DIE_ID_LO R.GLB_DIE_ID_HI) ++ leBytes 2 s.zvAddr ++ leBytes 1 (modeCode s.power.mode)
    ++ leBytes 1 s.net.zv.worst ++ leBytes 4 s.correctedCount
    ++ leBytes 2 (s.fld R.MEM_LEVEL_CNT F.MEM_LEVEL_CNT_CONTAINED) ++ leBytes 2 (s.fld R.MEM_LEVEL_CNT F.MEM_LEVEL_CNT_DEGRADED)
    ++ leBytes 3 (maskOf 24 (fun o => s.eff o != 0)) ++ [0] ++ leBytes 2 (ls F.NET_LS_STS_ACTIVE) ++ leBytes 2 (ls F.NET_LS_STS_LOST)
    ++ leBytes 2 (maskOf 16 (fun i => s.on (R.NET_TK_STS i) F.NET_TK_STS_ACTIVE)) ++ leBytes 1 s.ptpState ++ [0]
    ++ leBytes 4 (s.rd R.ARR_PTP_OFS).toNat ++ leBytes 2 t.toNat ++ List.replicate 26 0, s)

/-- The worst level is counted anew from a report on. -/
def State.healthSent (s : State) : State := s.modNet (fun y => { y with zv := { y.zv with worst := 0 } })

/-! ### SMBus (R334) -/

/-- The agent of the SMBus port (R415). -/
def agSmb : Nat := 2

/-- The target answers. -/
def State.smbUp (s : State) : Bool := s.served && s.on R.HIF_SMB_CFG F.HIF_SMB_CFG_EN

/-- A transfer whose PEC is wrong is NACKed and dropped where PEC_EN is set. -/
def State.smbPec (s : State) (pecOk : Bool) (f : State → State) : State :=
  if !s.smbUp then s
  else if s.on R.HIF_SMB_CFG F.HIF_SMB_CFG_PEC_EN && !pecOk then s.setF R.HIF_SMB_STS F.HIF_SMB_STS_PEC_ERR 1
  else f s

/-- A block read answers bytes. -/
def State.smbAnswer (s : State) (bs : List Byte) : State := s.emit (.smb bs)

/-- SMB_SET_POINTER (R334). -/
def execSmbSetPointer (p : Nat) (pecOk : Bool) (s : State) : Out :=
  .next (s.smbPec pecOk (fun s => (s.modHost (fun y => { y with smbPtr := p % 2 ^ 32 }))))

/-- SMB_READ_REGISTER (R334). -/
def execSmbReadRegister (s : State) : Out :=
  .next (if s.smbUp then
    let (v, s1) := s.windowRead agSmb s.host.smbPtr
    let s2 := State.drainF s1.stage.toF.length s1
    (s2.modHost (fun y => { y with smbPtr := (s.host.smbPtr + 4) % 2 ^ 32 })).smbAnswer (leBytes 4 v.toNat)
  else s)

/-- SMB_READ_HEALTH (R334). -/
def execSmbReadHealth (s : State) : Out :=
  .next (if s.smbUp then
    let (bs, s1) := s.healthPayload
    s1.smbAnswer (bs.take 32)
  else s)

/-- SMB_READ_MCPL (R334): SMB_ALERT_N goes high. -/
def execSmbReadMcpl (s : State) : Out :=
  .next (if s.smbUp then
    (s.modHost (fun y => { y with smbAlert := false })).smbAnswer s.host.smbLast
  else s)

/-- SMB_ALERT_RESPONSE (R334): a part that drives SMB_ALERT_N answers with its address, and the line goes high. -/
def execSmbAlertResponse (s : State) : Out :=
  .next (if s.smbUp && s.host.smbAlert then
    (s.modHost (fun y => { y with smbAlert := false })).smbAnswer
      [BitVec.ofNat 8 (2 * s.fld R.HIF_SMB_CFG F.HIF_SMB_CFG_ADDR)]
  else s)

/-- SMB_DESCRIPTOR_DONE (R334): the descriptor submitted by 0x13 has its completion. -/
def execSmbDescriptorDone (s : State) : Out :=
  .next (match s.postable .smbus with
  | some (f, c) =>
    let s1 := (s.dropFlight .smbus).setF R.HIF_SMB_STS F.HIF_SMB_STS_BUSY 0
    s1.modHost (fun h => { h with smbLast := if silent f c then h.smbLast else f.record c, smbAlert := true })
  | none => s)

end Sys2Proof.Machine
end

