-- ==== Sys2Proof/Machine/Power.lean ====
section
/-!
DEFINITION. Supplies, reset, boot, BOOTSEAL and the restore of the journal, recovery, and the entry into and the wake from
LISTEN and SHELF (R405 to R423, R432, R435, R307).
-/
namespace Sys2Proof.Machine

/-! ### What a loss of every supply leaves (R407, R435) -/

/-- The metrology die and the calendar as H's reset leaves them: what H keeps of them is gone. -/
def MetroX.hubGone (m : MetroX) : MetroX :=
  { m with tick := (0, 0), latched := [], secBlk := 0, window := [], read := none }

/-- Flash as it stands while nothing reads or writes it. -/
def FlashX.idle (f : FlashX) : FlashX := { f with ops := [], compacting := none, wantCompact := [], divergent := [] }

/-- The state after power-on reset, but for what needs no supply: flash, the legal log and the fuses, and the calendar. What has
been sent, the counter of free values and the commands that wait are not the part's. -/
def State.cold (s : State) : State :=
  { State.reset with
    flash := s.flash.idle
    tth := { TthX.reset with part := s.tth.part }
    metro := s.metro.hubGone
    out := s.out
    free := s.free
    pending := s.pending }

/-- The power state while the part has no supply. -/
def PowerX.down (p : PowerX) (m : Mode) : PowerX := { p with mode := m, trans := none, step := 0, hubUp := false, reading := false }

/-- POWER_ON (R411 step 1, R419): VSYS, in mV, passes 4.40 V in OFF; TESTEN is sampled (R466). -/
def execPowerOn (vsys : Nat) (testen : Bool) (s : State) : Out :=
  .next (if s.power.mode = .off ∧ 4400 < vsys then
    let s1 := { s.cold with test := { TestX.reset with testen := testen } }
    let s2 := (s1.setF R.CLK_SUPPLY_STS F.CLK_SUPPLY_STS_VSYS (vsys / 10)).setF R.CLK_SUPPLY_STS F.CLK_SUPPLY_STS_VSYS_OK 1
    State.railsShow (List.range 16) s2
  else s)

/-- VSYS_FAIL (R407): VSYS falls through 4.20 V. A flash program is cut short, every rail is removed, the calendar goes to
VBAK. -/
def execVsysFail (s : State) : Out :=
  .next (if s.power.mode = .off then s
  else
    let s1 := s.flashCut.cold
    (((s1.modPower (fun y => y.down .off)).modClk (fun y => { y with run := false })).modMetro
          (fun y => { y.drop with onVbak := true })))

/-- The registers that RESET_N resets (R408, R435): not those of the always-on domain, nor what S and M show, nor the losses of
lock, which count since power-on. -/
def resetByPin (a : Nat) : Bool :=
  !(alwaysOn a || heldOn a == Die.super || heldOn a == Die.metro || a == R.CLK_SYSPLL_STS)

/-- RESET_N (R408): low for at least 1 µs, and high again. Every die but M and the calendar resets; SHELF ends. -/
def execResetN (testen : Bool) (s : State) : Out :=
  .next (if s.power.mode = .off then s
  else
    let shelf := s.power.mode == .shelf
    let pwrOk := s.fld R.TTH_TKO_CAUSE F.TTH_TKO_CAUSE_HUB_PWR_OK
    let s0 := s.flashCut
    let s1 := s0.cold.modTest (fun _ => { TestX.reset with testen := testen })
    let s2 := if shelf then s1
      else (s1.modRegs (fun _ => s0.regs.resetWhere resetByPin)).wr R.CLK_SYSPLL_STS
        (s0.rd R.CLK_SYSPLL_STS &&& F.CLK_SYSPLL_STS_LOSS.mask)
    let s3 := (s2.setF R.MEM_RST_CAUSE F.MEM_RST_CAUSE_CAUSE 1).incSat R.MEM_RST_CAUSE F.MEM_RST_CAUSE_COUNT
    let s4 := if shelf then
        (s3.setF R.CLK_SUPPLY_STS F.CLK_SUPPLY_STS_VSYS_OK 1)
      else s3.setF R.TTH_TKO_CAUSE F.TTH_TKO_CAUSE_HUB_PWR_OK pwrOk
    State.railsShow (List.range 16) (s4.modPower (fun p => { p with
      trans := if shelf then some .run else none, cause := 8, rstCause := 1, rstBlk := s.clk.blk })))

/-- VIO_GOOD_CHANGE (R406): `mv` is VIO in mV. -/
def execVioGoodChange (good : Bool) (mv : Nat) (s : State) : Out :=
  .next ((s.setF R.CLK_SUPPLY_STS F.CLK_SUPPLY_STS_VIO_OK good.toNat).setF R.CLK_SUPPLY_STS F.CLK_SUPPLY_STS_VIO
    (min 4095 (mv / 10)))

/-- RAIL_FAULT (R410): an enabled rail falls out of regulation, at `mv` mV. -/
def execRailFault (i : Fin 16) (mv : Nat) (s : State) : Out :=
  .next (if s.on (R.CLK_RAIL i) F.CLK_RAIL_ON then
    ((s.setF (R.CLK_RAIL i) F.CLK_RAIL_FAULT 1).setF (R.CLK_RAIL i) F.CLK_RAIL_PG 0).setF (R.CLK_RAIL i) F.CLK_RAIL_MV
      (min 0xFFFF mv)
  else s)

/-- HUB_POWER_GOOD_LOW (R274, R279): F latches POWER, but not in a commanded transition that removes the supply. A hub
without its supply loses the lock of its system PLL. -/
def execHubPowerGoodLow (s : State) : Out :=
  let s1 := s.setF R.TTH_TKO_CAUSE F.TTH_TKO_CAUSE_HUB_PWR_OK 0
  .next (if s.leaving then s1
  else
    let s2 := s1.latchCause 3 allOuts s.nextSample
    if s.power.hubUp then s2.hubReset 4 else s2)

/-- HUB_POWER_GOOD_HIGH (R274): POWER can end. H boots from here by BOOT_ROM_START. -/
def execHubPowerGoodHigh (s : State) : Out := .next (s.setF R.TTH_TKO_CAUSE F.TTH_TKO_CAUSE_HUB_PWR_OK 1)

/-- PG_OUT (R409): every rail that the mode needs is good, and the hub is sealed; low in LISTEN, SHELF and OFF. -/
def State.pgOut (s : State) : Bool :=
  (s.power.mode == .run || s.power.mode == .quiet) && s.power.hubUp && s.isSealed
    && (List.range 16).all (fun i => !s.railOn i || s.on (R.CLK_RAIL i) F.CLK_RAIL_PG)

/-! ### The boot ROM (R411 to R414) -/

/-- Why an image fails (R413): 0 it passes, 1 MAGIC, 2 LENGTH or PROT_OFF, 3 CRC, 4 a read error. -/
def imageReason (m : Mem) (readErr : Bool) : Nat :=
  let word (a : Nat) : Nat := leNat (Mem.getMany 0xFF m a 4)
  let len := word 4
  if readErr then 4
  else if word 0 ≠ 0x4D554C55 then 1
  else if len < 128 ∨ 0x400000 < len ∨ len % 4 ≠ 0 ∨ len < word 16 + 1024 then 2
  else if crc32 (Mem.getMany 0xFF m 0 60 ++ [0, 0, 0, 0] ++ Mem.getMany 0xFF m 64 (len - 64)) ≠ BitVec.ofNat 32 (word 60) then 3
  else 0

/-- The image that key 0x0001 selects: A where the key gives none. -/
def FlashX.selected (f : FlashX) : Nat :=
  match f.view 1 with
  | .record r => if bytesAt r.payload 0 1 = 1 then 1 else 0
  | _ => 0

/-- The registers of the PROT_ page in address order: the values of a protection block (R412). -/
def protAddrs : List Nat :=
  addrs (fun i => 0x3000 + 4 * i) 192 ++ addrs R.PROT_AGENT 24 ++ addrs (fun i => 0x3380 + 4 * i) 24 ++ addrs R.PROT_MSIG 8
    ++ addrs R.PROT_FLASH_WP 8

/-- Values go to registers, in their RWB fields. -/
def State.protWrite : List Nat → List Word → State → State
  | a :: as, v :: vs, s => State.protWrite as vs (s.wr a (v &&& rwbMask a))
  | _, _, s => s

/-- An image runs: its protection block is in the table, and its version shows. -/
def State.imageLoad (s : State) (i : Nat) : State :=
  let m := s.flash.image i
  let word (a : Nat) : Nat := leNat (Mem.getMany 0xFF m a 4)
  let s1 := (s.setF R.CLK_BOOT_STS F.CLK_BOOT_STS_IMG i).wr R.GLB_FW_VER (BitVec.ofNat 32 (word 8))
  State.protWrite protAddrs (wordsOf (Mem.getMany 0xFF m (word 16) 1024)) s1

/-- CLK_BOOT_STS.BOOT_MS at BOOTSEAL. -/
def State.bootMs (s : State) : Nat := min 0xFFFF ((s.clk.now3 - s.power.released) / 3000000)

/-- Recovery (R414): the fixed table, and the seal. -/
def State.recovery (s : State) : State :=
  let s1 := s.setF R.CLK_BOOT_STS F.CLK_BOOT_STS_IMG 2
  let give (s : State) (a : Nat) : State := (s.wr (R.PROT_RD a 0) 0x11).wr (R.PROT_WR a 0) 0x10
  ((give (give s1 0) 1).setF R.CLK_BOOTSEAL F.CLK_BOOTSEAL_SEAL 1).setF R.CLK_BOOT_STS F.CLK_BOOT_STS_BOOT_MS s.bootMs

/-- The image is chosen and checked, and the other one where it fails (R413). -/
def State.chooseImage (s : State) (errA errB : Bool) : State :=
  let sel := s.flash.selected
  let why (i : Nat) : Nat := imageReason (s.flash.image i) (if i = 0 then errA else errB)
  let note (s : State) (i : Nat) : State :=
    s.setF R.CLK_BOOT_STS (if i = 0 then F.CLK_BOOT_STS_REASON_A else F.CLK_BOOT_STS_REASON_B) (why i)
  if why sel = 0 then s.imageLoad sel
  else
    let other := 1 - sel
    let used := if why other = 0 then other else 2
    let s1 := (note (note s sel) other).setF R.CLK_BOOT_STS F.CLK_BOOT_STS_FALLBACK 1
    let s2 := s1.modPower (fun p => { p with fallback := some (sel, used, why sel) })
    if used = 2 then s2.recovery else s2.imageLoad used

/-- H may boot: its supply is good, or comes with the boot or the wake that runs; TESTEN holds it (R466). -/
def State.mayBoot (s : State) : Bool :=
  !s.power.hubUp && !s.test.testen
    && (s.power.mode == .run || s.power.mode == .quiet || (s.power.mode == .listen && s.power.trans == some .run))
    && (s.on R.TTH_TKO_CAUSE F.TTH_TKO_CAUSE_HUB_PWR_OK || s.power.trans == some .run)

/-- BOOT_ROM_START (R411 steps 4 and 5, R413, R372): H left reset 0.5 ms ago and its system PLL is locked. PART_RESET is the first
event, with sequence 0. -/
def execBootRomStart (readErrA readErrB : Bool) (s : State) : Out :=
  .next (if s.mayBoot then
    let s1 := s.modPower (fun y => { y with hubUp := true, reading := false, released := s.clk.now3 - 1500000 })
    let s2 := (s1.setF R.CLK_SYSPLL_STS F.CLK_SYSPLL_STS_XTAL_OK 1).setF R.CLK_SYSPLL_STS F.CLK_SYSPLL_STS_LOCK 1
    let s3 := (s2.setF R.CLK_MODE_STS F.CLK_MODE_STS_TRANS s.power.trans.isSome.toNat).setF R.CLK_MODE_STS F.CLK_MODE_STS_MODE
      (if s.power.mode = .quiet then 1 else 0)
    let s3 := s3.wr R.CLK_WAKE_CFG (resetWord R.CLK_WAKE_CFG)
    let s4 := State.railsShow (List.range 16) (s3.setF R.TTH_TKO_CAUSE F.TTH_TKO_CAUSE_HUB_PWR_OK 1)
    let s5 := s4.raiseAt 0x0108 0x0E00 s.power.rstAt
      ([s.power.rstCause, 0, 0, 0, 0, 0, 0, 0] ++ (leBytes 8 s.power.rstBlk).map (·.toNat))
    s5.jnlScan.chooseImage readErrA readErrB
  else s)

/-! ### What the journal holds (R432) -/

/-- Register and value pairs that one record takes at most (R428). -/
def pairsMax : Nat := 508

/-- Words that PERSIST leaves out of the pages: the windows onto the coefficient banks and the calibration table. -/
def windowReg (a : Nat) : Bool :=
  decide (R.FLT_COEF_WIN 0 ≤ a ∧ a < R.FLT_COEF_WIN 0 + 512) || a == R.SNS_CAL_OFS || a == R.SNS_CAL_GAIN

/-- So many words from an address on. -/
def wordsFrom (a n : Nat) : List Nat := addrs (fun i => a + 4 * i) n

/-- The addresses of a group, in rising order, before the choice of RW and RWS fields. -/
def groupSpace : Nat → List Nat
  | 1 => wordsFrom 0x7000 64 ++ wordsFrom 0x7200 64 ++ wordsFrom 0x9000 1024
  | 2 => R.CLK_APLL_CFG :: wordsFrom 0x6000 512
  | 3 => wordsFrom 0xA000 2048
  | 4 => addrs R.ENG_CTL 8 ++ addrs R.ENG_DRAM 8 ++ addrs R.ENG_QUOTA 8 ++ addrs R.ARB_CFG 12
  | 5 => wordsFrom 0x4000 2048
  | 6 => wordsFrom 0x8000 1024
  | 7 => wordsFrom 0x7100 64 ++ wordsFrom 0xD000 1024
  | 8 => addrs R.HIF_VEC_CFG 16 ++ [R.HIF_SPI_CFG, R.HIF_SMB_CFG, R.MLK_LIM_CFG, R.MLK_LIM_TGT, R.MLK_LIM_RATE, R.MLK_LIM_MASK]
  | _ => []

/-- The registers that a group persists. -/
def groupRegs (g : Nat) : List Nat := (groupSpace g).filter (fun a => rwMask a ||| rwsMask a != 0 && !windowReg a)

/-- Lists of at most n elements. -/
def chunks {α : Type} (n : Nat) : Nat → List α → List (List α)
  | 0, _ => []
  | k + 1, xs => if xs.isEmpty then [] else xs.take n :: chunks n k (xs.drop n)

/-- A register and its RW and RWS bits as bytes. -/
def State.pairBytes (s : State) (a : Nat) : List Byte :=
  leBytes 4 a ++ leBytes 4 (s.rd a &&& (rwMask a ||| rwsMask a)).toNat

/-- The records of a list of parts, on consecutive keys. -/
def State.regRecords (s : State) : Nat → List (List Nat) → List (Nat × List Byte)
  | _, [] => []
  | key, c :: cs => (key, c.flatMap s.pairBytes) :: s.regRecords (key + 1) cs

/-- Words as bytes. -/
def wordBytes (ws : List Word) : List Byte := ws.flatMap (fun w => leBytes 4 w.toNat)

/-- The coefficients of a bank. -/
def State.bankBytes (s : State) (c : Nat) (bank : Bool) : List Byte := wordBytes ((List.range (2 * s.quarterN c)).map (s.coef c bank))

/-- The setting of a generator. -/
def GenSet.bytes (x : GenSet) : List Byte := leBytes 4 x.kind ++ leBytes 4 x.freq ++ leBytes 4 x.level ++ leBytes 4 x.seed

/-- The SRAM settings of a group, by key. -/
def State.sramRecords (s : State) : Nat → List (Nat × List Byte)
  | 1 => (List.range 32).map (fun i => (0x110 + i, s.bankBytes (i / 2) (i % 2 == 1)))
  | 3 => (0x30F, (List.range 16).flatMap (fun g => (s.gen g).now.bytes))
      :: (List.range 16).map (fun p => (0x310 + p, (s.presetOf p).flatMap (fun e => leBytes 4 e.1 ++ leBytes 4 e.2.toNat)))
  | 4 => [(0x40F, (List.range 8).flatMap (fun n => leBytes 1 (s.engX n).lead ++ leBytes 1 (s.engX n).margin))]
  | 6 => (List.range 2).map (fun c => (0x610 + c, (List.range 256).flatMap (fun i =>
      leBytes 4 (s.calPair (256 * c + i)).1.toNat ++ leBytes 4 (s.calPair (256 * c + i)).2.toNat)))
  | _ => []

/-- What PERSIST of a group writes. -/
def State.groupRecords (s : State) (g : Nat) : List (Nat × List Byte) :=
  if g = 0 then [(1, leBytes 1 s.flash.selected)]
  else s.regRecords (256 * g) (chunks pairsMax 8 (groupRegs g)) ++ s.sramRecords g

/-! ### The restore of the journal (R432, R435) -/

/-- The registers that carry an EN field, and the field. -/
def enField (a : Nat) : Word :=
  if (regIdx R.AFE_JD_CFG 2 a).isSome ∨ a = R.AFE_HP_JD_CFG ∨ (regIdx R.FLT_CH_CFG 16 a).isSome then 1
  else if 0x9000 ≤ a ∧ a < 0x9400 ∧ (a % 0x40 = 0x18 ∨ a % 0x40 = 0x1C) then F.FLT_THR_LVL_EN.mask
  else if (0x4000 ≤ a ∧ a < 0x4800 ∧ a % 0x40 = 0x10) ∨ (regIdx R.NET_PORT_CFG 3 a).isSome ∨ (regIdx R.NET_PORT_SHP_A 3 a).isSome
      ∨ (regIdx R.NET_PORT_SHP_B 3 a).isSome ∨ a = R.NET_ZV_CFG ∨ a = R.ARR_PTP_CFG ∨ a = R.ARR_BRIDLE_CFG
      ∨ (regIdx R.ARR_AG_CFG 16 a).isSome ∨ (regIdx R.ARR_LANE_AG 128 a).isSome ∨ (regIdx R.SAP_CFG 8 a).isSome
      ∨ (regIdx R.AFE_LO_CFG 4 a).isSome ∨ a = R.AFE_HP_CFG ∨ a = R.AFE_LSN_CFG ∨ (regIdx R.SNS_CFG 2 a).isSome
      ∨ (regIdx R.SNS_TMR 4 a).isSome ∨ a = R.SNS_SHARED ∨ a = R.SNS_TDAC ∨ (regIdx R.MP_LANE_SRC 128 a).isSome
      ∨ (regIdx R.MP_SINK 320 a).isSome ∨ (regIdx R.MP_COMP 22 a).isSome ∨ (regIdx R.MP_LIM 22 a).isSome ∨ a = R.MP_QUIET_CFG
      ∨ (0xB000 ≤ a ∧ a < 0xB800) ∨ (regIdx R.PWR_CTL 8 a).isSome ∨ (regIdx R.EXT_CFG 8 a).isSome ∨ a = R.HIF_SMB_CFG
      ∨ a = R.MLK_LIM_CFG then 0x80000000
  else 0

/-- The rank of a restore write, before window writes. -/
def rankRestore : Nat := 39

/-- The boot code may write an F page only after power-on and RESET_N (R435 step 4). -/
def State.frontRestores (s : State) : Bool := s.fld R.MEM_RST_CAUSE F.MEM_RST_CAUSE_CAUSE ≤ 1

/-- The checks of a restore write by agent 13, which the state of the H-F link does not hold up. -/
def State.restoreOk (s : State) (a : Nat) : Bool :=
  s.mayWrite 13 a && !s.needsBit 13 a && regPresent a && !s.metroDrops a && rwbMask a == 0

def State.skipped (s : State) : State := s.incSat R.JNL_CRC_CNT F.JNL_CRC_CNT_SKIP

/-- One restore write, its RWS part for block `eff`. -/
def State.restoreWrite (eff : Nat) (s : State) (a : Nat) (v : Word) : State :=
  if onFront a && !s.frontRestores then s
  else if !s.restoreOk a then s.skipped
  else
    let shown := s.readWord 13 a
    let bad := s.refusedBits a shown v
    let s := if bad = 0 then s else (s.guardErr a shown v).skipped
    let v := mix v shown bad
    let m := rwMask a &&& ~~~ bad
    let s := if m = 0 then s else s.writeNow a m v
    if rwsMask a = 0 then s else s.stageAct ⟨none, eff, rankRestore, none, .reg a v false⟩

/-- The pairs of a record. -/
def pairsOf : List Word → List (Nat × Word)
  | a :: v :: rest => (a.toNat, v) :: pairsOf rest
  | _ => []

/-- A register record: first with every EN field clear, then the registers that carry EN, in address order (R432). -/
def State.restoreRegs (s : State) (ps : List (Nat × Word)) : State :=
  let eff := s.openFor (ps.map (fun p => Act.reg p.1 p.2 false))
  let s := ps.foldl (fun s p => State.restoreWrite eff s p.1 (p.2 &&& ~~~ enField p.1)) s
  (sortBy (fun (p q : Nat × Word) => decide (p.1 ≤ q.1)) (ps.filter (fun p => enField p.1 != 0))).foldl
    (fun s p => State.restoreWrite eff s p.1 p.2) s

/-- Calibration pairs from an index on. -/
def State.restoreCal : Nat → List Word → State → State
  | i, o :: g :: rest, s => State.restoreCal (i + 1) rest (s.setCalPair i (o, g))
  | _, _, s => s

/-- The generators' settings, for block `eff`. -/
def State.restoreGens (eff : Nat) : Nat → List Word → State → State
  | g, k :: f :: l :: d :: rest, s =>
    State.restoreGens eff (g + 1) rest
      (s.stageAct ⟨none, eff, rankRestore, none, .generator g k.toNat f.toNat l.toNat d.toNat⟩)
  | _, _, s => s

/-- Run-ahead settings from an engine on. -/
def State.restoreAhead : Nat → List Byte → State → State
  | n, h :: m :: rest, s => State.restoreAhead (n + 1) rest (s.modEng n (fun x => { x with lead := h.toNat, margin := m.toNat }))
  | _, _, s => s

/-- A record by its key. -/
def State.restoreRecord (s : State) (key : Nat) (bs : List Byte) : State :=
  let ws := wordsOf bs
  if 0x110 ≤ key ∧ key < 0x130 then
    if s.frontRestores then State.setCoefs ((key - 0x110) / 2) (key % 2 == 1) 0 ws s else s
  else if key = 0x30F then State.restoreGens (s.openFor []) 0 ws s
  else if 0x310 ≤ key ∧ key < 0x320 then s.modMp (fun y => { y with presets := y.presets.set (key - 0x310) (pairsOf ws) })
  else if key = 0x40F then State.restoreAhead 0 bs s
  else if key = 0x610 ∨ key = 0x611 then if s.frontRestores then State.restoreCal (256 * (key - 0x610)) ws s else s
  else s.restoreRegs (pairsOf ws)

/-- The records of keys, in rising order. -/
def State.restoreKeys : List Nat → State → State
  | [], s => s
  | k :: ks, s =>
    State.restoreKeys ks (match s.flash.view k with
      | .record r => s.restoreRecord k r.payload
      | _ => s)

/-- The restore that follows BOOTSEAL (R435): every group's records but key 0x0001. -/
def State.restoreJournal (s : State) : State :=
  State.restoreKeys ((keysOf (s.flash.j0.valid ++ s.flash.j1.valid)).filter (fun k => decide (0x100 ≤ k ∧ k < 0x900))) s

/-- The restore follows where a write has sealed the hub; in recovery there is none. -/
def State.afterSeal (s : State) (was : Bool) : State :=
  if !was && s.isSealed && s.fld R.CLK_BOOT_STS F.CLK_BOOT_STS_IMG != 2 then s.restoreJournal else s

/-- BOOTSEAL (R416, R417): a write of 1 to CLK_BOOTSEAL.SEAL. -/
def execBootseal (a : Agent) (s : State) : Out := .next ((s.writeThrough a R.CLK_BOOTSEAL 1).afterSeal s.isSealed)

/-- REGISTER_WRITE (R437): a write by an agent with its byte enables. -/
def execRegisterWrite (a : Agent) (addr : BitVec 17) (v : Word) (be : Fin 16) (s : State) : Out :=
  .next ((s.windowWrite a addr.toNat v be).afterSeal s.isSealed)

/-- The transition of a boot from SHELF or OFF ends (R419, R420). -/
def State.bootEnds (s : State) : State :=
  if s.power.trans = some .run ∧ s.power.mode = .run then
    let old : Mode := if s.power.cause = 7 then .off else .shelf
    (((s.histEntry old .run s.power.cause).modeChangedEvent old .run s.power.cause)).transEnd .run
  else s

/-- JOURNAL_RESTORE_DONE (R435 step 5, R372): the last restore write has taken effect. -/
def execJournalRestoreDone (s : State) : Out :=
  .next (if s.power.hubUp && s.isSealed && !s.on R.CLK_BOOT_STS F.CLK_BOOT_STS_JNL_DONE
      && s.fld R.CLK_BOOT_STS F.CLK_BOOT_STS_IMG != 2 && s.stage.toF.isEmpty
      && s.stage.changes.all (fun c => c.rank != rankRestore) then
    let s1 := s.setF R.CLK_BOOT_STS F.CLK_BOOT_STS_JNL_DONE 1
    (s1.modPower (fun y => { y with reading := true })).bootEnds
  else s)

/-- RECOVERY_DONE (R414): the programming of image A ends, well or with a page that failed its check. -/
def execRecoveryDone (ok : Bool) (s : State) : Out :=
  .next (match s.flash.ops with
  | ⟨_, .recovery off bs, _⟩ :: rest =>
    let s1 := (s.modFlash (fun f => { f with ops := rest })).setF R.CLK_RECOVERY F.CLK_RECOVERY_BUSY 0
    if ok then (s1.flashApply (.recovery off bs)).jnlShow else (s1.setF R.CLK_RECOVERY F.CLK_RECOVERY_ERR 1).jnlShow
  | _ => s)

/-! ### Into LISTEN and SHELF (R421 to R423) -/

/-- Every output sink is at zero. -/
def State.outputsZero (s : State) : Bool := (List.range 22).all (fun i => (s.sink i).phase == .stopped)

/-- Channels of a list stop (R245, R255). -/
def State.stopAll : List Nat → State → State
  | [], s => s
  | c :: cs, s => State.stopAll cs (s.chStop c)

/-- The line and headphone outputs of a list ramp down (R257). -/
def State.loDownAll : List Nat → State → State
  | [], s => s
  | j :: js, s =>
    State.loDownAll js (match s.loPhase j with
      | .off | .down _ => s
      | _ => (s.setLo j (.down s.clk.blk)).setF (loReg j) F.AFE_LO_CFG_READY 0)

/-- An entry into LISTEN or SHELF runs. -/
def State.entering (s : State) : Bool := s.power.trans == some .listen || s.power.trans == some .shelf

/-- LISTEN_OUTPUTS_ZERO (R421 step 3, R422, R298): `idx` is the listener sample at which the switch window begins. -/
def execListenOutputsZero (idx : Nat) (s : State) : Out :=
  .next (if s.entering && s.power.step == 2 && s.outputsZero then
    let park := s.power.trans == some .listen && s.on R.CLK_MODE_CTL F.CLK_MODE_CTL_LISTEN_PARK
    let s1 := if park then State.park (List.range 8) s else s
    let s2 := State.stopAll ((List.range 16).filter (fun c => s1.chState c != stParked)) s1
    let s3 := (State.loDownAll (List.range 5) s2).switchWindow idx true
    s3.modPower (fun p => { p with step := 3, stepAt := s.clk.now3 })
  else s)

/-- The audio PLL stops, and the blocks with it (R30). -/
def State.pllStops (s : State) : State :=
  (s.setF R.CLK_APLL_STS F.CLK_APLL_STS_LOCK 0).modClk (fun y => { y with run := false })

/-- The part is in LISTEN: H has lost its supply, F keeps its registers (R418, R421 step 4). What wakes the part stays as
CLK_WAKE_CFG gave it, until H boots. -/
def State.intoListen (s : State) : State :=
  let s1 := (s.incSat R.CLK_MODE_CNT F.CLK_MODE_CNT_LISTEN).histEntry s.power.mode .listen s.power.cause
  let s2 := ((s1.hubReset 6).setF R.TTH_TKO_CAUSE F.TTH_TKO_CAUSE_HUB_PWR_OK 0).snsOff
  let s3 := (s2.wr R.CLK_WAKE_CFG (s.rd R.CLK_WAKE_CFG)).modMetro MetroX.drop
  let s4 := s3.modPower (fun y => y.down .listen)
  State.railsShow (List.range 16) (if s.on R.AFE_LSN_CFG F.AFE_LSN_CFG_KEEP_PLL then s4 else s4.pllStops)

/-- The part is in SHELF: every rail but VCAL is gone, and the calendar is on VBAK (R422, R304). -/
def State.intoShelf (s : State) : State :=
  let s1 := s.lsnDiscard.cold
  ((s1.modPower (fun p => p.down .shelf)).modClk (fun c => { c with run := false })).modMetro (fun m =>
    { m.drop with onVbak := true })

/-- LISTEN_RAIL_REMOVE (R421 step 4, R422): 60 ms after the outputs reached zero, and once flash operations have ended. -/
def execListenRailRemove (s : State) : Out :=
  .next (if s.entering && s.power.step == 3 && decide (s.power.stepAt + 180000000 ≤ s.clk.now3) && s.flash.ops.isEmpty
      && s.flash.compacting.isNone then
    if s.power.trans = some .listen then s.intoListen else s.intoShelf
  else s)

/-- LISTEN_ENTRY_CANCEL (R423): a wake source becomes active: alarm tone, glass break, PRIO or a GPIO. -/
def execListenEntryCancel (source : Fin 4) (s : State) : Out :=
  .next (if s.power.trans = some .listen then s.entryCancel (3 + source) else s)

/-- GPIO_WAKE (R419): an edge of GPIOk with the polarity of CLK_WAKE_CFG. -/
def execGpioWake (k : Fin 4) (s : State) : Out :=
  .next (if s.bit R.CLK_WAKE_CFG k && (s.power.mode == .listen || s.power.trans == some .listen) then
    (s.setF R.CLK_WAKE_STS F.CLK_WAKE_STS_GPIO (2 ^ k.val)).wakeRequest 6
  else s)

/-! ### Out of LISTEN (R307) -/

/-- EXT and PWR channels of a list whose EN is set and that are OFF start by R244. -/
def State.startAll : List Nat → State → State
  | [], s => s
  | c :: cs, s => State.startAll cs (if s.chEn c && s.chState c == stOff then s.chStart c else s)

/-- WAKE_OUTPUTS_READY (R307 steps 2 and 3, R298): 6 ms after the request. -/
def execWakeOutputsReady (idx : Nat) (s : State) : Out :=
  .next (if s.power.mode = .listen ∧ s.power.trans = some .run ∧ s.power.step = 0 ∧ s.power.since + 18000000 ≤ s.clk.now3 then
    let s1 := s.modPower (fun y => { y with step := 3 })
    let s2 := State.startAll (List.range 16) (State.unpark (List.range 8) s1.pllLocks)
    State.railsShow (List.range 16) (s2.switchWindow idx false)
  else s)

/-- The PLL moves to the selected reference after a wake on the crystal or MCLK_IN (R307 step 4, R105). -/
def State.refResume (s : State) : State :=
  if s.sap.ref = 1 ∨ s.sap.ref = 2 then s
  else
    let s1 := (s.setF R.CLK_APLL_STS F.CLK_APLL_STS_LOCK 0).setF R.CLK_APLL_STS F.CLK_APLL_STS_SLEWING 1
    (s1.modClk (fun y => { y with reload := true })).alignShow

/-- HUB_READY (R307 steps 4 and 5, R420): 70 ms after the request. -/
def execHubReady (s : State) : Out :=
  .next (if s.power.hubUp && s.power.mode == .listen && s.woken && decide (s.power.since + 210000000 ≤ s.clk.now3) then
    let s1 := (s.spaceReturn.histEntry .listen .run s.power.cause).modeChangedEvent .listen .run s.power.cause
    let s2 := State.railsShow (List.range 16) ((s1.transEnd .run).refResume)
    if s2.on R.AFE_LSN_CFG F.AFE_LSN_CFG_AUTO_HO && s2.ringState 5 == ringRunning then
      s2.gatherStart (s2.fld R.AFE_GTH_CFG F.AFE_GTH_CFG_FMT)
    else s2
  else s)

end Sys2Proof.Machine
end

