-- ==== Sys2Proof/Machine/Commands.lean ====
section
/-!
DEFINITION. Descriptors (R345 to R353): what the part checks when it reads one, and what each opcode then does. A change is
staged for its commit point; an operation acts when it is read.
-/
namespace Sys2Proof

/-! ### The flags and the inline parameter of a descriptor (R345) -/

def Desc.fence (d : Desc) : Bool := d.flags.testBit 0
def Desc.chain (d : Desc) : Bool := d.flags.testBit 1
def Desc.at (d : Desc) : Bool := d.flags.testBit 2
def Desc.noCpl (d : Desc) : Bool := d.flags.testBit 3

/-- The AT_BLOCK index. -/
def Desc.want (d : Desc) : Option Nat := if d.at then some d.block else none

/-- The bits of an inline parameter outside a mask are zero. -/
def Desc.inlIn (d : Desc) (mask : Nat) : Bool := d.inl &&& mask == d.inl

/-- Neither payload nor inline parameter. -/
def Desc.plain (d : Desc) : Bool := d.payLen == 0 && d.inl == 0

/-- The addresses that a register write by command names. -/
def Desc.regs (d : Desc) : List Nat :=
  if d.op = 0x20 ∨ d.op = 0x21 then [d.target]
  else if d.op = 0x22 then (List.range (min 256 (d.payLen / 4))).map (fun i => d.target + 4 * i)
  else []

end Sys2Proof

namespace Sys2Proof.Machine

/-! ### Opcodes (R351, R352) -/

/-- The kinds of R351. -/
inductive OpKind where
  | change | timed | oper
deriving DecidableEq, Repr

/-- The kind of an opcode; none for one that is not listed. -/
def opKind (op : Nat) : Option OpKind :=
  if op = 0x63 ∨ op = 0x72 ∨ op = 0x80 ∨ op = 0xA1 then some .timed
  else if (0x01 ≤ op ∧ op ≤ 0x07) ∨ op = 0x09 ∨ op = 0x0A ∨ op = 0x0C ∨ (0x20 ≤ op ∧ op ≤ 0x22) ∨ op = 0x28
      ∨ (0x41 ≤ op ∧ op ≤ 0x43) ∨ op = 0x52 ∨ op = 0x53 ∨ (0x60 ≤ op ∧ op ≤ 0x62) ∨ op = 0x81 then some .change
  else if op = 0x08 ∨ op = 0x0B ∨ op = 0x40 ∨ (0x44 ≤ op ∧ op ≤ 0x46) ∨ op = 0x50 ∨ op = 0x51 ∨ op = 0x64 ∨ op = 0x65
      ∨ op = 0x70 ∨ op = 0x71 ∨ op = 0xA0 ∨ op = 0xA2 ∨ op = 0xA3 ∨ (0xC0 ≤ op ∧ op ≤ 0xC7) ∨ op = 0xF0 then some .oper
  else none

/-- The management class. -/
def mgmtOp (op : Nat) : Bool := decide (0xC0 ≤ op ∧ op < 0xD0)

/-- An origin of management descriptors. -/
def mgmtOrigin : Origin → Bool
  | .mcmd | .smbus | .health _ => true
  | _ => false

/-- An origin takes an opcode (R351). -/
def takesOp (o : Origin) (op : Nat) : Bool := op == 0xF0 || mgmtOrigin o == mgmtOp op

/-- The opcode class of PROT_AGENT.OPC. -/
def opClass (op : Nat) : Nat :=
  if op < 0x20 then 0 else if op < 0x40 then 1 else if op < 0x50 then 2 else if op < 0x60 then 3 else if op < 0x70 then 4
  else if op < 0x80 then 5 else if op < 0x90 then 6 else if op < 0xB0 then 7 else 8

/-- The agent's opcode class bit is set; NOP needs none (R416). -/
def State.opAllowed (s : State) (o : Origin) (op : Nat) : Bool :=
  op == 0xF0 || s.bit (R.PROT_AGENT (originAgent o).val) (opClass op)

/-! ### Payloads (R345) -/

/-- The ring that carries the descriptors of an origin lies in the local window. -/
def State.originLocal (s : State) : Origin → Bool
  | .cmd => s.ringLocal 0
  | .mcmd => s.ringLocal 3
  | _ => false

/-- Bytes of a list up to a length, filled with zeros. -/
def fitBytes (n : Nat) (bs : List Byte) : List Byte := bs.take n ++ List.replicate (n - bs.length) 0

/-- The input payload of a descriptor. -/
def State.payloadOf (s : State) (o : Origin) (d : Desc) : List Byte :=
  if s.originLocal o then Mem.getMany 0 s.window d.payAddr d.payLen else fitBytes d.payLen d.payload

/-- The payload length does not fit where the payload comes from: past the window, or other than what the message carries
(R196, R201, R334). -/
def State.lengthBad (s : State) (o : Origin) (d : Desc) : Bool :=
  match o with
  | .cmd | .mcmd => s.originLocal o && d.payLen != 0 && decide (65536 < d.payAddr + d.payLen)
  | .smbus => d.payLen != 0
  | _ => d.payload.length != d.payLen

/-- Checks of flags, block index and length that every listed opcode has (R345, R351). -/
def State.formBad (s : State) (o : Origin) (d : Desc) (k : OpKind) : Bool :=
  decide (16 ≤ d.flags) || (d.chain && (k != .change || d.at || (originOwner o).isNone)) || (d.at && k == .oper)
    || (d.at && decide (s.clk.blk + 600000 < d.block)) || s.lengthBad o d

/-- A write of `v` to the register at `a`, by a command whose inline parameter has its layout. -/
def layoutWrite (d : Desc) (a : Nat) : Except Status Act :=
  if d.payLen = 0 ∧ d.inlIn (rwsMask a).toNat = true then .ok (.reg a (BitVec.ofNat 32 d.inl) true) else .error .badParam

/-- A check, and what follows it. -/
def need {α : Type} (b : Bool) (st : Status) (x : Except Status α) : Except Status α := if b then x else .error st

/-! ### Register writes (R353) -/

/-- A page whose registers no command writes, or a register that PARAM may not write (R353, R192). -/
def regForbidden (o : Origin) (a : Nat) : Bool :=
  decide (0x2000 ≤ a ∧ a < 0x4000) || decide (0xE800 ≤ a ∧ a < 0xF000)
    || (match o with
      | .param _ => a == R.NET_ZV_CFG || a == R.NET_ZV_ADDR || a == R.NET_MAC_LO || a == R.NET_MAC_HI
          || decide (0x4E00 ≤ a ∧ a < 0x4E40)
      | _ => false)

/-- The kind of protection violation that a register write by an agent is (R416, R417). -/
def State.regViolation (s : State) (ag a : Nat) : Option Nat :=
  if !s.mayWrite ag a || s.needsBit ag a then some 1
  else if s.isSealed && rwbMask a != 0 then some 2
  else none

/-- The status that refuses a register write by command. -/
def State.regRefused (s : State) (o : Origin) (a : Nat) : Option Status :=
  if regForbidden o a || (s.regViolation (originAgent o) a).isSome then some .denied
  else if s.metroDrops a then some .notPresent
  else if !regPresent a || allRo a then some .badParam
  else none

/-- The status that refuses a list of register writes. -/
def State.regsRefused (s : State) (o : Origin) : List Nat → Option Status
  | [] => none
  | a :: as => match s.regRefused o a with
    | some st => some st
    | none => s.regsRefused o as

/-- The refusal of a register write by the protection table is reported. -/
def State.regReport (s : State) (o : Origin) : List Nat → State
  | [] => s
  | a :: as =>
    match s.regViolation (originAgent o) a with
    | some kind => s.protViolation (originAgent o) kind a
    | none => State.regReport s o as

/-- A register write passes R353. -/
def State.regWrite (s : State) (o : Origin) (d : Desc) (ok : Bool) (act : Act) : Except Status Act :=
  need ok .badParam (match s.regsRefused o d.regs with
    | some st => .error st
    | none => .ok act)

/-! ### Changes and timed operations (kinds C and T) -/

/-- The words of a payload from a byte on. -/
def wordsAt (bs : List Byte) (i : Nat) : List Word := wordsOf (bs.drop i)

/-- A 32-bit number of a payload. -/
def natAt (bs : List Byte) (i : Nat) : Nat := bytesAt bs i 4

/-- GENERATOR's fields (R470). -/
def genOk (bs : List Byte) : Bool :=
  let kind := bytesAt bs 0 1
  let lev := sgn 32 (natAt bs 8)
  decide (kind ≤ 3) && bytesAt bs 1 3 == 0 && (kind != 1 || decide (160 ≤ natAt bs 4 ∧ natAt bs 4 ≤ 640000))
    && (kind == 0 || decide (-30720 ≤ lev ∧ lev ≤ 0))

/-- PARAM_WRITE's fields: at most 4,096 words (R157); a range beyond PARAM_LEN of the program that it names is refused at once
(R155). -/
def State.paramOk (s : State) (n : Nat) (bs : List Byte) : Bool :=
  let count := natAt bs 12
  bytesAt bs 6 2 == 0 && bs.length == 16 + 4 * count && decide (count ≤ 4096)
    && (match s.progOf n (natAt bs 0) with
      | some p => (match p.recs[bytesAt bs 4 2]? with
        | some r => decide (4 * (natAt bs 8 + count) ≤ r.plen)
        | none => false)
      | none => true)

/-- A calibration step's fields (R326). -/
def calOk (bs : List Byte) : Bool :=
  bs.length == 12 && decide (bytesAt bs 0 1 < 2) && decide (bytesAt bs 1 1 < 32) && decide (bytesAt bs 2 1 < 8)
    && decide (bytesAt bs 3 1 ≤ 10) && decide (bytesAt bs 4 1 ≤ 2) && bytesAt bs 5 3 == 0

/-- The sink ID of SINK: its selection is a bus or a lane that exists (R109). -/
def sinkSelOk (w : Word) : Bool := w.fld F.MP_SINK_KIND == 1 || decide (w.fld F.MP_SINK_INDEX ≤ 15)

/-- Changes of the paths class (0x01 to 0x0C). -/
def State.pathChange (s : State) (d : Desc) (bs : List Byte) : Except Status Act :=
  let t := d.target
  let w : Word := BitVec.ofNat 32 d.inl
  match d.op with
  | 0x01 => need (decide (t < 128) && s.sourceOk t (w.fld F.MP_LANE_SRC_SRC)) .badParam (layoutWrite d (R.MP_LANE_SRC t))
  | 0x02 => need (decide (t < 128)) .badParam (layoutWrite d (R.MP_LANE_TRIM t))
  | 0x03 => need (decide (t < 128)) .badParam (layoutWrite d (R.MP_LANE_DET t))
  | 0x04 => need (decide (t < 512)) .badParam (layoutWrite d (R.MIX_GAIN (t / 32) (t % 32)))
  | 0x05 => need (decide (t < 16)) .badParam (layoutWrite d (R.MIX_BUS_CFG t))
  | 0x06 => need (sinkKnown t && sinkSelOk w) .badParam (layoutWrite d (R.MP_SINK t))
  | 0x07 =>
    let c : Word := BitVec.ofNat 32 (natAt bs 0)
    let l : Word := BitVec.ofNat 32 (natAt bs 4)
    need (decide (t < 22) && d.inl == 0 && bs.length == 8 && c &&& rwsMask (R.MP_COMP t) == c
      && l &&& rwsMask (R.MP_LIM t) == l) .badParam (.ok (.sinkDyn t c l))
  | 0x09 => need (decide (t < 16) && d.plain) .badParam (.ok (.preset (s.presetOf t)))
  | 0x0A => need (decide (t < 16) && d.payLen == 0 && d.inlIn 7) .badParam (.ok (.filterSwap t (d.inl.testBit 0) (d.inl / 2)))
  | 0x0C => need (t == 0 && d.payLen == 0 && d.inlIn 0xFFFF) .badParam
      (.ok (.feSync (if d.inl = 0 then none else some d.inl) .command))
  | _ => .error .badParam

/-- Changes of the parameters and engines classes (0x20 to 0x43). -/
def State.setChange (s : State) (o : Origin) (d : Desc) (bs : List Byte) : Except Status Act :=
  let t := d.target
  match d.op with
  | 0x20 => s.regWrite o d (d.payLen == 0) (.reg t (BitVec.ofNat 32 d.inl) true)
  | 0x21 => s.regWrite o d (d.inl == 0 && bs.length == 8)
      (.regMask t (BitVec.ofNat 32 (natAt bs 0)) (BitVec.ofNat 32 (natAt bs 4)))
  | 0x22 => s.regWrite o d (d.inl == 0 && decide (4 ≤ bs.length ∧ bs.length ≤ 1024) && bs.length % 4 == 0) (.regRun t (wordsOf bs))
  | 0x28 => need (decide (t < 16) && d.inl == 0 && bs.length == 16 && genOk bs) .badParam
      (.ok (.generator t (bytesAt bs 0 1) (natAt bs 4) (natAt bs 8) (natAt bs 12)))
  | 0x41 =>
    need (decide (t < 8) && d.payLen == 0) .badParam (match (s.engX t).staged with
      | some p => need (p.id == d.inl) .badParam (need (!s.swapping t) .refusedBusy (.ok (.engMode t 2)))
      | none => .error .badParam)
  | 0x42 => need (decide (t < 8) && d.payLen == 0 && decide (d.inl < 2)) .badParam (.ok (.engMode t d.inl))
  | 0x43 => need (decide (t < 8) && d.inl == 0 && decide (16 ≤ bs.length) && s.paramOk t bs) .badParam
      (.ok (.param t (natAt bs 0) (bytesAt bs 4 2) (natAt bs 8) (wordsAt bs 16)))
  | _ => .error .badParam

/-- Changes and timed operations of the remaining classes, but LOCK_RELEASE. -/
def State.otherChange (s : State) (d : Desc) (bs : List Byte) : Except Status Act :=
  let t := d.target
  match d.op with
  | 0x52 => need (decide (6 ≤ t ∧ t ≤ 13) && d.plain) .badParam (.ok (.streamOn t))
  | 0x53 => need (decide (6 ≤ t ∧ t ≤ 13) && d.plain) .badParam (.ok (.streamOff t))
  | 0x60 =>
    let ws := wordsOf bs
    need (d.inl == 0 && decide (4 ≤ bs.length) && bs.length % 4 == 0 && decide (t + ws.length ≤ 1152)
      && ws.all (fun w => decide (w.toNat < 2 ^ 18))) .badParam (.ok (.tthGains t ws))
  | 0x61 =>
    let mask := d.inl % 2 ^ 24
    let code := d.inl / 2 ^ 24
    need (t == 0 && d.payLen == 0 && decide (code < 8) && !s.modeBad mask code) .badParam (.ok (.tthMode mask code))
  | 0x62 => need (t == 0 && d.payLen == 0 && decide (d.inl < 2 ^ 24)) .badParam (.ok (.tthFaultClear d.inl))
  | 0x63 => need (t == 0 && d.plain) .badParam (.ok .tthSelftest)
  | 0x72 => need (t == 0 && d.inl == 0 && calOk bs) .badParam
      (.ok (.senseCal (bytesAt bs 0 1) (bytesAt bs 1 1) (bytesAt bs 2 1) (bytesAt bs 3 1) (bytesAt bs 4 1) (sgn 32 (natAt bs 8))))
  | 0x80 => need (decide (t < 8) && d.plain) .badParam (.ok (.offsetCal t))
  | 0x81 => need (decide (t < 16) && d.plain) .badParam (.ok (.clearFault t))
  | _ => .error .badParam

/-- What a change or a timed operation stages, or the status that refuses it. -/
def State.changeOf (s : State) (o : Origin) (d : Desc) (bs : List Byte) : Except Status Act :=
  if d.op < 0x20 then s.pathChange d bs else if d.op < 0x50 then s.setChange o d bs else s.otherChange d bs

/-! ### Operations (kind O) -/

/-- An operation ends with a status: DONE and LOCK_ABANDONED in the present block. -/
def State.ends (s : State) (id : DescId) (st : Status) : State :=
  if st = .done ∨ st = .lockAbandoned then s.finish id ⟨st, false, false, false, s.clk.blk, none⟩ else s.finishBad id st

/-- An operation that answered a status and a state ends. -/
def endsWith (id : DescId) (r : Status × State) : State := r.2.ends id r.1

/-- The register and value pairs of a preset are entries that a preset can hold by their number (R134). -/
def presetLen (n : Nat) : Bool := decide (8 ≤ n ∧ n ≤ 512) && n % 8 == 0

/-- PRESET_STORE (R134). -/
def State.presetStore (s : State) (t : Nat) (bs : List Byte) : State :=
  s.modMp (fun y => { y with presets := y.presets.set t (pairsOf (wordsOf bs)) })

/-- The owner of an origin that holds lock k does something with it; any other owner meets LOCK_NOT_HELD (R359). -/
def State.asHolder (s : State) (id : DescId) (k : Nat) (f : State → State) : State :=
  match (originOwner id.org).bind s.lockOf with
  | some j => if j = k then f s else s.finishBad id .lockNotHeld
  | none => s.finishBad id .lockNotHeld

/-- Operations of the rings 0 and PARAM. -/
def State.cmdOper (s : State) (id : DescId) (d : Desc) (bs : List Byte) : State :=
  let t := d.target
  let bad := s.finishBad id .badParam
  match d.op with
  | 0x08 =>
    if decide (1 ≤ t ∧ t ≤ 15) && d.inl == 0 && presetLen bs.length then (s.presetStore t bs).ends id .done else bad
  | 0x0B =>
    let c := t % 16
    if decide (t < 32) && d.inl == 0 && bs.length == 8 * s.quarterN c then
      if s.bankInUse c (t / 16 == 1) then s.ends id .refusedBusy
      else (State.setCoefs c (t / 16 == 1) 0 (wordsOf bs) s).ends id .done
    else bad
  | 0x40 => if decide (t < 8) && d.inl == 0 && decide (0 < bs.length) then endsWith id (s.progLoad t bs) else bad
  | 0x44 => if decide (t < 8) && d.inl == 0 then endsWith id (s.irLoad t bs) else bad
  | 0x45 => if t == 0 && d.inl == 0 then endsWith id (s.raSet bs) else bad
  | 0x46 =>
    let n := bytesAt bs 0 1
    if t == 0 && d.inl == 0 && bs.length == 2 && decide (n < 8) && decide (bytesAt bs 1 1 < 2) then
      let s1 := s.putPayload id.org d.payAddr (s.raStatus n)
      (if bytesAt bs 1 1 = 1 then s1.raClear n else s1).ends id .done
    else bad
  | 0x50 =>
    if t == 0 && d.payLen == 0 && d.inlIn 1 then
      if s.ringState 5 == ringRunning && s.on R.AFE_LSN_CFG F.AFE_LSN_CFG_EN then (s.gatherStart d.inl).ends id .done
      else s.ends id .refusedBusy
    else bad
  | 0x51 => if t == 0 && d.plain then s.gatherStop.ends id .done else bad
  | 0x64 =>
    let msg := d.inl % 1024
    if t == 0 && d.payLen == 0 && d.inlIn 0xFF03FF then
      if (s.dirEntry msg).isNone then (s.incSat R.TTH_PLAY_CNT F.TTH_PLAY_CNT_CRC).ends id .badParam
      else if s.playRoom then (s.playQueue ⟨msg, d.inl / 65536⟩).ends id .done
      else s.ends id .refusedBusy
    else bad
  | 0x65 => if t == 0 && d.plain then s.playStop.ends id .done else bad
  | 0x70 => if decide (t < 2) && d.plain then (s.snsSoftware t).ends id .done else bad
  | 0x71 =>
    let c := bytesAt bs 0 1
    if t == 0 && d.inl == 0 && bs.length == 4 && decide (c < 2) && decide (bytesAt bs 1 1 < 32) && decide (bytesAt bs 2 1 < 8)
        && decide (bytesAt bs 3 1 ≤ 10) then
      if s.injFull c then s.ends id .refusedBusy
      else s.inject c ⟨.cmd id d.payAddr, bytesAt bs 1 1, bytesAt bs 2 1, bytesAt bs 3 1⟩
    else bad
  | 0xA0 =>
    if decide (t < 32) && d.payLen == 0 && decide (d.inl ≤ leaseMax) then
      match originOwner id.org with
      | some w => endsWith id (s.lockAcquire w t d.inl)
      | none => s.ends id .denied
    else bad
  | 0xA2 => if decide (t < 32) && d.plain then s.asHolder id t (fun s => (s.lockDiscard t).ends id .done) else bad
  | 0xA3 =>
    if decide (t < 32) && d.payLen == 0 && decide (d.inl ≤ leaseMax) then
      s.asHolder id t (fun s => (s.lockRenew t d.inl).ends id .done)
    else bad
  | _ => bad

/-! ### Management operations (0xC0 to 0xC7) -/

/-- The bytes of a journal record (R428). -/
def JRec.bytes (r : JRec) : List Byte :=
  let head := leBytes 2 r.key ++ leBytes 2 r.payload.length ++ leBytes 4 r.gen
  head ++ leBytes 4 (crc32 (head ++ r.payload)).toNat ++ leBytes 4 0xFFFFFFFF ++ r.payload
    ++ List.replicate ((16 - r.payload.length % 16) % 16) 0xFF ++ leBytes 4 0x5A5AA5A5 ++ List.replicate 12 0xFF

/-- The journal partitions hold a protected unit (R425). -/
def State.journalShut (s : State) : Bool := s.rangeProtected journalBase 0x400000

/-- A journal write begins, or meets DENIED. -/
def State.journalWrite (s : State) (id : DescId) (gs : List Nat) (recs : List (Nat × List Byte)) : State :=
  if s.journalShut then s.ends id .denied else s.flashBegin (some id) (.journal recs gs)

/-- POWER_MODE (R420). -/
def State.powerMode (s : State) (id : DescId) (code : Nat) : State :=
  if code = 0 ∧ s.power.trans = some .quiet then s.quietAbandon.ends id .done
  else if (s.power.trans.getD s.power.mode |> modeCode) = code then s.ends id .done
  else if code = 1 ∧ s.tthIdle16 = false then s.ends id .refusedBusy
  else if s.power.trans.isSome ∨ (2 ≤ code ∧ s.tthOverride = true) then s.ends id .refusedBusy
  else
    let s := s.ends id .done
    match code with
    | 0 => s.quietTrigger 0
    | 1 => s.quietBegin 0
    | _ =>
      let new : Mode := if code = 2 then .listen else .shelf
      let s1 := (s.transBegin new 0).modeChangedEvent s.power.mode new 0
      s1.statusBlock.modPower (fun p => { p with step := 1, reading := false })

/-- MESSAGE_STORE's payload: SAMPLES, LEVEL, six bytes of zero, and the code bytes of SAMPLES samples; the frames fit (R283). -/
def messageOk (bs : List Byte) : Bool :=
  let n := natAt bs 0
  decide (1 ≤ n) && bytesAt bs 6 6 == 0 && bs.length == 12 + (n + 1) / 2 && decide (framesBase + 256 * frameCount n ≤ partSize)

/-- A message plays or waits in the queue. -/
def State.messageBusy (s : State) (j : Nat) : Bool :=
  s.tth.player.queue.any (fun q => q.msg == j) || (match s.tth.player.now with
    | some q => q.msg == j
    | none => false)

/-- METROLOGY_READ (R396): the part asks M for records. -/
def State.metroAsk (s : State) (id : DescId) (d : Desc) : State :=
  let n := d.payLen / 64
  if d.inl ≠ 0 ∨ d.payLen % 64 ≠ 0 ∨ n = 0 ∨ 1024 < n then s.ends id .badParam
  else if s.metro.read.isSome then s.ends id .refusedBusy
  else s.modMetro (fun m => { m with read := some (id, d.target, n, d.payAddr, s.clk.now3) })

/-- Management operations. -/
def State.mgmtOper (s : State) (id : DescId) (d : Desc) (bs : List Byte) : State :=
  let t := d.target
  let bad := s.finishBad id .badParam
  match d.op with
  | 0xC0 =>
    if d.plain && (decide (t ≤ 8) || t == 0xFFFFFFFF) then
      let gs := if t ≤ 8 then [t] else List.range 9
      s.journalWrite id gs (gs.flatMap s.groupRecords)
    else bad
  | 0xC1 =>
    match s.flash.view t with
    | .record r =>
      if d.inl == 0 && decide (t ≤ 0xFFFE) && decide (d.payLen ≤ 4096) && decide (r.size ≤ d.payLen) then
        (s.putPayload id.org d.payAddr r.bytes).ends id .done
      else bad
    | _ => bad
  | 0xC2 =>
    if decide (t < 2) && d.inl % 65536 == 0 && decide (d.inl < 0x400000) && decide (1 ≤ bs.length ∧ bs.length ≤ 65536) then
      if s.fld R.CLK_BOOT_STS F.CLK_BOOT_STS_IMG = t ∨ s.rangeProtected (bootBase t + d.inl) 65536 = true then s.ends id .denied
      else s.flashBegin (some id) (.firmware t d.inl bs)
    else bad
  | 0xC3 => if decide (t < 2) && d.plain then s.journalWrite id [] [(1, leBytes 1 t)] else bad
  | 0xC4 => if decide (t < 4) && d.plain then s.powerMode id t else bad
  | 0xC5 =>
    if decide (t < 1024) && d.inl == 0 && messageOk bs then
      let k := frameCount (natAt bs 0)
      if s.messageBusy t then s.ends id .refusedBusy
      else if s.rangeProtected (messageBase + framePlace t k) (256 * k) || s.rangeProtected (messageBase + 0x20000 + 16 * t) 16 then
        s.ends id .denied
      else s.flashBegin (some id) (.message t (natAt bs 0) (bytesAt bs 4 2) (bs.drop 12))
    else bad
  | 0xC6 =>
    if t == 0 && d.inl == 0 && tthImageOk bs then
      if s.rangeProtected (messageBase + 0x10000 * s.tthTarget) bs.length then s.ends id .denied
      else s.flashBegin (some id) (.tetherImage bs)
    else bad
  | 0xC7 => s.metroAsk id d
  | _ => bad

/-- What an operation does when it is read. -/
def State.operOf (s : State) (id : DescId) (d : Desc) (bs : List Byte) : State :=
  if d.op = 0xF0 then (if d.target == 0 && d.plain then s.ends id .done else s.finishBad id .badParam)
  else if mgmtOp d.op then s.mgmtOper id d bs else s.cmdOper id d bs

/-! ### Reading a descriptor (R345, R346, R351) -/

/-- The lock whose open sequence a CHAIN descriptor joins. -/
def State.chainLock (s : State) (o : Origin) (d : Desc) : Option Nat := if d.chain then (originOwner o).bind s.lockOf else none

/-- A descriptor fails its checks: a chained one in the sequence of its owner (R358). -/
def State.failDesc (s : State) (id : DescId) (d : Desc) (st : Status) : State :=
  match s.chainLock id.org d with
  | some k => s.chainFail k id st
  | none => s.finishBad id st

/-- The AT_BLOCK index of a descriptor that is staged. -/
def State.setWant (s : State) (id : DescId) (want : Option Nat) : State :=
  s.modQueue id.org (fun q => { q with flight := q.flight.map (fun f => if f.ord = id.ord then { f with want := want } else f) })

/-- A change is staged for the block that it names, or for the first whose cutoff has not passed (R33, R36). -/
def State.stageDesc (s : State) (id : DescId) (d : Desc) (act : Act) : State :=
  (s.setWant id d.want).stageAct ⟨some id, max (d.want.getD 0) (s.openFor [act]), originRank id.org, none, act⟩

/-- Words that the changes of a sequence copy into one engine pass the limit of one block (R157). -/
def State.seqTooLong (s : State) (k : Nat) : Bool :=
  (List.range 8).any (fun n => decide (4096 < ((s.lock k).staged.map (fun p => paramWords n p.2)).foldl (· + ·) 0))

/-- LOCK_RELEASE (R359, R157). -/
def State.releaseOf (s : State) (id : DescId) (d : Desc) : State :=
  if decide (d.target < 32) && d.plain then
    s.asHolder id d.target (fun s =>
      if s.seqTooLong d.target then ((s.lockDrop d.target).incWrap R.LCK_FAILED F.LCK_FAILED_COUNT).finishBad id .badParam
      else s.lockRelease id d.target d.want)
  else s.finishBad id .badParam

/-- A descriptor whose opcode and form pass begins. -/
def State.beginDesc (s : State) (id : DescId) (d : Desc) (k : OpKind) : State :=
  let bs := s.payloadOf id.org d
  if d.op = 0xA1 then s.releaseOf id d
  else if k = .oper then s.operOf id d bs
  else
    match s.changeOf id.org d bs with
    | .error st => (s.regReport id.org (if st = .denied then d.regs else [])).failDesc id d st
    | .ok act =>
      match s.chainLock id.org d with
      | some l => s.chainStage l id act d.payLen
      | none => s.stageDesc id d act

/-- A descriptor of kind C or T wakes the part from QUIET; lock operations do not (R137). -/
def wakesQuiet (op : Nat) (k : OpKind) : Bool := k != .oper && op != 0xA1

/-- The checks of a descriptor in order, and then its operation (R345, R351, R358, R416). -/
def State.checkDesc (s : State) (id : DescId) (d : Desc) : State :=
  match opKind d.op with
  | none => s.failDesc id d .badOpcode
  | some k =>
    if !takesOp id.org d.op then s.failDesc id d .denied
    else if d.op == 0xC7 && !s.metroFitted then s.failDesc id d .notPresent
    else if !s.opAllowed id.org d.op then
      let (a, s) := s.fresh 17
      (s.protViolation (originAgent id.org) 1 a.toNat).failDesc id d .denied
    else
      let s := if wakesQuiet d.op k then s.quietTrigger 0 else s
      if d.chain && k == .change && (originOwner id.org).isSome && (s.chainLock id.org d).isNone then s.finishBad id .lockNotHeld
      else if s.formBad id.org d k then s.failDesc id d .badParam
      else s.beginDesc id d k

/-- The part reads a descriptor: leases that have ended come first (R361), and it takes the next number of its origin. -/
def State.runDesc (s : State) (o : Origin) (d : Desc) : State :=
  let s := State.leases (List.range 32) s
  let (id, s) := s.newFlight o d.op d.tag d.noCpl
  s.checkDesc id d

/-- The part reads descriptors (R372, R421). -/
def State.reads (s : State) : Bool := s.served && s.on R.CLK_BOOT_STS F.CLK_BOOT_STS_JNL_DONE && s.power.reading

/-- The ring of an origin can give a descriptor. -/
def State.ringGives (s : State) (o : Origin) : Bool :=
  match o with
  | .cmd => s.ringState 0 == ringRunning || s.ringState 0 == ringDraining
  | .mcmd => s.ringState 3 == ringRunning || s.ringState 3 == ringDraining
  | _ => true

/-- Every earlier descriptor of an origin has completed, where FENCE asks for it, and fewer than 256 have been read and not
completed (R346). -/
def State.canBegin (s : State) (o : Origin) (fence : Bool) : Bool :=
  let open_ := (s.queue o).flight.filter (fun f => f.cpl.isNone)
  decide (open_.length < 256) && (!fence || open_.isEmpty)

/-- A row of the opcode table: the part reads a descriptor of an origin with that opcode. -/
def State.opRow (s : State) (op : Nat) (o : Origin) (d : Desc) : State :=
  if s.reads && s.ringGives o && s.canBegin o d.fence then s.runDesc o { d with op := op } else s

/-! ### DESCRIPTOR_FETCH, COMPLETION_POST and SMB_SUBMIT -/

/-- The descriptor that 32 bytes spell (R345). -/
def descOf (bs payload : List Byte) : Desc :=
  ⟨bytesAt bs 0 1, bytesAt bs 1 1, bytesAt bs 2 2, bytesAt bs 4 4, bytesAt bs 8 8, bytesAt bs 16 8, bytesAt bs 24 4,
    bytesAt bs 28 4, payload⟩

/-- A ring holds a descriptor that the part may read: while it drains, up to the accepted tail (R354). -/
def State.ringHasDesc (s : State) (r : Nat) : Bool :=
  if s.ringState r == ringRunning then s.ringHolds r != 0
  else s.ringState r == ringDraining && s.ringHead r != (s.ringX r).accepted

/-- DESCRIPTOR_FETCH (R346): of ring 0, or ring 3; a ring in host memory supplies the bytes of the entry and of its payload. -/
def execDescriptorFetch (mgmt : Bool) (bytes payload : List Byte) (s : State) : Out :=
  let r := if mgmt then 3 else 0
  let o : Origin := if mgmt then .mcmd else .cmd
  let bs := if s.ringLocal r then Mem.getMany 0 s.window (s.ringAddr r (s.ringHead r)) 32 else fitBytes 32 bytes
  let d := descOf bs payload
  .next (if s.reads && s.ringHasDesc r && s.canBegin o d.fence then
    let s1 := (s.setF (R.HIF_RING_IDX r) F.HIF_RING_IDX_HEAD ((s.ringHead r + 1) % 65536)).ringFull r
    (s1.modHost (fun h => { h with idxChanged := true })).runDesc o d
  else s)

/-- SMB_SUBMIT (R334): one management descriptor at a time. -/
def execSmbSubmit (d : Desc) (pecOk : Bool) (s : State) : Out :=
  .next (s.smbPec pecOk (fun s =>
    if s.on R.HIF_SMB_STS F.HIF_SMB_STS_BUSY || !s.reads then s.setF R.HIF_SMB_STS F.HIF_SMB_STS_NACKED 1
    else (s.setF R.HIF_SMB_STS F.HIF_SMB_STS_BUSY 1).runDesc .smbus d))

/-! ### The rows of the opcode table -/

/-- LANE_SOURCE (R128, R352): opcode 0x01. -/
def execLaneSource (org : Origin) (d : Desc) (s : State) : Out := .next (s.opRow 0x01 org d)

/-- LANE_TRIM (R125, R352): opcode 0x02. -/
def execLaneTrim (org : Origin) (d : Desc) (s : State) : Out := .next (s.opRow 0x02 org d)

/-- LANE_DETECT (R112, R352): opcode 0x03. -/
def execLaneDetect (org : Origin) (d : Desc) (s : State) : Out := .next (s.opRow 0x03 org d)

/-- BUS_INPUT (R128, R352): opcode 0x04. -/
def execBusInput (org : Origin) (d : Desc) (s : State) : Out := .next (s.opRow 0x04 org d)

/-- BUS_CFG (R118, R352): opcode 0x05. -/
def execBusCfg (org : Origin) (d : Desc) (s : State) : Out := .next (s.opRow 0x05 org d)

/-- SINK (R131, R352): opcode 0x06. -/
def execSink (org : Origin) (d : Desc) (s : State) : Out := .next (s.opRow 0x06 org d)

/-- SINK_DYNAMICS (R124, R352): opcode 0x07. -/
def execSinkDynamics (org : Origin) (d : Desc) (s : State) : Out := .next (s.opRow 0x07 org d)

/-- PRESET_STORE (R134, R352): opcode 0x08. -/
def execPresetStore (org : Origin) (d : Desc) (s : State) : Out := .next (s.opRow 0x08 org d)

/-- PRESET_APPLY (R135, R352): opcode 0x09. -/
def execPresetApply (org : Origin) (d : Desc) (s : State) : Out := .next (s.opRow 0x09 org d)

/-- FILTER_SWAP (R69, R352): opcode 0x0A. -/
def execFilterSwap (org : Origin) (d : Desc) (s : State) : Out := .next (s.opRow 0x0A org d)

/-- FILTER_COEF (R68, R352): opcode 0x0B. -/
def execFilterCoef (org : Origin) (d : Desc) (s : State) : Out := .next (s.opRow 0x0B org d)

/-- FRONT_END_SYNC (R72, R352): opcode 0x0C. -/
def execFrontEndSync (org : Origin) (d : Desc) (s : State) : Out := .next (s.opRow 0x0C org d)

/-- REG_WRITE (R353, R352): opcode 0x20. -/
def execRegWrite (org : Origin) (d : Desc) (s : State) : Out := .next (s.opRow 0x20 org d)

/-- REG_WRITE_MASKED (R353, R352): opcode 0x21. -/
def execRegWriteMasked (org : Origin) (d : Desc) (s : State) : Out := .next (s.opRow 0x21 org d)

/-- REG_WRITE_RUN (R353, R352): opcode 0x22. -/
def execRegWriteRun (org : Origin) (d : Desc) (s : State) : Out := .next (s.opRow 0x22 org d)

/-- GENERATOR (R470, R352): opcode 0x28. -/
def execGenerator (org : Origin) (d : Desc) (s : State) : Out := .next (s.opRow 0x28 org d)

/-- PROG_LOAD (R151, R352): opcode 0x40. -/
def execProgLoad (org : Origin) (d : Desc) (s : State) : Out := .next (s.opRow 0x40 org d)

/-- PROG_START (R152, R352): opcode 0x41. -/
def execProgStart (org : Origin) (d : Desc) (s : State) : Out := .next (s.opRow 0x41 org d)

/-- ENGINE_MODE (R152, R352): opcode 0x42. -/
def execEngineMode (org : Origin) (d : Desc) (s : State) : Out := .next (s.opRow 0x42 org d)

/-- PARAM_WRITE (R155, R352): opcode 0x43. -/
def execParamWrite (org : Origin) (d : Desc) (s : State) : Out := .next (s.opRow 0x43 org d)

/-- IR_LOAD (R164, R352): opcode 0x44. -/
def execIrLoad (org : Origin) (d : Desc) (s : State) : Out := .next (s.opRow 0x44 org d)

/-- RUNAHEAD_SET (R209, R352): opcode 0x45. -/
def execRunaheadSet (org : Origin) (d : Desc) (s : State) : Out := .next (s.opRow 0x45 org d)

/-- RUNAHEAD_STATUS (R238, R352): opcode 0x46. -/
def execRunaheadStatus (org : Origin) (d : Desc) (s : State) : Out := .next (s.opRow 0x46 org d)

/-- GATHER_START (R309, R352): opcode 0x50. -/
def execGatherStart (org : Origin) (d : Desc) (s : State) : Out := .next (s.opRow 0x50 org d)

/-- GATHER_STOP (R309, R352): opcode 0x51. -/
def execGatherStop (org : Origin) (d : Desc) (s : State) : Out := .next (s.opRow 0x51 org d)

/-- HOST_STREAM_START (R342, R352): opcode 0x52. -/
def execHostStreamStart (org : Origin) (d : Desc) (s : State) : Out := .next (s.opRow 0x52 org d)

/-- HOST_STREAM_STOP (R342, R352): opcode 0x53. -/
def execHostStreamStop (org : Origin) (d : Desc) (s : State) : Out := .next (s.opRow 0x53 org d)

/-- TETHER_GAINS (R266, R352): opcode 0x60. -/
def execTetherGains (org : Origin) (d : Desc) (s : State) : Out := .next (s.opRow 0x60 org d)

/-- TETHER_MODE (R273, R352): opcode 0x61. -/
def execTetherMode (org : Origin) (d : Desc) (s : State) : Out := .next (s.opRow 0x61 org d)

/-- TETHER_FAULT_CLEAR (R269, R352): opcode 0x62. -/
def execTetherFaultClear (org : Origin) (d : Desc) (s : State) : Out := .next (s.opRow 0x62 org d)

/-- TETHER_SELFTEST (R294, R352): opcode 0x63. -/
def execTetherSelftest (org : Origin) (d : Desc) (s : State) : Out := .next (s.opRow 0x63 org d)

/-- MESSAGE_PLAY (R285, R352): opcode 0x64. -/
def execMessagePlay (org : Origin) (d : Desc) (s : State) : Out := .next (s.opRow 0x64 org d)

/-- MESSAGE_STOP (R285, R352): opcode 0x65. -/
def execMessageStop (org : Origin) (d : Desc) (s : State) : Out := .next (s.opRow 0x65 org d)

/-- SENSE_TRIGGER (R317, R352): opcode 0x70. -/
def execSenseTrigger (org : Origin) (d : Desc) (s : State) : Out := .next (s.opRow 0x70 org d)

/-- SENSE_INJECT (R323, R352): opcode 0x71. -/
def execSenseInject (org : Origin) (d : Desc) (s : State) : Out := .next (s.opRow 0x71 org d)

/-- SENSE_CALIBRATE (R326, R352): opcode 0x72. -/
def execSenseCalibrate (org : Origin) (d : Desc) (s : State) : Out := .next (s.opRow 0x72 org d)

/-- OUTPUT_OFFSET_CAL (R248, R352): opcode 0x80. -/
def execOutputOffsetCal (org : Origin) (d : Desc) (s : State) : Out := .next (s.opRow 0x80 org d)

/-- OUTPUT_CLEAR_FAULT (R252, R352): opcode 0x81. -/
def execOutputClearFault (org : Origin) (d : Desc) (s : State) : Out := .next (s.opRow 0x81 org d)

/-- LOCK_ACQUIRE (R357, R352): opcode 0xA0. -/
def execLockAcquire (org : Origin) (d : Desc) (s : State) : Out := .next (s.opRow 0xA0 org d)

/-- LOCK_RELEASE (R359, R352): opcode 0xA1. -/
def execLockRelease (org : Origin) (d : Desc) (s : State) : Out := .next (s.opRow 0xA1 org d)

/-- LOCK_DISCARD (R359, R352): opcode 0xA2. -/
def execLockDiscard (org : Origin) (d : Desc) (s : State) : Out := .next (s.opRow 0xA2 org d)

/-- LOCK_RENEW (R361, R352): opcode 0xA3. -/
def execLockRenew (org : Origin) (d : Desc) (s : State) : Out := .next (s.opRow 0xA3 org d)

/-- PERSIST (R432, R352): opcode 0xC0. -/
def execPersist (org : Origin) (d : Desc) (s : State) : Out := .next (s.opRow 0xC0 org d)

/-- JOURNAL_READ (R352): opcode 0xC1. -/
def execJournalRead (org : Origin) (d : Desc) (s : State) : Out := .next (s.opRow 0xC1 org d)

/-- FIRMWARE_WRITE (R413, R352): opcode 0xC2. -/
def execFirmwareWrite (org : Origin) (d : Desc) (s : State) : Out := .next (s.opRow 0xC2 org d)

/-- FIRMWARE_SELECT (R413, R352): opcode 0xC3. -/
def execFirmwareSelect (org : Origin) (d : Desc) (s : State) : Out := .next (s.opRow 0xC3 org d)

/-- POWER_MODE (R420, R352): opcode 0xC4. -/
def execPowerMode (org : Origin) (d : Desc) (s : State) : Out := .next (s.opRow 0xC4 org d)

/-- MESSAGE_STORE (R287, R352): opcode 0xC5. -/
def execMessageStore (org : Origin) (d : Desc) (s : State) : Out := .next (s.opRow 0xC5 org d)

/-- TETHER_IMAGE_STORE (R293, R352): opcode 0xC6. -/
def execTetherImageStore (org : Origin) (d : Desc) (s : State) : Out := .next (s.opRow 0xC6 org d)

/-- METROLOGY_READ (R396, R352): opcode 0xC7. -/
def execMetrologyRead (org : Origin) (d : Desc) (s : State) : Out := .next (s.opRow 0xC7 org d)

/-- NOP (R352): opcode 0xF0. -/
def execNop (org : Origin) (d : Desc) (s : State) : Out := .next (s.opRow 0xF0 org d)

end Sys2Proof.Machine
end

