-- ==== Sys2Proof/Machine/Render.lean ====
section
/-!
DEFINITION. What the records of a program compute (R140 to R145, R156, R158 to R165), and CONCEAL (R216). A block whose
arithmetic the spec does not state is an opaque function of its words, its inputs and what it keeps inside (R142).
-/
namespace Sys2Proof.Machine

/-! ### Buffers -/

/-- Blocks of samples by buffer, lane, source or sink; one not listed is zero with no tags. -/
abbrev Bufs := List (Nat × List Smp)

def bufAt (b : Bufs) (i : Nat) : List Smp := lookupKey (zeroBlock 0) b i

/-- A weighted sum requantised (R117, R141); U, O and C are the OR over the terms whose weight is not zero, P over every
term (R119, R145). -/
def sumExact (terms : List (Frac × Smp)) : Frac := terms.foldl (fun a p => a.add (p.1.mul (Frac.ofInt p.2.int))) Frac.zero

def sumTag (terms : List (Frac × Smp)) : Tag :=
  terms.foldl (fun t p => t ||| (if p.1.num = 0 then p.2.tag &&& tagP else p.2.tag)) 0

def sumSmp (terms : List (Frac × Smp)) : Smp := requant (sumExact terms) (sumTag terms)

/-- A word in Q2.30. -/
def q30 (w : Word) : Frac := ⟨w.toInt, 2 ^ 30⟩

/-- The parameter word j of a record (R156). -/
def EngPlan.word (e : EngPlan) (r : ProgRec) (j : Nat) : Word := lookupKey 0 e.params (r.poff / 4 + j)

def RecMem.reset : RecMem := ⟨[], [], [], 0⟩

def RecMem.line (m : RecMem) (j : Nat) : List Smp := m.lines.getD j []

/-! ### Gains of records (R160) -/

/-- The gain j of a record has word w at data sample t: a change moves over `len` samples, and the first word of a program
applies at once. -/
def RecMem.gain (m : RecMem) (j : Nat) (w : Word) (t len : Nat) : RecMem :=
  match m.ramps.find? (fun p => p.1 == j) with
  | none => { m with ramps := (j, w, [⟨t, 0, q30 w, q30 w, false⟩]) :: m.ramps }
  | some (_, v, rs) => if v = w then m else { m with ramps := putKey m.ramps j (w, rampTo Frac.zero rs t len (q30 w) false) }

def RecMem.gainAt (m : RecMem) (j t : Nat) : Frac := rampAt Frac.zero (lookupKey ((0 : Word), []) m.ramps j).2 t

/-- Gains 0 to n − 1 with their words. -/
def RecMem.gains (w : Nat → Word) (t len : Nat) : Nat → RecMem → RecMem
  | 0, m => m
  | n + 1, m => (RecMem.gains w t len n m).gain n (w n) t len

/-! ### FIR (R140, R159) -/

/-- Coefficients on a line, newest sample first: an exact sum of products. -/
def dotLine : List Word → List Smp → Int
  | h :: hs, x :: xs => h.toInt * x.int + dotLine hs xs
  | _, _ => 0

/-- The samples of a data block through a FIR; the line keeps `len` samples. -/
def firRun (hs : List Word) (len : Nat) : List Smp → List Smp → List Smp × List Smp
  | [], ln => ([], ln)
  | x :: xs, ln =>
    let ln1 := (x :: ln).take len
    let (ys, ln2) := firRun hs len xs ln1
    (requant ⟨dotLine hs ln1, 2 ^ 30⟩ x.tag :: ys, ln2)

/-! ### Delay lines and switches (R162, R163) -/

/-- A fade from the old tap runs at data sample t. -/
def TapX.fading (x : TapX) (t len : Nat) : Bool := x.old != x.now && decide (t < x.at_ + len)

/-- The tap at the start of a data block, with the value that the parameters ask for: a change waits until a running fade
ends, and replaces one that waits. -/
def tapBegin (x : Option TapX) (want t len : Nat) : TapX :=
  match x with
  | none => ⟨want, want, t, none⟩
  | some x =>
    if x.fading t len then { x with next := if want = x.now then none else some want }
    else
      let y : TapX := match x.next with
        | some q => ⟨q, x.now, t, none⟩
        | none => { x with old := x.now }
      if want = y.now then y
      else if y.fading t len then { y with next := some want }
      else ⟨want, y.now, t, none⟩

/-- The two sides of a tap at data sample t, with their weights. -/
def TapX.sides (x : TapX) (t len : Nat) : List (Frac × Nat) :=
  if x.fading t len then [(rise (t - x.at_) len, x.now), (fall (t - x.at_) len, x.old)] else [(Frac.one, x.now)]

/-- A delay word: 18 whole bits and 8 bits of 1/256 sample (R158). -/
def delayWord (w : Word) : Nat := w.toNat % 2 ^ 26

/-- A line, newest sample first, read at a delay: an exact sample, or 8 samples through the interpolator, which adds 4
samples; their tags. A delay that MAXD does not allow gives an open value (R163). -/
def lineRead (ln : List Smp) (maxd : Nat) (frac : Bool) (d : Nat) : Int × Tag :=
  let q := d / 256
  let zero : Smp := ⟨0, 0⟩
  if maxd < q + (if frac then 4 else 0) then (Config.beyond maxd d, 0)
  else if !frac then ((ln.getD q zero).int, (ln.getD q zero).tag)
  else if d % 256 = 0 then ((ln.getD (q + 4) zero).int, (ln.getD (q + 4) zero).tag)
  else
    let win := (List.range 8).map (fun i => ln.getD (q + i) zero)
    (Config.interp (d % 256) (win.map (·.v)), win.foldl (fun t x => t ||| x.tag) 0)

/-- The fade of a DELAY or STEER record in MODE 0 to 2. -/
def delayFade (mode : Nat) : Nat := match mode with
  | 0 => 64
  | 1 => 256
  | _ => 1024

/-- A glide of at most `rate` towards a delay (MODE 3). -/
def glide (pos want rate : Nat) : Nat := if pos < want then min want (pos + rate) else max want (pos - rate)

/-- The samples of a data block through a line (R163): `g` is the gain at a data sample. -/
def delayRun (maxd mode rate want : Nat) (frac : Bool) (g : Nat → Frac) :
    Nat → List Smp → List Smp → TapX → List Smp × List Smp × TapX
  | _, [], ln, x => ([], ln, x)
  | t, s :: ss, ln, x =>
    let ln1 := (s :: ln).take (maxd + 48)
    let x1 : TapX := if mode = 3 then { x with now := glide x.now want rate, old := glide x.now want rate } else x
    let sides := (x1.sides t (delayFade mode)).map (fun p => (p.1, lineRead ln1 maxd frac p.2))
    let v := sides.foldl (fun a p => a.add (p.1.mul (Frac.ofInt p.2.1))) Frac.zero
    let tag := sides.foldl (fun u p => u ||| p.2.2) 0
    let (ys, ln2, x2) := delayRun maxd mode rate want frac g (t + 1) ss ln1 x1
    (requant (v.mul (g t)) tag :: ys, ln2, x2)

/-- The channels of a DELAY (words rate; d per channel) or STEER record (rate; d and g per channel) from channel j on. -/
def delayChans (r : ProgRec) (w : Nat → Word) (m : RecMem) (t : Nat) (steer : Bool) :
    Nat → List (List Smp) → List (List Smp × List Smp × TapX)
  | _, [] => []
  | j, x :: xs =>
    let mode := argF r.arg 19 2
    let frac := steer || argF r.arg 18 1 == 1
    let want := delayWord (w (if steer then 1 + 2 * j else 1 + j))
    let tap : TapX := match m.taps.find? (fun p => p.1 == j) with
      | some p => if mode = 3 then p.2 else tapBegin (some p.2) want t (delayFade mode)
      | none => ⟨want, want, t, none⟩
    let g := if steer then m.gainAt j else (fun _ => Frac.one)
    delayRun (argF r.arg 0 18) mode (max 1 (min 64 (w 0).toNat)) want frac g t x (m.line j) tap
      :: delayChans r w m t steer (j + 1) xs

/-! ### CONV (R164) -/

/-- A line against the impulse response of a slot for a channel; an empty slot convolves to zero. -/
def convAt (irs : List (Nat × Nat × List Word)) (slot ch : Nat) (ln : List Smp) : Frac :=
  match irs.find? (fun q => q.1 == slot && q.2.1 == ch) with
  | some q => ⟨dotLine q.2.2 ln, 2 ^ 30⟩
  | none => Frac.zero

/-- The samples of a data block through a channel of a CONV record: the active slot, and through its fade the old one. -/
def convRun (irs : List (Nat × Nat × List Word)) (taps : Nat) (g : Frac) (ch : Nat) (x : TapX) (len : Nat) :
    Nat → List Smp → List Smp → List Smp × List Smp
  | _, [], ln => ([], ln)
  | t, s :: ss, ln =>
    let ln1 := (s :: ln).take taps
    let v := (x.sides t len).foldl (fun a p => a.add (p.1.mul (convAt irs p.2 ch ln1))) Frac.zero
    let (ys, ln2) := convRun irs taps g ch x len (t + 1) ss ln1
    (requant (g.mul v) s.tag :: ys, ln2)

/-! ### One record (R144, R145, R159, R162) -/

/-- The input whose tags an output carries: the input of the same index, of XOVER the channel of the band, of DUCK the input
after the key; none of a generator. -/
def tagInput (r : ProgRec) (o : Nat) : Option Nat :=
  match r.typ with
  | 0x10 | 0x11 => none
  | 0x07 => some (o % max 1 r.m)
  | 0x13 => some (o + 1)
  | _ => some o

/-- The outputs of a record for the data block that begins at data sample t, in order, and what it keeps; `w` are its
parameter words, `xs` its inputs, `irs` its impulse responses by slot and channel. -/
def recOut (r : ProgRec) (w : Nat → Word) (irs : List (Nat × Nat × List Word)) (xs : List (List Smp)) (m : RecMem) (t : Nat) :
    RecMem × List (List Smp) :=
  let block (f : Nat → Smp) : List Smp := (List.range 16).map f
  let x (j i : Nat) : Smp := smpAt (xs.getD j []) i
  match r.typ with
  | 0x01 =>
    let m := RecMem.gains (fun j => w (1 + j)) t (min 1024 (w 0).toNat) r.n m
    (m, (List.range r.n).map (fun j => block (fun i =>
      requant ((m.gainAt j (t + i)).mul (Frac.ofInt (x j i).int)) (x j i).tag)))
  | 0x03 =>
    let m := RecMem.gains (fun j => w (1 + j)) t (min 1024 (w 0).toNat) (r.n * r.m) m
    (m, (List.range r.n).map (fun o => block (fun i => sumSmp ((List.range r.m).map (fun j =>
      (m.gainAt (o * r.m + j) (t + i), x j i))))))
  | 0x14 =>
    let g := r.m / max 1 r.n
    (m, (List.range r.n).map (fun o => block (fun i => sumSmp ((List.range g).map (fun j =>
      (q30 (w (o * g + j)), x (o * g + j) i))))))
  | 0x05 =>
    let n := argF r.arg 0 11
    let runs := xs.mapIdx (fun j b =>
      firRun ((List.range n).map (fun q => w (if argF r.arg 12 1 = 1 then q else n * j + q))) n b (m.line j))
    ({ m with lines := runs.map (·.2) }, runs.map (·.1))
  | 0x06 =>
    let len := fadeSamples (argF r.arg 19 2)
    let tap := tapBegin ((m.taps.find? (fun p => p.1 == 0)).map (·.2)) ((w 1).toNat % 2) t len
    let runs := xs.mapIdx (fun j b => convRun irs (argF r.arg 0 17) (q30 (w 0)) j tap len t b (m.line j))
    ({ m with lines := runs.map (·.2), taps := [(0, tap)] }, runs.map (·.1))
  | 0x08 =>
    let runs := delayChans r w m t false 0 xs
    ({ m with lines := runs.map (·.2.1), taps := runs.mapIdx (fun j q => (j, q.2.2)) }, runs.map (·.1))
  | 0x17 =>
    let mode := argF r.arg 19 2
    let m := RecMem.gains (fun j => w (2 + 2 * j)) t (if mode = 3 then 256 else delayFade mode) r.n m
    let runs := delayChans r w m t true 0 xs
    ({ m with lines := runs.map (·.2.1), taps := runs.mapIdx (fun j q => (j, q.2.2)) }, runs.map (·.1))
  | 0x18 =>
    let len := fadeSamples (argF r.arg 0 2)
    let taps := (List.range r.n).map (fun o =>
      (o, tapBegin ((m.taps.find? (fun p => p.1 == o)).map (·.2)) (w o).toNat t len))
    let side (j i : Nat) : Smp := if j < r.m then x j i else satSmp (Config.beyond r.m j) 0
    ({ m with taps := taps }, taps.map (fun p => block (fun i =>
      sumSmp ((p.2.sides (t + i) len).map (fun q => (q.1, side q.2 i))))))
  | _ =>
    let ws := (List.range (r.plen / 4)).map w
    let vs := xs.map (fun b => b.map (·.v))
    ({ m with inner := Config.blockNext r.typ r.arg ws vs m.inner }, (List.range r.n).map (fun o => block (fun i =>
      satSmp (Config.blockOut r.typ r.arg ws vs m.inner o i) (match tagInput r o with
        | some j => (x j i).tag
        | none => 0))))

/-- The records of a list run in program order on the buffers (R143, R144): what they keep, the buffers and the tap
channels after them. A BYPASS record copies its inputs. -/
def runRecs (e : EngPlan) (t : Nat) : Nat → List ProgRec → List RecMem → Bufs → Bufs → List RecMem × Bufs × Bufs
  | _, [], _, bufs, taps => ([], bufs, taps)
  | i, r :: rs, ms, bufs, taps =>
    let m := ms.headD RecMem.reset
    let xs := r.ins.map (bufAt bufs)
    let irs := (e.irs.filter (fun q => q.1 == i)).map (·.2)
    let (m1, ys) := if r.bypass then (m, xs) else recOut r (e.word r) irs xs m t
    let bufs1 := (r.outs.zip ys).foldl (fun b p => putKey b p.1 p.2) bufs
    let taps1 := if r.typ = 0x1D ∧ r.bypass = false then
      (xs.mapIdx (fun j b => ((e.word r 0).toNat + j, b))).foldl (fun b p => putKey b p.1 p.2) taps else taps
    let (ms2, bufs2, taps2) := runRecs e t (i + 1) rs (ms.drop 1) bufs1 taps1
    (m1 :: ms2, bufs2, taps2)

/-! ### CONCEAL (R216) -/

def ConcX.reset : ConcX := ⟨[], [], 32, none, 0⟩

/-- The sum of products of two runs of samples. -/
def corr : List Word → List Word → Int
  | a :: as, b :: bs => a.toInt * b.toInt + corr as bs
  | _, _ => 0

/-- The last 64 samples against the 64 samples P earlier: their correlation and the energy of the latter; no energy counts as
no correlation. -/
def lagScore (h : List Word) (p : Nat) : Int × Int :=
  let old := (h.drop p).take 64
  let e := corr old old
  if e = 0 then (0, 1) else (corr (h.take 64) old, e)

/-- One score is above another: the normalised correlations c/√e compared. -/
def scoreAbove (a b : Int × Int) : Bool := decide (b.1 * b.1.natAbs * a.2 < a.1 * a.1.natAbs * b.2)

/-- The lag of 32 to 448 with the largest normalised cross-correlation; of equal ones the smallest. -/
def bestLag (h : List Word) : Nat :=
  ((List.range 417).foldl (fun (b : Nat × (Int × Int)) i =>
    let sc := lagScore h (32 + i)
    if scoreAbove sc b.2 then (32 + i, sc) else b) (32, lagScore h 32)).1

/-- Sample r of a concealment run. -/
def ConcX.made (x : ConcX) (r : Nat) : Frac :=
  let v := Frac.ofInt (x.base.getD (x.lag - 1 - r % x.lag) 0).toInt
  if r < 64 then v else if r < 96 then v.mul (fall (r - 64) 32) else Frac.zero

/-- One sample through CONCEAL, none where it is missing. -/
def ConcX.step (x : ConcX) (s : Option Smp) : ConcX × Smp :=
  let keep (x : ConcX) (y : Smp) : ConcX × Smp := ({ x with hist := (y.v :: x.hist).take 512 }, y)
  match x.run, s with
  | none, some y => keep x y
  | none, none =>
    let x1 : ConcX := { x with base := x.hist, lag := bestLag x.hist, run := some 1, fade := 0 }
    keep x1 (requant (x1.made 0) tagC)
  | some r, none => keep { x with run := some (r + 1), fade := 0 } (requant (x.made r) tagC)
  | some r, some y =>
    let left := if x.fade = 0 then 16 else x.fade
    let w := rise (16 - left) 16
    let z := requant ((w.mul (Frac.ofInt y.int)).add ((Frac.one.sub w).mul (x.made r))) (y.tag ||| tagC)
    keep { x with run := if left = 1 then none else some (r + 1), fade := left - 1 } z

/-- The samples of a data block through CONCEAL. -/
def concealRun : List (Option Smp) → ConcX → ConcX × List Smp
  | [], x => (x, [])
  | s :: ss, x =>
    let (x1, y) := x.step s
    let (x2, ys) := concealRun ss x1
    (x2, y :: ys)

end Sys2Proof.Machine
end

