-- ==== Sys2Proof/Machine/DataPath.lean ====
section
/-!
DEFINITION. The samples of a data block on their way through H (R31, R34): the front end's FIR, the lane input stage, the
clusters, the mix buses and the sink stage, with the tags of each sample. COMMIT_POINT moves them a stage on.
-/
namespace Sys2Proof.Machine

/-! ### The front end's FIR (R62 to R66, R70, R74, R78) -/

/-- The N coefficients of a bank: the first half mirrored (R66). -/
def State.firTaps (s : State) (c : Nat) (bank : Bool) : List Word :=
  let h := (List.range (2 * s.quarterN c)).map (s.coef c bank)
  h ++ h.reverse

/-- Coefficients on a history, newest word first. -/
def dotWords : List Word → List Word → Int
  | h :: hs, x :: xs => h.toInt * x.toInt + dotWords hs xs
  | _, _ => 0

/-- The tag of sample t of a front-end channel: U while its chain fills, U and O from the start of an overload on, O
where the chain saturated (R74, R77, R78). -/
def State.feTag (s : State) (c t : Nat) : Tag :=
  let x := s.chan c
  let fills (a : Nat) : Bool := decide (a ≤ t ∧ t < a + s.uSamples c)
  let u := fills x.resetAt || fills x.resetWas
  let o := match x.ovlAt with
    | some a => decide (a ≤ t) && (u || s.on (R.AFE_IN_STS c) F.AFE_IN_STS_OVL_NOW)
    | none => false
  (if u || o then tagU else 0) ||| (if o || x.sats.contains t then tagO else 0)

/-- The fade of a channel's banks at sample t: its block, its length and the bank faded to; one that the failure of a bank
has cut runs up to the sample of the error (R471). -/
def State.fadeAtSample (s : State) (c t : Nat) : Option (Nat × Nat × Bool) :=
  let x := s.chan c
  let now := if s.fading c then some (x.fadeAt, x.fadeLen, s.activeBank c) else none
  match x.fadeWas with
  | some (e, a, n, b) => if t < e then some (a, n, b) else now
  | none => now

/-- Sample t of a channel from its history; `a` and `b` are the coefficients of its banks (R66, R70, R471). -/
def State.feSample (s : State) (c : Nat) (a b : List Word) (t : Nat) (hist : List Word) : Smp :=
  let y (bank : Bool) : Frac := ⟨dotWords (if bank then b else a) hist, 2 ^ 30⟩
  let v := match s.fadeAtSample c t with
    | some (k, n, bank) =>
      let i := t - 16 * k
      if i < n then ((rise i n).mul (y bank)).add ((fall i n).mul (y (!bank))) else y bank
    | none => y (s.activeBank c)
  let kind := ((s.chan c).kinds.find? (fun p => decide (p.1 ≤ t))).map (·.2)
  match kind with
  | some 1 => ⟨0, tagU⟩
  | some 2 => ⟨0, tagO⟩
  | _ => requant v (s.feTag c t)

/-- The samples from t on, four words of the FIR's input each, and the history after them; a chain reset empties it. -/
def State.feRun (s : State) (c : Nat) (a b : List Word) : Nat → Nat → List Word → List Word → List Smp × List Word
  | 0, _, _, hist => ([], hist)
  | n + 1, t, xs, hist =>
    let h := ((xs.take 4).reverse ++ (if t = (s.chan c).resetAt ∨ t = (s.chan c).resetWas then [] else hist)).take 512
    let (ys, h2) := s.feRun c a b n (t + 1) (xs.drop 4) h
    (s.feSample c a b t h :: ys, h2)

/-- What a channel delivers for data block d (R59, R76, R471), and its history. -/
def State.feBlockOf (s : State) (c d : Nat) (xs : List Word) : List Smp × List Word :=
  let run := s.feRun c (s.firTaps c false) (s.firTaps c true) 16 (16 * d) xs (s.chan c).hist
  if s.chanOn c && (s.chan c).released then run else (zeroBlock tagU, run.2)

/-! ### Generators (R470) -/

/-- The waveform of a setting at unit level: phase in 1/1,536,000 of a cycle, samples drawn of its sequence. -/
def genWave (g : GenSet) (phase drawn : Nat) : Frac :=
  match g.kind with
  | 1 =>
    let p := Config.sine (phase % 1536000)
    ⟨qMax * p.1, p.1.natAbs + p.2 + (if p.1 = 0 then 1 else 0)⟩
  | 2 => Frac.ofInt (Config.noise false (BitVec.ofNat 32 g.seed) drawn)
  | 3 => Frac.ofInt (Config.noise true (BitVec.ofNat 32 g.seed) drawn)
  | _ => Frac.zero

/-- The amplitude of a level in Q23.8 dB. -/
def genAmp (g : GenSet) : Frac := ampDb (sgn 32 g.level) 256

/-- A generator before anything is known of it: silence. -/
def GenSig.reset : GenSig := ⟨⟨0, 0, 0, 0⟩, 0, 0, [], none, 0, 0⟩

/-- What data block d finds of a generator: a change of kind begins a fade, a change of level a ramp, a restart its
sequence. -/
def State.genBegin (s : State) (g d : Nat) (y : GenSig) : GenSig :=
  let x := s.gen g
  let n := x.now
  let drawn := if x.restart = d then 0 else y.drawn
  if n.kind ≠ y.set.kind then
    { set := n, phase := Config.startPhase g d, drawn := drawn, amp := [⟨16 * d, 0, genAmp n, genAmp n, false⟩]
      old := some (y.set, y.phase, y.drawn, rampAt Frac.zero y.amp (16 * d)), at_ := 16 * d, len := 16 * (x.fadeEnd - d) }
  else if n.level ≠ y.set.level then
    { y with set := n, drawn := drawn, amp := rampTo Frac.zero y.amp (16 * d) (16 * s.gainRamp) (genAmp n) false }
  else { y with set := n, drawn := drawn }

/-- Sample i of the data block. -/
def GenSig.sample (y : GenSig) (d i : Nat) : Smp :=
  let t := 16 * d + i
  let new := (rampAt Frac.zero y.amp t).mul (genWave y.set (y.phase + i * y.set.freq) (y.drawn + i))
  let v := match y.old with
    | some (o, ph, dr, a) =>
      if t < y.at_ + y.len then
        ((rise (t - y.at_) y.len).mul new).add ((fall (t - y.at_) y.len).mul (a.mul (genWave o (ph + i * o.freq) (dr + i))))
      else new
    | none => new
  { requant v 0 with tag := 0 }

/-- The generator after the data block. -/
def GenSig.after (y : GenSig) : GenSig :=
  { y with
    phase := (y.phase + 16 * y.set.freq) % 1536000, drawn := y.drawn + 16
    old := y.old.map (fun p => (p.1, (p.2.1 + 16 * p.1.freq) % 1536000, p.2.2.1 + 16, p.2.2.2)) }

/-! ### Sources (R107, R183 to R185, R342) -/

/-- The samples of a synchronous listener channel at the source multiplexer: a missing one is a zero tagged C (R185). -/
def State.heardBlock (s : State) (st c d : Nat) : List Smp :=
  let held := s.heldMask st d
  let x := s.net.ls.getD st ⟨0, none, false, [], []⟩
  (List.range 16).map (fun i =>
    if held.testBit i then ⟨(lookupKey [] x.vals (16 * d + i)).getD c 0, 0⟩ else ⟨0, tagC⟩)

/-- The samples of a playback channel (R342). -/
def State.playBlock (s : State) (c d : Nat) : List Smp :=
  match [10, 11, 12, 13].find? (fun r =>
      decide (s.chanFirst r ≤ c ∧ c < s.chanFirst r + s.chanCount r) && (s.ringX r).played == some d) with
  | some r => (List.range 16).map (fun i => ⟨(s.ringX r).playing.getD (s.chanCount r * i + (c - s.chanFirst r)) 0, 0⟩)
  | none => zeroBlock tagU

/-- The samples of a source for data block d: `fe` and `gens` hold the blocks of front-end channels and generators, `m` those
of serial ports and rate converters, which deliver zeros tagged U until they are locked (R93, R100). -/
def State.sourceBlock (s : State) (m : BlockInputs) (fe gens : Bufs) (d src : Nat) : List Smp :=
  let given := lookupKey (zeroBlock tagU) m.sources src
  if src < 0x10 then lookupKey (zeroBlock tagU) fe src
  else
    match sapOf src with
    | some p => if s.on (R.SAP_STS p) F.SAP_STS_LOCK then given else zeroBlock tagU
    | none =>
      match listenerOf src with
      | some st =>
        let c := (src - 0x80) % 8
        let v := s.rd (R.NET_LS_CFG st)
        if v.fld F.NET_LS_CFG_EN = 0 ∨ chansOf v ≤ c then zeroBlock tagU
        else if s.listenerConverts st then (if s.mp.lsLocked.contains st then given else zeroBlock tagU)
        else s.heardBlock st c d
      | none =>
        if 0x100 ≤ src ∧ src < 0x140 then s.playBlock (src - 0x100) d
        else if 0x160 ≤ src ∧ src < 0x170 then bufAt gens (src - 0x160)
        else zeroBlock 0

/-! ### Amplitudes of gains, trims and volumes (R125, R126) -/

/-- The registers with a gain code in bits 11 to 0. -/
def ampReg (a : Nat) : Bool :=
  decide (0xA200 ≤ a ∧ a < 0xA400) || decide (0xA800 ≤ a ∧ a < 0xAD00) || decide (0xB000 ≤ a ∧ a < 0xB800)

/-- The code at reset: −∞ of a bus input, else 0 dB. -/
def ampBase (a : Nat) : Nat := if 0xB000 ≤ a then 0x800 else 0

/-- The amplitude that a register gives at data sample t. -/
def ampAt (l : List (Nat × Nat × List Ramp)) (a t : Nat) : Frac :=
  rampAt (ampCode (ampBase a)) (lookupKey (ampBase a, []) l a).2 t

/-- A register as data block d finds it: a new code ramps from the present amplitude. -/
def State.ampSeen (s : State) (d : Nat) (l : List (Nat × Nat × List Ramp)) (a : Nat) : List (Nat × Nat × List Ramp) :=
  let x := lookupKey (ampBase a, []) l a
  let code := (s.rd a).toNat % 2 ^ 12
  if x.1 = code then l
  else putKey l a (code, rampTo (ampCode (ampBase a)) x.2 (16 * d) (16 * s.gainRamp) (ampCode code) false)

/-- Every such register that differs, or has differed, from its reset value. -/
def State.ampAll (s : State) (d : Nat) : List (Nat × Nat × List Ramp) :=
  let l := s.sig.amps
  ((s.regs.map (·.1)).filter ampReg ++ l.map (·.1)).foldl (s.ampSeen d) l

/-! ### Ballast (R118) -/

/-- The scale for a setting and n active inputs. -/
def scaleExact (mode n : Nat) : Frac :=
  if n ≤ 1 then Frac.one
  else
    match mode with
    | 1 => ⟨1, n⟩
    | 2 =>
      let q := n.sqrt
      if q * q = n then ⟨1, q⟩ else unitOf (Config.rootInv n)
    | _ => Frac.one

/-- The scales of the buses as data block d finds them; a bus at the DEGRADED level starts again at 1 (R370). -/
def State.scaleSeen (s : State) (d : Nat) (l : List (Nat × (Nat × Nat) × List Ramp)) (b : Nat) :
    List (Nat × (Nat × Nat) × List Ramp) :=
  let x := lookupKey ((0, 0), []) l b
  let now := (s.fld (R.MIX_BUS_CFG b) F.MIX_BUS_CFG_BALLAST, s.fld (R.MIX_BUS_STS b) F.MIX_BUS_STS_N)
  if s.err.stages.any (fun p => match p.1 with
      | .bus j => j.val == b
      | _ => false) then putKey l b (now, [])
  else if x.1 = now then l
  else putKey l b (now, rampTo Frac.one x.2 (16 * d) 1920 (scaleExact now.1 now.2) true)

/-! ### Stages at the DEGRADED level (R370) -/

/-- The gain of a stage at its own moment u: none while it is down. -/
def stageGain (log : List (Stg × Nat × Bool)) (g : Stg) (u : Nat) : Option Frac :=
  match log.find? (fun p => p.1 == g && decide (p.2.1 ≤ u)) with
  | none => some Frac.one
  | some (_, _, false) => none
  | some (_, m, true) => if u < m + 64 then some (rise (u - m) 64) else some Frac.one

/-- A sample behind a stage: zero tagged C while it is down. -/
def stageSmp (g : Option Frac) (x : Smp) : Smp :=
  match g with
  | none => ⟨0, tagC⟩
  | some w => if w = Frac.one then x else requant (w.mul (Frac.ofInt x.int)) x.tag

/-! ### Route multiplexers (R128, R130) -/

/-- The weights of the new and the old selection of a multiplexer at data sample t. -/
def RouteX.weights (x : RouteX) (t : Nat) : Frac × Frac :=
  let i := t - 16 * x.fadeAt
  match x.split with
  | .none => if i < x.fadeLen then (rise i x.fadeLen, fall i x.fadeLen) else (Frac.one, Frac.zero)
  | .out => if i < x.fadeLen then (Frac.zero, fall i x.fadeLen) else (Frac.zero, Frac.zero)
  | .fill => (Frac.zero, Frac.zero)
  | .wait => (Frac.one, Frac.zero)
  | .fadeIn => if i < x.fadeLen then (rise i x.fadeLen, Frac.zero) else (Frac.one, Frac.zero)

/-- One side of a lane: its source, trimmed, with its polarity (R110). -/
def laneSide (trim : Frac) (r : Route) (x : Smp) : Smp :=
  let y := requant (trim.mul (Frac.ofInt x.int)) x.tag
  if r.pol then satSmp (-y.int) y.tag else y

/-- A cross-fade of two sides: the tags of each side whose weight is above zero (R128). -/
def crossSmp (w : Frac × Frac) (new old : Smp) : Smp :=
  { sumSmp [(w.1, new), (w.2, old)] with
    tag := (if w.1.num = 0 then 0 else new.tag) ||| (if w.2.num = 0 then 0 else old.tag) }

/-- A lane for data block d from its sources, and whether its trim saturated (R110, R115, R128, R370). -/
def State.laneBlock (s : State) (amps : List (Nat × Nat × List Ramp)) (srcs : Bufs) (l d : Nat) (x : RouteX) :
    List Smp × Bool :=
  let off : Smp := ⟨0, 0⟩
  let run := (List.range 16).map (fun i =>
    let t := 16 * d + i
    let trim := ampAt amps (R.MP_LANE_TRIM l) t
    let side (r : Route) : Smp := if r.en then laneSide trim r (smpAt (bufAt srcs r.sel) i) else off
    let ovr (w : Frac) (r : Route) : Bool :=
      w.num != 0 && r.en && saturates (trim.mul (Frac.ofInt (smpAt (bufAt srcs r.sel) i).int))
    let w := x.weights t
    (stageSmp (stageGain s.err.stageLog (.lane (Fin.ofNat 128 l)) t) (crossSmp w (side x.cur) (side x.old)),
      ovr w.1 x.cur || ovr w.2 x.old))
  (run.map (·.1), run.any (·.2))

/-! ### The plan of a data block -/

/-- Engine n as data block d finds it. -/
def State.engPlan (s : State) (n : Nat) : EngPlan :=
  let x := s.engX n
  { mode := s.fld (R.ENG_STS n) F.ENG_STS_MODE_ACT, ahead := s.rendersAhead n, down := s.on (R.ENG_STS n) F.ENG_STS_DOWN
    phase := s.engPhase n, swap := x.swap, since := s.getPair (R.ENG_PROG_BLK_LO n) (R.ENG_PROG_BLK_HI n)
    prog := x.running, params := x.params, irs := x.irs }

/-- The routes of lanes. -/
def laneRoutes (l : List (Mux × RouteX)) : List (Nat × RouteX) :=
  l.filterMap (fun p => match p.1 with
    | .lane i => some (i, p.2)
    | _ => none)

/-- The sources that lanes take or fade from. -/
def sourcesOf (l : List (Nat × RouteX)) : List Nat :=
  (l.flatMap (fun p => [p.2.cur, p.2.old].filter (·.en) |>.map (·.sel))).eraseDups

/-- The channels of the front end whose FIR has taken words: the blocks they deliver. -/
def State.feBlocks (s : State) (d : Nat) (l : List (Nat × List Word)) : Bufs :=
  l.map (fun p => (p.1, (s.feBlockOf p.1 d p.2).1))

/-- Their histories after the data block. -/
def State.feKeep (d : Nat) : List (Nat × List Word) → State → State
  | [], s => s
  | (c, xs) :: rest, s =>
    let h := (s.feBlockOf c d xs).2
    State.feKeep d rest (s.modChan c (fun x => { x with hist := h }))

/-- A status bit of the registers of a list is set. -/
def State.setAny (f : Fld) : List Nat → State → State
  | [], s => s
  | a :: as, s => State.setAny f as (s.setF a f 1)

/-- A sample that the multiplexer of a lane selects on data block d carries C. -/
def RouteX.conceals (x : RouteX) (srcs : Bufs) (d : Nat) : Bool :=
  (List.range 16).any (fun i =>
    let w := x.weights (16 * d + i)
    let side (w : Frac) (r : Route) : Bool := w.num != 0 && r.en && (smpAt (bufAt srcs r.sel) i).tag &&& tagC != 0
    side w.1 x.cur || side w.2 x.old)

/-- The members of group slots among the lanes of clusters that do not render ahead. -/
def State.liveMembers (s : State) : List Nat :=
  (List.range 128).filter (fun l => s.on (R.ARR_LANE_AG l) F.ARR_LANE_AG_EN && !s.rendersAhead (l / 16))

/-- The data block of each live member counts as concealed or clean at its source multiplexer (R235); a lane that has never
been routed takes zeros and is clean. -/
def State.muxRuns (lanes : List (Nat × RouteX)) (srcs : Bufs) (d : Nat) : List Nat → State → State
  | [], s => s
  | l :: ls, s =>
    State.muxRuns lanes srcs d ls (s.laneRun l (match lanes.find? (fun p => p.1 == l) with
      | some p => p.2.conceals srcs d
      | none => false))

/-- The lane input stage has taken data block d, which has just ended (R31, R34): every setting is still the one that governs
it. Lanes of clusters that render ahead take their samples when their data block is handed over. -/
def State.laneStage (s : State) (m : BlockInputs) (d : Nat) : State :=
  let lanes := laneRoutes s.mp.routes
  let gens := (s.mp.gens.map (·.1)).map (fun g => (g, s.genBegin g d (lookupKey GenSig.reset s.sig.gens g)))
  let genOut := gens.map (fun p => (p.1, (List.range 16).map (p.2.sample d)))
  let fe := s.feBlocks d m.chains
  let srcs := (sourcesOf lanes).map (fun i => (i, s.sourceBlock m fe genOut d i))
  let amps := s.ampAll d
  let here := lanes.filter (fun p => !s.rendersAhead (p.1 / 16))
  let out := here.map (fun p => (p.1, s.laneBlock amps srcs p.1 d p.2))
  let plan : Plan :=
    { k := d, routes := s.mp.routes.map (fun p => (p.1, { p.2 with queued := none })), engs := (List.range 8).map s.engPlan
      dyn := (List.range 22).map (fun k => (s.rd (R.MP_COMP k), s.rd (R.MP_LIM k))), srcs := srcs
      lanes := out.map (fun p => (p.1, p.2.1)) }
  let scales := ((s.mp.ballast.map (·.1)) ++ s.sig.scales.map (·.1)).foldl (s.scaleSeen d) s.sig.scales
  let s := s.modSig (fun x => { x with
    amps := amps, scales := scales, gens := gens.map (fun p => (p.1, p.2.after)), plans := plan :: x.plans.take 2 })
  let s := State.feKeep d m.chains (State.setAny F.MP_LANE_STS_OVR ((out.filter (·.2.2)).map (fun p => R.MP_LANE_STS p.1)) s)
  State.muxRuns lanes srcs d s.liveMembers s

/-! ### The clusters (R116, R143, R152, R167, R216, R233, R236, R368) -/

/-- The last samples that a cluster delivered, faded to zero over 16 samples; their tags stay. -/
def holdFade (last : List Smp) : List (List Smp) :=
  (List.range 16).map (fun j =>
    let x := smpAt last j
    (List.range 16).map (fun i => requant ((fall i 16).mul (Frac.ofInt x.int)) x.tag))

/-- Blocks weighted sample by sample; tags stay. -/
def weighted (w : Nat → Frac) (bs : List (List Smp)) : List (List Smp) :=
  bs.map (fun b => b.mapIdx (fun i x => requant ((w i).mul (Frac.ofInt x.int)) x.tag))

/-- The fades of the swap sequence on data block d (R152). -/
def EngPlan.faded (e : EngPlan) (d : Nat) (bs : List (List Smp)) : List (List Smp) :=
  match e.phase, e.swap with
  | 1, some w => if w.k ≤ d then weighted (fun i => fall (16 * (d - w.k) + i) (16 * w.f)) bs else bs
  | 3, some w => weighted (fun i => rise (16 * (d - (w.k + w.f + 1)) + i) (16 * w.f)) bs
  | _, _ => bs

/-- The gain of a lane by the mutes of its group slot (R236). -/
def groupGain (l : List (Nat × Nat × Bool)) (g t : Nat) : Frac :=
  rampAt Frac.one (((l.filter (fun p => p.1 == g)).reverse).foldl (fun rs p =>
    rampTo Frac.one rs (16 * p.2.1) 64 (if p.2.2 then Frac.zero else Frac.one) false) []) t

/-- A lane of a cluster as it is handed to the mix buses. -/
def State.groupLane (s : State) (l d : Nat) (b : List Smp) : List Smp :=
  let g := s.fld (R.ARR_LANE_AG l) F.ARR_LANE_AG_SLOT
  if s.on (R.ARR_LANE_AG l) F.ARR_LANE_AG_EN && s.eng.mutes.any (fun p => p.1 == g) then
    b.mapIdx (fun i x => requant ((groupGain s.eng.mutes g (16 * d + i)).mul (Frac.ofInt x.int)) x.tag)
  else b

/-- What the clusters have done with a data block: what they keep, and the lanes that go to the mix buses. -/
structure ClusterOut where
  sig : SigX
  lanes : Bufs
  ovr : List Nat

/-- The lanes of a cluster that renders ahead, from the samples that it was rendered from (R215, R216, R218). -/
def State.aheadLanes (s : State) (p : Plan) (n : Nat) : List Nat → ClusterOut → ClusterOut
  | [], x => x
  | j :: js, x =>
    let l := 16 * n + j
    let x1 := match (laneRoutes p.routes).find? (fun q => q.1 == l) with
      | none => x
      | some (_, r) =>
        let heard := match (s.engX n).given.find? (fun q => q.1 == p.k) with
          | some q => q.2.getD j []
          | none => s.heardOf l p.k
        let mine := heard.map (fun v => (⟨v.getD 0, 0⟩ : Smp))
        let srcs := if heard.isEmpty then p.srcs else putKey p.srcs r.cur.sel mine
        let (b, ov) := s.laneBlock x.sig.amps srcs l p.k r
        let (c, b1) := concealRun (b.mapIdx (fun i y => if (heard.getD i (some 0)).isNone then none else some y))
          (lookupKey ConcX.reset x.sig.concs l)
        { sig := { x.sig with concs := putKey x.sig.concs l c }, lanes := putKey x.lanes l b1
          ovr := if ov then l :: x.ovr else x.ovr }
    State.aheadLanes s p n js x1

/-- Cluster n on data block p.k: its records, its fades, and what it delivers where it is down or missed its deadline. -/
def State.clusterStep (s : State) (p : Plan) (x : ClusterOut) (n : Nat) : ClusterOut :=
  let e := p.engs.getD n ⟨1, false, false, 0, none, 0, none, [], []⟩
  let x := if e.ahead then s.aheadLanes p n (List.range 16) x else x
  let d := p.k
  let lost := (s.err.lost.getD n none)
  let stop := (s.engX n).breaks.find? (fun q => decide (q.1 ≤ d ∧ d ≤ q.2))
  let busy := (List.range 16).any (fun j => x.lanes.any (fun q => q.1 == 16 * n + j)) || e.mode == 2 || e.down || lost.isSome
    || stop.isSome || x.sig.lasts.any (fun q => q.1 == n)
  if !busy then x
  else
    let ins := (List.range 16).map (fun j => bufAt x.lanes (16 * n + j))
    let last := lookupKey [] x.sig.lasts n
    let recs := (e.prog.map (·.recs)).getD []
    let old := match lookupKey (0, []) x.sig.mems n with
      | (k, ms) => if k = e.since then ms else []
    let renders := e.mode == 2 && e.phase != 2 && !e.down
    let (ms, bufs, taps) := if renders then runRecs e (16 * d) 0 recs old (ins.mapIdx (fun j b => (j, b))) x.sig.taps
      else (old, ins.mapIdx (fun j b => (j, b)), x.sig.taps)
    let zero (t : Tag) : List (List Smp) := List.replicate 16 (zeroBlock t)
    let gone := e.down || lost.any (fun k => decide (k < d))
    let whole := !gone && lost != some d && stop.isNone
    let out :=
      if gone then zero tagC
      else if lost = some d then holdFade last
      else
        match stop with
        | some q => if d = q.1 then holdFade last else zero tagC
        | none =>
          if e.mode = 0 ∨ e.phase = 2 then zero 0
          else
            let ys := e.faded d ((List.range 16).map (bufAt bufs))
            if (s.engX n).breaks.any (fun q => q.2 + 1 == d) then weighted (fun i => rise i 16) ys else ys
    let ran := Config.recordsRun n d % (recs.length + 1)
    let kept := if !renders || gone then old
      else if whole then ms
      else ms.take ran ++ old.drop ran
    { x with
      lanes := (out.mapIdx (fun j b => (16 * n + j, s.groupLane (16 * n + j) d b))).foldl (fun l q => putKey l q.1 q.2) x.lanes
      sig := { x.sig with
        lasts := putKey x.sig.lasts n (out.map (fun b => smpAt b 15)), mems := putKey x.sig.mems n (e.since, kept)
        taps := if whole then taps else x.sig.taps } }

/-! ### The mix buses (R117, R119) -/

/-- The inputs of a bus that have been routed. -/
def inputRoutes (b : Nat) (l : List (Mux × RouteX)) : List (Nat × RouteX) :=
  l.filterMap (fun p => match p.1 with
    | .input c i => if c = b then some (i, p.2) else none
    | _ => none)

/-- The terms of a bus at sample i of data block d: each enabled side of an input with its gain and route weight. -/
def busTerms (amps : List (Nat × Nat × List Ramp)) (lanes : Bufs) (b d i : Nat) (ins : List (Nat × RouteX)) :
    List (Frac × Smp) :=
  ins.flatMap (fun p =>
    let t := 16 * d + i
    let g := ampAt amps (R.MIX_GAIN b p.1) t
    let w := p.2.weights t
    let side (w : Frac) (r : Route) : List (Frac × Smp) :=
      if r.en && w.num != 0 then [(g.mul w, smpAt (bufAt lanes r.sel) i)] else []
    side w.1 p.2.cur ++ side w.2 p.2.old)

/-- A bus on data block d, and whether a sample saturated. -/
def State.busBlock (s : State) (p : Plan) (sig : SigX) (lanes : Bufs) (b : Nat) : List Smp × Bool :=
  let ins := inputRoutes b p.routes
  let run := (List.range 16).map (fun i =>
    let t := 16 * p.k + i
    let terms := busTerms sig.amps lanes b p.k i ins
    let v := (sumExact terms).mul (rampAt Frac.one (lookupKey ((0, 0), []) sig.scales b).2 t)
    (stageSmp (stageGain s.err.stageLog (.bus (Fin.ofNat 16 b)) (t + 32)) (requant v (sumTag terms)), saturates v))
  (run.map (·.1), run.any (·.2))

/-! ### The sink stage (R120 to R125, R131, R132, R136, R250, R371) -/

/-- The signal that a sink takes: a bus, or a lane (R120). -/
def sinkInput (buses lanes : Bufs) (r : Route) : List Smp := if r.sel < 128 then bufAt buses r.sel else bufAt lanes (r.sel - 128)

/-- The selection of a sink for the data block, through its route fade. -/
def sinkBlock (p : Plan) (buses lanes : Bufs) (id : Nat) : List Smp :=
  let x := lookupKey ⟨⟨0, false, false⟩, ⟨0, false, false⟩, 0, 0, 0, .none, none⟩ p.routes (.sink id)
  (List.range 16).map (fun i => crossSmp (x.weights (16 * p.k + i)) (smpAt (sinkInput buses lanes x.cur) i)
    (smpAt (sinkInput buses lanes x.old) i))

/-- The encodings of R122: ratio in hundredths, attack and release in 0.1 ms, knee in dB. -/
def ratioOf (c : Nat) : Nat := [100, 125, 150, 175, 200, 250, 300, 350, 400, 500, 600, 800, 1000, 1200, 1600, 2000].getD c 100

def attackOf (c : Nat) : Nat := [1, 2, 3, 5, 7, 10, 15, 20, 30, 50, 70, 100, 150, 200, 500, 1000].getD c 1

def releaseOf (c : Nat) : Nat :=
  [100, 200, 300, 500, 700, 1000, 1500, 2000, 3000, 5000, 7000, 10000, 12000, 15000, 18000, 20000].getD c 100

def kneeOf (c : Nat) : Nat := [0, 3, 6, 12].getD c 0

/-- The gain reduction in dB that the static curve asks for at a level above the threshold by `ovr` dB (R122). -/
def staticGr (ovr : Frac) (ratio knee : Nat) : Frac :=
  let share : Frac := ⟨(ratio : Int) - 100, ratio⟩
  let half : Frac := ⟨knee, 2⟩
  if ovr.le half.neg then Frac.zero
  else if half.le ovr then share.mul ovr
  else
    let a := ovr.add half
    (share.mul (a.mul a)).mul ⟨1, 2 * knee⟩

/-- The compressor's word and the magnitude of a level: the gain reduction after one sample (R122). -/
def compStep (v : Word) (mag : Nat) (gr : Frac) : Frac :=
  let thr : Frac := ⟨-(min 120 (v.fld F.MP_COMP_THR) : Nat), 2⟩
  let want := if mag = 0 then Frac.zero
    else staticGr ((Config.level mag).sub thr) (ratioOf (v.fld F.MP_COMP_RATIO)) (kneeOf (v.fld F.MP_COMP_KNEE))
  let tau := if gr.le want then attackOf (v.fld F.MP_COMP_ATTACK) else releaseOf (v.fld F.MP_COMP_RELEASE)
  gr.add ((unitOf (Config.pole tau)).mul (want.sub gr))

/-- The compressor's gain with its makeup (R122). -/
def compGain (v : Word) (gr : Frac) : Frac :=
  let g := (⟨(min 48 (v.fld F.MP_COMP_MAKEUP) : Nat), 2⟩ : Frac).sub gr
  ampDb g.num g.den

/-- The look-ahead in samples. -/
def lookOf (v : Word) : Nat := min 192 (v.fld F.MP_LIM_LOOKAHEAD)

/-- The ceiling of the limiter in units of 2^−31 (R123). -/
def ceiling (v : Word) : Frac := (ampDb (-(min 60 (v.fld F.MP_LIM_THR) : Nat)) 2).mul ⟨2 ^ 31, 1⟩

/-- The gain that the limiter computes for the sample at the end of its line: an open value above 0 and at most 1 that keeps
the sample at or below the ceiling (R123). -/
def limGain (v : Word) (line : List Smp) (last : Frac) : Frac :=
  let la := lookOf v
  let mags := (line.take (la + 1)).map (fun x => x.int.natAbs)
  let g := shareOf (Config.limGain (v.fld F.MP_LIM_RELEASE) la (ceiling v) mags last)
  let m := mags.getD la 0
  if la = 0 ∨ (g.mul ⟨m, 1⟩).le (ceiling v) = true then g else (ceiling v).mul ⟨1, m⟩

/-- The delayed sample through the limiter; with no look-ahead a sample above the ceiling is clamped to it, carries O, and
counts as clipped (R123). -/
def limSmp (v : Word) (x : Smp) (g : Frac) : Smp × Bool :=
  if v.fld F.MP_LIM_EN = 0 then (x, false)
  else
    let m : Frac := ⟨x.int.natAbs, 1⟩
    if lookOf v = 0 ∧ m.le (ceiling v) = false then
      (requant (if x.int < 0 then (ceiling v).neg else ceiling v) (x.tag ||| tagO), true)
    else (requant (g.mul (Frac.ofInt x.int)) x.tag, false)

def DynX.reset : DynX := ⟨Frac.zero, Frac.one, []⟩

/-- One sample of two neighbouring output sinks through compressor and limiter (R122 to R124): linked, they share the larger
level and the smaller gain. -/
def dynStep (va vb : Word × Word) (a b : DynX) (x y : Smp) : (DynX × Smp × Bool) × (DynX × Smp × Bool) :=
  let level (v : Word × Word) (own other : Smp) : Nat :=
    if v.1.fld F.MP_COMP_LINK = 1 then max own.int.natAbs other.int.natAbs else own.int.natAbs
  let comp (v : Word × Word) (q : DynX) (own other : Smp) : Frac × Smp :=
    if v.1.fld F.MP_COMP_EN = 1 then
      let gr := compStep v.1 (level v own other) q.comp
      (gr, requant ((compGain v.1 gr).mul (Frac.ofInt own.int)) own.tag)
    else (Frac.zero, own)
  let ca := comp va a x y
  let cb := comp vb b y x
  let la := (ca.2 :: a.line).take 193
  let lb := (cb.2 :: b.line).take 193
  let gain (v : Word × Word) (l : List Smp) (q : DynX) : Frac :=
    if v.2.fld F.MP_LIM_EN = 1 then limGain v.2 l q.lim else Frac.one
  let ga := gain va la a
  let gb := gain vb lb b
  let low (v : Word × Word) (own other : Frac) : Frac := if v.2.fld F.MP_LIM_LINK = 1 ∧ other.le own = true then other else own
  let fa := low va ga gb
  let fb := low vb gb ga
  ((⟨ca.1, fa, la⟩, limSmp va.2 (smpAt la (lookOf va.2)) fa), (⟨cb.1, fb, lb⟩, limSmp vb.2 (smpAt lb (lookOf vb.2)) fb))

/-- The samples of two neighbouring output sinks: what they keep, their samples, and whether one was clipped. -/
def dynRun (va vb : Word × Word) : List (Smp × Smp) → DynX × DynX → (DynX × DynX) × List ((Smp × Bool) × (Smp × Bool))
  | [], q => (q, [])
  | (x, y) :: rest, (a, b) =>
    let r := dynStep va vb a b x y
    let (q, out) := dynRun va vb rest (r.1.1, r.2.1)
    (q, (r.1.2, r.2.2) :: out)

/-- A sink behind its volume, the power limit, its start and stop, QUIET and the mutes; at zero gain it is a zero sample. -/
def State.sinkGain (s : State) (sig : SigX) (p : Plan) (id i : Nat) : Frac :=
  let t := 16 * p.k + i
  let gate := rampAt Frac.zero (s.sink id).gate t
  let vol := ampAt sig.amps (R.MP_SINK id) t
  let fades := (fadeGain sig.quiets id t).mul (fadeGain sig.mutes id t)
  let lim := if id < 8 then
    let a := ampDb (-(lookupKey 0 sig.limits id : Nat)) 60000
    let b := ampDb (-((s.outX id).gr : Nat)) 60000
    if a = b then b else rampAt a [⟨16 * p.k, 16, a, b, true⟩] t
    else Frac.one
  ((gate.mul vol).mul fades).mul lim

/-- One sample of a sink at its end. -/
def State.sinkEnd (s : State) (sig : SigX) (p : Plan) (id i : Nat) (x : Smp) : Smp :=
  let g := s.sinkGain sig p id i
  let st := stageGain s.err.stageLog (.sink id) (16 * p.k + i + 32)
  stageSmp st (if g.num = 0 then ⟨0, 0⟩ else requant (g.mul (Frac.ofInt x.int)) x.tag)

/-- Where a mute begins (R371): with the first data block that a cluster lost, or at the first sample that a stage had not
processed; else with the next data block. -/
def State.muteFrom (s : State) (d id : Nat) : Nat :=
  let clusters := (List.range 8).filterMap (fun n => match s.err.lost.getD n none with
    | some k => if s.dependsCluster id n && decide (d < k) then some (16 * k) else none
    | none => none)
  let stages := s.err.stageLog.filterMap (fun q => if !q.2.2 && s.dependsStage id q.1 then some (q.2.1 - 32) else none)
  match clusters ++ stages.filter (fun t => decide (16 * d ≤ t)) with
  | [] => 16 * (d + 1)
  | t :: ts => ts.foldl min t

/-- The fades as the sink stage finds them on data block d. -/
def State.sinkFades (s : State) (d : Nat) (ids : List Nat) (x : SigX) : SigX :=
  { x with
    quiets := (ids.filter (· < 16)).foldl (fun l id => fadeGate l id (!s.mp.quietFade.contains id) (16 * (d + 1))) x.quiets
    mutes := (ids.filter (· < 22)).foldl (fun l id =>
      fadeGate l id (!s.err.muted.contains id) (if s.err.muted.contains id then s.muteFrom d id else 16 * (d + 1))) x.mutes }

/-- Output sinks by pairs through their dynamics; the others pass. -/
def State.dynPairs (p : Plan) (ins : Bufs) : List Nat → List (Nat × DynX) × Bufs × List Nat → List (Nat × DynX) × Bufs × List Nat
  | [], r => r
  | j :: js, (dyns, out, clip) =>
    let a := 2 * j
    let q := dynRun (p.dyn.getD a (0, 0)) (p.dyn.getD (a + 1) (0, 0)) ((bufAt ins a).zip (bufAt ins (a + 1)))
      (lookupKey DynX.reset dyns a, lookupKey DynX.reset dyns (a + 1))
    State.dynPairs p ins js
      (putKey (putKey dyns a q.1.1) (a + 1) q.1.2,
        (a, q.2.map (·.1.1)) :: (a + 1, q.2.map (·.2.1)) :: out,
        (if q.2.any (·.1.2) then [a] else []) ++ (if q.2.any (·.2.2) then [a + 1] else []) ++ clip)

/-- The words of a talker channel: 24 bits with convergent rounding, saturated (R187). -/
def talkerWord (x : Smp) : BitVec 24 :=
  BitVec.ofInt 24 (min (2 ^ 23 - 1) (max (-2 ^ 23) (Frac.mk x.int 256).round))

/-- What the enabled talkers carry of a data block: a sink that does not play sends zeros. -/
def State.talkerWords (s : State) (d : Nat) (sinks : Bufs) : List Output :=
  ((List.range 16).filter (fun st => s.on (R.NET_TK_CFG st) F.NET_TK_CFG_EN)).map (fun st =>
    .talkerWords st d ((List.range (chansOf (s.rd (R.NET_TK_CFG st)))).map (fun c =>
      (bufAt sinks (0x80 + 8 * st + c)).map talkerWord)))

/-- Each of a list is sent. -/
def State.emitAll : List Output → State → State
  | [], s => s
  | o :: os, s => State.emitAll os (s.emit o)

/-- The mix buses and the sink stage have streamed a data block (R31): its plan, with what the state holds at the end of its
last block. -/
def State.sinkStage (s : State) (p : Plan) : State :=
  let c := (List.range 8).foldl (s.clusterStep p) ⟨{ s.sig with taps := [] }, p.lanes, []⟩
  let ids := s.mp.sinks.map (·.1)
  let used := (ids.map (fun id => (lookupKey ⟨⟨0, false, false⟩, ⟨0, false, false⟩, 0, 0, 0, .none, none⟩ p.routes
    (.sink id)))).flatMap (fun x => [x.cur.sel, x.old.sel])
  let routed := p.routes.filterMap (fun q => match q.1 with
    | .input b _ => some b
    | _ => none)
  let buses := ((routed ++ used.filter (· < 16)).eraseDups).map (fun b => (b, s.busBlock p c.sig c.lanes b))
  let busOut := buses.map (fun q => (q.1, q.2.1))
  let ins := ids.map (fun id => (id, sinkBlock p busOut c.lanes id))
  let pairs := (List.range 11).filter (fun j => ids.any (fun id => id / 2 == j))
  let (dyns, dynOut, clip) := State.dynPairs p ins pairs (c.sig.dyns, [], [])
  let sig := s.sinkFades p.k ids c.sig
  let out := ids.map (fun id =>
    (id, (if id < 22 then bufAt dynOut id else bufAt ins id).mapIdx (fun i x => s.sinkEnd sig p id i x)))
  let limits := (ids.filter (· < 8)).map (fun id => (id, (s.outX id).gr))
  let ovr := c.ovr.map R.MP_LANE_STS
  let sat := (buses.filter (·.2.2)).map (fun q => R.MIX_BUS_STS q.1)
  let s1 := s.modSig (fun _ => { sig with dyns := dyns, limits := limits, doneK := p.k, sinks := out })
  let s2 := State.setAny F.MP_LANE_STS_OVR ovr (State.setAny F.MIX_BUS_STS_SAT sat (State.setAny F.MP_DYN_STS_CLIP
    (clip.map R.MP_DYN_STS) s1))
  let sent := if ids.isEmpty then [] else [.sinkBlock p.k (out.filter (fun q => decide (q.1 < 0x60)))]
  State.emitAll (sent ++ s.talkerWords p.k out) s2

/-- The samples at the boundary at which block k begins: data block k − 1 has passed the lane input stage, data block k − 3
the sink stage (R31). F filters on while H is down. -/
def State.dataPath (s : State) (k : Nat) (m : BlockInputs) : State :=
  if k = 0 then s
  else if s.power.hubUp = false then State.feKeep (k - 1) m.chains s
  else
    let s1 := s.laneStage m (k - 1)
    match s1.sig.plans.find? (fun p => p.k + 3 == k) with
    | some p => s1.sinkStage p
    | none => s1

/-- The tag-plane words and samples of a STR_OUT ring for data block k (R343): capture sinks, then TAP channels. -/
def State.strData (s : State) (k r : Nat) : List Byte :=
  let n := s.chanCount r
  let block (c : Nat) : List Smp :=
    if s.sig.doneK ≠ k then zeroBlock 0
    else if c < 64 then bufAt s.sig.sinks (0x100 + c) else bufAt s.sig.taps (c - 64)
  let chans := (List.range n).map (fun c => block (s.chanFirst r + c))
  chans.flatMap (fun b => leBytes 8 ((List.range 16).foldl (fun t i => t + 16 ^ i * (smpAt b i).tag.toNat) 0))
    ++ (List.range 16).flatMap (fun i => chans.flatMap (fun b => leBytes 4 (smpAt b i).v.toNat))

end Sys2Proof.Machine
end

