-- ==== Sys2Proof/Machine/Commit.lean ====
section
/-!
DEFINITION. The commit point (R33 to R39, R157): every staged change of the block takes effect together, and what the part
does at each block boundary.
-/
namespace Sys2Proof.Machine

/-! ### The changes of a block (R157, R346) -/

/-- Earlier blocks come first, then the order of R346 and R442. -/
def Staged.before (a b : Staged) : Bool := decide (a.eff < b.eff) || (a.eff == b.eff && decide (a.rank ≤ b.rank))

/-- Two changes belong to one released sequence. -/
def Staged.together (a b : Staged) : Bool := a.lock.isSome && a.lock == b.lock

/-- The words that a change copies into engine n, with the whole sequence that it belongs to. -/
def unitWords (due : List Staged) (c : Staged) (n : Nat) : Nat :=
  if c.lock.isSome then (due.filter c.together).foldl (fun t d => t + paramWords n d.act) 0 else paramWords n c.act

/-- The changes of a block as R157 parts them: words so far and engines whose limit is reached, the changes that take effect,
and the ones that move, with their engine. -/
structure Parted where
  used : List Nat
  shut : List Bool
  keep : List Staged
  move : List (Nat × Staged)

/-- The next change takes effect or moves; a released sequence goes one way as a whole (R39, R157). -/
def Parted.take (due : List Staged) (x : Parted) (c : Staged) : Parted :=
  match x.move.find? (fun p => c.together p.2) with
  | some p => { x with move := x.move ++ [(p.1, c)] }
  | none =>
    if x.keep.any c.together then { x with keep := x.keep ++ [c] }
    else
      let w := unitWords due c
      match (List.range 8).find? (fun n => w n != 0 && (x.shut.getD n false || decide (4096 < x.used.getD n 0 + w n))) with
      | some n => { x with shut := x.shut.set n true, move := x.move ++ [(n, c)] }
      | none => { x with used := (List.range 8).map (fun n => x.used.getD n 0 + w n), keep := x.keep ++ [c] }

/-- The changes of a block in order, parted. -/
def parted (due : List Staged) : Parted := due.foldl (Parted.take due) ⟨List.replicate 8 0, List.replicate 8 false, [], []⟩

/-- A change that has moved counts, and its completion will tell (R157, R347). -/
def State.slipped (s : State) (n : Nat) (c : Staged) : State :=
  let s := match c.act with
    | .lockRelease _ => s
    | _ => s.incSat (R.ENG_CNT n) F.ENG_CNT_SLIP
  match c.id with
  | some id => s.modQueue id.org (fun q => { q with flight := q.flight.map (fun f =>
      if f.ord = id.ord then { f with slip := true } else f) })
  | none => s

/-! ### One change -/

/-- The commit point as it proceeds: registers whose starts and stops follow once every change is in, with the word before
the first of them (R37); engines whose mode a command set last; parameter writes, which follow those. -/
structure CommitX where
  s : State
  olds : List (Nat × Word)
  byCmd : List Nat
  params : List Staged

def CommitX.on (x : CommitX) (f : State → State) : CommitX := { x with s := f x.s }

/-- The index of a MIX_GAIN register. -/
def gainAt (a : Nat) : Option Nat := if 0xB000 ≤ a ∧ a < 0xB800 then some ((a - 0xB000) / 4) else none

/-- The sink of an MP_SINK register. -/
def sinkAt (a : Nat) : Option Nat := if 0xA800 ≤ a ∧ a < 0xAD00 then some ((a - 0xA800) / 4) else none

/-- The word before is kept for what follows. -/
def CommitX.keepOld (x : CommitX) (a : Nat) : CommitX :=
  if x.olds.any (fun p => p.1 == a) then x else { x with olds := x.olds ++ [(a, x.s.rd a)] }

/-- A command's write of an F register shows in the mirror at once (R439). -/
def State.mirrorNow (s : State) (a : Nat) (m v : Word) : State :=
  if onFront a && m != 0 then s.modMirror (fun y => mirrorWrite y (a, m, v)) else s

/-- Shadowed bits of an F register that take effect show in the mirror as written. -/
def State.mirrorRws (s : State) (a : Nat) (m v : Word) : State :=
  if onFront a then s.modMirror (fun y => y.set a (mix (y.get a) v m)) else s

/-- The route part of a register in effect at block k completes its change; any other register's change is DONE. -/
def State.routeCommit (s : State) (id : Option DescId) (a : Nat) (old : Word) (k : Nat) : State :=
  match gainAt a, sinkAt a with
  | some i, _ => s.mixRouteCommit id (i / 32) (i % 32) old k
  | none, some i => s.sinkRouteCommit id i old k
  | none, none =>
    match regIdx R.MP_LANE_SRC 128 a, regIdx R.MP_LANE_TRIM 128 a with
    | some l, _ => s.laneSrcCommit id l old k
    | none, some l => s.laneTrimCommit id l old k
    | none, none => s.finishOpt id (doneAt k)

/-- Shadowed bits of a register take effect at block k. -/
def CommitX.rws (x : CommitX) (id : Option DescId) (a : Nat) (m v : Word) (k : Nat) : CommitX :=
  let w := rwsMask a &&& m
  if w = 0 then x.on (fun s => s.finishOpt id (doneAt k))
  else
    let x := x.keepOld a
    let old := x.s.rd a
    let x := { x with byCmd := x.byCmd.filter (fun n => R.ENG_CTL n != a) }
    x.on (fun s => ((s.wr a (mix old v w)).mirrorRws a w v).routeCommit id a old k)

/-- A write by command that its owning chapter drops: the register and field of the error that the register write would
set (R353). -/
def State.cmdDropFlag (s : State) (a : Nat) (m v : Word) : Option (Nat × Fld) :=
  let cur := s.rd a
  let w := mix cur v m
  let wo := woMask a &&& m &&& v
  if 0x6000 ≤ a ∧ a < 0x6800 then
    let d := (a - 0x6000) / 0x100
    if a = R.SAP_CFG d ∧ s.on (R.SAP_STS d) F.SAP_STS_RUNNING = true ∧ w.fld F.SAP_CFG_SRC_MODE = 1
        ∧ cur.fld F.SAP_CFG_SRC_MODE ≠ 1 ∧ s.fld (R.SAP_RATE d) F.SAP_RATE_RATE ≠ rate96 then
      some (R.SAP_STS d, F.SAP_STS_CFG_ERR)
    else none
  else if 0x8000 ≤ a ∧ a < 0x9000 then
    let c := if a < 0x8400 then 0 else 1
    if a = R.SNS_INJ c ∧ wo.getLsbD 31 = true ∧ s.injFull c = true then
      some (R.SNS_STS c, F.SNS_STS_INJ_REFUSED)
    else if a = R.SNS_CAL_CTL c ∧ hit wo F.SNS_CAL_CTL_GO = true
        ∧ (s.calRefused c ⟨none, w.fld F.SNS_CAL_CTL_INPUT, w.fld F.SNS_CAL_CTL_GAIN, 0, 0, 0⟩).isSome = true then
      some (R.SNS_STS c, F.SNS_STS_CAL_FAIL)
    else none
  else if (regIdx R.FLT_COEF_WIN 128 a).isSome then
    if s.bankInUse (s.fld R.FLT_COEF_SEL F.FLT_COEF_SEL_CH) (s.on R.FLT_COEF_SEL F.FLT_COEF_SEL_BANK) then
      some (R.FLT_GLB_STS, F.FLT_GLB_STS_COEF_BUSY_ERR)
    else none
  else if a = R.TTH_PLAY_CTL then
    if hit wo F.TTH_PLAY_CTL_GO && !s.playRoom then some (R.TTH_STS, F.TTH_STS_CFG_ERR) else none
  else
    match regIdx R.ENG_CTL 8 a with
    | some n =>
      if fldDiff cur w F.ENG_CTL_MODE && s.swapping n then some (R.ENG_STS n, F.ENG_STS_CFG_ERR) else none
    | none => none

/-- A write by command that is dropped whole: the state with the error bit that the register write would set (R353, R467). -/
def State.cmdDrop (s : State) (a : Nat) (m v : Word) : Option State :=
  let cur := s.rd a
  if s.refusedBits a cur (mix cur v m) ≠ 0 then some (s.guardErr a cur (mix cur v m))
  else (s.cmdDropFlag a m v).map (fun p => s.setF p.1 p.2 1)

/-- A register write by command takes effect: every field acts by its access code. -/
def CommitX.write (x : CommitX) (id : Option DescId) (a : Nat) (m v : Word) (k : Nat) : CommitX :=
  let n := nowMask a &&& m
  (if n = 0 then x else x.on (fun s => (s.applyNow a n v).mirrorNow a n v)).rws id a m v k

/-- Consecutive register writes. -/
def CommitX.run (k : Nat) : Nat → List Word → CommitX → CommitX
  | _, [], x => x
  | a, v :: vs, x => CommitX.run k (a + 4) vs (x.write none a (BitVec.allOnes 32) v k)

/-- The first drop of consecutive register writes. -/
def State.runDrop (s : State) : Nat → List Word → Option State
  | _, [] => none
  | a, v :: vs =>
    match s.cmdDrop a (BitVec.allOnes 32) v with
    | some t => some t
    | none => s.runDrop (a + 4) vs

/-- The entries of a preset; one with a reserved address is skipped (R135). -/
def CommitX.preset (k : Nat) : List (Nat × Word) → CommitX → CommitX
  | [], x => x
  | (a, v) :: es, x =>
    CommitX.preset k es (if presetAddr a then x.rws none a (BitVec.allOnes 32) v k
      else x.on (fun s => s.setF R.MP_GLB_STS F.MP_GLB_STS_PRESET_ERR 1))

/-- A completion that refuses a change at its commit point. -/
def refusal (st : Status) : Completion := ⟨st, false, false, false, noBlock, none⟩

/-- What a drop answers, or the change that is not dropped. -/
def CommitX.unless (x : CommitX) (id : Option DescId) (drop : Option State) (f : CommitX → CommitX) : CommitX :=
  match drop with
  | some t => { x with s := t.finishOpt id (refusal .refusedBusy) }
  | none => f x

/-- PROG_START, or ENGINE_MODE: the mode field is written, and the sequence follows (R37, R152). -/
def CommitX.engMode (x : CommitX) (id : Option DescId) (n mode k : Nat) : CommitX :=
  match x.s.engModeBad n mode with
  | some st => x.on (fun s => s.finishOpt id (refusal st))
  | none =>
    let x := x.keepOld (R.ENG_CTL n)
    { x with byCmd := n :: x.byCmd }.on (fun s => (s.setF (R.ENG_CTL n) F.ENG_CTL_MODE mode).finishOpt id (doneAt k))

/-- Base modes of the outputs of a list by command: MODE is written, and what follows from it comes later (R37, R273). -/
def CommitX.baseModes (mode : Nat) : List Nat → CommitX → CommitX
  | [], x => x
  | o :: os, x =>
    CommitX.baseModes mode os ((x.keepOld (R.TTH_OUT_CFG o)).on (fun s => s.setF (R.TTH_OUT_CFG o) F.TTH_OUT_CFG_MODE mode))

/-- A Tether mode command (R273, R278, R295). -/
def CommitX.tthMode (x : CommitX) (id : Option DescId) (mask code k : Nat) : CommitX :=
  if code < 3 ∧ x.s.modeBad mask code = false ∧ x.s.on R.TTH_CTL F.TTH_CTL_MAINT = false then
    (CommitX.baseModes code (maskOuts mask) x).on (fun s => s.finishOpt id (doneAt k))
  else
    let (st, s) := x.s.modeCommand mask code k
    { x with s := s.finishOpt id (if st = .done then doneAt k else refusal st) }

/-- A change of the operations that act at once. -/
def State.actNow (s : State) (id : Option DescId) (act : Act) (k : Nat) : State :=
  let done (s : State) : State := s.finishOpt id (doneAt k)
  match act with
  | .filterSwap c bank fade => s.swapEvaluate id c bank fade k
  | .feSync mask src => done (s.syncApply mask src k)
  | .generator g kind freq level seed => done (s.genSet g ⟨kind, freq, level, seed⟩ k)
  | .streamOn r => done (s.modRing r (fun x => { x with streamOn := some k }))
  | .streamOff r => done (s.modRing r (fun x => { x with streamOff := some k }))
  | .tthGains node ws => done (State.nodesTo node ws s)
  | .tthFaultClear mask => done (State.tthClrFaults (maskOuts mask) s)
  | .tthSelftest => match id with
    | some i => s.selftestBegin i k
    | none => s
  | .prioNet on mask => done (if on then s.prioSet 1 mask (s.stampOf k 0) else s.prioClear 1 mask (s.stampOf k 0))
  | .offsetCal c => match id with
    | some i => s.calBegin i c k
    | none => s
  | .clearFault c => done (s.clearFault c)
  | .senseCal c input gain kc step target => s.calRequest c ⟨id, input, gain, kc, step, target⟩
  | .lockRelease l => s.lockCommitted id l k
  | _ => s

/-- One change in effect at block k. -/
def CommitX.act (x : CommitX) (c : Staged) (k : Nat) : CommitX :=
  let all : Word := BitVec.allOnes 32
  match c.act with
  | .reg a v false => x.rws c.id a all v k
  | .reg a v true => x.unless c.id (x.s.cmdDrop a all v) (fun x => x.write c.id a all v k)
  | .regMask a m v => x.unless c.id (x.s.cmdDrop a m v) (fun x => x.write c.id a m v k)
  | .regRun a vs =>
    x.unless c.id (x.s.runDrop a vs) (fun x => (CommitX.run k a vs x).on (fun s => s.finishOpt c.id (doneAt k)))
  | .preset es => (CommitX.preset k es x).on (fun s => s.finishOpt c.id (doneAt k))
  | .sinkDyn i comp lim =>
    x.unless c.id (x.s.cmdDrop (R.MP_LIM i) all lim) (fun x =>
      (x.rws none (R.MP_COMP i) all comp k).rws c.id (R.MP_LIM i) all lim k)
  | .engMode n mode => x.engMode c.id n mode k
  | .param .. => { x with params := x.params ++ [c] }
  | .tthMode mask code => x.tthMode c.id mask code k
  | act => x.on (fun s => s.actNow c.id act k)

/-! ### What follows the changes -/

/-- The starts and stops of one register, once every change of the block is in: `old` is the word before them. -/
def State.lateCommit (s : State) (byCmd : List Nat) (a : Nat) (old : Word) (k : Nat) : State :=
  match gainAt a, sinkAt a with
  | some i, _ => s.mixGainCommit (i / 32) (i % 32) old k
  | none, some i => s.sinkEnCommit i old k
  | none, none =>
    if a = R.CLK_APLL_CFG then s.apllCommit old k
    else if a = R.ARR_BRIDLE_CFG then s.bridleCommit old
    else if a < 0xA000 then
      match regIdx R.FLT_CH_CFG 16 a with
      | some c =>
        if fldDiff old (s.rd a) F.FLT_CH_CFG_EN then (if s.chanOn c then s.chanEnable c k else s.chanDisable c k) else s
      | none => s
    else if a < 0xC000 then
      match regIdx R.MIX_BUS_CFG 16 a with
      | some b => s.busCfgCommit b old k
      | none => s
    else if a < 0xD000 then
      match regIdx R.TTH_OUT_CFG 24 a with
      | some o => s.outCfgCommit o (old.fld F.TTH_OUT_CFG_MODE) k
      | none => s
    else
      match regIdx R.PWR_CTL 8 a, regIdx R.EXT_CFG 8 a, regIdx R.ENG_CTL 8 a with
      | some m, _, _ => s.chEnCommit m (old.fld F.PWR_CTL_EN == 1)
      | none, some e, _ => s.chEnCommit (8 + e) (old.fld F.EXT_CFG_EN == 1)
      | none, none, some n =>
        if byCmd.contains n then s.engModeApply n (s.fld a F.ENG_CTL_MODE) k else s.engCtlCommit n old k
      | none, none, none => s

/-- The starts and stops of the registers of a list. -/
def State.lateAll (byCmd : List Nat) (k : Nat) : List (Nat × Word) → State → State
  | [], s => s
  | (a, old) :: rest, s => State.lateAll byCmd k rest (s.lateCommit byCmd a old k)

/-- Parameter writes in effect at block k. -/
def State.paramAll (k : Nat) : List Staged → State → State
  | [], s => s
  | c :: cs, s =>
    State.paramAll k cs (match c.act with
      | .param n pid rec_ off ws => s.paramApply c.id n pid rec_ off ws k
      | _ => s)

/-- Changes that have moved to a later block count. -/
def State.slipAll : List (Nat × Staged) → State → State
  | [], s => s
  | (n, c) :: rest, s => State.slipAll rest (s.slipped n c)

/-- Every change whose block is at or before k takes effect at block k, but for the ones that R157 moves to the next. -/
def State.commitDue (s : State) (k : Nat) : State :=
  let p := parted (sortBy Staged.before (s.stage.changes.filter (fun c => decide (c.eff ≤ k))))
  let late := p.move.map (fun m => { m.2 with eff := k + 1 })
  let wait := s.stage.changes.filter (fun c => decide (k < c.eff))
  let s := State.slipAll p.move (s.modStage (fun y => { y with changes := late ++ wait }))
  let x := p.keep.foldl (fun (x : CommitX) (c : Staged) => x.act c k) ⟨s, [], [], []⟩
  State.paramAll k x.params (State.lateAll x.byCmd k x.olds x.s)

/-! ### What the part measures over a block -/

/-- The bits of a register that a measurement can set, replace, or clear: sticky status, levels, and a fault input that has
gone away. -/
def measured (a : Nat) : Word × Word × Word :=
  let set (f : Fld) : Word × Word × Word := (f.mask, 0, 0)
  let put (m : Word) : Word × Word × Word := (0, m, 0)
  if a < 0x6000 then
    if a = R.CLK_SUPPLY_STS then put (F.CLK_SUPPLY_STS_VSYS.mask ||| F.CLK_SUPPLY_STS_VBAK_OK.mask)
    else if a = R.CLK_APLL_STS then put F.CLK_APLL_STS_FREQ_ERR.mask
    else if (regIdx R.CLK_RAIL 16 a).isSome then put F.CLK_RAIL_MV.mask
    else (0, 0, 0)
  else if a < 0xA000 then
    let d := (a - 0x6000) / 0x100
    if 0x6800 ≤ a then (0, 0, 0)
    else if a = R.SAP_STS d ∧ isTx d = true then set F.SAP_STS_SAT
    else if (regIdx (R.SAP_SLOT_LVL d) 16 a).isSome then put F.SAP_SLOT_LVL_PEAK.mask
    else (0, 0, 0)
  else if a < 0xC000 then
    if a = R.MP_QUIET_STS then put F.MP_QUIET_STS_SILENT.mask
    else if (regIdx R.MP_DYN_STS 22 a).isSome then
      put (F.MP_DYN_STS_LIM_GR.mask ||| F.MP_DYN_STS_COMP_GR.mask)
    else (0, 0, 0)
  else if a < 0xD000 then
    if (regIdx R.TTH_OUT_STS 24 a).isSome then (F.TTH_OUT_STS_SAT.mask, F.TTH_OUT_STS_PEAK.mask, 0)
    else if (regIdx R.TTH_IN_LVL 16 a).isSome then put (F.TTH_IN_LVL_PEAK.mask ||| F.TTH_IN_LVL_HOLD.mask)
    else if (regIdx R.TTH_SRV_STS 8 a).isSome then put F.TTH_SRV_STS_SAT_NOW.mask
    else if (regIdx R.TTH_SRV_CORR 8 a).isSome then put F.TTH_SRV_CORR_CORR.mask
    else (0, 0, 0)
  else if a < 0xE000 then
    if a = R.PWR_PVDD_STS then put (F.PWR_PVDD_STS_PVDD0.mask ||| F.PWR_PVDD_STS_PVDD1.mask)
    else if (regIdx R.PWR_STS 8 a).isSome then set F.PWR_STS_CLIP
    else if (regIdx R.PWR_PEAK 8 a).isSome then put (BitVec.allOnes 32)
    else if (regIdx R.PWR_DIE_STS 2 a).isSome then put F.PWR_DIE_STS_TEMP.mask
    else if (regIdx R.EXT_STS 8 a).isSome then (F.EXT_STS_CLIP.mask, 0, F.EXT_STS_FLT_NOW.mask)
    else (0, 0, 0)
  else (0, 0, 0)

/-- A measured word in its register. -/
def State.measure1 (s : State) (a : Nat) (v : Word) : State :=
  let (set, put, clr) := measured a
  let old := s.rd a
  s.wr a ((mix old v put ||| (v &&& set)) &&& ~~~ (clr &&& ~~~ v))

/-- The measured words of a block. -/
def State.measureAll : List (Nat × Word) → State → State
  | [], s => s
  | (a, v) :: ms, s => State.measureAll ms (s.measure1 a v)

/-- A block with c at the clamp counts (R291). -/
def State.clampCounts : List Nat → State → State
  | [], s => s
  | m :: ms, s =>
    State.clampCounts ms (if s.on (R.TTH_SRV_STS m) F.TTH_SRV_STS_CLOSED && s.on (R.TTH_SRV_STS m) F.TTH_SRV_STS_SAT_NOW then
      s.incSat (R.TTH_SRV_CNT m) F.TTH_SRV_CNT_SAT else s)

/-- The slots of the engines of a list (R168, R170); the n-th of the list is engine n. -/
def State.slotAll : Nat → List (Nat × Nat) → State → State
  | _, [], s => s
  | n, (cycles, stall) :: rest, s =>
    State.slotAll (n + 1) rest (if n < 8 then s.engSlot n cycles stall else s)

/-- The arbiter's live counters over a block (R173). -/
def State.arbAll : List (Nat × Nat × Nat × Nat) → State → State
  | [], s => s
  | (r, g, w, l) :: rest, s => State.arbAll rest (if r < 12 then s.arbCount r g w l else s)

/-! ### The commit point -/

/-- Sinks of a list stop by R132. -/
def State.sinkStopAll (k : Nat) : List Nat → State → State
  | [], s => s
  | i :: is, s => State.sinkStopAll k is (s.sinkStop i k)

/-- Each Tether output of a list fades to zero over its FADE (R421). -/
def State.fadeAll : List Nat → State → State
  | [], s => s
  | o :: os, s => State.fadeAll os (s.fadeOut o (tthFade (s.fld (R.TTH_OUT_CFG o) F.TTH_OUT_CFG_FADE)))

/-- Step 2 of an entry into LISTEN or SHELF (R421, R422). -/
def State.entryStep2 (s : State) (k : Nat) : State :=
  if s.entering && s.power.step == 1 then
    let s := State.fadeAll (List.range 24) (State.sinkStopAll k (List.range 22) s)
    let s := (List.range 8).foldl (fun s d => s.sapStop d) s
    let s := if s.mOn then s.modMetro (fun m => ((m.closeMinute true false m.time48).note 3 (leBytes 1 0)).drop) else s
    s.modPower (fun p => { p with step := 2 })
  else s

/-- What a boundary does on H before the changes of block k: bus scales, annealing, program sequences (R118, R152, R213). -/
def State.hubBoundary (s : State) (k : Nat) : State :=
  if s.power.hubUp then
    State.swapSteps k (List.range 8) (State.annealAll k (List.range 8) (State.ballastAll k 16 s))
  else s

/-- What a boundary does on H after the changes of block k: power limits, engine slots, streams, mutes, the status block. -/
def State.hubAfter (s : State) (k : Nat) (m : BlockInputs) : State :=
  if s.power.hubUp then
    let s := State.powerAll m.powers (List.range 8) s
    let s := State.arbAll m.arb (State.slotAll 0 m.slots s)
    let s := State.streamIn k [10, 11, 12, 13] s
    let s := if 3 ≤ k then State.streamOut (k - 3) ([6, 7, 8, 9].map (fun r => (r, s.strData (k - 3) r))) [6, 7, 8, 9] s else s
    let s := State.concealShow (List.range 16) (s.unmuteAll (s.stampOf k 0))
    if s.host.idxChanged then s.statusBlock else s
  else s

/-- F's registers go to H (R439). -/
def State.sendMirror (s : State) : State :=
  if s.linkUp && s.power.hubUp then s.modSnap (fun _ => some (s.clk.blk, s.capture)) else s

/-- The commit point of block k, which has just begun (R33). -/
def State.commitPoint (s : State) (k : Nat) (m : BlockInputs) : State :=
  let s := (s.dataPath k m).modLink (fun y => { y with substSeen := false, parBlk := [0, 0, 0, 0] })
  let s := State.genBoundary k s.mp.gens (State.feBlock 16 s)
  let s := (List.range 8).foldl (fun s d => s.sapBoundary d) s
  let s := ((s.hubBoundary k).commitDue k).entryStep2 k
  let s := State.clampCounts (List.range 8) (State.measureAll m.meas s)
  let s := (s.foldBlock 0).foldBlock 1
  (s.hubAfter k m).sendMirror

/-- The next block begins (R11, R28). -/
def State.nextBlock (s : State) : State :=
  s.modClk (fun y => { y with now3 := s.time3At (y.blk + 1) 0, blk := y.blk + 1, smp := 0 })

/-- COMMIT_POINT (R33): the boundary at which the next block begins; `m` is what the part has measured over the block. -/
def execCommitPoint (m : BlockInputs) (s : State) : Out :=
  .next (if s.clk.run then s.nextBlock.commitPoint (s.clk.blk + 1) m else s)

end Sys2Proof.Machine
end

