-- ==== Sys2Proof/Machine/RegRows.lean ====
section
/-!
DEFINITION. The register writes and reads that have rows of their own: each is the access of R437 to its register, with the
effect that the write has on F carried out, and JTAG (R463 to R466). A row that names a trigger or an edge of a bit writes
that bit so, over the word given or over the word that a read returns.
-/
namespace Sys2Proof.Machine

/-- A write with some bits forced to 1. -/
def withBits (v : Word) (f : Fld) : Word := v ||| f.mask

/-! ### Counter clears (R10) -/

/-- FLT_CNT_CLR (R10). -/
def execFltCntClr (a : Agent) (v : Word) (s : State) : Out :=
  .next (s.writeThrough a R.FLT_GLB_CTL (withBits v F.FLT_GLB_CTL_CNT_CLR))

/-- MP_CNT_CLR (R10). -/
def execMpCntClr (a : Agent) (v : Word) (s : State) : Out :=
  .next (s.writeThrough a R.MP_GLB_CTL (withBits v F.MP_GLB_CTL_CNT_CLR))

/-- ENG_CNT_CLR (R10). -/
def execEngCntClr (a : Agent) (v : Word) (s : State) : Out :=
  .next (s.writeThrough a R.ENG_GLB_CTL (withBits v F.ENG_GLB_CTL_CNT_CLR))

/-- NET_CNT_CLR (R10). -/
def execNetCntClr (a : Agent) (v : Word) (s : State) : Out :=
  .next (s.writeThrough a R.NET_GLB_CTL (withBits v F.NET_GLB_CTL_CNT_CLR))

/-- PWR_CNT_CLR (R10). -/
def execPwrCntClr (a : Agent) (v : Word) (s : State) : Out :=
  .next (s.writeThrough a R.PWR_GLB_CFG (withBits v F.PWR_GLB_CFG_CNT_CLR))

/-- TTH_CNT_CLR (R10). -/
def execTthCntClr (a : Agent) (v : Word) (s : State) : Out :=
  .next (s.writeThrough a R.TTH_CTL (withBits v F.TTH_CTL_CNT_CLR))

/-- SNS_CNT_CLR (R10). -/
def execSnsCntClr (a : Agent) (v : Word) (s : State) : Out :=
  .next (s.writeThrough a R.SNS_GLB_CTL (withBits v F.SNS_GLB_CTL_CNT_CLR))

/-- LCK_CNT_CLR (R10). -/
def execLckCntClr (a : Agent) (v : Word) (s : State) : Out :=
  .next (s.writeThrough a R.LCK_GLB_CTL (withBits v F.LCK_GLB_CTL_CNT_CLR))

/-- HIF_CNT_CLR (R10). -/
def execHifCntClr (a : Agent) (v : Word) (s : State) : Out :=
  .next (s.writeThrough a R.HIF_GLB_CTL (withBits v F.HIF_GLB_CTL_CNT_CLR))

/-- MEM_CNT_CLR (R10). -/
def execMemCntClr (a : Agent) (v : Word) (s : State) : Out :=
  .next (s.writeThrough a R.MEM_CTL (withBits v F.MEM_CTL_CNT_CLR))

/-- JNL_CNT_CLR (R10). -/
def execJnlCntClr (a : Agent) (v : Word) (s : State) : Out :=
  .next (s.writeThrough a R.JNL_CTL (withBits v F.JNL_CTL_CNT_CLR))

/-- GLB_CNT_CLR (R10). -/
def execGlbCntClr (a : Agent) (v : Word) (s : State) : Out :=
  .next (s.writeThrough a R.GLB_CTL (withBits v F.GLB_CTL_CNT_CLR))

/-- TST_CNT_CLR (R10). -/
def execTstCntClr (a : Agent) (v : Word) (s : State) : Out :=
  .next (s.writeThrough a R.TST_CTL (withBits v F.TST_CTL_CNT_CLR))

/-! ### Front end -/

/-- AFE_MODE_CHANGE (R53). -/
def execAfeModeChange (a : Agent) (n : Fin 8) (v : Word) (s : State) : Out :=
  .next (s.writeThrough a (R.AFE_IN_CFG n) v)

/-- AFE_GAIN_WRITE (R54). -/
def execAfeGainWrite (a : Agent) (n : Fin 8) (v : Word) (s : State) : Out :=
  .next (s.writeThrough a (R.AFE_IN_GAIN n) v)

/-- FLT_COEF_WIN_WRITE (R68). -/
def execFltCoefWinWrite (a : Agent) (i : Fin 128) (v : Word) (s : State) : Out :=
  .next (s.writeThrough a (R.FLT_COEF_WIN i) v)

/-- FLT_SWAP_GO (R69). -/
def execFltSwapGo (a : Agent) (c : Fin 16) (v : Word) (s : State) : Out :=
  .next (s.writeThrough a (R.FLT_SWAP c) (withBits v F.FLT_SWAP_GO))

/-- FLT_SW_SYNC (R72). -/
def execFltSwSync (a : Agent) (v : Word) (s : State) : Out :=
  .next (s.writeThrough a R.FLT_SYNC_CTL (withBits v F.FLT_SYNC_CTL_SW_SYNC))

/-- SYNC_ARM (R72): ARM is set, or FLT_SYNC_AT is written. -/
def execSyncArm (a : Agent) (w : ArmWrite) (s : State) : Out :=
  .next (match w with
  | .ctl v => s.writeThrough a R.FLT_SYNC_CTL (withBits v F.FLT_SYNC_CTL_ARM)
  | .atLo v => s.writeThrough a R.FLT_SYNC_AT_LO v
  | .atHi v => s.writeThrough a R.FLT_SYNC_AT_HI v)

/-! ### Serial audio ports and trackers -/

/-- SAP_START (R93). -/
def execSapStart (a : Agent) (d : Fin 8) (v : Word) (s : State) : Out :=
  .next (s.writeThrough a (R.SAP_CFG d) (withBits v F.SAP_CFG_EN))

/-- SAP_STOP (R94). -/
def execSapStop (a : Agent) (d : Fin 8) (v : Word) (s : State) : Out :=
  .next (s.writeThrough a (R.SAP_CFG d) (v.setFld F.SAP_CFG_EN 0))

/-- SAP_HOLD_RELEASE (R91). -/
def execSapHoldRelease (a : Agent) (d : Fin 8) (v : Word) (s : State) : Out :=
  .next (s.writeThrough a (R.SAP_CFG d) (v.setFld F.SAP_CFG_HOLD 0))

/-- SRC_MODE_CHANGE (R96). -/
def execSrcModeChange (a : Agent) (d : Fin 8) (v : Word) (s : State) : Out :=
  .next (s.writeThrough a (R.SAP_CFG d) v)

/-- The tracker of a listener declares lock (R100, R184). -/
def State.listenerTracked (s : State) (st : Nat) : State :=
  if s.on (R.NET_LS_CFG st) F.NET_LS_CFG_EN && s.listenerConverts st && !s.mp.lsLocked.contains st then
    let s1 := s.modMp (fun y => { y with lsLocked := st :: y.lsLocked })
    s1.raise 0x0406 (0x600 + st)
  else s

/-- The tracker of a listener drops lock (R101). -/
def State.listenerTrackLost (s : State) (st : Nat) : State :=
  if s.mp.lsLocked.contains st then
    let s1 := s.modMp (fun y => { y with lsLocked := y.lsLocked.filter (fun x => x != st) })
    s1.raise 0x0407 (0x600 + st)
  else s

/-- SRC_LOCKED (R100): lanes whose change waits for the converter fade in (R130). -/
def execSrcLocked (t : Tracker) (rate : Nat) (s : State) : Out :=
  .next (match t with
  | .sap d =>
    let s1 := s.sapTracked d rate
    if s1.on (R.SAP_STS d) F.SAP_STS_LOCK then
      s1.splitLocked (fun src => sapOf src == some d.val) s1.nextBoundary s1.mp.routes
    else s1
  | .listener st =>
    let s1 := s.listenerTracked st
    if s1.mp.lsLocked.contains st.val then
      s1.splitLocked (fun src => listenerOf src == some st.val) s1.nextBoundary s1.mp.routes
    else s1)

/-- SRC_UNLOCKED (R101, R102). -/
def execSrcUnlocked (t : Tracker) (s : State) : Out :=
  .next (match t with
  | .sap d => s.sapTrackLost d
  | .listener st => s.listenerTrackLost st)

/-! ### Main path, engines, network -/

/-- PRESET_GO (R135). -/
def execPresetGo (a : Agent) (v : Word) (s : State) : Out :=
  .next (s.writeThrough a R.MP_PRESET_CTL (withBits v F.MP_PRESET_CTL_GO))

/-- ENGINE_MODE_WRITE (R152, R153). -/
def execEngineModeWrite (a : Agent) (n : Fin 8) (v : Word) (s : State) : Out :=
  .next (s.writeThrough a (R.ENG_CTL n) v)

/-- ARB_SNAP (R174). -/
def execArbSnap (a : Agent) (v : Word) (s : State) : Out :=
  .next (s.writeThrough a R.ARB_CTL (withBits v F.ARB_CTL_SNAP))

/-- MDIO_GO (R175). -/
def execMdioGo (a : Agent) (v : Word) (s : State) : Out :=
  .next (s.writeThrough a R.NET_MDIO_CTL (withBits v F.NET_MDIO_CTL_GO))

/-! ### Outputs and Tether -/

/-- PWR_CLR_FAULT (R252). -/
def execPwrClrFault (a : Agent) (m : Fin 8) (v : Word) (s : State) : Out :=
  .next (s.writeThrough a (R.PWR_CTL m) (withBits v F.PWR_CTL_CLR_FAULT))

/-- PWR_DIAG_GO (R253). -/
def execPwrDiagGo (a : Agent) (m : Fin 8) (v : Word) (s : State) : Out :=
  .next (s.writeThrough a (R.PWR_CTL m) (withBits v F.PWR_CTL_DIAG_GO))

/-- EXT_CLR_FAULT (R252, R256). -/
def execExtClrFault (a : Agent) (e : Fin 8) (v : Word) (s : State) : Out :=
  .next (s.writeThrough a (R.EXT_CFG e) (withBits v F.EXT_CFG_CLR_FAULT))

/-- TTH_GWIN_WRITE (R265). -/
def execTthGwinWrite (a : Agent) (v : Word) (s : State) : Out :=
  .next (s.writeThrough a R.TTH_GWIN_DATA v)

/-- TTH_CLR_FAULT (R269). -/
def execTthClrFault (a : Agent) (o : Fin 24) (v : Word) (s : State) : Out :=
  .next (s.writeThrough a (R.TTH_OUT_CFG o) (withBits v F.TTH_OUT_CFG_CLR_FAULT))

/-- TTH_PLAY_GO (R285). -/
def execTthPlayGo (a : Agent) (v : Word) (s : State) : Out :=
  .next (s.writeThrough a R.TTH_PLAY_CTL (withBits v F.TTH_PLAY_CTL_GO))

/-- TTH_PLAY_STOP (R285). -/
def execTthPlayStop (a : Agent) (v : Word) (s : State) : Out :=
  .next (s.writeThrough a R.TTH_PLAY_CTL (withBits v F.TTH_PLAY_CTL_STOP))

/-- TONE_CFG_WRITE (R288): of TTH_TONE_FREQ or TTH_TONE_CFG. -/
def execToneCfgWrite (a : Agent) (freq : Bool) (v : Word) (s : State) : Out :=
  .next (s.writeThrough a (if freq then R.TTH_TONE_FREQ else R.TTH_TONE_CFG) v)

/-- SERVO_CLOSE (R291). -/
def execServoClose (a : Agent) (m : Fin 8) (v : Word) (s : State) : Out :=
  .next (s.writeThrough a (R.TTH_SRV_CFG m) (withBits v F.TTH_SRV_CFG_CLOSE))

/-- TTH_MAINT_WRITE (R294). -/
def execTthMaintWrite (a : Agent) (v : Word) (s : State) : Out :=
  .next (s.writeThrough a R.TTH_CTL v)

/-! ### Gather buffer and sense converters -/

/-- GTH_GO_WRITE (R309). -/
def execGthGoWrite (a : Agent) (v : Word) (s : State) : Out :=
  .next (s.writeThrough a R.AFE_GTH_CFG (withBits v F.AFE_GTH_CFG_GO))

/-- GTH_STOP_WRITE (R309). -/
def execGthStopWrite (a : Agent) (v : Word) (s : State) : Out :=
  .next (s.writeThrough a R.AFE_GTH_CFG (withBits v F.AFE_GTH_CFG_STOP))

/-- SNS_SW_TRIGGER (R317). -/
def execSnsSwTrigger (a : Agent) (c : Fin 2) (v : Word) (s : State) : Out :=
  .next (s.writeThrough a (R.SNS_TRIG c) (withBits v F.SNS_TRIG_SW))

/-- SENSE_PAUSE (R320). -/
def execSensePause (a : Agent) (c : Fin 2) (v : Word) (s : State) : Out :=
  .next (s.writeThrough a (R.SNS_CFG c) (withBits v F.SNS_CFG_PAUSE))

/-- SENSE_RESUME (R320). -/
def execSenseResume (a : Agent) (c : Fin 2) (v : Word) (s : State) : Out :=
  .next (s.writeThrough a (R.SNS_CFG c) (v.setFld F.SNS_CFG_PAUSE 0))

/-- SENSE_DISABLE (R320). -/
def execSenseDisable (a : Agent) (c : Fin 2) (v : Word) (s : State) : Out :=
  .next (s.writeThrough a (R.SNS_CFG c) (v.setFld F.SNS_CFG_EN 0))

/-- SNS_INJ_GO (R321). -/
def execSnsInjGo (a : Agent) (c : Fin 2) (v : Word) (s : State) : Out :=
  .next (s.writeThrough a (R.SNS_INJ c) (v.setFld ⟨31, 1⟩ 1))

/-- SNS_CAL_GO (R326). -/
def execSnsCalGo (a : Agent) (c : Fin 2) (v : Word) (s : State) : Out :=
  .next (s.writeThrough a (R.SNS_CAL_CTL c) (withBits v F.SNS_CAL_CTL_GO))

/-- REF_BUFFER_ENABLE (R324). -/
def execRefBufferEnable (a : Agent) (on : Bool) (s : State) : Out :=
  .next (s.writeThrough a R.SNS_REF (s.asRead a R.SNS_REF F.SNS_REF_BUFEN on.toNat))

/-- SNS_CAL_TABLE_WRITE (R325): of SNS_CAL_GAIN or SNS_CAL_OFS. -/
def execSnsCalTableWrite (a : Agent) (gain : Bool) (v : Word) (s : State) : Out :=
  .next (s.writeThrough a (if gain then R.SNS_CAL_GAIN else R.SNS_CAL_OFS) v)

/-- TDAC_SWITCH_WRITE (R330). -/
def execTdacSwitchWrite (a : Agent) (v : Word) (s : State) : Out :=
  .next (s.writeThrough a R.SNS_TDAC_SW v)

/-! ### Host interface, locks, errors, journal -/

/-- RING_ENABLE (R336). -/
def execRingEnable (a : Agent) (r : Fin 16) (s : State) : Out :=
  .next (s.writeThrough a (R.HIF_RING_CTL r) (s.asRead a (R.HIF_RING_CTL r) F.HIF_RING_CTL_EN 1))

/-- RING_DISABLE_DRAIN (R354). -/
def execRingDisableDrain (a : Agent) (r : Fin 16) (s : State) : Out :=
  .next (s.writeThrough a (R.HIF_RING_CTL r) 0)

/-- RING_DISABLE_ABORT (R354): `tags` are the tags of accepted descriptors in host memory that were not read. -/
def execRingDisableAbort (a : Agent) (r : Fin 16) (tags : List Nat) (s : State) : Out :=
  .next (let x := R.HIF_RING_CTL r
    let v := F.HIF_RING_CTL_ABORT.mask
    let old := s.rd x
    if s.windowOk a x && s.refusedBits x old v == 0 then (s.wr x v).ringCtlWritten r old tags else s.writeThrough a x v)

/-- LCK_OWNER_RESET (R356). -/
def execLckOwnerReset (a : Agent) (owner : Fin 64) (s : State) : Out :=
  .next (s.writeThrough a R.LCK_OWNER_RST (withBits (BitVec.ofNat 32 owner.val) F.LCK_OWNER_RST_GO))

/-- EVT_DETAIL_SELECT (R375). -/
def execEvtDetailSelect (a : Agent) (v : Word) (s : State) : Out :=
  .next (s.writeThrough a R.MEM_EVT_DET_SEL v)

/-- MEM_INJECT (R417). -/
def execMemInject (a : Agent) (v : Word) (s : State) : Out :=
  .next (s.writeThrough a R.MEM_INJ (withBits v F.MEM_INJ_GO))

/-- JNL_COMPACT_GO (R430). -/
def execJnlCompactGo (a : Agent) (v : Word) (s : State) : Out :=
  .next (s.writeThrough a R.JNL_CTL (withBits v F.JNL_CTL_COMPACT))

/-- RECOVERY_GO (R414). -/
def execRecoveryGo (a : Agent) (v : Word) (s : State) : Out :=
  .next (s.writeThrough a R.CLK_RECOVERY (withBits v F.CLK_RECOVERY_GO))

/-! ### The window itself -/

/-- COMMIT_HOLD_SET (R443). -/
def execCommitHoldSet (a : Agent) (s : State) : Out :=
  .next (s.writeThrough a R.GLB_COMMIT_CTL F.GLB_COMMIT_CTL_HOLD.mask)

/-- COMMIT_HOLD_RELEASE (R443). -/
def execCommitHoldRelease (a : Agent) (s : State) : Out :=
  .next (s.writeThrough a R.GLB_COMMIT_CTL 0)

/-- MIRROR_REFRESH (R439). -/
def execMirrorRefresh (a : Agent) (v : Word) (s : State) : Out :=
  .next (s.writeThrough a R.GLB_CTL (withBits v F.GLB_CTL_REFRESH))

/-- TST_SEL_WRITE (R461). -/
def execTstSelWrite (a : Agent) (k : Fin 3) (v : Word) (s : State) : Out :=
  .next (s.writeThrough a (R.TST_SEL k) v)

/-- A read by an agent, with the word that it returns. -/
def State.busRead (s : State) (ag a : Nat) : State :=
  let (v, s1) := s.windowRead ag a
  s1.modHost (fun y => { y with readData := v })

/-- LO_LATCH_READ (R441); any other address is read as R437 gives. -/
def execLoLatchRead (a : Agent) (addr : Nat) (s : State) : Out := .next (s.busRead a addr)

/-- CAL_TIME_READ (R404): a read of CAL_TIME_LO. -/
def execCalTimeRead (a : Agent) (s : State) : Out := .next (s.busRead a R.CAL_TIME_LO)

/-! ### JTAG (R463 to R466) -/

/-- JTAG_UPDATE_IR (R464): the M TAP is in the chain of an unsealed MA part alone. -/
def execJtagUpdateIr (irH : BitVec 8) (irF : BitVec 6) (irM : BitVec 4) (s : State) : Out :=
  .next (let s1 := s.setF R.TST_JTAG F.TST_JTAG_IR irH.toNat
    s1.modTest (fun x => { x with irF := irF.toNat, irM := if s.mExcluded then x.irM else irM.toNat }))

/-- JTAG_TAP_RESET (R463): every TAP is at IDCODE. -/
def execJtagTapReset (s : State) : Out :=
  .next (let s1 := s.setF R.TST_JTAG F.TST_JTAG_IR 1
    (s1.modTest (fun y => { y with irF := 1, irM := 1 })))

/-- The H TAP instruction REGWIN. -/
def irRegwin : Nat := 0x20

/-- JTAG_REGWIN (R465): Update-DR with bit 49 WRITE, bits 48 to 32 the address, bits 31 to 0 the data. The read data that the
next Capture-DR loads after a write is free. -/
def execJtagRegwin (w : BitVec 50) (s : State) : Out :=
  .next (if s.fld R.TST_JTAG F.TST_JTAG_IR = irRegwin then
    let x := (w.extractLsb' 32 17).toNat
    let s1 := s.incSat R.TST_JTAG F.TST_JTAG_REGWIN
    if w.getLsbD 49 then
      let ok := s1.mayWrite 14 x && s1.agentOk 14 && !(s1.isSealed && (s1.needsBit 14 x || rwbMask x != 0))
      let (d, s2) := s1.fresh 32
      let s3 := s2.writeThrough 14 x (w.extractLsb' 0 32)
      s3.modTest (fun y => { y with data := d, done := ok, refused := !ok })
    else
      let ok := s1.mayRead 14 x && s1.agentOk 14
      let (d, s2) := s1.windowRead 14 x
      s2.modTest (fun y => { y with data := d, done := ok, refused := !ok })
  else s)

end Sys2Proof.Machine
end

