-- ==== Sys2Proof/Machine/Zhev.lean ====
section
/-!
DEFINITION. Zhevdom messages (R190 to R202), the posting of completions (R347), the reload of the block counter (R181, R29),
and the boot of Tether (R292, R293).
-/
namespace Sys2Proof.Machine

/-! ### Messages and replies (R190, R194) -/

def State.modZv (s : State) (f : ZvX → ZvX) : State := s.modNet (fun y => { y with zv := f y.zv })

/-- The messages that a controller entry keeps (R194). -/
def seenMax : Nat := 64

/-- The SEQ of an accepted message is kept. -/
def State.zvNote (s : State) (i seq : Nat) : State :=
  s.modZv (fun z => { z with seen := z.seen.modify i (fun l => (⟨seq, none⟩ :: l).take seenMax) })

/-- FLAGS of a reply: REPLY, and LATE. -/
def replyFlags (late : Bool) : Nat := 1 + 2 * late.toNat

/-- A reply goes out with the part's own next SEQ, and is kept with the message that it answers (R194). -/
def State.zvReply (s : State) (entry : Option Nat) (seq : Nat) (dst : Mac) (typ flags : Nat) (bs : List Byte) : State :=
  let own := s.net.zv.seq
  let s := s.zvSendOwn dst typ flags bs
  match entry with
  | some i => s.modZv (fun z => { z with seen := z.seen.modify i (fun l => l.map (fun x =>
      if x.seq = seq ∧ x.reply.isNone then { x with reply := some (typ, flags, own, bs) } else x)) })
  | none => s

/-- What an accepted message does; one that repeats a SEQ gets the stored reply once more, and counts (R194). -/
def State.zvAccept (s : State) (typ : Nat) (m : ZvMsg) (f : Option Nat → State → State) : State :=
  match s.zvTake typ m with
  | .accept none => f none s
  | .accept (some i) =>
    match (s.net.zv.seen.getD i []).find? (fun x => x.seq == m.seq) with
    | some x =>
      let s := s.incSat R.NET_ZV_CNT F.NET_ZV_CNT_DUP
      match x.reply with
      | some (t, fl, own, bs) => s.emit (.zv m.src t fl own bs)
      | none => s
    | none => f (some i) (s.zvNote i m.seq)
  | _ => s

/-- A completion record whose sequence number, and whose tag where the message has none, no rule gives. -/
def State.zvRecord (s : State) (tag : Option Nat) (c : Completion) : List Byte × State :=
  let (t, s) : Nat × State := match tag with
    | some t => (t, s)
    | none => let (v, s) := s.fresh 16; (v.toNat, s)
  let (n, s) := s.fresh 32
  (cplBytes t n.toNat c, s)

/-- A reply that carries such a record. -/
def State.zvStatus (s : State) (entry : Option Nat) (typ : Nat) (m : ZvMsg) (tag : Option Nat) (c : Completion) : State :=
  let (bs, s) := s.zvRecord tag c
  s.zvReply entry m.seq m.src typ (replyFlags c.late) bs

/-- The tag of a payload that begins with a descriptor or a SCHEDULE action, where it has one. -/
def tagOf (bs : List Byte) : Option Nat := if 4 ≤ bs.length then some (bytesAt bs 2 2) else none

/-! ### DISCOVER and ADDRESS (R195) -/

/-- ZV_DISCOVER (R195): the random wait begins. -/
def execZvDiscover (m : ZvMsg) (s : State) : Out :=
  .next (s.zvAccept 1 m (fun e s => s.modZv (fun z => { z with disc := z.disc ++ [(m.src, m.seq, e, s.clk.now3)] })))

/-- The 20 bytes of a DISCOVER reply. -/
def State.discoverBytes (s : State) : List Byte :=
  leBytes 8 (s.getPair R.GLB_DIE_ID_LO R.GLB_DIE_ID_HI) ++ (leBytes 6 s.ownMac.toNat).reverse ++ leBytes 2 s.zvAddr
    ++ leBytes 1 (s.fld R.GLB_ORDER F.GLB_ORDER_CODE) ++ [0, 0, 0]

/-- DISCOVER_REPLY_SEND (R195): the wait of request i ends, after at most 63 ms. -/
def execDiscoverReplySend (i : Nat) (s : State) : Out :=
  .next (match s.net.zv.disc[i]? with
  | some (mac, seq, e, _) =>
    (s.modZv (fun z => { z with disc := z.disc.eraseIdx i })).zvReply e seq mac 1 (replyFlags false) s.discoverBytes
  | none => s)

/-- The address that an ADDRESS message may set. -/
def addrOk (a : Nat) : Bool := decide (a ≤ 4095) || a == 0xFFFF

/-- ZV_ADDRESS (R195). -/
def execZvAddress (m : ZvMsg) (s : State) : Out :=
  .next (s.zvAccept 2 m (fun e s =>
    let a := bytesAt m.payload 8 2
    if m.payload.length < 8 ∨ bytesAt m.payload 0 8 ≠ s.getPair R.GLB_DIE_ID_LO R.GLB_DIE_ID_HI then s
    else if m.payload.length = 10 ∧ addrOk a = true then
      (s.setF R.NET_ZV_ADDR F.NET_ZV_ADDR_ADDR a).zvStatus e 2 m none (doneAt s.clk.blk)
    else s.zvStatus e 2 m none (refusal .badParam)))

/-! ### Carried descriptors (R196, R201) -/

/-- Descriptors of PARAM messages that one controller's queue holds. -/
def paramMax : Nat := 64

/-- Descriptors of an origin that wait to be read. -/
def State.zvWaiting (s : State) (o : Origin) : Nat := (s.net.zv.wait.filter (fun w => decide (w.org = o))).length

/-- The oldest descriptor of an origin that waits begins, where it may (R346). -/
def State.zvBegin (s : State) (o : Origin) : State :=
  match s.net.zv.wait.find? (fun w => decide (w.org = o)) with
  | some w =>
    if s.reads && s.canBegin o w.d.fence then
      let id : DescId := ⟨o, (s.queue o).nextOrd⟩
      (s.modZv (fun z => { z with wait := z.wait.erase w, cmds := z.cmds ++ [⟨id, w.seq, w.mac⟩] })).runDesc o w.d
    else s
  | none => s

/-- Descriptors of an origin begin while they may, so many at most. -/
def State.zvPump (o : Origin) : Nat → State → State
  | 0, s => s
  | n + 1, s => State.zvPump o n (s.zvBegin o)

/-- Every descriptor of an origin that may begin does. -/
def State.zvPumpAll (s : State) (o : Origin) : State := State.zvPump o (s.zvWaiting o) s

/-- The descriptor of a message joins the queue of its origin. -/
def State.zvQueue (s : State) (o : Origin) (m : ZvMsg) : State :=
  (s.modZv (fun z => { z with wait := z.wait ++ [⟨o, descOf m.payload (m.payload.drop 32), m.seq, m.src⟩] })).zvPumpAll o

/-- ZV_PARAM (R196). -/
def execZvParam (m : ZvMsg) (s : State) : Out :=
  .next (s.zvAccept 3 m (fun e s =>
    match e with
    | some i =>
      if h : i < 8 then
        let o : Origin := .param ⟨i, h⟩
        if m.payload.length < 32 then s.zvStatus e 3 m (tagOf m.payload) (refusal .badParam)
        else if paramMax ≤ (s.queue o).flight.length + s.zvWaiting o then
          s.zvStatus e 3 m (tagOf m.payload) (refusal .refusedBusy)
        else s.zvQueue o m
      else s
    | none => s))

/-- ZV_HEALTH (R201); a reply of another part asks nothing. -/
def execZvHealth (m : ZvMsg) (s : State) : Out :=
  .next (if m.flags.testBit 0 then s
  else s.zvAccept 6 m (fun e s =>
    match e with
    | some i =>
      if h : i < 8 then
        if m.payload = [] then
          let (bs, s) := s.healthPayload
          s.healthSent.zvReply e m.seq m.src 6 (replyFlags false) bs
        else if s.on (R.NET_ZV_CTRL_HI i) F.NET_ZV_CTRL_HI_MGMT = false then
          s.zvStatus e 6 m (tagOf m.payload) (refusal .denied)
        else if m.payload.length < 32 then s.zvStatus e 6 m (tagOf m.payload) (refusal .badParam)
        else s.zvQueue (.health ⟨i, h⟩) m
      else s
    | none => s))

/-- HEALTH_REPORT (R201): PERIOD seconds have passed. -/
def execHealthReport (s : State) : Out :=
  let p := s.fld R.NET_ZV_HEALTH F.NET_ZV_HEALTH_PERIOD
  .next (if s.on R.NET_ZV_CFG F.NET_ZV_CFG_EN && p != 0 && decide (s.net.zv.healthAt + p * second3 ≤ s.clk.now3) then
    let (bs, s1) := s.healthPayload
    (State.toReport 6 (replyFlags false) bs (List.range 8) s1).healthSent.modZv (fun z => { z with healthAt := s.clk.now3 })
  else s)

/-! ### SCHEDULE (R197 to R199) -/

/-- Pending entries that the part holds (R198). -/
def schedMax : Nat := 64

/-- Blocks that a SCHEDULE may lie ahead. -/
def schedAhead : Nat := 600000

/-- A byte of an entry's arguments. -/
def SchedEntry.arg (e : SchedEntry) (i n : Nat) : Nat := bytesAt e.args i n

/-- The arguments of an action lie in their ranges (R197). -/
def SchedEntry.argsOk (e : SchedEntry) : Bool :=
  match e.action with
  | 2 => decide (e.arg 2 1 ≤ 1) && decide (e.arg 3 1 ≤ 3)
  | 3 => decide (1 ≤ e.arg 0 1 ∧ e.arg 0 1 ≤ 15)
  | _ => true

/-- The changes that an action is applied as (R197). -/
def State.schedActs (s : State) (e : SchedEntry) : List Act :=
  match e.action with
  | 1 => [.feSync (some (e.arg 0 2)) .command]
  | 2 => ((List.range 16).filter (fun c => (e.arg 0 2).testBit c)).map (fun c => .filterSwap c (e.arg 2 1 == 1) (e.arg 3 1))
  | 3 => [.preset (s.presetOf (e.arg 0 1))]
  | _ => [.tthMode (e.arg 0 3) (e.arg 3 1)]

/-- The reply to a SCHEDULE. -/
def State.schedReply (s : State) (e : SchedEntry) (c : Completion) : State :=
  let (bs, s) := s.zvRecord (some e.id) c
  s.zvReply (some e.ctrl) e.seq e.mac 4 (replyFlags c.late) bs

/-- Changes are staged in order for one block. -/
def State.stageList (eff : Nat) : List Act → State → State
  | [], s => s
  | a :: as, s => State.stageList eff as (s.stageAct ⟨none, eff, rankPart, none, a⟩)

/-- An entry is staged for a block and answered; a block after K is late (R199). -/
def State.schedApply (s : State) (e : SchedEntry) (eff : Nat) : State :=
  if e.action = 4 ∧ s.modeBad (e.arg 0 3) (e.arg 3 1) = true then s.schedReply e (refusal .badParam)
  else
    let late := decide (e.k < eff)
    let s := State.stageList eff (s.schedActs e) s
    let s := if late then (s.incSat R.ARR_CNT F.ARR_CNT_LATE).raise 0x070A 0x631 (detail8 e.k ++ detail8 eff) else s
    s.schedReply e { doneAt eff with late := late }

/-- The first block whose cutoff has not passed for an entry. -/
def State.schedOpen (s : State) (e : SchedEntry) : Nat := s.openFor (s.schedActs e)

/-- An entry of a controller with a schedule ID. -/
def schedIs (i id : Nat) (e : SchedEntry) : Bool := e.ctrl == i && e.id == id

/-- The entry leaves the table. -/
def State.schedDrop (s : State) (i id : Nat) : State :=
  s.modZv (fun z => { z with sched := z.sched.filter (fun e => !schedIs i id e) })

/-- The pending entry of a controller with a schedule ID. -/
def State.schedFind (s : State) (i id : Nat) : Option SchedEntry := s.net.zv.sched.find? (schedIs i id)

/-- CANCEL: the status of one that finds no entry is a free value. -/
def State.schedCancel (s : State) (e : SchedEntry) : State :=
  match s.schedFind e.ctrl e.id with
  | some old => ((s.schedDrop e.ctrl e.id).schedReply old (refusal .aborted)).schedReply e (doneAt s.clk.blk)
  | none =>
    let (st, s) := s.fresh 8
    let (bs, s) := s.zvRecord (some e.id) (refusal .badParam)
    s.zvReply (some e.ctrl) e.seq e.mac 4 (replyFlags false) (bs.set 2 st)

/-- A SCHEDULE message with its fields. -/
def State.schedTake (s : State) (e : SchedEntry) : State :=
  if 4 < e.action ∨ s.clk.blk + schedAhead < e.k ∨ e.argsOk = false then s.schedReply e (refusal .badParam)
  else if e.action = 0 then s.schedCancel e
  else
    match s.schedFind e.ctrl e.id with
    | none =>
      if schedMax ≤ s.net.zv.sched.length then s.schedReply e (refusal .refusedBusy)
      else if s.schedOpen e ≤ e.k then s.modZv (fun z => { z with sched := z.sched ++ [e] })
      else s.schedApply e (s.schedOpen e)
    | some old =>
      let s := (s.schedDrop e.ctrl e.id).schedReply old superseded
      if s.schedOpen e ≤ e.k then s.modZv (fun z => { z with sched := z.sched ++ [e] })
      else s.schedApply e (s.schedOpen e)

/-- ZV_SCHEDULE (R197 to R199). -/
def execZvSchedule (m : ZvMsg) (s : State) : Out :=
  .next (s.zvAccept 4 m (fun e s =>
    match e with
    | some i =>
      let p := m.payload
      if p.length = 32 then
        s.schedTake ⟨i, m.src, bytesAt p 2 2, bytesAt p 8 8, bytesAt p 0 1, p.drop 16, m.seq⟩
      else s.zvStatus e 4 m (tagOf p) (refusal .badParam)
    | none => s))

/-- SCHEDULE_STAGE (R199): the commit cutoff of K has come for the entry of a controller. -/
def execScheduleStage (i : Fin 8) (id : Nat) (s : State) : Out :=
  .next (match s.schedFind i id with
  | some e => if e.k < s.schedOpen e then (s.schedDrop i id).schedApply e (max e.k (s.clk.blk + 1)) else s
  | none => s)

/-! ### PRIORITY (R200) -/

/-- ZV_PRIORITY (R200): no reply is described. -/
def execZvPriority (m : ZvMsg) (s : State) : Out :=
  let st := bytesAt m.payload 0 1
  .next (s.zvAccept 5 m (fun e s =>
    if e.isSome ∧ m.payload.length = 16 ∧ st ≤ 1 then
      let act := Act.prioNet (st == 1) (bytesAt m.payload 1 3)
      s.stageAct ⟨none, max (bytesAt m.payload 8 8) (s.openFor [act]), rankPart, none, act⟩
    else s))

/-! ### COMPLETION_POST (R347, R196, R201, R334) -/

/-- A completion of a carried descriptor is answered with its record, unless it is silent (R196). -/
def State.postMessage (s : State) (o : Origin) (i typ : Nat) : State :=
  let s := match s.postable o with
    | some (f, c) =>
      let s1 := s.dropFlight o
      let here (x : ZvCmd) : Bool := decide (x.id = DescId.mk o f.ord)
      if silent f c then s1.modZv (fun z => { z with cmds := z.cmds.filter (fun x => !here x) })
      else
        match s1.net.zv.cmds.find? here with
        | some x =>
          (s1.modZv (fun z => { z with cmds := z.cmds.erase x })).zvReply (some i) x.seq x.mac typ (replyFlags false) (f.record c)
        | none => s1.zvSendOwn (s1.macAt (R.NET_ZV_CTRL_LO i) (R.NET_ZV_CTRL_HI i)) typ (replyFlags false) (f.record c)
    | none => s
  s.zvPumpAll o

/-- COMPLETION_POST (R347, R362): the oldest descriptor of an origin has its completion, and nothing holds it. -/
def execCompletionPost (org : Origin) (s : State) : Out :=
  match org with
  | .cmd => .next (s.postRing 0 1 .cmd)
  | .mcmd => .next (s.postRing 3 4 .mcmd)
  | .smbus => execSmbDescriptorDone s
  | .param i => .next (s.postMessage (.param i) i 3)
  | .health i => .next (s.postMessage (.health i) i 6)

/-! ### BLOCK_COUNTER_RELOAD (R29, R30, R181, R233) -/

/-- The array-time block index that the counter takes at a boundary: after a step the nearest one, else the index of R12. -/
def State.reloadTo (s : State) : Nat :=
  let q := s.clk.now3 / 500000
  let r := s.clk.now3 % 500000
  if s.net.ptp.step then
    if r < 250000 then q else if 250000 < r then q + 1 else q + (Config.roundUp s.clk.now3 500000).toNat
  else q

/-- Pending entries whose block has been skipped are applied at block k, and reported as late. -/
def State.schedSkipped (k : Nat) : List SchedEntry → State → State
  | [], s => s
  | e :: es, s =>
    State.schedSkipped k es (if e.k < k then (s.schedDrop e.ctrl e.id).schedApply e k else s)

/-- BLOCK_COUNTER_RELOAD (R29, R30, R181, R233): at a local boundary, with a reload due. -/
def execBlockCounterReload (s : State) : Out :=
  .next (if s.clk.reload && s.clk.run && s.clk.smp == 0 then
    let old := s.clk.blk
    let new := s.reloadTo
    let step := s.net.ptp.step
    let s := (s.modClk (fun y => { y with blk := new, slips := 0, reload := false })).renumber old new
    let s := s.modPtp (fun x => { x with step := false })
    let s := if step then s.raise 0x0705 0x630 (detail8 old ++ detail8 new) else s
    let s := if s.power.hubUp then State.aheadRestart new (List.range 8) s else s
    (State.schedSkipped new s.net.zv.sched s).commitDue new
  else s)

/-! ### TETHER_BOOT (R292, R293) -/

/-- The pages whose registers a boot image may write. -/
def bootPage (a : Nat) : Bool := [0x6, 0x7, 0x9, 0xC, 0xD].contains (a / 0x1000)

/-- One pair of the image: a page outside the list is skipped. -/
def State.bootPair (s : State) (a : Nat) (v : Word) : State :=
  if !bootPage a then s.setF R.TTH_BOOT_STS F.TTH_BOOT_STS_SKIPPED 1
  else if !regPresent a then s
  else
    let shown := s.rd a
    let bad := s.refusedBits a shown v
    let s := if bad = 0 then s else s.guardErr a shown v
    let w := mix v shown bad
    let m := nowMask a &&& ~~~ bad
    let s := if m = 0 then s else s.applyNow a m w
    if rwsMask a = 0 then s else s.stageNext rankPart (.reg a w false)

/-- The pairs of the image in order. -/
def State.bootPairs : List (Nat × Word) → State → State
  | [], s => s
  | (a, v) :: ps, s => State.bootPairs ps (s.bootPair a v)

/-- The pairs of a copy are applied, and PAIRS and SRC say so. -/
def State.bootFrom (s : State) (src : Nat) (ws : List Word) : State :=
  let ps := pairsOf ws
  ((State.bootPairs ps s).setF R.TTH_BOOT_STS F.TTH_BOOT_STS_PAIRS ps.length).setF R.TTH_BOOT_STS F.TTH_BOOT_STS_SRC src

/-- F selects a copy of the boot image (R293) and applies its pairs. -/
def State.bootSelect (s : State) : State :=
  match s.tthCopy 0, s.tthCopy 1 with
  | some (g0, w0), some (g1, w1) =>
    if g0 < g1 then s.bootFrom 2 w1
    else if g1 < g0 ∨ w0 = w1 then s.bootFrom 1 w0
    else (s.setF R.TTH_BOOT_STS F.TTH_BOOT_STS_DIVERGENT 1).raiseF 0x0909 0x0C20
  | some (_, w0), none => s.bootFrom 1 w0
  | none, some (_, w1) => s.bootFrom 2 w1
  | none, none => s

/-- TETHER_BOOT (R292): within 5 ms of the power-good of the converter rail. -/
def execTetherBoot (s : State) : Out :=
  .next (if !s.on R.TTH_STS F.TTH_STS_READY && s.power.mode != .off && s.power.mode != .shelf then
    (s.bootSelect.setF R.TTH_STS F.TTH_STS_READY 1).raiseF 0x0901 0x0C20
  else s)

end Sys2Proof.Machine
end

