-- ==== Sys2Proof/Machine/Dispatch.lean ====
section
/-!
DEFINITION. One arm for each command: a direct call of its meaning.
-/
namespace Sys2Proof.Machine

def exec (i : Instr) (s : State) : Host.Outcome State Fault Refusal :=
  match i with
  | .commitPoint m => Sys2Proof.Machine.execCommitPoint m s
  | .scheduleStage i0 id => Sys2Proof.Machine.execScheduleStage i0 id s
  | .flitReceived dir seq crcOk kind => Sys2Proof.Machine.execFlitReceived dir seq crcOk kind s
  | .linkReplay dir first => Sys2Proof.Machine.execLinkReplay dir first s
  | .linkSampleSubstitute n => Sys2Proof.Machine.execLinkSampleSubstitute n s
  | .fLinkDown => Sys2Proof.Machine.execFLinkDown s
  | .hLinkDown => Sys2Proof.Machine.execHLinkDown s
  | .dieLinkUp => Sys2Proof.Machine.execDieLinkUp s
  | .linkRetrainTimeout => Sys2Proof.Machine.execLinkRetrainTimeout s
  | .parityWordReplaced d up => Sys2Proof.Machine.execParityWordReplaced d up s
  | .dieLinkParity d up => Sys2Proof.Machine.execDieLinkParity d up s
  | .linkParityTrip d up => Sys2Proof.Machine.execLinkParityTrip d up s
  | .collectorSpaceReturn => Sys2Proof.Machine.execCollectorSpaceReturn s
  | .blockSlip => Sys2Proof.Machine.execBlockSlip s
  | .audioPllRefLost => Sys2Proof.Machine.execAudioPllRefLost s
  | .audioPllLocked => Sys2Proof.Machine.execAudioPllLocked s
  | .parisonEscape n => Sys2Proof.Machine.execParisonEscape n s
  | .afeModeChange a n v => Sys2Proof.Machine.execAfeModeChange a n v s
  | .afeGainWrite a n v => Sys2Proof.Machine.execAfeGainWrite a n v s
  | .gainStep n => Sys2Proof.Machine.execGainStep n s
  | .afeZcTimeout n => Sys2Proof.Machine.execAfeZcTimeout n s
  | .micbiasOvercurrent j => Sys2Proof.Machine.execMicbiasOvercurrent j s
  | .pdmStuck k => Sys2Proof.Machine.execPdmStuck k s
  | .pdmWireToggle k => Sys2Proof.Machine.execPdmWireToggle k s
  | .jackInserted j ts => Sys2Proof.Machine.execJackInserted j ts s
  | .jackRemoved j ts => Sys2Proof.Machine.execJackRemoved j ts s
  | .modulatorRelease c => Sys2Proof.Machine.execModulatorRelease c s
  | .chainSettled c => Sys2Proof.Machine.execChainSettled c s
  | .fltCoefWinWrite a i0 v => Sys2Proof.Machine.execFltCoefWinWrite a i0 v s
  | .fltSwapGo a c v => Sys2Proof.Machine.execFltSwapGo a c v s
  | .bankFadeEnd c => Sys2Proof.Machine.execBankFadeEnd c s
  | .syncBallEdge => Sys2Proof.Machine.execSyncBallEdge s
  | .fltSwSync a v => Sys2Proof.Machine.execFltSwSync a v s
  | .syncArm a w => Sys2Proof.Machine.execSyncArm a w s
  | .inputOverRange c k smp => Sys2Proof.Machine.execInputOverRange c k smp s
  | .modulatorOverload n => Sys2Proof.Machine.execModulatorOverload n s
  | .modulatorResetEnd n persists => Sys2Proof.Machine.execModulatorResetEnd n persists s
  | .inputThresholdUp c m k smp => Sys2Proof.Machine.execInputThresholdUp c m k smp s
  | .inputThresholdDown c m k smp => Sys2Proof.Machine.execInputThresholdDown c m k smp s
  | .fltCntClr a v => Sys2Proof.Machine.execFltCntClr a v s
  | .sapStart a d v => Sys2Proof.Machine.execSapStart a d v s
  | .sapFirstFrame d rate => Sys2Proof.Machine.execSapFirstFrame d rate s
  | .sapSlotStart d i0 timeout => Sys2Proof.Machine.execSapSlotStart d i0 timeout s
  | .sapStop a d v => Sys2Proof.Machine.execSapStop a d v s
  | .sapStopped d => Sys2Proof.Machine.execSapStopped d s
  | .sapShadowApply d n frame => Sys2Proof.Machine.execSapShadowApply d n frame s
  | .sapHoldRelease a d v => Sys2Proof.Machine.execSapHoldRelease a d v s
  | .sapClockLost d => Sys2Proof.Machine.execSapClockLost d s
  | .sapClockRestored d rate => Sys2Proof.Machine.execSapClockRestored d rate s
  | .sapFrameError d => Sys2Proof.Machine.execSapFrameError d s
  | .sapSlip d => Sys2Proof.Machine.execSapSlip d s
  | .srcModeChange a d v => Sys2Proof.Machine.execSrcModeChange a d v s
  | .srcLocked t rate => Sys2Proof.Machine.execSrcLocked t rate s
  | .srcUnlocked t => Sys2Proof.Machine.execSrcUnlocked t s
  | .laneSilent l k smp => Sys2Proof.Machine.execLaneSilent l k smp s
  | .laneActive l k smp => Sys2Proof.Machine.execLaneActive l k smp s
  | .lanePeak l k smp => Sys2Proof.Machine.execLanePeak l k smp s
  | .routeFadeEnd m => Sys2Proof.Machine.execRouteFadeEnd m s
  | .splitFillEnd l => Sys2Proof.Machine.execSplitFillEnd l s
  | .sinkStartCrossing id k smp => Sys2Proof.Machine.execSinkStartCrossing id k smp s
  | .sinkStartTimeout id => Sys2Proof.Machine.execSinkStartTimeout id s
  | .sinkStopCrossing id k smp => Sys2Proof.Machine.execSinkStopCrossing id k smp s
  | .sinkStopTimeout id => Sys2Proof.Machine.execSinkStopTimeout id s
  | .sinkStopFadeEnd id => Sys2Proof.Machine.execSinkStopFadeEnd id s
  | .presetGo a v => Sys2Proof.Machine.execPresetGo a v s
  | .quietRequest => Sys2Proof.Machine.execQuietRequest s
  | .quietEntryAbandon => Sys2Proof.Machine.execQuietEntryAbandon s
  | .quietEntered => Sys2Proof.Machine.execQuietEntered s
  | .quietWake host => Sys2Proof.Machine.execQuietWake host s
  | .outReady => Sys2Proof.Machine.execOutReady s
  | .concealedOut id => Sys2Proof.Machine.execConcealedOut id s
  | .mpCntClr a v => Sys2Proof.Machine.execMpCntClr a v s
  | .engineModeWrite a n v => Sys2Proof.Machine.execEngineModeWrite a n v s
  | .engineRenderStart n => Sys2Proof.Machine.execEngineRenderStart n s
  | .engineRenderDone n words fx => Sys2Proof.Machine.execEngineRenderDone n words fx s
  | .engineDeadlineMiss n => Sys2Proof.Machine.execEngineDeadlineMiss n s
  | .arbMaskChange r => Sys2Proof.Machine.execArbMaskChange r s
  | .arbSnap a v => Sys2Proof.Machine.execArbSnap a v s
  | .engCntClr a v => Sys2Proof.Machine.execEngCntClr a v s
  | .netLinkUp p mbps full => Sys2Proof.Machine.execNetLinkUp p mbps full s
  | .netLinkDown p => Sys2Proof.Machine.execNetLinkDown p s
  | .mdioGo a v => Sys2Proof.Machine.execMdioGo a v s
  | .mdioDone data => Sys2Proof.Machine.execMdioDone data s
  | .frameReceive p f => Sys2Proof.Machine.execFrameReceive p f s
  | .fdbAgeing m => Sys2Proof.Machine.execFdbAgeing m s
  | .pdelayTimer p delay => Sys2Proof.Machine.execPdelayTimer p delay s
  | .ptpSync p gm hops off => Sys2Proof.Machine.execPtpSync p gm hops off s
  | .syncTimeout => Sys2Proof.Machine.execSyncTimeout s
  | .holdoverExpire => Sys2Proof.Machine.execHoldoverExpire s
  | .announceTimeout other => Sys2Proof.Machine.execAnnounceTimeout other s
  | .blockCounterReload => Sys2Proof.Machine.execBlockCounterReload s
  | .listenerFrame st f => Sys2Proof.Machine.execListenerFrame st f s
  | .streamLost st => Sys2Proof.Machine.execStreamLost st s
  | .talkerFrameSend st k smp room => Sys2Proof.Machine.execTalkerFrameSend st k smp room s
  | .zvDiscover m => Sys2Proof.Machine.execZvDiscover m s
  | .discoverReplySend i0 => Sys2Proof.Machine.execDiscoverReplySend i0 s
  | .zvAddress m => Sys2Proof.Machine.execZvAddress m s
  | .zvParam m => Sys2Proof.Machine.execZvParam m s
  | .zvSchedule m => Sys2Proof.Machine.execZvSchedule m s
  | .zvPriority m => Sys2Proof.Machine.execZvPriority m s
  | .zvHealth m => Sys2Proof.Machine.execZvHealth m s
  | .healthReport => Sys2Proof.Machine.execHealthReport s
  | .bridleSlewEnd => Sys2Proof.Machine.execBridleSlewEnd s
  | .netCntClr a v => Sys2Proof.Machine.execNetCntClr a v s
  | .groupMuted g j => Sys2Proof.Machine.execGroupMuted g j s
  | .groupUnmuted g j => Sys2Proof.Machine.execGroupUnmuted g j s
  | .loadTestDone m r => Sys2Proof.Machine.execLoadTestDone m r s
  | .softstartEnd m => Sys2Proof.Machine.execSoftstartEnd m s
  | .pwrStopGainZero c => Sys2Proof.Machine.execPwrStopGainZero c s
  | .pwrStopped m => Sys2Proof.Machine.execPwrStopped m s
  | .restartRampStart c crossing => Sys2Proof.Machine.execRestartRampStart c crossing s
  | .pwrClrFault a m v => Sys2Proof.Machine.execPwrClrFault a m v s
  | .pwrDiagGo a m v => Sys2Proof.Machine.execPwrDiagGo a m v s
  | .pwrCurrentLimit m => Sys2Proof.Machine.execPwrCurrentLimit m s
  | .pwrSustainedTrip m trace => Sys2Proof.Machine.execPwrSustainedTrip m trace s
  | .pwrShortTrip m trace => Sys2Proof.Machine.execPwrShortTrip m trace s
  | .retryAttempt c => Sys2Proof.Machine.execRetryAttempt c s
  | .retryCountReset c => Sys2Proof.Machine.execRetryCountReset c s
  | .pwrDcFault m => Sys2Proof.Machine.execPwrDcFault m s
  | .pdieThermalWarn d => Sys2Proof.Machine.execPdieThermalWarn d s
  | .pdieFoldback d => Sys2Proof.Machine.execPdieFoldback d s
  | .pdieShutdown d => Sys2Proof.Machine.execPdieShutdown d s
  | .pdieThermalRecover d => Sys2Proof.Machine.execPdieThermalRecover d s
  | .pvddUnder rail => Sys2Proof.Machine.execPvddUnder rail s
  | .pvddOver rail => Sys2Proof.Machine.execPvddOver rail s
  | .pvddOk rail => Sys2Proof.Machine.execPvddOk rail s
  | .offsetCalDone m trim => Sys2Proof.Machine.execOffsetCalDone m trim s
  | .extReady e => Sys2Proof.Machine.execExtReady e s
  | .extFault e => Sys2Proof.Machine.execExtFault e s
  | .extClrFault a e v => Sys2Proof.Machine.execExtClrFault a e v s
  | .loEnable j => Sys2Proof.Machine.execLoEnable j s
  | .loReady j => Sys2Proof.Machine.execLoReady j s
  | .loOvercurrent j => Sys2Proof.Machine.execLoOvercurrent j s
  | .hpOvercurrent => Sys2Proof.Machine.execHpOvercurrent s
  | .hpJackInsert => Sys2Proof.Machine.execHpJackInsert s
  | .hpProbeDone zl zr => Sys2Proof.Machine.execHpProbeDone zl zr s
  | .hpRemoved ts => Sys2Proof.Machine.execHpRemoved ts s
  | .pwrCntClr a v => Sys2Proof.Machine.execPwrCntClr a v s
  | .tthGwinWrite a v => Sys2Proof.Machine.execTthGwinWrite a v s
  | .tetherScrub set_ node f => Sys2Proof.Machine.execTetherScrub set_ node f s
  | .tetherVoteMasked o w0 w1 w2 => Sys2Proof.Machine.execTetherVoteMasked o w0 w1 w2 s
  | .tetherFault o w0 w1 w2 => Sys2Proof.Machine.execTetherFault o w0 w1 w2 s
  | .tthClrFault a o v => Sys2Proof.Machine.execTthClrFault a o v s
  | .takeoverRequest => Sys2Proof.Machine.execTakeoverRequest s
  | .hubPowerGoodLow => Sys2Proof.Machine.execHubPowerGoodLow s
  | .prioBallChange active => Sys2Proof.Machine.execPrioBallChange active s
  | .tthPlayGo a v => Sys2Proof.Machine.execTthPlayGo a v s
  | .tthPlayStop a v => Sys2Proof.Machine.execTthPlayStop a v s
  | .messageFrameDecode => Sys2Proof.Machine.execMessageFrameDecode s
  | .messageEnd => Sys2Proof.Machine.execMessageEnd s
  | .messageGapEnd => Sys2Proof.Machine.execMessageGapEnd s
  | .toneCfgWrite a freq v => Sys2Proof.Machine.execToneCfgWrite a freq v s
  | .psapLock => Sys2Proof.Machine.execPsapLock s
  | .servoOpen m => Sys2Proof.Machine.execServoOpen m s
  | .servoClose a m v => Sys2Proof.Machine.execServoClose a m v s
  | .tetherBoot => Sys2Proof.Machine.execTetherBoot s
  | .tthMaintWrite a v => Sys2Proof.Machine.execTthMaintWrite a v s
  | .selftestDone failed => Sys2Proof.Machine.execSelftestDone failed s
  | .tthCntClr a v => Sys2Proof.Machine.execTthCntClr a v s
  | .lclkCalibrate err => Sys2Proof.Machine.execLclkCalibrate err s
  | .detectorFrame f => Sys2Proof.Machine.execDetectorFrame f s
  | .wakeOutputsReady idx => Sys2Proof.Machine.execWakeOutputsReady idx s
  | .hubReady => Sys2Proof.Machine.execHubReady s
  | .gatherSegmentComplete xs => Sys2Proof.Machine.execGatherSegmentComplete xs s
  | .gthGoWrite a v => Sys2Proof.Machine.execGthGoWrite a v s
  | .gthStopWrite a v => Sys2Proof.Machine.execGthStopWrite a v s
  | .snsSwTrigger a c v => Sys2Proof.Machine.execSnsSwTrigger a c v s
  | .senseTimerTick t => Sys2Proof.Machine.execSenseTimerTick t s
  | .sensePwmEvent m centre => Sys2Proof.Machine.execSensePwmEvent m centre s
  | .senseGpioEdge g rising => Sys2Proof.Machine.execSenseGpioEdge g rising s
  | .senseConversionDone c raw => Sys2Proof.Machine.execSenseConversionDone c raw s
  | .sensePause a c v => Sys2Proof.Machine.execSensePause a c v s
  | .senseResume a c v => Sys2Proof.Machine.execSenseResume a c v s
  | .senseDisable a c v => Sys2Proof.Machine.execSenseDisable a c v s
  | .snsInjGo a c v => Sys2Proof.Machine.execSnsInjGo a c v s
  | .snsCalGo a c v => Sys2Proof.Machine.execSnsCalGo a c v s
  | .refBufferEnable a on => Sys2Proof.Machine.execRefBufferEnable a on s
  | .refReady => Sys2Proof.Machine.execRefReady s
  | .snsCalTableWrite a gain v => Sys2Proof.Machine.execSnsCalTableWrite a gain v s
  | .tdacSwitchWrite a v => Sys2Proof.Machine.execTdacSwitchWrite a v s
  | .snsCntClr a v => Sys2Proof.Machine.execSnsCntClr a v s
  | .dmaError t => Sys2Proof.Machine.execDmaError t s
  | .spiTransaction addr op => Sys2Proof.Machine.execSpiTransaction addr op s
  | .smbSetPointer p pecOk => Sys2Proof.Machine.execSmbSetPointer p pecOk s
  | .smbReadRegister => Sys2Proof.Machine.execSmbReadRegister s
  | .smbReadHealth => Sys2Proof.Machine.execSmbReadHealth s
  | .smbSubmit d pecOk => Sys2Proof.Machine.execSmbSubmit d pecOk s
  | .smbReadMcpl => Sys2Proof.Machine.execSmbReadMcpl s
  | .smbAlertResponse => Sys2Proof.Machine.execSmbAlertResponse s
  | .smbDescriptorDone => Sys2Proof.Machine.execSmbDescriptorDone s
  | .ringEnable a r => Sys2Proof.Machine.execRingEnable a r s
  | .ringDisableDrain a r => Sys2Proof.Machine.execRingDisableDrain a r s
  | .ringDisableAbort a r tags => Sys2Proof.Machine.execRingDisableAbort a r tags s
  | .ringDrainDone r => Sys2Proof.Machine.execRingDrainDone r s
  | .doorbellRing a r v entries => Sys2Proof.Machine.execDoorbellRing a r v entries s
  | .vectorRearm a k v => Sys2Proof.Machine.execVectorRearm a k v s
  | .vectorFire k => Sys2Proof.Machine.execVectorFire k s
  | .descriptorFetch mgmt bytes payload => Sys2Proof.Machine.execDescriptorFetch mgmt bytes payload s
  | .completionPost org => Sys2Proof.Machine.execCompletionPost org s
  | .functionLevelReset => Sys2Proof.Machine.execFunctionLevelReset s
  | .pcieLinkDown => Sys2Proof.Machine.execPcieLinkDown s
  | .pcieLinkUp bme msix fmask vmask => Sys2Proof.Machine.execPcieLinkUp bme msix fmask vmask s
  | .laneSource org d => Sys2Proof.Machine.execLaneSource org d s
  | .laneTrim org d => Sys2Proof.Machine.execLaneTrim org d s
  | .laneDetect org d => Sys2Proof.Machine.execLaneDetect org d s
  | .busInput org d => Sys2Proof.Machine.execBusInput org d s
  | .busCfg org d => Sys2Proof.Machine.execBusCfg org d s
  | .sink org d => Sys2Proof.Machine.execSink org d s
  | .sinkDynamics org d => Sys2Proof.Machine.execSinkDynamics org d s
  | .presetStore org d => Sys2Proof.Machine.execPresetStore org d s
  | .presetApply org d => Sys2Proof.Machine.execPresetApply org d s
  | .filterSwap org d => Sys2Proof.Machine.execFilterSwap org d s
  | .filterCoef org d => Sys2Proof.Machine.execFilterCoef org d s
  | .frontEndSync org d => Sys2Proof.Machine.execFrontEndSync org d s
  | .regWrite org d => Sys2Proof.Machine.execRegWrite org d s
  | .regWriteMasked org d => Sys2Proof.Machine.execRegWriteMasked org d s
  | .regWriteRun org d => Sys2Proof.Machine.execRegWriteRun org d s
  | .generator org d => Sys2Proof.Machine.execGenerator org d s
  | .progLoad org d => Sys2Proof.Machine.execProgLoad org d s
  | .progStart org d => Sys2Proof.Machine.execProgStart org d s
  | .engineMode org d => Sys2Proof.Machine.execEngineMode org d s
  | .paramWrite org d => Sys2Proof.Machine.execParamWrite org d s
  | .irLoad org d => Sys2Proof.Machine.execIrLoad org d s
  | .runaheadSet org d => Sys2Proof.Machine.execRunaheadSet org d s
  | .runaheadStatus org d => Sys2Proof.Machine.execRunaheadStatus org d s
  | .gatherStart org d => Sys2Proof.Machine.execGatherStart org d s
  | .gatherStop org d => Sys2Proof.Machine.execGatherStop org d s
  | .hostStreamStart org d => Sys2Proof.Machine.execHostStreamStart org d s
  | .hostStreamStop org d => Sys2Proof.Machine.execHostStreamStop org d s
  | .tetherGains org d => Sys2Proof.Machine.execTetherGains org d s
  | .tetherMode org d => Sys2Proof.Machine.execTetherMode org d s
  | .tetherFaultClear org d => Sys2Proof.Machine.execTetherFaultClear org d s
  | .tetherSelftest org d => Sys2Proof.Machine.execTetherSelftest org d s
  | .messagePlay org d => Sys2Proof.Machine.execMessagePlay org d s
  | .messageStop org d => Sys2Proof.Machine.execMessageStop org d s
  | .senseTrigger org d => Sys2Proof.Machine.execSenseTrigger org d s
  | .senseInject org d => Sys2Proof.Machine.execSenseInject org d s
  | .senseCalibrate org d => Sys2Proof.Machine.execSenseCalibrate org d s
  | .outputOffsetCal org d => Sys2Proof.Machine.execOutputOffsetCal org d s
  | .outputClearFault org d => Sys2Proof.Machine.execOutputClearFault org d s
  | .lockAcquire org d => Sys2Proof.Machine.execLockAcquire org d s
  | .lockRelease org d => Sys2Proof.Machine.execLockRelease org d s
  | .lockDiscard org d => Sys2Proof.Machine.execLockDiscard org d s
  | .lockRenew org d => Sys2Proof.Machine.execLockRenew org d s
  | .leaseExpiry k => Sys2Proof.Machine.execLeaseExpiry k s
  | .lckOwnerReset a owner => Sys2Proof.Machine.execLckOwnerReset a owner s
  | .lckCntClr a v => Sys2Proof.Machine.execLckCntClr a v s
  | .persist org d => Sys2Proof.Machine.execPersist org d s
  | .journalRead org d => Sys2Proof.Machine.execJournalRead org d s
  | .firmwareWrite org d => Sys2Proof.Machine.execFirmwareWrite org d s
  | .firmwareSelect org d => Sys2Proof.Machine.execFirmwareSelect org d s
  | .powerMode org d => Sys2Proof.Machine.execPowerMode org d s
  | .messageStore org d => Sys2Proof.Machine.execMessageStore org d s
  | .tetherImageStore org d => Sys2Proof.Machine.execTetherImageStore org d s
  | .metrologyRead org d => Sys2Proof.Machine.execMetrologyRead org d s
  | .nop org d => Sys2Proof.Machine.execNop org d s
  | .hifCntClr a v => Sys2Proof.Machine.execHifCntClr a v s
  | .memSingleBitError st addr => Sys2Proof.Machine.execMemSingleBitError st addr s
  | .memUncorrectable st addr place => Sys2Proof.Machine.execMemUncorrectable st addr place s
  | .stageResume g => Sys2Proof.Machine.execStageResume g s
  | .sramScrub st addr find => Sys2Proof.Machine.execSramScrub st addr find s
  | .dramScrub addr find => Sys2Proof.Machine.execDramScrub addr find s
  | .hubReset => Sys2Proof.Machine.execHubReset s
  | .mcWatchdogExpire => Sys2Proof.Machine.execMcWatchdogExpire s
  | .syspllLockLoss => Sys2Proof.Machine.execSyspllLockLoss s
  | .mlinkFrame f => Sys2Proof.Machine.execMlinkFrame f s
  | .mlinkSecondMarker => Sys2Proof.Machine.execMlinkSecondMarker s
  | .evtDetailSelect a v => Sys2Proof.Machine.execEvtDetailSelect a v s
  | .memInject a v => Sys2Proof.Machine.execMemInject a v s
  | .memCntClr a v => Sys2Proof.Machine.execMemCntClr a v s
  | .mStart cause => Sys2Proof.Machine.execMStart cause s
  | .mSupplyRemove => Sys2Proof.Machine.execMSupplyRemove s
  | .mReadRequest => Sys2Proof.Machine.execMReadRequest s
  | .integrationSecond m ver => Sys2Proof.Machine.execIntegrationSecond m ver s
  | .minuteClose vbak => Sys2Proof.Machine.execMinuteClose vbak s
  | .calendarTick => Sys2Proof.Machine.execCalendarTick s
  | .calendarTrim temp => Sys2Proof.Machine.execCalendarTrim temp s
  | .calendarStop => Sys2Proof.Machine.execCalendarStop s
  | .muartGapTimeout => Sys2Proof.Machine.execMuartGapTimeout s
  | .status r => Sys2Proof.Machine.execStatus r s
  | .read r => Sys2Proof.Machine.execRead r s
  | .ack r => Sys2Proof.Machine.execAck r s
  | .head r => Sys2Proof.Machine.execHead r s
  | .setTime r => Sys2Proof.Machine.execSetTime r s
  | .settings r => Sys2Proof.Machine.execSettings r s
  | .calRead r => Sys2Proof.Machine.execCalRead r s
  | .calSet r => Sys2Proof.Machine.execCalSet r s
  | .calMeasure r => Sys2Proof.Machine.execCalMeasure r s
  | .calMeasureDone vals => Sys2Proof.Machine.execCalMeasureDone vals s
  | .calCommit r => Sys2Proof.Machine.execCalCommit r s
  | .seal r => Sys2Proof.Machine.execSeal r s
  | .calCheck r => Sys2Proof.Machine.execCalCheck r s
  | .calCheckDone vals => Sys2Proof.Machine.execCalCheckDone vals s
  | .calTimeRead a => Sys2Proof.Machine.execCalTimeRead a s
  | .loLatchRead a addr => Sys2Proof.Machine.execLoLatchRead a addr s
  | .powerOn vsys testen => Sys2Proof.Machine.execPowerOn vsys testen s
  | .resetN testen => Sys2Proof.Machine.execResetN testen s
  | .vsysFail => Sys2Proof.Machine.execVsysFail s
  | .bootRomStart readErrA readErrB => Sys2Proof.Machine.execBootRomStart readErrA readErrB s
  | .bootseal a => Sys2Proof.Machine.execBootseal a s
  | .journalRestoreDone => Sys2Proof.Machine.execJournalRestoreDone s
  | .recoveryGo a v => Sys2Proof.Machine.execRecoveryGo a v s
  | .recoveryDone ok => Sys2Proof.Machine.execRecoveryDone ok s
  | .listenOutputsZero idx => Sys2Proof.Machine.execListenOutputsZero idx s
  | .listenRailRemove => Sys2Proof.Machine.execListenRailRemove s
  | .listenEntryCancel source => Sys2Proof.Machine.execListenEntryCancel source s
  | .gpioWake k => Sys2Proof.Machine.execGpioWake k s
  | .journalCompact j => Sys2Proof.Machine.execJournalCompact j s
  | .journalCompactDone j => Sys2Proof.Machine.execJournalCompactDone j s
  | .jnlCompactGo a v => Sys2Proof.Machine.execJnlCompactGo a v s
  | .jnlCntClr a v => Sys2Proof.Machine.execJnlCntClr a v s
  | .registerWrite a addr v be => Sys2Proof.Machine.execRegisterWrite a addr v be s
  | .commitHoldSet a => Sys2Proof.Machine.execCommitHoldSet a s
  | .commitHoldRelease a => Sys2Proof.Machine.execCommitHoldRelease a s
  | .mirrorRefresh a v => Sys2Proof.Machine.execMirrorRefresh a v s
  | .mirrorRefreshArrive => Sys2Proof.Machine.execMirrorRefreshArrive s
  | .fWriteApply => Sys2Proof.Machine.execFWriteApply s
  | .glbCntClr a v => Sys2Proof.Machine.execGlbCntClr a v s
  | .tstSelWrite a k v => Sys2Proof.Machine.execTstSelWrite a k v s
  | .tstCntClr a v => Sys2Proof.Machine.execTstCntClr a v s
  | .jtagRegwin w => Sys2Proof.Machine.execJtagRegwin w s
  | .jtagTapReset => Sys2Proof.Machine.execJtagTapReset s
  | .audioPllRefReturn => Sys2Proof.Machine.execAudioPllRefReturn s
  | .hubPowerGoodHigh => Sys2Proof.Machine.execHubPowerGoodHigh s
  | .vioGoodChange good mv => Sys2Proof.Machine.execVioGoodChange good mv s
  | .railFault i0 mv => Sys2Proof.Machine.execRailFault i0 mv s
  | .restartRampEnd c => Sys2Proof.Machine.execRestartRampEnd c s
  | .messageStopFadeEnd => Sys2Proof.Machine.execMessageStopFadeEnd s
  | .flashOperationDone res => Sys2Proof.Machine.execFlashOperationDone res s
  | .metrologyReadTimeout => Sys2Proof.Machine.execMetrologyReadTimeout s
  | .pdieCooling d temp => Sys2Proof.Machine.execPdieCooling d temp s
  | .jtagUpdateIr irH irF irM => Sys2Proof.Machine.execJtagUpdateIr irH irF irM s

end Sys2Proof.Machine
end

