-- ==== Sys2Proof/Machine/Step.lean ====
section
/-!
DEFINITION. One step: the command at the front of the queue, or a tick where none waits.
-/
namespace Sys2Proof.Machine

/-- The state with a command taken from its queue: the queue is what followed it. -/
def State.withRest (s : State) (rest : List Instr) : State := { s with pending := rest }

/-- A step: exec of the front command on the state with the queue's rest; on an empty queue time passes. -/
def step (s : State) : Host.Outcome State Fault Refusal :=
  match s.pending with
  | c :: rest => exec c (s.withRest rest)
  | [] => .next s.tick

/-- The state with the command of a word put in front of its queue; unchanged where the word spells none. -/
def State.withFetchWord (s : State) (nbits w : Nat) : State :=
  match decodeTableWord nbits w with
  | some c => { s with pending := c :: s.pending }
  | none => s

end Sys2Proof.Machine
end

