-- ==== Sys2Proof/Safety.lean ====
section
/-!
DEFINITION. What counts as a safe run, and the forms that the state's data keeps.
-/
namespace Sys2Proof

open Machine

/-- A run of n steps from a state reaches a state: it meets no fault and no refusal. -/
def RunsTo (n : Nat) (s t : State) : Prop := core.run n s = .next t

/-- A state is safe: every run from it goes on. -/
def Safe (s : State) : Prop := ∀ n, ∃ t, RunsTo n s t

namespace Machine

/-- Every register file and byte memory of the state has its canonical form. -/
def State.canonical (s : State) : Bool :=
  s.regs.wf && s.mirror.wf && (match s.snap with
    | some p => RegFile.wf p.2
    | none => true) && Mem.wf 0 s.window && Mem.wf 0xFF s.tth.part && Mem.wf 0xFF s.flash.bootA && Mem.wf 0xFF s.flash.bootB

/-- The lists that stand for a fixed number of like things have that length: locks, rings, descriptor queues, engines, front-end
channels, serial directions, output channels, Tether outputs, listeners and controller entries. -/
def State.shaped (s : State) : Bool :=
  s.locks.length == 32 && s.host.rings.length == 16 && s.host.queues.length == 19 && s.eng.engs.length == 8
    && s.fe.chans.length == 16 && s.sap.dirs.length == 8 && s.outs.chans.length == 16 && s.tth.outs.length == 24
    && s.net.ls.length == 16 && s.net.zv.seen.length == 8

/-- A window write acts whole: the checks of R437 pass, no field is refused for its condition (R467), and no earlier write is
on its way to F (R440). -/
def State.accepts (s : State) (ag x : Nat) (v : Word) : Bool :=
  s.windowOk ag x && s.refusedBits x (s.readWord ag x) v == 0 && s.stage.toF.isEmpty

/-- The word that an accepted write leaves in a register: its RW and RWB fields as written, its W1C fields cleared where 1 was
written, everything else as it was (R437 step 4). -/
def State.newWord (s : State) (x : Nat) (v : Word) : Word :=
  mix (s.rd x) v (rwMask x ||| rwbMask x) &&& ~~~ (w1cMask x &&& v)

/-- H's mirror after a write that it has forwarded to F (R438, R440). -/
def State.mirrored (s : State) (x : Nat) (v : Word) : State :=
  (s.modMirror (fun rf => mirrorWrite rf (x, nowMask x, v))).modSnap
    (fun sn => sn.map (fun p => (p.1, mirrorWrite p.2 (x, nowMask x, v))))

/-- The register after an accepted write, on its own die and, for a register of F, in the mirror; what the write runs comes
on top of this. -/
def State.written (s : State) (x : Nat) (v : Word) : State :=
  (if onFront x then s.mirrored x v else s).wr x (s.newWord x v)

/-- The part just after it has read a descriptor: leases that have ended come first, and the origin has counted it (R346, R361). -/
def State.justRead (s : State) (o : Origin) (op : Nat) (d : Desc) : State :=
  ((State.leases (List.range 32) s).newFlight o op d.tag d.noCpl).2

/-- The name that the descriptor read next from an origin has. -/
def State.readId (s : State) (o : Origin) : DescId := ⟨o, ((State.leases (List.range 32) s).queue o).nextOrd⟩

/-- The part as a descriptor of an opcode begins: a change or a timed operation but LOCK_RELEASE has woken it from QUIET (R137). -/
def State.begun (s : State) (o : Origin) (op : Nat) (d : Desc) : State :=
  match opKind op with
  | some k => if wakesQuiet op k then (s.justRead o op d).quietTrigger 0 else s.justRead o op d
  | none => s.justRead o op d

/-- The part reads the descriptor, its origin may give that opcode, and the checks that every opcode has pass; it is not a
member of a sequence (R345, R346, R351, R416). -/
def State.takes (s : State) (o : Origin) (op : Nat) (d : Desc) : Bool :=
  s.reads && s.ringGives o && s.canBegin o d.fence && takesOp o op && !(op == 0xC7 && !(s.justRead o op d).metroFitted)
    && (s.justRead o op d).opAllowed o op && !d.chain
    && (match opKind op with
      | some k => !(s.begun o op d).formBad o { d with op := op } k
      | none => false)

/-- The part after a descriptor has staged a change (R36). -/
def State.stages (s : State) (o : Origin) (op : Nat) (d : Desc) (act : Act) : State :=
  (s.begun o op d).stageDesc (s.readId o) { d with op := op } act

/-- The invariant of the model's data: both of these. -/
def State.Inv (s : State) : Prop := s.canonical = true ∧ s.shaped = true

end Machine

end Sys2Proof
end

