-- ==== Sys2Proof/Certificates/Slice0/Obligations.lean ====
section
/-!
DEFINITION. The statements about the part that provers are asked for: what each command does, what a step is, and what every
step keeps.
-/
open Sys2Proof Sys2Proof.Machine

/-- A good flit whose sequence number is the expected one advances the receiver and clears the NAK that stands; a
flit with a bad CRC makes the receiver name the first missing number in a NAK, and nothing is delivered; a NAK
that names a kept flit is answered with a replay from that flit on, which is counted. Registers are unchanged
but for the replay counter and the WORST level. Substituted samples are added to their counter and, once in a
block, raise the event of the link with a WORST level of at least DEGRADED; a word replaced on a link between F
and a power die counts in that link, once in a second with an event; more than 1,024 of them in a block trip the
four channels of the die. F declares the link down and Tether takes its cause LINK; H clears UP, counts the
outage and raises the event; 64 good flits in each direction bring UP and a refresh of the mirror; 600 blocks
down reset the hub with cause 5; and what waits for the collector enters it in order.
(R19, R21, R22, R23, R24, R45, R276, R373, R374, R469) -/
def Obligations.HFLink : Prop :=
  (∀ (dir : LinkWay) (seq : Fin 256) (kind : FlitKind) (s : State),
      s.power.hubUp = true →
      (s.dirOf dir).rxSeq = seq.val →
      ∃ t, exec (.flitReceived dir seq true kind) s = .next t ∧
        t = s.modDirOf dir (fun _ =>
            { (s.dirOf dir).sent ⟨seq.val, kind⟩ with rxSeq := (((s.dirOf dir).sent ⟨seq.val, kind⟩).rxSeq + 1) % 256, nak := none, good := ((s.dirOf dir).sent ⟨seq.val, kind⟩).good + 1 }) ∧
        (t.dirOf dir).rxSeq = (seq.val + 1) % 256 ∧
        (t.dirOf dir).nak = none ∧
        t.regs = s.regs ∧
        t.out = s.out) ∧
  (∀ (dir : LinkWay) (seq : Fin 256) (kind : FlitKind) (s : State),
      s.power.hubUp = true →
      ∃ t, exec (.flitReceived dir seq false kind) s = .next t ∧
        t = (s.modDirOf dir (fun _ =>
            { (s.dirOf dir).sent ⟨seq.val, kind⟩ with nak := some ((s.dirOf dir).sent ⟨seq.val, kind⟩).rxSeq, good := 0 })).emit (.nak dir ((s.dirOf dir).sent ⟨seq.val, kind⟩).rxSeq) ∧
        (t.dirOf dir).rxSeq = (s.dirOf dir).rxSeq ∧
        (t.dirOf dir).nak = some (s.dirOf dir).rxSeq ∧
        t.out = .nak dir (s.dirOf dir).rxSeq :: s.out ∧
        t.regs = s.regs) ∧
  (∀ (dir : LinkWay) (first : Fin 256) (s : State),
      (s.dirOf dir).nak = some first.val →
      (s.dirOf dir).kept.dropWhile (fun f => f.seq != first.val) ≠ [] →
      ∃ t, exec (.linkReplay dir first) s = .next t ∧
        t = (((s.modDirOf dir
            (fun x => { x with nak := none, resend := (s.dirOf dir).kept.dropWhile (fun f => f.seq != first.val) })).incSat R.MEM_LINK_CNT F.MEM_LINK_CNT_REPLAY).worst 1).emit (.flits dir (((s.dirOf dir).kept.dropWhile (fun f => f.seq != first.val)).map (·.seq))) ∧
        (t.dirOf dir).resend = (s.dirOf dir).kept.dropWhile (fun f => f.seq != first.val) ∧
        (t.dirOf dir).nak = none ∧
        t.fld R.MEM_LINK_CNT F.MEM_LINK_CNT_REPLAY = min (s.fld R.MEM_LINK_CNT F.MEM_LINK_CNT_REPLAY + 1) 0xFFFF ∧
        t.out = .flits dir (((s.dirOf dir).kept.dropWhile (fun f => f.seq != first.val)).map (·.seq)) :: s.out) ∧
  (∀ (n : Nat) (s : State),
      n ≠ 0 →
      s.link.fUp = true →
      ∃ t, exec (.linkSampleSubstitute n) s = .next t ∧
        t = (if s.link.substSeen then s.addSat R.MEM_LINK_CNT F.MEM_LINK_CNT_SUBST n else
            (((s.addSat R.MEM_LINK_CNT F.MEM_LINK_CNT_SUBST n).modLink
            (fun y => { y with substSeen := true })).degradedCount).raiseF 0x0201 0x0E01) ∧
        t.fld R.MEM_LINK_CNT F.MEM_LINK_CNT_SUBST = min (s.fld R.MEM_LINK_CNT F.MEM_LINK_CNT_SUBST + n) 0xFFFF ∧
        t.link.substSeen = true ∧
        t.link.fUp = true ∧
        t.stage = s.stage) ∧
  (∀ (d : Fin 2) (up : Bool) (s : State),
      ∃ t, exec (.parityWordReplaced d up) s = .next t ∧
        t = ((s.incSat (R.PWR_LINK_CNT d) (if up then F.PWR_LINK_CNT_UP else F.PWR_LINK_CNT_DOWN)).worst 1).modLink
            (fun l => { l with parBlk := l.parBlk.modify (parLink d up) (· + 1), parSec := l.parSec.set (parLink d up) true }) ∧
        t.link.parBlk = s.link.parBlk.modify (2 * d.val + up.toNat) (· + 1) ∧
        t.link.parSec = s.link.parSec.set (2 * d.val + up.toNat) true ∧
        t.fld (R.PWR_LINK_CNT d) (if up then F.PWR_LINK_CNT_UP else F.PWR_LINK_CNT_DOWN) = min (s.fld
            (R.PWR_LINK_CNT d) (if up then F.PWR_LINK_CNT_UP else F.PWR_LINK_CNT_DOWN) + 1) 0xFFFF ∧
        t.outs = s.outs) ∧
  (∀ (d : Fin 2) (up : Bool) (s : State),
      s.link.parSec.getD (2 * d.val + up.toNat) false = true →
      s.rested (2 ^ 32 + (2 * d.val + up.toNat)) second3 = true →
      ∃ t, exec (.dieLinkParity d up) s = .next t ∧
        t = ((s.touch (2 ^ 32 + (2 * d.val + up.toNat))).modLink
            (fun l => { l with parSec := l.parSec.set (2 * d.val + up.toNat) false })).raiseF 0x0202
            (0x0E02 + d.val) [up.toNat]) ∧
  (∀ (d : Fin 2) (up : Bool) (s : State),
      1024 < s.link.parBlk.getD (2 * d.val + up.toNat) 0 →
      ∃ t, exec (.linkParityTrip d up) s = .next t ∧
        t = State.pwrTrips 2 [4 * d.val, 4 * d.val + 1, 4 * d.val + 2, 4 * d.val + 3] s) ∧
  (∀ (s : State),
      s.link.fUp = true →
      ∃ t, exec (.fLinkDown) s = .next t ∧
        t = (s.modLink (fun l => { l with fUp := false, down := { l.down with good := 0 } })).tthLinkLost) ∧
  (∀ (s : State),
      s.power.hubUp = true →
      s.on R.MEM_LINK_STS F.MEM_LINK_STS_UP = true →
      ∃ t, exec (.hLinkDown) s = .next t ∧
        t = (((s.setF R.MEM_LINK_STS F.MEM_LINK_STS_UP 0).incSat R.MEM_LINK_STS F.MEM_LINK_STS_DOWN).modLink
            (fun y => { y with downAt := some s.clk.blk, up := { y.up with good := 0 }, down := { y.down with good := 0 } })).raise 0x0203 0x0E01 ∧
        t.fld R.MEM_LINK_STS F.MEM_LINK_STS_UP = 0 ∧
        t.fld R.MEM_LINK_STS F.MEM_LINK_STS_DOWN = min (s.fld R.MEM_LINK_STS F.MEM_LINK_STS_DOWN + 1)
            (2 ^ F.MEM_LINK_STS_DOWN.w - 1) ∧
        t.link.downAt = some s.clk.blk ∧
        t.link.up.good = 0 ∧
        t.link.down.good = 0 ∧
        t.mirror = s.mirror) ∧
  (∀ (s : State),
      s.power.hubUp = true →
      ∃ t, exec (.collectorSpaceReturn) s = .next t ∧
        t = (s.modCol (fun c => c.takeSpace s.linkUp s.nowNs)).pumpAll) ∧
  (∀ (s : State),
      s.power.hubUp = true →
      s.on R.MEM_LINK_STS F.MEM_LINK_STS_UP = false →
      64 ≤ s.link.down.good →
      64 ≤ s.link.up.good →
      ∃ t, exec (.dieLinkUp) s = .next t ∧
        t = ((if s.link.downAt.isSome then ((((s.setF R.MEM_LINK_STS F.MEM_LINK_STS_UP 1).setF R.GLB_MIRROR_STS
            F.GLB_MIRROR_STS_REFRESHING 1).modLink
            (fun y => { y with fUp := true, downAt := none })).tthLinkBack.spaceReturn).raise 0x0204 0x0E01 else
            ((((s.setF R.MEM_LINK_STS F.MEM_LINK_STS_UP 1).setF R.GLB_MIRROR_STS F.GLB_MIRROR_STS_REFRESHING
            1).modLink (fun y => { y with fUp := true, downAt := none })).tthLinkBack.spaceReturn))).bootEvents ∧
        t.fld R.MEM_LINK_STS F.MEM_LINK_STS_UP = 1 ∧
        t.fld R.GLB_MIRROR_STS F.GLB_MIRROR_STS_REFRESHING = 1 ∧
        t.link.fUp = true ∧
        t.link.downAt = none) ∧
  (∀ (b : Nat) (s : State),
      s.link.downAt = some b →
      s.power.hubUp = true →
      s.on R.MEM_LINK_STS F.MEM_LINK_STS_UP = false →
      b + 600 ≤ s.clk.blk →
      ∃ t, exec (.linkRetrainTimeout) s = .next t ∧
        t = s.hubReset 5 ∧
        t.power.hubUp = false ∧
        t.power.rstCause = 5 ∧
        t.power.rstBlk = s.clk.blk ∧
        t.fld R.MEM_RST_CAUSE F.MEM_RST_CAUSE_CAUSE = 5 ∧
        t.mirror = [] ∧
        t.window = [] ∧
        t.stage.changes = [])

/-- A lost reference sets HOLDOVER, clears LOCK and SLEWING and raises the event; a reference that returns slews;
lock sets LOCK, clears HOLDOVER and SLEWING, runs the blocks and orders the counter reload; a slip of a whole
block is counted and raised. A Sync at an enabled gPTP port whose offset is above 10 µs steps array time; a Sync
below 50 ns counts towards LOCKED; a missing Sync for three intervals gives HOLDOVER, and a minute of that FREE;
with no announce the part is free, and its own grandmaster unless PRIO1 is 255; a measured peer delay sets
AS_CAPABLE and its value, a missing one clears it; at the end of every slew SLEWING clears.
(R29, R30, R46, R103, R105, R178, R179, R180, R205) -/
def Obligations.AudioPllAndArrayTime : Prop :=
  (∀ (s : State),
      s.on R.CLK_APLL_STS F.CLK_APLL_STS_HOLDOVER = false →
      ∃ t, exec (.audioPllRefLost) s = .next t ∧
        t = ((((s.setF R.CLK_APLL_STS F.CLK_APLL_STS_HOLDOVER 1).setF R.CLK_APLL_STS F.CLK_APLL_STS_LOCK 0).setF
            R.CLK_APLL_STS F.CLK_APLL_STS_SLEWING 0).raiseF 0x0103 0x3FF).alignShow ∧
        t.fld R.CLK_APLL_STS F.CLK_APLL_STS_HOLDOVER = 1 ∧
        t.fld R.CLK_APLL_STS F.CLK_APLL_STS_LOCK = 0 ∧
        t.fld R.CLK_APLL_STS F.CLK_APLL_STS_SLEWING = 0 ∧
        t.clk = s.clk) ∧
  (∀ (s : State),
      s.on R.CLK_APLL_STS F.CLK_APLL_STS_HOLDOVER = true →
      ∃ t, exec (.audioPllRefReturn) s = .next t ∧
        t = s.setF R.CLK_APLL_STS F.CLK_APLL_STS_SLEWING 1) ∧
  (∀ (s : State),
      s.power.mode ≠ .listen →
      s.on R.CLK_APLL_STS F.CLK_APLL_STS_LOCK = false →
      ∃ t, exec (.audioPllLocked) s = .next t ∧
        t = s.pllLocks ∧
        t.fld R.CLK_APLL_STS F.CLK_APLL_STS_LOCK = 1 ∧
        t.fld R.CLK_APLL_STS F.CLK_APLL_STS_HOLDOVER = 0 ∧
        t.fld R.CLK_APLL_STS F.CLK_APLL_STS_SLEWING = 0 ∧
        t.clk.run = true ∧
        t.clk.reload = true ∧
        t.clk.blk = s.clk.blk) ∧
  (∀ (s : State),
      s.sap.ref ≠ 3 →
      ∃ t, exec (.blockSlip) s = .next t ∧
        t = (s.modClk (fun c => { c with slips := c.slips + 1 })).raiseF 0x0102 0x3FF []) ∧
  (∀ (p : Fin 2) (gm : BitVec 64) (hops : Nat) (off : Int) (s : State),
      s.on R.ARR_PTP_CFG F.ARR_PTP_CFG_EN = true →
      s.portUp p = true →
      s.on (R.NET_PORT_CFG p) F.NET_PORT_CFG_PTP_EN = true →
      10000 < off.natAbs →
      exec (.ptpSync p gm hops off) s = .next ((let s1 := ((s.setPair R.ARR_PTP_GM_LO R.ARR_PTP_GM_HI gm.toNat).setF R.ARR_PTP_STS F.ARR_PTP_STS_SLAVE_PORT p.val).setF R.ARR_PTP_STS F.ARR_PTP_STS_IS_GM 0
        let s2 := s1.modPtp (fun x => { x with gm := some gm.toNat, hops := hops, lastSync := s.clk.now3 })
        let s3 := if s.net.ptp.gm ≠ some gm.toNat ∨ s2.ptpState = 0 ∨ s2.ptpState = 3 then s2.ptpTo 1 else s2
        (((s3.wr R.ARR_PTP_OFS (BitVec.ofInt 32 (max (-0x80000000) (min 0x7FFFFFFF off)))).timeStep off).modPtp (fun x => { x with near := 0 })).alignShow))) ∧
  (∀ (p : Fin 2) (gm : BitVec 64) (hops : Nat) (off : Int) (s : State),
      s.on R.ARR_PTP_CFG F.ARR_PTP_CFG_EN = false →
      exec (.ptpSync p gm hops off) s = .next (s)) ∧
  (∀ (s : State),
      s.ptpState = 2 →
      s.net.ptp.lastSync + 3 * s.syncInterval3 ≤ s.clk.now3 →
      exec (.syncTimeout) s = .next (s.ptpTo 3)) ∧
  (∀ (s : State),
      s.ptpState = 3 →
      s.net.ptp.holdAt + 60 * second3 ≤ s.clk.now3 →
      exec (.holdoverExpire) s = .next (s.ptpFree)) ∧
  (∀ (s : State),
      s.on R.ARR_PTP_CFG F.ARR_PTP_CFG_EN = true →
      s.fld R.ARR_PTP_CFG F.ARR_PTP_CFG_PRIO1 = 255 →
      exec (.announceTimeout false) s = .next (s.ptpFree)) ∧
  (∀ (s : State),
      s.on R.ARR_PTP_CFG F.ARR_PTP_CFG_EN = true →
      s.fld R.ARR_PTP_CFG F.ARR_PTP_CFG_PRIO1 ≠ 255 →
      exec (.announceTimeout false) s = .next ((s.ptpFree.fresh 64).2.setPair R.ARR_PTP_GM_LO R.ARR_PTP_GM_HI
          (s.ptpFree.fresh 64).1.toNat |>.setF R.ARR_PTP_STS F.ARR_PTP_STS_IS_GM 1)) ∧
  (∀ (p : Fin 2) (d : Nat) (s : State),
      s.on R.ARR_PTP_CFG F.ARR_PTP_CFG_EN = true →
      s.portUp p = true →
      s.on (R.NET_PORT_CFG p) F.NET_PORT_CFG_PTP_EN = true →
      d ≤ 65535 →
      ∃ t, exec (.pdelayTimer p (some d)) s = .next t ∧
        t = (s.setF (R.ARR_PDELAY p) F.ARR_PDELAY_AS_CAPABLE 1).setF (R.ARR_PDELAY p) F.ARR_PDELAY_DELAY d ∧
        t.fld (R.ARR_PDELAY p) F.ARR_PDELAY_AS_CAPABLE = 1 ∧
        t.fld (R.ARR_PDELAY p) F.ARR_PDELAY_DELAY = d ∧
        t.net = s.net ∧
        t.clk = s.clk) ∧
  (∀ (s : State),
      (List.range 16).all (fun i => let x := s.net.bridle.getD i ⟨0, 0, 0⟩; x.cur (s.carrierP i) s.clk.now3 == x.target) = true →
      exec (.bridleSlewEnd) s = .next (s.setF R.ARR_BRIDLE_STS F.ARR_BRIDLE_STS_SLEWING 0))

/-- A zero crossing, or the timeout of the search, moves CUR by 1 dB towards the target and starts the next search;
the timeout also sets ZC_TIMEOUT. Only the gain and status registers of the input and its search time change. An
overcurrent of a bias sets its OC bit and raises the event; a stuck wire sets STUCK and O and raises the event
for both sources, and a toggle refills both chains; a debounced jack change sets its bits, raises the event with
the time of the first change and applies the automatic preset and mode; an edge on the SYNC ball stages a SYNC,
and further edges are ignored until it has been applied. (R54, R56, R59, R60, R61, R72) -/
def Obligations.FrontEndEdgesAndGain : Prop :=
  (∀ (n : Fin 8) (s : State),
      s.on (R.AFE_IN_STS n) F.AFE_IN_STS_STEPPING = true →
      s.fld (R.AFE_IN_GAIN n) F.AFE_IN_GAIN_CUR < s.gainTarget n →
      ∃ t, exec (.gainStep n) s = .next t ∧
        t = s.gainStep n ∧
        t.fld (R.AFE_IN_GAIN n) F.AFE_IN_GAIN_CUR = s.fld (R.AFE_IN_GAIN n) F.AFE_IN_GAIN_CUR + 1 ∧
        t.out = s.out ∧
        t.stage = s.stage) ∧
  (∀ (n : Fin 8) (s : State),
      s.on (R.AFE_IN_STS n) F.AFE_IN_STS_STEPPING = true →
      (s.chan n).gainBy ≤ s.clk.now3 →
      ∃ t, exec (.afeZcTimeout n) s = .next t ∧
        t = (s.gainStep n).setF (R.AFE_IN_STS n) F.AFE_IN_STS_ZC_TIMEOUT 1) ∧
  (∀ (j : Fin 2) (s : State),
      s.bit R.AFE_MICBIAS_CFG j = true →
      exec (.micbiasOvercurrent j) s = .next ((s.setBit R.AFE_MICBIAS_CFG (16 + j) true).raiseF (0x0300 + j) 0x3FF)) ∧
  (∀ (k : Fin 4) (s : State),
      s.captured k = true →
      s.wireStuck k = false →
      exec (.pdmStuck k) s = .next (((((s.setBit R.AFE_PDM_STS k true).setAll F.FLT_OVR_STS_OVR_NOW 1 [R.FLT_OVR_STS
          (8 + 2 * k), R.FLT_OVR_STS (9 + 2 * k)]).setStuck k true).raiseF
          0x0302 (8 + 2 * k)).raiseF 0x0302 (9 + 2 * k))) ∧
  (∀ (k : Fin 4) (s : State),
      s.wireStuck k = true →
      exec (.pdmWireToggle k) s = .next ((((s.setStuck k false).setAll
          F.FLT_OVR_STS_OVR_NOW 0 [R.FLT_OVR_STS (8 + 2 * k), R.FLT_OVR_STS (9 + 2 * k)]).chainReset
          (8 + 2 * k)).chainReset (9 + 2 * k))) ∧
  (∀ (j : Fin 2) (ts : Nat) (s : State),
      s.on (R.AFE_JD_CFG j) F.AFE_JD_CFG_EN = true →
      s.bit R.AFE_JD_STS j = false →
      exec (.jackInserted j ts) s = .next (s.jackChange j true ts)) ∧
  (∀ (j : Fin 2) (ts : Nat) (s : State),
      s.on (R.AFE_JD_CFG j) F.AFE_JD_CFG_EN = true →
      s.bit R.AFE_JD_STS j = true →
      exec (.jackRemoved j ts) s = .next (s.jackChange j false ts)) ∧
  (∀ (s : State),
      s.on R.FLT_SYNC_CTL F.FLT_SYNC_CTL_BALL_EN = true →
      s.stage.changes.any (isSyncFrom .ball) = false →
      exec (.syncBallEdge) s = .next ((s.setF R.FLT_SYNC_STS F.FLT_SYNC_STS_BALL_SEEN 1).stageAt
          ⟨none, if s.clk.now3 + 3000 ≤ s.time3At (s.clk.blk + 1) 0 then s.clk.blk + 1 else s.clk.blk + 2, rankPart, none, .feSync none .ball⟩)) ∧
  (∀ (s : State), s.stage.changes.any (isSyncFrom .ball) = true → exec .syncBallEdge s = .next s)

/-- Sixty blocks after the enable (two for PDM) the modulator is released, READY is set for an analogue channel and
the chain is reset with U set for U samples; the first settled sample clears U, the remaining count and O. A
saturated sample sets SAT and OVR_NOW and counts, and raises the event when the holdoff of the channel has
passed; an overload holds the modulator in reset and its end restarts the chain; a comparator that changes sets
its level and its latch and raises its event if that is enabled. (R69, R71, R74, R76, R77, R78, R80) -/
def Obligations.InputChannelEvents : Prop :=
  (∀ (c : Fin 16) (s : State),
      s.chanOn c = true →
      (s.chan c).released = false →
      (s.chan c).enAt + (if c.val < 8 then 60 else 2) ≤ s.clk.blk →
      ∃ t, exec (.modulatorRelease c) s = .next t ∧
        t = (if c.val < 8 then ((s.modChan c (fun x => { x with released := true })).setF (R.AFE_IN_STS c)
            F.AFE_IN_STS_READY 1).chainReset c else (s.modChan c (fun x => { x with released := true })).chainReset
            c) ∧
        t.fld (R.FLT_SETTLE c) F.FLT_SETTLE_UNSETTLED = 1 ∧
        t.fld (R.FLT_SETTLE c) F.FLT_SETTLE_REMAIN = s.uSamples c ∧
        t.fe.chans = s.fe.chans.modify c (fun x => { x with released := true }) ∧
        (c.val < 8 → t.fld (R.AFE_IN_STS c) F.AFE_IN_STS_READY = 1) ∧
        t.rd R.FLT_SYNC_CNT = s.rd R.FLT_SYNC_CNT ∧
        t.out = s.out) ∧
  (∀ (c : Fin 16) (s : State),
      s.refilling c = true →
      ∃ t, exec (.chainSettled c) s = .next t ∧
        t = ((s.setF (R.FLT_SETTLE c) F.FLT_SETTLE_REMAIN 0).setF (R.FLT_SETTLE c) F.FLT_SETTLE_UNSETTLED 0).setF
            (R.FLT_OVR_STS c) F.FLT_OVR_STS_OVR_NOW 0 ∧
        t.fld (R.FLT_SETTLE c) F.FLT_SETTLE_UNSETTLED = 0 ∧
        t.fld (R.FLT_SETTLE c) F.FLT_SETTLE_REMAIN = 0 ∧
        t.fld (R.FLT_OVR_STS c) F.FLT_OVR_STS_OVR_NOW = 0 ∧
        t.fe = s.fe) ∧
  (∀ (c : Fin 16) (s : State),
      s.fading c = true →
      s.fadeOver c ≤ s.clk.blk →
      exec (.bankFadeEnd c) s = .next (s.fadeEnd c s.clk.blk)) ∧
  (∀ (c : Fin 16) (s : State),
      s.fading c = true →
      s.fadeOver c ≤ s.clk.blk →
      (s.chan c).queued = none →
      ∃ t, exec (.bankFadeEnd c) s = .next t ∧
        t = s.fadeEnd c s.clk.blk ∧
        t.fading c = false ∧
        t.fld (R.FLT_BANK_STS c) F.FLT_BANK_STS_REMAIN = 0 ∧
        t.activeBank c = s.activeBank c ∧
        t.fe = s.fe ∧
        t.out = s.out) ∧
  (∀ (c : Fin 16) (k : Nat) (smp : Fin 16) (s : State),
      (s.chan c).lastOvr = none →
      exec (.inputOverRange c k smp) s = .next (((((s.setF (R.FLT_OVR_STS c) F.FLT_OVR_STS_SAT 1).setF
          (R.FLT_OVR_STS c) F.FLT_OVR_STS_OVR_NOW 1).incSat (R.FLT_OVR_CNT c) F.FLT_OVR_CNT_SAT).modChan c
          (fun x => { x with lastOvr := some k, sats := (16 * k + smp) :: x.sats.take 31 })).raiseFAt 0x0307 c (s.stampOf k smp) [])) ∧
  (∀ (c : Fin 16) (k b : Nat) (smp : Fin 16) (s : State),
      (s.chan c).lastOvr = some b →
      k < b + s.fld R.FLT_EVT_CFG F.FLT_EVT_CFG_OVR_HOLDOFF →
      ∃ t, exec (.inputOverRange c k smp) s = .next t ∧
        t = (((s.setF (R.FLT_OVR_STS c) F.FLT_OVR_STS_SAT 1).setF (R.FLT_OVR_STS c) F.FLT_OVR_STS_OVR_NOW 1).incSat
            (R.FLT_OVR_CNT c) F.FLT_OVR_CNT_SAT).modChan c (fun x => { x with sats := (16 * k + smp) :: x.sats.take 31 }) ∧
        t.fld (R.FLT_OVR_STS c) F.FLT_OVR_STS_SAT = 1 ∧
        t.fld (R.FLT_OVR_STS c) F.FLT_OVR_STS_OVR_NOW = 1 ∧
        t.fld (R.FLT_OVR_CNT c) F.FLT_OVR_CNT_SAT = min (s.fld (R.FLT_OVR_CNT c) F.FLT_OVR_CNT_SAT + 1) 65535 ∧
        t.col = s.col ∧
        (t.chan c).lastOvr = some b) ∧
  (∀ (n : Fin 8) (s : State),
      s.on R.AFE_OVL_CFG F.AFE_OVL_CFG_AUTO_RST = true →
      (s.chan n).released = true →
      s.on (R.AFE_IN_STS n) F.AFE_IN_STS_OVL_NOW = false →
      exec (.modulatorOverload n) s = .next (s.overloadReset n)) ∧
  (∀ (n : Fin 8) (s : State),
      s.on (R.AFE_IN_STS n) F.AFE_IN_STS_OVL_NOW = true →
      exec (.modulatorResetEnd n false) s = .next ((s.setF (R.AFE_IN_STS n) F.AFE_IN_STS_OVL_NOW 0).chainReset n)) ∧
  (∀ (c : Fin 16) (m : Fin 2) (k : Nat) (smp : Fin 16) (s : State),
      s.comparing c m = true →
      s.bit (R.FLT_THR_STS c) m = false →
      s.on (R.FLT_THR_LVL c m) F.FLT_THR_LVL_EVT_UP = true →
      exec (.inputThresholdUp c m k smp) s = .next (((s.setBit (R.FLT_THR_STS c) m true).setBit (R.FLT_THR_STS c)
          (8 + 2 * m) true).raiseFAt (0x0308 + m) c (s.stampOf k smp) [])) ∧
  (∀ (c : Fin 16) (m : Fin 2) (k : Nat) (smp : Fin 16) (s : State),
      s.comparing c m = true →
      s.bit (R.FLT_THR_STS c) m = true →
      s.on (R.FLT_THR_LVL c m) F.FLT_THR_LVL_EVT_DOWN = false →
      exec (.inputThresholdDown c m k smp) s = .next ((s.setBit (R.FLT_THR_STS c) m false).setBit (R.FLT_THR_STS c)
          (9 + 2 * m) true))

/-- The first frame of a watching direction sets RUNNING and CLK_OK, records the rate and begins the converter use;
a slot that starts at its crossing or its timeout is on; the end of a stop clears RUNNING, LOCK and BYPASS; a
lost clock unlocks the direction, clears the rate and raises the event; a restored clock raises its event and
restarts at the first frame. The batches that have crossed apply as one update at a frame sync and leave the
queue, and PENDING clears with the last; a frame error and a slip count, set their sticky bit and raise their
event at most once in a second. (R85, R87, R88, R89, R91, R93, R94, R99, R102) -/
def Obligations.SerialPorts : Prop :=
  (∀ (d : Fin 8) (rate : Nat) (s : State),
      (s.dir d).phase = .watching →
      exec (.sapFirstFrame d rate) s = .next (s.firstFrame d rate)) ∧
  (∀ (d : Fin 8) (rate : Nat) (s : State),
      (s.dir d).phase = .watching →
      rate < 1048576 →
      ∃ t, exec (.sapFirstFrame d rate) s = .next t ∧
        t = s.firstFrame d rate ∧
        t.fld (R.SAP_STS d) F.SAP_STS_RUNNING = 1 ∧
        t.fld (R.SAP_STS d) F.SAP_STS_CLK_OK = 1 ∧
        t.fld (R.SAP_RATE d) F.SAP_RATE_RATE = rate ∧
        t.rd (R.SAP_FRAME_CNT d) = 0 ∧
        t.fld (R.SAP_STS d) F.SAP_STS_LOCK = 0 ∧
        t.out = s.out ∧
        t.col = s.col) ∧
  (∀ (d : Fin 8) (i : Fin 16) (b : Nat) (s : State),
      (s.dir d).slots.getD i .off = .starting b →
      exec (.sapSlotStart d i false) s = .next (s.modDir d (fun x => { x with slots := x.slots.set i .on }))) ∧
  (∀ (d : Fin 8) (i : Fin 16) (b : Nat) (s : State),
      (s.dir d).slots.getD i .off = .starting b →
      s.clk.now3 < b →
      exec (.sapSlotStart d i true) s = .next (s)) ∧
  (∀ (d : Fin 8) (s : State),
      (s.dir d).phase = .stopping →
      ∃ t, exec (.sapStopped d) s = .next t ∧
        t = ((if s.master d then ((((s.setF (R.SAP_STS d) F.SAP_STS_RUNNING 0).setF (R.SAP_STS d)
            F.SAP_STS_LOCK 0).setF (R.SAP_STS d) F.SAP_STS_BYPASS 0).setF (R.SAP_STS d) F.SAP_STS_CLK_OK 0).setF
            (R.SAP_RATE d) F.SAP_RATE_RATE 0 else ((s.setF (R.SAP_STS d) F.SAP_STS_RUNNING 0).setF (R.SAP_STS d)
            F.SAP_STS_LOCK 0).setF (R.SAP_STS d) F.SAP_STS_BYPASS 0)).modDir d
            (fun x => { SapDir.reset with crossing := x.crossing }) ∧
        t.fld (R.SAP_STS d) F.SAP_STS_RUNNING = 0 ∧
        t.fld (R.SAP_STS d) F.SAP_STS_LOCK = 0 ∧
        t.fld (R.SAP_STS d) F.SAP_STS_BYPASS = 0 ∧
        t.sap.dirs = s.sap.dirs.modify d (fun x => { SapDir.reset with crossing := x.crossing }) ∧
        t.out = s.out) ∧
  (∀ (d : Fin 8) (s : State),
      (s.dir d).phase = .running →
      s.master d = false →
      s.on (R.SAP_STS d) F.SAP_STS_CLK_OK = true →
      ∃ t, exec (.sapClockLost d) s = .next t ∧
        t = (if d.val = 6 then (((((s.setF (R.SAP_STS d) F.SAP_STS_CLK_LOST 1).setF (R.SAP_STS d)
            F.SAP_STS_CLK_OK 0).setF (R.SAP_RATE d) F.SAP_RATE_RATE 0).sapUnlock d).raiseF 0x0401
            (sapSource d)).setF R.TTH_PSAP_CFG F.TTH_PSAP_CFG_LOCK 0 else ((((s.setF (R.SAP_STS d)
            F.SAP_STS_CLK_LOST 1).setF (R.SAP_STS d) F.SAP_STS_CLK_OK 0).setF (R.SAP_RATE d)
            F.SAP_RATE_RATE 0).sapUnlock d).raiseF 0x0401 (sapSource d)) ∧
        t.fld (R.SAP_STS d) F.SAP_STS_CLK_LOST = 1 ∧
        t.fld (R.SAP_STS d) F.SAP_STS_CLK_OK = 0 ∧
        t.fld (R.SAP_STS d) F.SAP_STS_LOCK = 0 ∧
        t.fld (R.SAP_RATE d) F.SAP_RATE_RATE = 0 ∧
        (d.val = 6 → t.fld R.TTH_PSAP_CFG F.TTH_PSAP_CFG_LOCK = 0)) ∧
  (∀ (d : Fin 8) (rate : Nat) (s : State),
      (s.dir d).phase = .running →
      s.master d = false →
      s.on (R.SAP_STS d) F.SAP_STS_CLK_OK = false →
      exec (.sapClockRestored d rate) s = .next ((s.raiseF 0x0402 (sapSource d)).firstFrame d rate)) ∧
  (∀ (d : Fin 8) (n frame : Nat) (s : State),
      ((s.dir d).crossing.take n).flatten.isEmpty = false →
      exec (.sapShadowApply d n frame) s = .next ((let s1 := (s.sapApply d ((s.dir d).crossing.take n).flatten frame).modDir d (fun x => { x with crossing := x.crossing.drop n })
        if (s1.dir d).crossing.isEmpty then s1.setF (R.SAP_STS d) F.SAP_STS_PENDING 0 else s1))) ∧
  (∀ (d : Fin 8) (s : State),
      s.on (R.SAP_STS d) F.SAP_STS_RUNNING = true →
      ∃ t, exec (.sapFrameError d) s = .next t ∧
        t = ((s.incSat (R.SAP_ERR_CNT d) F.SAP_ERR_CNT_FRAME_ERR).setF (R.SAP_STS d)
            F.SAP_STS_FRAME_ERR 1).raiseFLimited second3 0x0403 (sapSource d) ∧
        t.fld (R.SAP_ERR_CNT d) F.SAP_ERR_CNT_FRAME_ERR = min (s.fld (R.SAP_ERR_CNT d) F.SAP_ERR_CNT_FRAME_ERR + 1)
            65535 ∧
        t.fld (R.SAP_STS d) F.SAP_STS_FRAME_ERR = 1 ∧
        t.fld (R.SAP_STS d) F.SAP_STS_RUNNING = 1 ∧
        t.sap = s.sap) ∧
  (∀ (d : Fin 8) (s : State),
      (s.dir d).use = .bypass →
      s.synchronous d = false →
      ∃ t, exec (.sapSlip d) s = .next t ∧
        t = ((s.incSat (R.SAP_ERR_CNT d) F.SAP_ERR_CNT_SLIP).setF (R.SAP_STS d)
            F.SAP_STS_SLIP 1).raiseFLimited second3 0x0405 (sapSource d) ∧
        t.fld (R.SAP_ERR_CNT d) F.SAP_ERR_CNT_SLIP = min (s.fld (R.SAP_ERR_CNT d) F.SAP_ERR_CNT_SLIP + 1) 65535 ∧
        t.fld (R.SAP_STS d) F.SAP_STS_SLIP = 1 ∧
        t.sap = s.sap)

/-- A lane that becomes silent sets SILENT, and one that comes back clears it, each with its event where SIL_EVT is
set; a peak sets PEAK and, unless a peak event of the lane was raised within the last 6,000 blocks, raises the
event. The end of a fade, or of the fill of a split change, ends the change of that multiplexer at the present
block; a change whose end has not come is left as it is. The first crossing of a search before its timeout
starts the sink and raises its event with the time of the crossing; at the timeout it fades in over 64 samples
and the timeout is counted; a stop goes to zero at a crossing before the timeout, or by a fade of 64 samples
from the timeout; at its end the sink has stopped. (R112, R113, R127, R128, R129, R130, R131, R132, R133) -/
def Obligations.LanesRoutesAndSinks : Prop :=
  (∀ (l : Fin 128) (k : Nat) (smp : Fin 16) (s : State),
      s.on (R.MP_LANE_STS l) F.MP_LANE_STS_SILENT = false →
      ∃ t, exec (.laneSilent l k smp) s = .next t ∧
        t = s.laneSilent l k smp ∧
        t.fld (R.MP_LANE_STS l) F.MP_LANE_STS_SILENT = 1 ∧
        t.mp = s.mp ∧
        t.stage = s.stage) ∧
  (∀ (l : Fin 128) (k : Nat) (smp : Fin 16) (s : State),
      s.on (R.MP_LANE_STS l) F.MP_LANE_STS_SILENT = true →
      exec (.laneSilent l k smp) s = .next (s)) ∧
  (∀ (l : Fin 128) (k : Nat) (smp : Fin 16) (s : State),
      s.on (R.MP_LANE_STS l) F.MP_LANE_STS_SILENT = true →
      (s.route (.lane l)).cur.en = true →
      ∃ t, exec (.laneActive l k smp) s = .next t ∧
        t = s.laneActive l k smp ∧
        t.fld (R.MP_LANE_STS l) F.MP_LANE_STS_SILENT = 0 ∧
        t.mp = s.mp ∧
        t.stage = s.stage) ∧
  (∀ (l : Fin 128) (k : Nat) (smp : Fin 16) (s : State),
      s.on (R.MP_LANE_DET l) F.MP_LANE_DET_PK_EN = true →
      s.mp.peaks.any (fun p => p.1 == l.val && decide (16 * k + smp.val < p.2 + 96000)) = false →
      exec (.lanePeak l k smp) s = .next (((s.setF (R.MP_LANE_STS l) F.MP_LANE_STS_PEAK 1).modMp
          (fun y => { y with peaks := putKey y.peaks l.val (16 * k + smp) })).raiseAt 0x0503 l (s.stampOf k smp) [])) ∧
  (∀ (l : Fin 128) (k : Nat) (smp : Fin 16) (s : State),
      s.on (R.MP_LANE_DET l) F.MP_LANE_DET_PK_EN = true →
      s.mp.peaks.any (fun p => p.1 == l.val && decide (16 * k + smp.val < p.2 + 96000)) = true →
      exec (.lanePeak l k smp) s = .next (s.setF (R.MP_LANE_STS l) F.MP_LANE_STS_PEAK 1)) ∧
  (∀ (l : Fin 128) (s : State),
      (s.route (.lane l)).split ≠ .fill →
      exec (.routeFadeEnd (.lane l)) s = .next (s.endRoute (.lane l) s.clk.blk)) ∧
  (∀ (b : Fin 16) (i : Fin 32) (s : State),
      (s.route (.input b i)).split ≠ .fill →
      exec (.routeFadeEnd (.input b i)) s = .next (s.endRoute (.input b i) s.clk.blk)) ∧
  (∀ (id : SinkId) (s : State),
      (s.route (.sink id)).split ≠ .fill →
      exec (.routeFadeEnd (.sink id)) s = .next (s.endRoute (.sink id) s.clk.blk)) ∧
  (∀ (l : Fin 128) (s : State),
      (s.route (.lane l)).split = .fadeIn →
      (s.route (.lane l)).queued = none →
      (s.route (.lane l)).cur.en = true →
      (s.route (.lane l)).fadeAt + (s.route (.lane l)).fadeLen / 16 ≤ s.clk.blk →
      ∃ t, exec (.routeFadeEnd (.lane l)) s = .next t ∧
        t = s.endRoute (.lane l) s.clk.blk ∧
        t.route (.lane l) = { s.route (.lane l) with fadeLen := 0, split := .none } ∧
        t.out = s.out ∧
        t.col = s.col) ∧
  (∀ (l : Fin 128) (s : State),
      (s.route (.lane l)).split = .fill →
      exec (.splitFillEnd l) s = .next (s.endRoute (.lane l) s.clk.blk)) ∧
  (∀ (id : SinkId) (k a b : Nat) (smp : Fin 16) (s : State),
      (s.sink id.val).phase = .starting a b →
      a ≤ 16 * k + smp.val →
      16 * k + smp.val < b →
      exec (.sinkStartCrossing id k smp) s = .next
          (((s.setSink id.val { s.sink id.val with phase := .running }).setRunning id.val true).raiseAt 0x0505
          (0x400 + id.val) (s.sampleStamp (16 * k + smp)) [])) ∧
  (∀ (id : SinkId) (a b : Nat) (s : State),
      (s.sink id.val).phase = .starting a b →
      b ≤ s.sinkNow →
      exec (.sinkStartTimeout id) s = .next
          ((((s.setSink id.val { s.sink id.val with phase := .fadeIn (b + 64) }).setRunning id.val true).zcTimeout
          id.val).raiseAt 0x0505 (0x400 + id.val) (s.sampleStamp b) [])) ∧
  (∀ (id : SinkId) (k a b : Nat) (smp : Fin 16) (s : State),
      (s.sink id.val).phase = .stopping a b →
      a ≤ 16 * k + smp.val →
      16 * k + smp.val < b →
      exec (.sinkStopCrossing id k smp) s = .next (s.sinkStopped id.val (16 * k + smp))) ∧
  (∀ (id : SinkId) (a b : Nat) (s : State),
      (s.sink id.val).phase = .stopping a b →
      b ≤ s.sinkNow →
      exec (.sinkStopTimeout id) s = .next
          ((s.setSink id.val { s.sink id.val with phase := .stopFade (b + 64) false }).zcTimeout id.val)) ∧
  (∀ (id : SinkId) (e : Nat) (s : State),
      (s.sink id.val).phase = .stopFade e false →
      e ≤ s.sinkNow →
      exec (.sinkStopFadeEnd id) s = .next (s.sinkStopped id.val e)) ∧
  (∀ (id : Fin 22) (s : State),
      exec (.concealedOut id) s = .next ((s.setF (R.MP_DYN_STS id)
          F.MP_DYN_STS_CONCEALED 1).raiseLimited second3 0x0504 (0x400 + id.val)))

/-- A running timer, a PWM point of a running carrier and a selected edge of the chosen GPIO trigger the converters
that wait for them; a conversion that has run its length ends, and its result goes to the entry, the injection
or the calibration that started it; the reference is ready 12 blocks after its buffer was enabled.
(R315, R317, R319, R324) -/
def Obligations.SenseEvents : Prop :=
  (∀ (i : Fin 4) (s : State),
      s.on (R.SNS_TMR i) F.SNS_TMR_EN = true →
      exec (.senseTimerTick i) s = .next (State.snsTriggerAll (1 + i.val) (fun _ => true) [0, 1] s)) ∧
  (∀ (m : Fin 8) (centre : Bool) (s : State),
      s.carrierRuns m = true →
      exec (.sensePwmEvent m centre) s = .next (State.snsPwmAll m centre [0, 1] s)) ∧
  (∀ (g : Fin 16) (rising : Bool) (s : State),
      exec (.senseGpioEdge g rising) s = .next (State.snsTriggerAll 6 (fun c => decide (s.fld (R.SNS_TRIG c)
          F.SNS_TRIG_GPIO = g.val) && s.bit (R.SNS_TRIG c) (if rising then 21 else 22)) [0, 1] s)) ∧
  (∀ (c : Fin 2) (raw : Int) (v : Conv) (e : Nat) (cfg : Word) (re : Bool) (s : State),
      (s.snsX c).conv = some v →
      v.win3 + v.n * 15625 / 16 < s.clk.now3 + 31250 →
      v.what = .entry e cfg re →
      exec (.senseConversionDone c raw) s = .next (((s.modSns c
          (fun x => { x with conv := none, end3 := s.clk.now3 })).entryResult c e cfg re ((s.modSns c
          (fun x => { x with conv := none, end3 := s.clk.now3 })).resultWord c (cfg.fld F.SNS_ENTRY_INPUT)
          (cfg.fld F.SNS_ENTRY_GAIN) raw v.nrdy)).snsNext c)) ∧
  (∀ (s : State),
      s.on R.SNS_REF F.SNS_REF_BUFEN = true →
      s.sns.refAt + 12 ≤ s.clk.blk →
      exec (.refReady) s = .next ((s.setF R.SNS_REF F.SNS_REF_READY 1).refShow))

/-- After its load test a channel that is to start soft-starts where its class is a normal load; the soft start ends
READY with its event; a stop ends its search at zero gain, holds its nodes for 240 blocks and has then stopped;
a retry begins when its delay has passed in RUN; the attempts are forgotten ten seconds after a good start. A
held ramp begins at a crossing, or when its hold has run out, and ends 64 blocks after it began.
(R244, R245, R246, R251, R253) -/
def Obligations.OutputChannelSequence : Prop :=
  (∀ (m : Fin 8) (r : Nat) (s : State),
      s.chState m = stDiag →
      (s.outX m).since + 120 ≤ s.clk.blk →
      s.loadClass m r = 2 →
      (s.outX m).test = .start →
      exec (.loadTestDone m r) s = .next (((s.setF (R.PWR_DIAG m) F.PWR_DIAG_R (min r 0xFFFF)).setF (R.PWR_DIAG m)
          F.PWR_DIAG_CLASS 2).softstart m)) ∧
  (∀ (m : Fin 8) (s : State),
      s.chState m = stSoftstart →
      (s.outX m).since + 240 ≤ s.clk.blk →
      exec (.softstartEnd m) s = .next ((s.raiseF 0x0801 (0x400 + m.val)).enterReady m)) ∧
  (∀ (c : Fin 16) (b : Nat) (s : State),
      s.chState c = stStopping →
      (s.outX c).stop = .search b →
      c.val < 8 →
      exec (.pwrStopGainZero c) s = .next (s.modOut c (fun x => { x with stop := .nodes, since := s.clk.blk }))) ∧
  (∀ (c : Fin 16) (b : Nat) (s : State),
      s.chState c = stStopping →
      (s.outX c).stop = .search b →
      8 ≤ c.val →
      exec (.pwrStopGainZero c) s = .next (s.chStopped c)) ∧
  (∀ (m : Fin 8) (s : State),
      s.chState m = stStopping →
      (s.outX m).stop = .nodes →
      (s.outX m).since + 240 ≤ s.clk.blk →
      exec (.pwrStopped m) s = .next (s.chStopped m)) ∧
  (∀ (c : Fin 16) (s : State),
      s.chState c = stRetryWait →
      (s.outX c).retryAt ≤ s.clk.blk →
      s.power.mode = .run →
      c.val < 8 →
      exec (.retryAttempt c) s = .next (((s.modOut c
          (fun x => { x with attempt := true, fault := true, test := .retry })).setCh c stDiag).injectLoad c)) ∧
  (∀ (c : Fin 16) (s : State),
      s.chState c = stReady →
      (s.outX c).readyAt + tenSeconds3 ≤ s.clk.now3 →
      (s.outX c).ramp = .none →
      (s.outX c).rampEnd + tenSeconds3 ≤ s.clk.now3 →
      exec (.retryCountReset c) s = .next ((s.setRetryCnt c 0).modOut c (fun x => { x with attempt := false }))) ∧
  (∀ (c : Fin 16) (b : Nat) (s : State),
      (s.outX c).ramp = .hold b →
      exec (.restartRampStart c true) s = .next (s.modOut c (fun x => { x with ramp := .rising s.clk.blk }))) ∧
  (∀ (c : Fin 16) (b : Nat) (s : State),
      (s.outX c).ramp = .hold b →
      b ≤ s.clk.now3 →
      exec (.restartRampStart c false) s = .next (s.modOut c (fun x => { x with ramp := .rising s.clk.blk }))) ∧
  (∀ (c : Fin 16) (k : Nat) (s : State),
      (s.outX c).ramp = .rising k →
      k + 64 ≤ s.clk.blk →
      exec (.restartRampEnd c) s = .next ((s.modOut c
          (fun x => { x with ramp := .none, rampEnd := s.clk.now3 })).servoShow c))

/-- A current limit sets ILIM, counts once in a block and raises its event at most once in a second; a sustained or
short overload trips the channel; a DC fault latches the channel off and raises its event; an external fault
sets its bits, raises its event and trips a channel that runs. (R251, R252, R255, R256) -/
def Obligations.OutputTrips : Prop :=
  (∀ (m : Fin 8) (s : State),
      (s.outX m).ilimBlk ≠ some s.clk.blk →
      ∃ t, exec (.pwrCurrentLimit m) s = .next t ∧
        t = (((s.setF (R.PWR_STS m) F.PWR_STS_ILIM 1).incSat (R.PWR_CNT m) F.PWR_CNT_ILIM).modOut m
            (fun x => { x with ilimBlk := some s.clk.blk })).raiseFLimited second3 0x0804 (0x400 + m.val) ∧
        t.fld (R.PWR_STS m) F.PWR_STS_ILIM = 1 ∧
        t.fld (R.PWR_CNT m) F.PWR_CNT_ILIM = min (s.fld (R.PWR_CNT m) F.PWR_CNT_ILIM + 1) (2 ^ F.PWR_CNT_ILIM.w - 1) ∧
        t.outs = { s.outs with chans := s.outs.chans.modify m (fun x => { x with ilimBlk := some s.clk.blk }) }) ∧
  (∀ (m : Fin 8) (s : State),
      (s.outX m).ilimBlk = some s.clk.blk →
      ∃ t, exec (.pwrCurrentLimit m) s = .next t ∧
        t = (s.setF (R.PWR_STS m) F.PWR_STS_ILIM 1).raiseFLimited second3 0x0804 (0x400 + m.val) ∧
        t.fld (R.PWR_STS m) F.PWR_STS_ILIM = 1 ∧
        t.rd (R.PWR_CNT m) = s.rd (R.PWR_CNT m) ∧
        t.outs = s.outs) ∧
  (∀ (m : Fin 8) (trace : List Word) (s : State),
      exec (.pwrSustainedTrip m trace) s = .next (s.pwrTrip m 1 trace)) ∧
  (∀ (m : Fin 8) (trace : List Word) (s : State),
      exec (.pwrShortTrip m trace) s = .next (s.pwrTrip m 0 trace)) ∧
  (∀ (m : Fin 8) (s : State),
      s.fld (R.PWR_CFG (s.owner m)) F.PWR_CFG_DC_THR ≠ 0 →
      s.chState (s.owner m) = stReady →
      exec (.pwrDcFault m) s = .next (((s.setF (R.PWR_STS (s.owner m)) F.PWR_STS_DC 1).dropOut (s.owner m)
          stLatched).raiseF 0x0806 (0x400 + s.owner m))) ∧
  (∀ (e : Fin 8) (s : State),
      armedForTrip (s.chState (8 + e)) = true →
      exec (.extFault e) s = .next ((((s.setF (R.EXT_STS e) F.EXT_STS_FLT_NOW 1).setF (R.EXT_STS e)
          F.EXT_STS_FAULT 1).raiseF 0x080A (0x408 + e.val)).trip (8 + e))) ∧
  (∀ (e : Fin 8) (s : State),
      s.chState (8 + e) = stSoftstart →
      (s.outX (8 + e)).since + 60 ≤ s.clk.blk →
      exec (.extReady e) s = .next (s.enterReady (8 + e)))

/-- A first warning, foldback or shutdown sets its bit and raises its event, and again while the bit stands nothing
changes; a shutdown turns the channels of the die off; a recovery with AUTO lets them resume; a measured
temperature below 120 degrees clears the warning; a supply outside its limits turns its channels off, and a good
one lets them resume. (R251) -/
def Obligations.DieProtection : Prop :=
  (∀ (d : Fin 2) (s : State),
      s.on (R.PWR_DIE_STS d) F.PWR_DIE_STS_WARN = false →
      ∃ t, exec (.pdieThermalWarn d) s = .next t ∧
        t = (s.setF (R.PWR_DIE_STS d) F.PWR_DIE_STS_WARN 1).raiseF 0x080B (0x0D00 + d.val) ∧
        t.fld (R.PWR_DIE_STS d) F.PWR_DIE_STS_WARN = 1 ∧
        t.outs = s.outs ∧
        t.clk = s.clk) ∧
  (∀ (d : Fin 2) (s : State),
      s.on (R.PWR_DIE_STS d) F.PWR_DIE_STS_FOLDBACK = false →
      ∃ t, exec (.pdieFoldback d) s = .next t ∧
        t = (s.setF (R.PWR_DIE_STS d) F.PWR_DIE_STS_FOLDBACK 1).raiseF 0x080C (0x0D00 + d.val) ∧
        t.fld (R.PWR_DIE_STS d) F.PWR_DIE_STS_FOLDBACK = 1 ∧
        t.outs = s.outs ∧
        t.clk = s.clk) ∧
  (∀ (d : Fin 2) (s : State),
      s.on (R.PWR_DIE_STS d) F.PWR_DIE_STS_SHUTDOWN = false →
      exec (.pdieShutdown d) s = .next ((State.hiZAll stThermalOff F.PWR_STS_THERM (dieChans d) (s.setF
          (R.PWR_DIE_STS d) F.PWR_DIE_STS_SHUTDOWN 1)).raiseF 0x080D (0x0D00 + d.val))) ∧
  (∀ (d : Fin 2) (s : State),
      s.on (R.PWR_DIE_STS d) F.PWR_DIE_STS_SHUTDOWN = true →
      s.on R.PWR_THERM_CFG F.PWR_THERM_CFG_AUTO = true →
      exec (.pdieThermalRecover d) s = .next (State.resumeAll (dieChans d) (s.setF (R.PWR_DIE_STS d)
          F.PWR_DIE_STS_SHUTDOWN 0))) ∧
  (∀ (d : Fin 2) (temp : Int) (s : State),
      temp < 1200 →
      ∃ t, exec (.pdieCooling d temp) s = .next t ∧
        t = (s.setF (R.PWR_DIE_STS d) F.PWR_DIE_STS_TEMP (BitVec.ofInt 16 temp).toNat).setF (R.PWR_DIE_STS d)
            F.PWR_DIE_STS_WARN 0 ∧
        t.fld (R.PWR_DIE_STS d) F.PWR_DIE_STS_TEMP = (BitVec.ofInt 16 temp).toNat ∧
        t.fld (R.PWR_DIE_STS d) F.PWR_DIE_STS_WARN = 0 ∧
        t.outs = s.outs ∧
        t.out = s.out) ∧
  (∀ (rail : Fin 2) (s : State),
      exec (.pvddUnder rail) s = .next (s.pvddBad rail 0)) ∧
  (∀ (rail : Fin 2) (s : State),
      exec (.pvddOver rail) s = .next (s.pvddBad rail 1)) ∧
  (∀ (rail : Fin 2) (s : State),
      s.railBad rail = true →
      exec (.pvddOk rail) s = .next (State.resumeAll (dieChans rail) (((s.setBit R.PWR_PVDD_STS (2 * rail)
          false).setBit R.PWR_PVDD_STS (2 * rail + 1) false).raiseF 0x0810 (0x0D10 + rail.val))))

/-- A finished offset calibration stores its trim, returns the channel to READY and completes its descriptor; a line
output follows its enable, is ready 300 blocks later, and reports an overcurrent; a headphone plug sets its
state and is probed or classed, a finished probe stores its impedances and its class, and a removed plug clears
them, raises its event and applies the automatic preset. (R248, R257, R258, R259) -/
def Obligations.LineAndHeadphoneEvents : Prop :=
  (∀ (m : Fin 8) (trim : BitVec 16) (id : DescId) (k : Nat) (s : State),
      (s.outX m).cal = some (id, k) →
      k + 32 ≤ s.clk.blk →
      s.chState m = stCal →
      exec (.offsetCalDone m trim) s = .next (((((s.setF (R.PWR_OFS m) F.PWR_OFS_TRIM trim.toNat).modOut m
          (fun x => { x with cal := none })).setCh m stReady).servoShow m |> State.sinksReady [m.val]).finish id
          (doneAt k))) ∧
  (∀ (j : Fin 5) (s : State),
      s.loPhase j = .off →
      s.on (loReg j) F.AFE_LO_CFG_EN = true →
      exec (.loEnable j) s = .next (s.setLo j (.up s.clk.blk))) ∧
  (∀ (j : Fin 5) (s : State),
      s.loPhase j = .ready →
      s.on (loReg j) F.AFE_LO_CFG_EN = false →
      exec (.loEnable j) s = .next ((s.setLo j (.down s.clk.blk)).setF (loReg j) F.AFE_LO_CFG_READY 0)) ∧
  (∀ (j : Fin 5) (k : Nat) (s : State),
      s.loPhase j = .up k →
      k + 300 ≤ s.clk.blk →
      exec (.loReady j) s = .next (State.sinksReady (loSinks j) ((s.setLo j .ready).setF (loReg j)
          F.AFE_LO_CFG_READY 1))) ∧
  (∀ (j : Fin 4) (s : State),
      ∃ t, exec (.loOvercurrent j) s = .next t ∧
        t = (s.setF (R.AFE_LO_CFG j) F.AFE_LO_CFG_OC 1).raiseF 0x0811 (0x410 + j.val) ∧
        t.fld (R.AFE_LO_CFG j) F.AFE_LO_CFG_OC = 1 ∧
        t.outs = s.outs) ∧
  (∀ (s : State),
      ∃ t, exec (.hpOvercurrent) s = .next t ∧
        t = (s.setF R.AFE_HP_CFG F.AFE_HP_CFG_OC 1).raiseF 0x0812 0x414 ∧
        t.fld R.AFE_HP_CFG F.AFE_HP_CFG_OC = 1 ∧
        t.outs = s.outs) ∧
  (∀ (s : State),
      s.on R.AFE_HP_JD_CFG F.AFE_HP_JD_CFG_EN = true →
      s.on R.AFE_HP_STS F.AFE_HP_STS_STATE = false →
      s.on R.AFE_HP_JD_CFG F.AFE_HP_JD_CFG_PROBE_EN = true →
      ∃ t, exec (.hpJackInsert) s = .next t ∧
        t = (((s.setF R.AFE_HP_STS F.AFE_HP_STS_STATE 1).setF R.AFE_HP_STS F.AFE_HP_STS_CHG 1).modOutputs
            (fun y => { y with hpHeld := true })).setF R.AFE_HP_STS F.AFE_HP_STS_PROBING 1 ∧
        t.fld R.AFE_HP_STS F.AFE_HP_STS_STATE = 1 ∧
        t.fld R.AFE_HP_STS F.AFE_HP_STS_CHG = 1 ∧
        t.fld R.AFE_HP_STS F.AFE_HP_STS_PROBING = 1 ∧
        t.outs.hpHeld = true ∧
        t.out = s.out) ∧
  (∀ (zl zr : Nat) (s : State),
      s.on R.AFE_HP_STS F.AFE_HP_STS_PROBING = true →
      exec (.hpProbeDone zl zr) s = .next ((((s.setF R.AFE_HP_STS F.AFE_HP_STS_PROBING 0).setF R.AFE_HP_IMP
          F.AFE_HP_IMP_ZL (min zl 0xFFFF)).setF R.AFE_HP_IMP F.AFE_HP_IMP_ZR (min zr 0xFFFF)).hpClass
          (hpClassOf zl zr))) ∧
  (∀ (ts : Nat) (s : State),
      s.on R.AFE_HP_JD_CFG F.AFE_HP_JD_CFG_EN = true →
      s.on R.AFE_HP_STS F.AFE_HP_STS_STATE = true →
      s.on R.AFE_HP_JD_CFG F.AFE_HP_JD_CFG_AUTO_EN = false →
      ∃ t, exec (.hpRemoved ts) s = .next t ∧
        t = ((((State.setAll F.AFE_HP_STS_STATE 0 [R.AFE_HP_STS] s).setF R.AFE_HP_STS F.AFE_HP_STS_CHG 1).setF
            R.AFE_HP_STS F.AFE_HP_STS_PROBING 0).setF R.AFE_HP_STS F.AFE_HP_STS_CLASS 0).raiseFAt 0x0818 0x414 ts [] ∧
        t.fld R.AFE_HP_STS F.AFE_HP_STS_STATE = 0 ∧
        t.fld R.AFE_HP_STS F.AFE_HP_STS_CHG = 1 ∧
        t.fld R.AFE_HP_STS F.AFE_HP_STS_PROBING = 0 ∧
        t.fld R.AFE_HP_STS F.AFE_HP_STS_CLASS = 0 ∧
        t.outs = s.outs ∧
        t.stage = s.stage)

/-- A scrub find counts a corrected bit or a minority copy, and three different copies set THREEWAY with the node
and fault the output of the node; a masked disagreement counts, is captured and raises its event within the
holdoff; a disagreement of all three copies faults the output; during a self-test votes report nothing. The port
of the priority source locks while its bit clock is good; a servo that opens sets OPENED, counts and raises its
event; a self-test of 48 blocks clears BIST_RUN, stores its result and the failed outputs, and completes its
descriptor; a change of the priority ball shows its level and sets or clears its request.
(R267, R268, R274, R280, R289, R291, R294) -/
def Obligations.TetherVotesInputsAndServo : Prop :=
  (∀ (set_ : Fin 3) (node : Fin 384) (s : State),
      ∃ t, exec (.tetherScrub set_ node .single) s = .next t ∧
        t = s.incSat R.TTH_SCRUB_CNT F.TTH_SCRUB_CNT_SECDED ∧
        t.fld R.TTH_SCRUB_CNT F.TTH_SCRUB_CNT_SECDED = min (s.fld R.TTH_SCRUB_CNT F.TTH_SCRUB_CNT_SECDED + 1) 65535 ∧
        t.tth = s.tth ∧
        t.out = s.out) ∧
  (∀ (set_ : Fin 3) (node : Fin 384) (s : State),
      ∃ t, exec (.tetherScrub set_ node .minority) s = .next t ∧
        t = s.incSat R.TTH_SCRUB_CNT F.TTH_SCRUB_CNT_CORR ∧
        t.fld R.TTH_SCRUB_CNT F.TTH_SCRUB_CNT_CORR = min (s.fld R.TTH_SCRUB_CNT F.TTH_SCRUB_CNT_CORR + 1) 65535 ∧
        t.tth = s.tth ∧
        t.out = s.out) ∧
  (∀ (set_ : Fin 3) (node : Fin 384) (s : State),
      exec (.tetherScrub set_ node .threeWay) s = .next (((s.setF R.TTH_SCRUB_STS F.TTH_SCRUB_STS_THREEWAY 1).setF
          R.TTH_SCRUB_STS F.TTH_SCRUB_STS_NODE (384 * set_.val + node.val)).tthFault (node.val / 16))) ∧
  (∀ (o : Fin 24) (w0 w1 w2 : BitVec 24) (s : State),
      s.tth.test = none →
      exec (.tetherVoteMasked o w0 w1 w2) s = .next (((s.incSat (R.TTH_OUT_CNT o)
          F.TTH_OUT_CNT_MASKED).voteCapture o (fun i => if i = 0 then w0 else if i = 1 then w1 else
          w2)).raiseFLimited (500000 * s.fld R.TTH_EVT_CFG F.TTH_EVT_CFG_HOLDOFF) 0x0902 (0x0C00 + o.val))) ∧
  (∀ (o : Fin 24) (w0 w1 w2 : BitVec 24) (x : DescId × Nat) (s : State),
      s.tth.test = some x →
      exec (.tetherVoteMasked o w0 w1 w2) s = .next (s)) ∧
  (∀ (o : Fin 24) (w0 w1 w2 : BitVec 24) (s : State),
      s.tth.test = none →
      exec (.tetherFault o w0 w1 w2) s = .next ((s.voteCapture o
          (fun i => if i = 0 then w0 else if i = 1 then w1 else w2)).tthFault o)) ∧
  (∀ (code mask : Nat) (rest : List (Nat × Nat)) (s : State),
      s.tth.requests = (code, mask) :: rest →
      s.linkUp = true →
      exec (.takeoverRequest) s = .next ((s.modTth (fun y => { y with requests := rest })).latchCause (code - 1)
          mask s.nextSample)) ∧
  (∀ (s : State),
      s.on R.TTH_PSAP_CFG F.TTH_PSAP_CFG_EN = true →
      s.on (R.SAP_STS 6) F.SAP_STS_CLK_OK = true →
      ∃ t, exec (.psapLock) s = .next t ∧
        t = s.setF R.TTH_PSAP_CFG F.TTH_PSAP_CFG_LOCK 1) ∧
  (∀ (m : Fin 8) (s : State),
      s.on (R.TTH_SRV_STS m) F.TTH_SRV_STS_CLOSED = true →
      exec (.servoOpen m) s = .next (((((s.modTth (fun y => { y with opened := y.opened.set m true })).setF
          (R.TTH_SRV_STS m) F.TTH_SRV_STS_OPENED 1).servoShow m).incSat (R.TTH_SRV_CNT m)
          F.TTH_SRV_CNT_OPENS).raiseF 0x0908 (0x0C00 + m.val))) ∧
  (∀ (failed : BitVec 24) (id : DescId) (k : Nat) (s : State),
      s.tth.test = some (id, k) →
      k + 48 ≤ s.clk.blk →
      exec (.selftestDone failed) s = .next (((((s.modTth (fun y => { y with test := none })).setF R.TTH_STS
          F.TTH_STS_BIST_RUN 0).setF R.TTH_BIST_STS F.TTH_BIST_STS_RESULT
          (if failed = 0 then 1 else 2)).setF R.TTH_BIST_STS F.TTH_BIST_STS_FAILED failed.toNat).finish id (doneAt k))) ∧
  (∀ (s : State),
      s.on R.TTH_PRIO_BALL F.TTH_PRIO_BALL_EN = true →
      exec (.prioBallChange false) s = .next ((s.setF R.TTH_PRIO_STS F.TTH_PRIO_STS_BALL_LVL 0).prioClear 0 allOuts
          (s.setF R.TTH_PRIO_STS F.TTH_PRIO_STS_BALL_LVL 0).nextSample))

/-- A frame whose CRC is bad gives silence, counts and raises its event; at the end of a message the player waits in
its gap and raises the event; after a gap of half a second the message starts again or the next of the queue
plays; a stop fade of five milliseconds ends the message. (R284, R285) -/
def Obligations.MessagePlayer : Prop :=
  (∀ (s : State),
      s.playState = 1 →
      s.tth.player.done < s.tth.player.samples →
      crc32 (s.partBytes (s.tth.player.offset + 256 * (s.tth.player.done / 504)) 252) ≠ BitVec.ofNat 32 (s.partNat
          (s.tth.player.offset + 256 * (s.tth.player.done / 504) + 252) 4) →
      exec (.messageFrameDecode) s = .next (((s.modPlayer
          (fun x => { x with done := x.done + min 504 (s.tth.player.samples - s.tth.player.done), pcm := List.replicate (min 504 (s.tth.player.samples - s.tth.player.done)) 0 })).incSat R.TTH_PLAY_CNT F.TTH_PLAY_CNT_CRC).raiseF 0x090C 0x0C21)) ∧
  (∀ (s : State),
      s.playState = 1 →
      s.tth.player.done < s.tth.player.samples →
      crc32 (s.partBytes (s.tth.player.offset + 256 * (s.tth.player.done / 504)) 252) = BitVec.ofNat 32 (s.partNat (s.tth.player.offset + 256 * (s.tth.player.done / 504) + 252) 4) →
      exec (.messageFrameDecode) s = .next ((let n := min 504 (s.tth.player.samples - s.tth.player.done)
        let r := (((s.partBytes (s.tth.player.offset + 256 * (s.tth.player.done / 504)) 252).flatMap nibbles).take n).foldl decodeStep (s.tth.player.pred, s.tth.player.step, [])
        s.modPlayer (fun x => { x with done := x.done + n, pred := r.1, step := r.2.1, pcm := r.2.2.reverse })))) ∧
  (∀ (s : State),
      s.playState = 1 →
      s.tth.player.samples ≤ s.tth.player.done →
      s.tth.player.left ≠ some 1 →
      ∃ t, exec (.messageEnd) s = .next t ∧
        t = ((s.modPlayer (fun x => { x with since := s.clk.now3, left := x.left.map (· - 1) })).setF R.TTH_PLAY_STS
            F.TTH_PLAY_STS_STATE 2).raiseF 0x090B 0x0C21 ∧
        t.playState = 2 ∧
        t.tth.player.since = s.clk.now3 ∧
        t.tth.player.now = s.tth.player.now ∧
        t.tth.player.left = s.tth.player.left.map (· - 1) ∧
        t.rd R.TTH_PLAY_CNT = s.rd R.TTH_PLAY_CNT) ∧
  (∀ (s : State),
      s.playState = 1 →
      s.tth.player.samples ≤ s.tth.player.done →
      s.tth.player.left = some 1 →
      ∃ t, exec (.messageEnd) s = .next t ∧
        t = (((s.modPlayer (fun x =>
            { x with since := s.clk.now3, left := x.left.map (· - 1), now := none })).incSat R.TTH_PLAY_CNT
            F.TTH_PLAY_CNT_DONE).setF R.TTH_PLAY_STS F.TTH_PLAY_STS_STATE 2).raiseF 0x090B 0x0C21 ∧
        t.playState = 2 ∧
        t.tth.player.now = none ∧
        t.fld R.TTH_PLAY_CNT F.TTH_PLAY_CNT_DONE = min (s.fld R.TTH_PLAY_CNT F.TTH_PLAY_CNT_DONE + 1)
            (2 ^ F.TTH_PLAY_CNT_DONE.w - 1)) ∧
  (∀ (q : PlayReq) (s : State),
      s.playState = 2 →
      s.tth.player.since + 1500000000 ≤ s.clk.now3 →
      s.tth.player.now = some q →
      exec (.messageGapEnd) s = .next ((((s.modPlayer (fun x => { x with done := 0, pred := 0, step := 16 })).setF
          R.TTH_PLAY_STS F.TTH_PLAY_STS_STATE 1).setF R.TTH_PLAY_STS F.TTH_PLAY_STS_MSG q.msg).raiseF 0x090A 0x0C21)) ∧
  (∀ (s : State),
      s.playState = 2 →
      s.tth.player.since + 1500000000 ≤ s.clk.now3 →
      s.tth.player.now = none →
      exec (.messageGapEnd) s = .next (State.playNext 9 s)) ∧
  (∀ (s : State),
      s.playState = 3 →
      s.tth.player.since + 15000000 ≤ s.clk.now3 →
      exec (.messageStopFadeEnd) s = .next (((s.modPlayer
          (fun x => { x with now := none, since := s.clk.now3 })).setF R.TTH_PLAY_STS F.TTH_PLAY_STS_STATE
          (if s.tth.player.queue.isEmpty then 0 else 2)).raiseF 0x090B 0x0C21))

/-- A request with EN set, in RUN, with every output silent and Tether idle begins the entry; the entry can be
abandoned; four blocks later the mode is QUIET, the entry is counted and both events are raised; a wake leaves
it; and twelve blocks later the part is in RUN with OUT_READY set. (R136, R137, R247, R419) -/
def Obligations.QuietMode : Prop :=
  (∀ (s : State),
      s.on R.MP_QUIET_CFG F.MP_QUIET_CFG_EN = true →
      s.power.mode = .run →
      s.power.trans = none →
      s.allSilent = true →
      s.tthIdle16 = true →
      exec (.quietRequest) s = .next (s.quietBegin 1)) ∧
  (∀ (s : State),
      exec (.quietEntryAbandon) s = .next (s.quietAbandon)) ∧
  (∀ (k : Nat) (s : State),
      s.mp.quietAt = some k →
      s.power.trans = some .quiet →
      k + 4 ≤ s.clk.blk →
      exec (.quietEntered) s = .next ((((((((State.park (List.range 16)
          s).transEnd .quiet).setF R.CLK_MODE_STS F.CLK_MODE_STS_OUT_READY 0).modMp
          (fun y => { y with quietAt := none })).incSat R.MP_QUIET_STS F.MP_QUIET_STS_COUNT).histEntry .run .quiet
          s.power.cause).raise 0x0106 0x3FF).modeChangedEvent .run .quiet s.power.cause)) ∧
  (∀ (host : Bool) (s : State),
      exec (.quietWake host) s = .next (s.quietTrigger (if host then 0 else 2))) ∧
  (∀ (k : Nat) (s : State),
      s.mp.quietAt = some k →
      s.power.mode = .quiet →
      s.power.trans = some .run →
      k + 12 ≤ s.clk.blk →
      exec (.outReady) s = .next (((((State.resumeAll (List.range 8) (State.unpark (List.range 16)
          ((s.transEnd .run).setF R.CLK_MODE_STS F.CLK_MODE_STS_OUT_READY 1))).modMp
          (fun m => { m with quietAt := none, quietFade := [] })).histEntry .quiet .run s.power.cause).raise 0x0107
          0x3FF).modeChangedEvent .quiet .run s.power.cause))

/-- A calibration of the low-power clock in RUN stores its error and sets VALID; a segment joins the gather buffer
at the next index, the oldest is encoded once 33 are held, and whatever is due goes to its ring; a frame of a
running detector is judged by the floors of the last frames; a stopped detector takes no frame.
(R297, R299, R308, R309) -/
def Obligations.ListenerEvents : Prop :=
  (∀ (err : BitVec 20) (s : State),
      s.power.mode = .run →
      ∃ t, exec (.lclkCalibrate err) s = .next t ∧
        t = (s.setF R.AFE_LCLK_CAL F.AFE_LCLK_CAL_ERR err.toNat).setF R.AFE_LCLK_CAL F.AFE_LCLK_CAL_VALID 1 ∧
        t.fld R.AFE_LCLK_CAL F.AFE_LCLK_CAL_ERR = err.toNat ∧
        t.fld R.AFE_LCLK_CAL F.AFE_LCLK_CAL_VALID = 1 ∧
        t.lsn = s.lsn ∧
        t.power = s.power) ∧
  (∀ (f : FrameMeas) (s : State),
      s.on R.AFE_LSN_STS F.AFE_LSN_STS_RUNNING = false →
      exec (.detectorFrame f) s = .next (s)) ∧
  (∀ (f : FrameMeas) (s : State),
      s.on R.AFE_LSN_STS F.AFE_LSN_STS_RUNNING = true →
      exec (.detectorFrame f) s = .next ((let idx := s.lsn.idx / 320 * 320
        let ts := s.laneTime idx f.ts
        let alm := (f.alm :: s.lsn.alm).take 400
        let low := (f.low :: s.lsn.low).take 400
        let sh := (f.sh :: s.lsn.sh).take 400
        let s1 := ((s.modLsn (fun x => { x with alm := alm, low := low, sh := sh, idx := idx + 320 })).setF R.AFE_LSN_STS F.AFE_LSN_STS_FLOOR_ALM (floorCode (floorOf alm))).setF R.AFE_LSN_STS F.AFE_LSN_STS_FLOOR_GB (floorCode (floorOf sh))
        ((s1.wr R.AFE_GTH_IDX (BitVec.ofNat 32 (idx + 320))).almFrame (s.frameOn (s.judged f) (floorOf alm)) idx ts).glassFrame (s.judged f) (floorOf low) (floorOf sh) idx ts))) ∧
  (∀ (xs : List (BitVec 16)) (s : State),
      s.on R.AFE_LSN_STS F.AFE_LSN_STS_RUNNING = true →
      s.lsn.pcm = [] →
      exec (.gatherSegmentComplete xs) s = .next ((State.gatherPump gatherMax ((s.modLsn
          (fun x => { x with pcm := [(0, xs.map (·.toInt))], idx := max x.idx 500 })).wr R.AFE_GTH_IDX
          (BitVec.ofNat 32 (max s.lsn.idx 500)))).gatherEnd))

/-- A lease that is over is abandoned with its cause; a drained ring ends its drain; a function-level reset and a
lost link drop host memory, the reset sets FLR, the loss clears LINK and is counted; a link that comes up takes
its configuration and fires the pending vectors that are not masked; a vector that is due writes the status
block, fires and disarms; a doorbell or a re-arm acts through the guard of its page; a DMA error counts and
stops what needed it. (R332, R337, R340, R354, R355, R360, R411) -/
def Obligations.HostSideEvents : Prop :=
  (∀ (k : Fin 32) (s : State),
      s.leaseOver k = true →
      exec (.leaseExpiry k) s = .next (s.abandon k 1)) ∧
  (∀ (r : Fin 16) (o : Origin) (s : State),
      s.ringState r = ringDraining →
      ringOrigin r = some o →
      s.drained r o = true →
      exec (.ringDrainDone r) s = .next (s.drainDone r o)) ∧
  (∀ (r : Fin 16) (s : State),
      s.ringState r = ringDraining →
      ringOrigin r = none →
      (s.ringX r).entries.isEmpty = true →
      (s.ringX r).ready.isEmpty = true →
      exec (.ringDrainDone r) s = .next (s.ringOff r)) ∧
  (∀ (s : State),
      s.power.hubUp = true →
      exec (.functionLevelReset) s = .next ((s.dropHostMemory.ownerReset 0 0).setF R.HIF_PCIE_STS F.HIF_PCIE_STS_FLR
          1)) ∧
  (∀ (s : State),
      s.on R.HIF_PCIE_STS F.HIF_PCIE_STS_LINK = true →
      exec (.pcieLinkDown) s = .next ((s.dropHostMemory.setF R.HIF_PCIE_STS F.HIF_PCIE_STS_LINK 0).incSat
          R.HIF_PCIE_ERR F.HIF_PCIE_ERR_LINK_DOWN)) ∧
  (∀ (bme msix fmask : Bool) (vmask : BitVec 16) (s : State),
      s.isSealed = true →
      s.host.msixPend = 0 →
      ∃ t, exec (.pcieLinkUp bme msix fmask vmask) s = .next t ∧
        t = (((s.setF R.HIF_PCIE_STS F.HIF_PCIE_STS_LINK 1).setF R.HIF_PCIE_STS F.HIF_PCIE_STS_BME bme.toNat).setF
            R.HIF_PCIE_STS F.HIF_PCIE_STS_MSIX_EN msix.toNat).modHost
            (fun y => { y with msixFnMask := fmask, msixMask := vmask.toNat, msixPend := 0 }) ∧
        t.fld R.HIF_PCIE_STS F.HIF_PCIE_STS_LINK = 1 ∧
        t.fld R.HIF_PCIE_STS F.HIF_PCIE_STS_BME = bme.toNat ∧
        t.fld R.HIF_PCIE_STS F.HIF_PCIE_STS_MSIX_EN = msix.toNat ∧
        t.host = { s.host with msixFnMask := fmask, msixMask := vmask.toNat, msixPend := 0 } ∧
        t.out = s.out) ∧
  (∀ (k : Fin 16) (s : State),
      s.vecDue k = true →
      exec (.vectorFire k) s = .next ((let s1 := (s.statusBlock.msix k).modHost (fun y => { y with vecs := y.vecs.set k ⟨none⟩ })
        let s2 := ((s1.setF (R.HIF_VEC_STS k) F.HIF_VEC_STS_ARMED 0).setF (R.HIF_VEC_STS k) F.HIF_VEC_STS_COUNT 0).setF (R.HIF_VEC_STS k) F.HIF_VEC_STS_PENDING 0
        let s3 := s2.incWrap (R.HIF_VEC_CNT k) F.HIF_VEC_CNT_FIRED
        if s3.on (R.HIF_VEC_CFG k) F.HIF_VEC_CFG_ALERT_EN then (s3.setBit R.HIF_ALERT k true).alertShow else s3))) ∧
  (∀ (a : Agent) (k : Fin 16) (v : Word) (s : State),
      exec (.vectorRearm a k v) s = .next (s.doorGuard a (16 + k) (fun s => s.rearm k v.toNat))) ∧
  (∀ (a : Agent) (r : Fin 16) (v : Word) (es : List StrEntry) (s : State),
      exec (.doorbellRing a r v es) s = .next (s.doorGuard a r (fun s => s.doorbell r v.toNat es))) ∧
  (∀ (s : State),
      exec (.dmaError .statusBlock) s = .next (((s.incSat R.HIF_PCIE_ERR F.HIF_PCIE_ERR_DMA).setF R.HIF_GLB_STS
          F.HIF_GLB_STS_SB_ERR 1).modHost (fun h => { h with sbDead := true }))) ∧
  (∀ (s : State),
      (s.incSat R.HIF_PCIE_ERR F.HIF_PCIE_ERR_DMA).ringState 0 = ringRunning →
      exec (.dmaError (.fetch false)) s = .next (((s.incSat R.HIF_PCIE_ERR F.HIF_PCIE_ERR_DMA).setF
          (R.HIF_RING_STS 0) F.HIF_RING_STS_DMA_ERR 1).ringTo 0 ringError))

/-- The oldest operation leaves the queue: one that succeeded takes its effect and completes its descriptor; one
that failed counts a fault and completes FAULTED; one over its limit completes TIMEOUT. A region that is due,
with nothing of the journal in progress, begins to be compacted into its spare half with the next epoch, and at
the end the spare becomes the active half, with the erase of the old one counted. A tick advances the calendar
by 32 crystal cycles, and M, while it runs, applies a time that waits; after 64 seconds a trim adds its cycles;
without its supplies the calendar stops, its time is not valid and its contents are free; a second marker
latches the block counter on H. (R349, R395, R399, R400, R401, R425, R429, R430) -/
def Obligations.FlashJournalAndCalendar : Prop :=
  (∀ (o : FlashOp) (rest : List FlashOp) (s : State),
      s.flash.ops = o :: rest →
      s.flash.compacting = none →
      exec (.flashOperationDone .ok) s = .next ((((s.modFlash
          (fun f => { f with ops := rest })).flashApply o.job).finishOpt o.id
          ⟨.done, false, false, false, s.clk.blk, none⟩).jnlShow)) ∧
  (∀ (o : FlashOp) (rest : List FlashOp) (j : Fin 2) (s : State),
      s.flash.ops = o :: rest →
      o.job.isJournal = false →
      exec (.flashOperationDone (.fail j)) s = .next ((((s.modFlash
          (fun f => { f with ops := rest })).incSat R.JNL_FLASH_STS F.JNL_FLASH_STS_FAULTS).finishOpt o.id
          ⟨.faulted, false, false, false, o.began, none⟩).jnlShow)) ∧
  (∀ (o : FlashOp) (rest : List FlashOp) (s : State),
      s.flash.ops = o :: rest →
      s.flash.compacting = none →
      o.began + flashLimit ≤ s.clk.blk →
      exec (.flashOperationDone .timeout) s = .next (((s.modFlash
          (fun f => { f with ops := rest })).finishOpt o.id ⟨.timeout, false, false, false, noBlock, none⟩).jnlShow)) ∧
  (∀ (j : Fin 2) (s : State),
      s.compactDue j = true →
      s.regionOk j = true →
      s.flash.compacting = none →
      s.power.hubUp = true →
      s.flash.ops = [] →
      exec (.journalCompact j) s = .next ((s.modFlash (fun f =>
          let x := (f.region j).ready
          { (f.setRegion j (x.setSpare { x.spare with magic := true, epoch := x.active.epoch + 1, commit := false, recs := [] })) with compacting := some j.val, wantCompact := f.wantCompact.filter (fun k => k != j.val) })).jnlShow)) ∧
  (∀ (j : Fin 2) (s : State),
      s.flash.compacting = some j.val →
      exec (.journalCompactDone j) s = .next (((s.modFlash (fun f =>
          let x := f.region j
          let y := (x.setSpare { x.spare with commit := true, recs := x.kept }).setActive ⟨false, 0, x.active.erases + 1, false, []⟩
          { (f.setRegion j { y with upperActive := !x.upperActive }) with compacting := none })).incWrap R.JNL_COMPACT_CNT F.JNL_COMPACT_CNT_COUNT).jnlShow)) ∧
  (∀ (s : State),
      s.metroFitted = true →
      s.metro.going = true →
      s.metro.on_ = false →
      ∃ t, exec (.calendarTick) s = .next t ∧
        t = s.modMetro (fun m => { m with cyc := (m.cyc / 32 + 1) * 32, ticks := m.ticks + 1 }) ∧
        t.metro.cyc = (s.metro.cyc / 32 + 1) * 32 ∧
        t.metro.ticks = s.metro.ticks + 1 ∧
        t.regs = s.regs ∧
        t.clk = s.clk) ∧
  (∀ (s : State),
      s.metroFitted = true →
      s.metro.going = true →
      s.metro.on_ = true →
      s.power.hubUp = false →
      exec (.calendarTick) s = .next ((s.modMetro
          (fun m => { m with cyc := (m.cyc / 32 + 1) * 32, ticks := m.ticks + 1 })).modMetro MetroX.applySet)) ∧
  (∀ (temp : Int) (s : State),
      s.mOn = true →
      s.metro.going = true →
      s.metro.trimAt + trimTicks ≤ s.metro.ticks →
      ∃ t, exec (.calendarTrim temp) s = .next t ∧
        t = s.modMetro (fun m =>
            { m with trimAt := m.ticks, cyc := ((m.cyc : Int) + m.cal0.trimCycles temp).toNat }) ∧
        t.metro.trimAt = s.metro.ticks ∧
        t.metro.cyc = ((s.metro.cyc : Int) + s.metro.cal0.trimCycles temp).toNat ∧
        t.regs = s.regs ∧
        t.out = s.out) ∧
  (∀ (s : State),
      s.metroFitted = true →
      s.metro.going = true →
      s.metro.on_ = false →
      ∃ t, exec (.calendarStop) s = .next t ∧
        t = { s with metro := t.metro, free := s.free + 1 } ∧
        t.metro.going = false ∧
        t.metro.valid = false ∧
        t.metro.lost = true ∧
        t.metro.setTo = none ∧
        t.metro.log = s.metro.log ∧
        t.regs = s.regs ∧
        t.free = s.free + 1) ∧
  (∀ (s : State),
      s.mOn = true →
      s.power.hubUp = true →
      s.mStale = false →
      exec (.mlinkSecondMarker) s = .next ((s.modMetro (fun m => { m with secBlk := s.clk.blk })).wr R.MLK_LAST_SEC
          (BitVec.ofNat 32 s.clk.blk)))

/-- An engine that renders and is idle begins its next data block once the block before has passed, and one that
renders ahead once its lead allows; the last record delivers the data block, into the queue of parison blocks,
to the anneal of a cluster that renders ahead, or to the sinks; the mask of an arbiter follows its conditions; a
group that holds together mutes with a member over its limit and comes back when all are clean.
(R143, R173, R211, R212, R236) -/
def Obligations.EngineRendering : Prop :=
  (∀ (n : Fin 8) (s : State),
      s.renders n = true →
      (s.engX n).busy = none →
      s.rendersAhead n = false →
      s.clk.blk = s.nextData n + 1 →
      exec (.engineRenderStart n) s = .next (s.modEng n
          (fun x => { x with busy := some ⟨s.nextData n, false, 0, [], [], [], []⟩, next := s.nextData n }))) ∧
  (∀ (n : Fin 8) (s : State),
      s.renders n = true →
      (s.engX n).busy = none →
      s.rendersAhead n = true →
      s.nextData n + 2 ≤ s.clk.blk + (s.engX n).lead →
      s.nextData n + 2 ≤ s.clk.blk + (s.engX n).margin →
      exec (.engineRenderStart n) s = .next (s.beginAhead n (s.nextData n) false)) ∧
  (∀ (n : Fin 8) (words : Nat) (fx : List RecFx) (r : Rendered) (s : State),
      (s.engX n).busy = some r →
      r.parison = true →
      exec (.engineRenderDone n words fx) s = .next ((let x := s.engX n
        let r1 := { r with words := min words x.need, effects := s.effectsOf n fx ++ List.replicate x.contained .contained }
        let s1 := s.modEng n (fun x => { x with busy := none, contained := 0, next := r.k + 1, rendered := r.k, misses := 0 })
        (s1.modEng n (fun x => { x with queue := x.queue ++ [r1] })).modEng n (fun x => { x with logPeak := max x.logPeak x.logUsed })))) ∧
  (∀ (n : Fin 8) (words : Nat) (fx : List RecFx) (r : Rendered) (s : State),
      (s.engX n).busy = some r →
      r.parison = false →
      s.rendersAhead n = false →
      exec (.engineRenderDone n words fx) s = .next (State.releaseAll n r.k (s.effectsOf n fx ++ List.replicate
          (s.engX n).contained .contained) (s.modEng n
          (fun x => { x with busy := none, contained := 0, next := r.k + 1, rendered := r.k, misses := 0 })))) ∧
  (∀ (r : Fin 12) (s : State),
      exec (.arbMaskChange r) s = .next (s.maskShow r)) ∧
  (∀ (g : Fin 16) (j : Nat) (s : State),
      s.holdGroup g = true →
      s.bit R.ARR_AG_SUM (16 + g) = false →
      (s.members g).any (fun l => decide (max 1 (s.fld (R.ARR_AG_CFG g) F.ARR_AG_CFG_N) < s.eng.runs.getD l 0))
          = true →
      exec (.groupMuted g j) s = .next ((s.setBit R.ARR_AG_SUM (16 + g) true).raise 0x0613 (0x640 + g)
          (detail8 j ++ [s.fld (R.ARR_AG_CFG g) F.ARR_AG_CFG_ID]))) ∧
  (∀ (g : Fin 16) (j : Nat) (s : State),
      s.bit R.ARR_AG_SUM (16 + g) = true →
      (s.members g).all (fun l => decide (12 ≤ s.eng.clean.getD l 0)) = true →
      exec (.groupUnmuted g j) s = .next ((s.setBit R.ARR_AG_SUM (16 + g) false).raise 0x0614 (0x640 + g)
          (detail8 j ++ [s.fld (R.ARR_AG_CFG g) F.ARR_AG_CFG_ID])))

/-- An enabled port that comes up at 1,000 Mb/s in full duplex sets LINK and LINK_CHG and raises the event; a port
that is down takes no frame, and a bad frame only counts; an MDIO frame ends BUSY and a read stores its data; an
address not used for 300 seconds leaves the table, and no other. (R175, R176) -/
def Obligations.NetworkPortEvents : Prop :=
  (∀ (p : Fin 2) (s : State),
      s.on (R.NET_PORT_CFG p) F.NET_PORT_CFG_EN = true →
      s.on (R.NET_PORT_STS p) F.NET_PORT_STS_LINK = false →
      ∃ t, exec (.netLinkUp p 1000 true) s = .next t ∧
        t = (((s.setF (R.NET_PORT_STS p) F.NET_PORT_STS_AN_DONE (s.on (R.NET_PORT_CFG p)
            F.NET_PORT_CFG_AN_EN).toNat).setF (R.NET_PORT_STS p) F.NET_PORT_STS_LINK 1).setF (R.NET_PORT_STS p)
            F.NET_PORT_STS_LINK_CHG 1).raise 0x0701 (0x620 + p) ∧
        t.fld (R.NET_PORT_STS p) F.NET_PORT_STS_LINK = 1 ∧
        t.fld (R.NET_PORT_STS p) F.NET_PORT_STS_LINK_CHG = 1 ∧
        t.fld (R.NET_PORT_STS p) F.NET_PORT_STS_AN_DONE = s.fld (R.NET_PORT_CFG p) F.NET_PORT_CFG_AN_EN ∧
        t.net = s.net) ∧
  (∀ (p : Fin 2) (s : State),
      exec (.netLinkDown p) s = .next (s.portDown p)) ∧
  (∀ (data : BitVec 16) (s : State),
      s.on R.NET_MDIO_CTL F.NET_MDIO_CTL_BUSY = true →
      s.on R.NET_MDIO_CTL F.NET_MDIO_CTL_READ = true →
      exec (.mdioDone data) s = .next ((s.setF R.NET_MDIO_CTL F.NET_MDIO_CTL_BUSY 0).setF R.NET_MDIO_DATA
          F.NET_MDIO_DATA_DATA data.toNat)) ∧
  (∀ (p : Fin 3) (f : EthFrame) (s : State),
      s.portUp p = false →
      exec (.frameReceive p f) s = .next (s)) ∧
  (∀ (p : Fin 3) (f : EthFrame) (s : State),
      s.portUp p = true →
      f.good = false →
      exec (.frameReceive p f) s = .next (s.portCnt p 1)) ∧
  (∀ (p : Fin 3) (f : EthFrame) (qs : List Nat) (s : State),
      s.portUp p = true →
      f.good = true →
      f.etype ≠ 0x88F7 →
      f.zv = none →
      (((s.portCnt p 0).learn p f.src).useLearned f.dst).route6 p f = some qs →
      exec (.frameReceive p f) s = .next (State.egressAll f qs (((s.portCnt p 0).learn p f.src).useLearned f.dst))) ∧
  (∀ (m : Mac) (s : State),
      ∃ t, exec (.fdbAgeing m) s = .next t ∧
        t = s.modNet (fun y =>
            { y with learned := y.learned.filter (fun e => !(decide (e.mac = m) && decide (e.used + 300 * second3 ≤ s.clk.now3))) }) ∧
        t.net = { s.net with learned := s.net.learned.filter (fun e => !(decide (e.mac = m) && decide (e.used + 300 * second3 ≤ s.clk.now3))) } ∧
        t.regs = s.regs ∧
        t.out = s.out)

/-- A frame of an enabled listener counts; a good one is taken, another sets FMT_ERR; twelve blocks without one set
LOST, clear ACTIVE and raise the event; a talker frame with room counts, records its presentation time and goes
out, and without room counts a drop. (R182, R184, R186, R187) -/
def Obligations.NetworkStreams : Prop :=
  (∀ (st : Fin 16) (f : AafFrame) (s : State),
      s.on (R.NET_LS_CFG st) F.NET_LS_CFG_EN = true →
      (s.incWrap (R.NET_LS_FRAMES st) F.NET_LS_FRAMES_COUNT).aafOk st f = true →
      exec (.listenerFrame st f) s = .next ((s.incWrap (R.NET_LS_FRAMES st) F.NET_LS_FRAMES_COUNT).frameTaken st f)) ∧
  (∀ (st : Fin 16) (f : AafFrame) (s : State),
      s.on (R.NET_LS_CFG st) F.NET_LS_CFG_EN = true →
      (s.incWrap (R.NET_LS_FRAMES st) F.NET_LS_FRAMES_COUNT).aafOk st f = false →
      exec (.listenerFrame st f) s = .next ((s.incWrap (R.NET_LS_FRAMES st) F.NET_LS_FRAMES_COUNT).setF
          (R.NET_LS_STS st) F.NET_LS_STS_FMT_ERR 1)) ∧
  (∀ (st : Fin 16) (s : State),
      s.on (R.NET_LS_CFG st) F.NET_LS_CFG_EN = true →
      (s.lsX st).lost = false →
      (s.lsX st).heard + 12 ≤ s.clk.blk →
      ∃ t, exec (.streamLost st) s = .next t ∧
        t = (((s.setF (R.NET_LS_STS st) F.NET_LS_STS_LOST 1).setF (R.NET_LS_STS st) F.NET_LS_STS_ACTIVE 0).modLs st
            (fun x => { x with lost := true })).raise 0x0706 (0x600 + st) ∧
        t.fld (R.NET_LS_STS st) F.NET_LS_STS_LOST = 1 ∧
        t.fld (R.NET_LS_STS st) F.NET_LS_STS_ACTIVE = 0 ∧
        t.mp = s.mp) ∧
  (∀ (st : Fin 16) (k : Nat) (smp : Fin 16) (s : State),
      s.on (R.NET_TK_CFG st) F.NET_TK_CFG_EN = true →
      exec (.talkerFrameSend st k smp true) s = .next ((let ts := BitVec.ofNat 32 (s.stampOf k smp + (s.rd (R.NET_TK_OFS st)).toNat)
        (((s.incWrap (R.NET_TK_FRAMES st) F.NET_TK_FRAMES_COUNT).wr (R.NET_TK_TS st) ts).setF (R.NET_TK_STS st) F.NET_TK_STS_ACTIVE 1).emit (.talker st ts)))) ∧
  (∀ (st : Fin 16) (k : Nat) (smp : Fin 16) (s : State),
      s.on (R.NET_TK_CFG st) F.NET_TK_CFG_EN = true →
      ∃ t, exec (.talkerFrameSend st k smp false) s = .next t ∧
        t = s.incSat (R.NET_TK_ERR st) F.NET_TK_ERR_DROP ∧
        t.fld (R.NET_TK_ERR st) F.NET_TK_ERR_DROP = min (s.fld (R.NET_TK_ERR st) F.NET_TK_ERR_DROP + 1)
            (2 ^ F.NET_TK_ERR_DROP.w - 1) ∧
        t.out = s.out ∧
        t.net = s.net)

/-- A corrected error, an uncorrectable error and a scrub find act by their store; a miss of an engine counts, and
the third in a row takes the cluster down; an escape raises its event and takes the cluster down; a stage
resumes 64 blocks after its error; a hub error, the watchdog and the loss of the system PLL reset the hub with
their causes. (R42, R167, R232, R364, R365, R367, R370, R372) -/
def Obligations.MemoryAndHubErrors : Prop :=
  (∀ (st : Fin 28) (addr : Nat) (s : State),
      exec (.memSingleBitError st addr) s = .next (s.corrected st addr)) ∧
  (∀ (st : Fin 28) (addr : Nat) (place : ErrPlace) (s : State),
      exec (.memUncorrectable st addr place) s = .next (s.uncorrectable st addr place)) ∧
  (∀ (st : Fin 28) (addr : Nat) (find : ScrubFind) (s : State),
      st.val ≠ 25 →
      st.val ≠ 26 →
      exec (.sramScrub st addr find) s = .next (s.scrubbed st addr find)) ∧
  (∀ (addr : Nat) (find : ScrubFind) (s : State),
      s.power.hubUp = true →
      s.on R.MEM_SCRUB_CFG F.MEM_SCRUB_CFG_DRAM_EN = true →
      exec (.dramScrub addr find) s = .next ((s.rowRepair (addr / 2048)).scrubbed 25 addr find)) ∧
  (∀ (n : Fin 8) (k : Nat) (s : State),
      s.missed n = some k →
      ((s.engMiss n k).engX n).misses < 3 →
      exec (.engineDeadlineMiss n) s = .next (s.engMiss n k)) ∧
  (∀ (n : Fin 8) (k : Nat) (s : State),
      s.missed n = some k →
      3 ≤ ((s.engMiss n k).engX n).misses →
      exec (.engineDeadlineMiss n) s = .next ((s.engMiss n k).clusterDown n 2 k)) ∧
  (∀ (n : Fin 8) (s : State),
      exec (.parisonEscape n) s = .next ((s.raise 0x0109 (0xF00 + n.val)).clusterDown n 3 (s.firstLost n))) ∧
  (∀ (l : Fin 128) (s : State),
      s.err.stages.any (fun p => p.1 == Stg.lane l && decide (p.2 + 64 ≤ s.clk.blk)) = true →
      exec (.stageResume (.lane l)) s = .next (((s.modErr
          (fun y => { y with stages := y.stages.filter (fun p => p.1 != Stg.lane l) })).stageShow.raiseAt 0x0223
          0x0E30 (s.stampOf s.clk.blk 0) []).unmuteAll (s.stampOf s.clk.blk 0))) ∧
  (∀ (s : State),
      s.power.hubUp = true →
      ∃ t, exec (.hubReset) s = .next t ∧
        t = s.hubReset 2 ∧
        t.power.hubUp = false ∧
        t.fld R.MEM_RST_CAUSE F.MEM_RST_CAUSE_CAUSE = 2 ∧
        t.mirror = [] ∧
        t.window = [] ∧
        t.stage.changes = []) ∧
  (∀ (s : State),
      s.power.hubUp = true →
      ∃ t, exec (.mcWatchdogExpire) s = .next t ∧
        t = s.hubReset 3 ∧
        t.power.hubUp = false ∧
        t.fld R.MEM_RST_CAUSE F.MEM_RST_CAUSE_CAUSE = 3 ∧
        t.mirror = [] ∧
        t.window = [] ∧
        t.stage.changes = []) ∧
  (∀ (s : State),
      s.power.hubUp = true →
      ∃ t, exec (.syspllLockLoss) s = .next t ∧
        t = (s.incSat R.CLK_SYSPLL_STS F.CLK_SYSPLL_STS_LOSS).hubReset 4 ∧
        t.power.hubUp = false ∧
        t.fld R.MEM_RST_CAUSE F.MEM_RST_CAUSE_CAUSE = 4 ∧
        t.mirror = [] ∧
        t.window = [] ∧
        t.stage.changes = [])

/-- M starts with ten settling seconds, its records of the start, and the settings of the newest SETTINGS record;
each second joins the minute unless it settles, and leaves its frames for H; the end of a minute closes it;
without its supply M closes the minute in progress and logs the stop; a gap on the MUART discards what has been
received and changes nothing else. A bad frame counts, and the sixteenth in a row makes the link stale and
raises the event; a good frame clears the count and STALE, and its second acts on H; M answers the read that
waits, or it is BAD_PARAM where M has no such record; a read without an answer for 100 ms is completed TIMEOUT.
(R374, R380, R383, R384, R385, R387, R389, R396) -/
def Obligations.MetrologyRunsAndLink : Prop :=
  (∀ (s : State),
      s.metroFitted = true →
      s.metro.on_ = true →
      exec (.mStart 0) s = .next (s)) ∧
  (∀ (cause : Fin 2) (s : State),
      s.metroFitted = true →
      s.metro.on_ = false →
      ∃ t, exec (.mStart cause) s = .next t ∧
        t = { s with metro := t.metro, free := s.free + 1 } ∧
        t.regs = s.regs ∧
        t.out = s.out ∧
        t.stage = s.stage ∧
        t.free = s.free + 1) ∧
  (∀ (cause : Fin 2) (s : State), s.metroFitted = true → s.metro.on_ = false →
      ∃ t, exec (.mStart cause) s = .next t ∧ t.mOn = true ∧ t.metro.settle = 10 ∧ t.metro.run = none ∧
          t.metro.staged = none) ∧
  (∀ (s : State),
      s.mOn = true →
      exec (.mSupplyRemove) s = .next (s.modMetro (fun m => ((m.closeMinute true false m.time48).note 3
          (leBytes 1 0)).drop))) ∧
  (∀ (m : SecondMeas) (ver : Bool) (s : State),
      s.mOn = true →
      exec (.integrationSecond m ver) s = .next ((s.modMetro (fun x =>
          let x := { x with verEn := ver, lastSec := some m }
          let x := if x.settle ≠ 0 then { x with settle := x.settle - 1, minute := { x.minute with settling := true } }
            else { x with minute := { x.minute with secs := m :: x.minute.secs, overs := x.minute.overs + m.overload.toNat } }
          let x := (x.oscSec m.cycles).flushAll
          { x with news := [], frame := some ⟨x.mirrorWords m, if x.fwd then some m.laeq else none, x.nextSeq - 1, x.legalOk, (match x.frame with
              | some f => f.recs
              | none => []) ++ x.news.reverse⟩ })))) ∧
  (∀ (vbak : Nat) (s : State),
      s.mOn = true →
      exec (.minuteClose vbak) s = .next (s.modMetro (fun x =>
          ({ (x.closeMinute false false (x.time48 / tickHz * tickHz)) with vbak := vbak }).revote))) ∧
  (∀ (s : State),
      exec (.muartGapTimeout) s = .next (s)) ∧
  (∀ (s : State),
      s.mOn = true →
      s.power.hubUp = true →
      s.err.mBad ≠ 15 →
      exec (.mlinkFrame .bad) s = .next ((s.incSat R.MEM_MLINK_CNT F.MEM_MLINK_CNT_BAD).modErr
          (fun y => { y with mBad := y.mBad + 1 }))) ∧
  (∀ (s : State),
      s.mOn = true →
      s.power.hubUp = true →
      s.err.mBad = 15 →
      exec (.mlinkFrame .bad) s = .next (((((s.incSat R.MEM_MLINK_CNT F.MEM_MLINK_CNT_BAD).modErr
          (fun y => { y with mBad := y.mBad + 1 })).setF R.MEM_MLINK_CNT F.MEM_MLINK_CNT_STALE 1).setF R.MLK_STS
          F.MLK_STS_STALE 1).raise 0x0205 0x0E04)) ∧
  (∀ (s : State),
      s.mOn = true →
      s.power.hubUp = true →
      s.metro.frame = none →
      ∃ t, exec (.mlinkFrame .good) s = .next t ∧
        t = ((s.modErr (fun y => { y with mBad := 0 })).setF R.MEM_MLINK_CNT F.MEM_MLINK_CNT_STALE 0).setF R.MLK_STS
            F.MLK_STS_STALE 0 ∧
        t.err.mBad = 0 ∧
        t.fld R.MEM_MLINK_CNT F.MEM_MLINK_CNT_STALE = 0 ∧
        t.fld R.MLK_STS F.MLK_STS_STALE = 0 ∧
        t.metro = s.metro ∧
        t.out = s.out) ∧
  (∀ (id : DescId) (q n a t0 : Nat) (s : State),
      s.mOn = true →
      s.power.hubUp = true →
      s.metro.read = some (id, q, n, a, t0) →
      ((s.modMetro (fun m => { m with read := none })).metro.record q).isSome = true →
      exec (.mReadRequest) s = .next (((s.modMetro (fun m => { m with read := none })).putPayload id.org a
          ((s.modMetro (fun m => { m with read := none })).metro.answer q n)).finishDone id)) ∧
  (∀ (id : DescId) (q n a t0 : Nat) (s : State),
      s.mOn = true →
      s.power.hubUp = true →
      s.metro.read = some (id, q, n, a, t0) →
      ((s.modMetro (fun m => { m with read := none })).metro.record q).isSome = false →
      exec (.mReadRequest) s = .next ((s.modMetro (fun m => { m with read := none })).finishBad id .badParam)) ∧
  (∀ (id : DescId) (q n a t0 : Nat) (s : State),
      s.metro.read = some (id, q, n, a, t0) →
      t0 + second3 / 10 ≤ s.clk.now3 →
      exec (.metrologyReadTimeout) s = .next ((s.modMetro (fun m => { m with read := none })).finishBad id .timeout))

/-- A well-formed STATUS is answered DONE with its 32 bytes; READ answers the records it names, and BAD_PARAM where
one is not in the log; ACK acknowledges every record up to its SEQ, and a SEQ beyond the newest is answered
BAD_PARAM; HEAD answers the SEQ and the hash of the newest record; a request with a bad CRC is not answered.
SETTINGS with legal codes logs them and takes effect; a SET_TIME that may be accepted waits for the next tick,
and one beyond the last second is answered BAD_PARAM; CAL_READ answers the voted block and its slot.
(R389, R390, R402, R403) -/
def Obligations.MuartRequests : Prop :=
  (∀ (r : MuartReq) (s : State),
      s.mOn = true →
      r.crcOk = true →
      s.metro.run = none →
      r.payload.length = 0 →
      ∃ t, exec (.status r) s = .next t ∧
        t = { s with out := t.out, free := t.free } ∧
        ∃ bs, t.out = .muart 1 0 bs :: s.out ∧
        t.regs = s.regs) ∧
  (∀ (r : MuartReq) (s : State),
      s.mOn = true →
      r.crcOk = true →
      s.metro.run = none →
      r.payload.length = 6 →
      1 ≤ bytesAt r.payload 4 2 →
      bytesAt r.payload 4 2 ≤ 16 →
      ((List.range (bytesAt r.payload 4 2)).filterMap (fun i => s.metro.record
          (bytesAt r.payload 0 4 + i))).length = bytesAt r.payload 4 2 →
      exec (.read r) s = .next ((s.modMetro (fun m => { m with verEn := r.ver })).muart 2 0 (((List.range
          (bytesAt r.payload 4 2)).filterMap (fun i => s.metro.record
          (bytesAt r.payload 0 4 + i))).flatMap LegalRec.bytes))) ∧
  (∀ (r : MuartReq) (s : State),
      s.mOn = true →
      r.crcOk = true →
      s.metro.run = none →
      r.payload.length = 6 →
      16 < bytesAt r.payload 4 2 →
      exec (.read r) s = .next ((s.modMetro (fun m => { m with verEn := r.ver })).muart 2 1 [])) ∧
  (∀ (r : MuartReq) (s : State),
      s.mOn = true →
      r.crcOk = true →
      s.metro.run = none →
      r.payload.length = 4 →
      bytesAt r.payload 0 4 < s.metro.nextSeq →
      exec (.ack r) s = .next ((s.modMetro (fun m =>
          ({ m with verEn := r.ver, ack := max m.ack (bytesAt r.payload 0 4 + 1) }).flushAll)).muart 3 0 [])) ∧
  (∀ (r : MuartReq) (s : State),
      s.mOn = true →
      r.crcOk = true →
      s.metro.run = none →
      r.payload.length = 4 →
      s.metro.nextSeq ≤ bytesAt r.payload 0 4 →
      exec (.ack r) s = .next ((s.modMetro (fun m => { m with verEn := r.ver })).muart 3 1 [])) ∧
  (∀ (r : MuartReq) (h : LegalRec) (l : List LegalRec) (s : State),
      s.mOn = true →
      r.crcOk = true →
      s.metro.run = none →
      r.payload.length = 0 →
      s.metro.log = h :: l →
      exec (.head r) s = .next ((s.modMetro (fun m => { m with verEn := r.ver })).muart 4 0
          (leBytes 4 h.seq ++ sha256 h.bytes))) ∧
  (∀ (r : MuartReq) (s : State), r.crcOk = false →
      exec (.status r) s = .next s ∧ exec (.read r) s = .next s ∧ exec (.ack r) s = .next s ∧
          exec (.head r) s = .next s ∧
        exec (.settings r) s = .next s ∧ exec (.calSet r) s = .next s ∧ exec (.calCommit r) s = .next s ∧
            exec (.seal r) s = .next s) ∧
  (∀ (r : MuartReq) (s : State),
      s.mOn = true →
      r.crcOk = true →
      s.metro.run = none →
      r.payload.length = 2 →
      bytesAt r.payload 0 1 ≤ 1 →
      bytesAt r.payload 1 1 ≤ 1 →
      exec (.settings r) s = .next ((s.modMetro
          (fun m => { (({ m with verEn := r.ver }).note 0x0A (leBytes 1 (bytesAt r.payload 0 1) ++ leBytes 1 (bytesAt r.payload 1 1))) with baud := bytesAt r.payload 0 1, fwd := bytesAt r.payload 1 1 == 1 })).muart 6 0 [])) ∧
  (∀ (r : MuartReq) (s : State),
      s.mOn = true →
      r.crcOk = true →
      s.metro.run = none →
      r.payload.length = 6 →
      time48Sec (bytesAt r.payload 0 6) < timeLimit →
      s.metro.sealed = false →
      exec (.setTime r) s = .next ((s.modMetro
          (fun m => { m with verEn := r.ver, setTo := some (bytesAt r.payload 0 6, r.ver.toNat) })).muart 5 0 [])) ∧
  (∀ (r : MuartReq) (s : State),
      s.mOn = true →
      r.crcOk = true →
      s.metro.run = none →
      r.payload.length = 6 →
      timeLimit ≤ time48Sec (bytesAt r.payload 0 6) →
      exec (.setTime r) s = .next ((s.modMetro (fun m => { m with verEn := r.ver })).muart 5 1 [])) ∧
  (∀ (r : MuartReq) (i : Nat) (bs : List Byte) (ok : Bool) (s : State),
      s.mOn = true →
      r.crcOk = true →
      s.metro.run = none →
      r.payload.length = 0 →
      s.metro.voted = some (i, bs, ok) →
      exec (.calRead r) s = .next ((s.modMetro (fun m => { m with verEn := r.ver })).muart 0x10 0 (bs ++ leBytes 1 i)))

/-- With VER_EN high on an unsealed part, CAL_SET with a legal sensitivity stages its block and measuring settles
again; CAL_MEASURE begins its run, and CAL_CHECK begins one also when sealed; the end of a measurement within
0.10 dB and 3.000 dB stages the correction and answers, otherwise it answers BAD_PARAM; the end of a check is
logged and answered; CAL_COMMIT writes the staged block to the next slot in three copies and logs it; SEAL with
a good block sets the seal and logs it. Without VER_EN CAL_SET is answered NEEDS_VER, and on a sealed part it is
answered SEALED, logged and counted. (R389, R390, R393) -/
def Obligations.MuartCalibration : Prop :=
  (∀ (r : MuartReq) (s : State),
      s.mOn = true →
      r.crcOk = true →
      s.metro.run = none →
      r.payload.length = 14 →
      r.ver = true →
      s.metro.sealed = false →
      1000 ≤ (calVals ([0, 0, 0, 0] ++ r.payload)).sens →
      (calVals ([0, 0, 0, 0] ++ r.payload)).sens ≤ 200000 →
      exec (.calSet r) s = .next ((s.modMetro
          (fun m => { m with verEn := true, staged := some (calVals ([0, 0, 0, 0] ++ r.payload)), settle := 10 })).muart 0x11 0 [])) ∧
  (∀ (r : MuartReq) (s : State),
      s.mOn = true →
      r.crcOk = true →
      r.ver = false →
      exec (.calSet r) s = .next ((s.modMetro (fun m => { m with verEn := r.ver })).muart 0x11 2 [])) ∧
  (∀ (r : MuartReq) (s : State),
      s.mOn = true →
      r.crcOk = true →
      r.ver = true →
      s.metro.sealed = true →
      exec (.calSet r) s = .next (((s.modMetro (fun m => { m with verEn := true })).modMetro
          (fun m => { (m.note 5 (leBytes 1 0x11)) with refused := m.refused + 1 })).muart 0x11 3 [])) ∧
  (∀ (r : MuartReq) (s : State),
      s.mOn = true →
      r.crcOk = true →
      s.metro.run = none →
      r.payload.length = 2 →
      r.ver = true →
      s.metro.sealed = false →
      exec (.calMeasure r) s = .next (s.modMetro
          (fun m => { m with verEn := r.ver, run := some ⟨false, bytesAt r.payload 0 2, m.time48⟩ }))) ∧
  (∀ (r : MuartReq) (s : State),
      s.mOn = true →
      r.crcOk = true →
      s.metro.run = none →
      r.payload.length = 2 →
      r.ver = true →
      exec (.calCheck r) s = .next (s.modMetro
          (fun m => { m with verEn := r.ver, run := some ⟨true, bytesAt r.payload 0 2, m.time48⟩ }))) ∧
  (∀ (vals : List Nat) (run : CalRun) (s : State),
      s.mOn = true →
      s.metro.run = some run →
      run.check = false →
      vals.isEmpty = false →
      maxOf 0 vals - minOf 0 vals ≤ 10 →
      (((run.level : Int) - levelMean vals) * 10).natAbs ≤ 3000 →
      exec (.calMeasureDone vals) s = .next ((s.modMetro
          (fun m => { m with run := none, staged := some { ({ m with run := none } : MetroX).cal0 with corr := ((run.level : Int) - levelMean vals) * 10 } })).muart 0x12 0 (leBytes 2 (levelMean vals) ++ leInt 2 (((run.level : Int) - levelMean vals) * 10)))) ∧
  (∀ (vals : List Nat) (run : CalRun) (s : State),
      s.mOn = true →
      s.metro.run = some run →
      run.check = false →
      vals.isEmpty = false →
      10 < maxOf 0 vals - minOf 0 vals →
      exec (.calMeasureDone vals) s = .next ((s.modMetro (fun m => { m with run := none })).muart 0x12 1 [])) ∧
  (∀ (vals : List Nat) (run : CalRun) (s : State),
      s.mOn = true →
      s.metro.run = some run →
      run.check = true →
      vals.isEmpty = false →
      exec (.calCheckDone vals) s = .next ((s.modMetro (fun m => ({ m with run := none }).note 8
          (leBytes 2 run.level ++ leBytes 2 (levelMean vals)))).muart 0x15 0 (leBytes 2 (levelMean vals)))) ∧
  (∀ (r : MuartReq) (v : CalVals) (i : Nat) (s : State),
      s.mOn = true →
      r.crcOk = true →
      s.metro.run = none →
      r.payload.length = 0 →
      r.ver = true →
      s.metro.sealed = false →
      s.metro.staged = some v →
      s.metro.slot = some i →
      i < 3 →
      exec (.calCommit r) s = .next ((let m1 := { s.metro with verEn := true }
        let bs := v.block m1.time48
        (s.modMetro (fun _ => ({ m1 with otp := m1.otp.set (i + 1) [bs, bs, bs], staged := none }).note 6 (leBytes 1 (i + 1) ++ leBytes 4 v.sens ++ leInt 2 v.corr))).muart 0x13 0 (leBytes 1 (i + 1))))) ∧
  (∀ (r : MuartReq) (s : State),
      s.mOn = true →
      r.crcOk = true →
      s.metro.run = none →
      r.payload.length = 0 →
      r.ver = true →
      s.metro.sealed = false →
      s.metro.staged = none →
      exec (.calCommit r) s = .next ((s.modMetro (fun m => { m with verEn := r.ver })).muart 0x13 1 [])) ∧
  (∀ (r : MuartReq) (i : Nat) (bs : List Byte) (s : State),
      s.mOn = true →
      r.crcOk = true →
      s.metro.run = none →
      r.payload.length = 0 →
      r.ver = true →
      s.metro.sealed = false →
      s.metro.voted = some (i, bs, true) →
      exec (.seal r) s = .next ((s.modMetro (fun m => (({ m with verEn := true, sealed := true }).legal).note 7
          (leBytes 1 i))).muart 0x14 0 []))

/-- An SPI transaction writes its words or answers what it reads, and one cut short sets SPI_FRAME; the SMBus port
sets its pointer, answers the register at the pointer and moves on, answers health, the last completion and its
alert address; a finished descriptor clears BUSY, keeps its record and drives the alert; a refresh brings the
mirror what F captured; the oldest write on its way to F is applied. (R333, R334, R439, R440) -/
def Obligations.SerialManagement : Prop :=
  (∀ (addr n : Nat) (cut : Bool) (s : State),
      s.served = true →
      exec (.spiTransaction addr (.read n cut)) s = .next (((State.spiReads addr n s).2.emit (.spi
          (State.spiReads addr n s).1)).spiCut cut)) ∧
  (∀ (addr : Nat) (ws : List Word) (cut : Bool) (s : State),
      s.served = true →
      exec (.spiTransaction addr (.write ws cut)) s = .next ((State.spiWrites addr ws s).spiCut cut)) ∧
  (∀ (p : Nat) (s : State),
      s.smbUp = true →
      exec (.smbSetPointer p true) s = .next (s.modHost (fun y => { y with smbPtr := p % 2 ^ 32 }))) ∧
  (∀ (p : Nat) (s : State),
      s.smbUp = true →
      s.on R.HIF_SMB_CFG F.HIF_SMB_CFG_PEC_EN = true →
      exec (.smbSetPointer p false) s = .next (s.setF R.HIF_SMB_STS F.HIF_SMB_STS_PEC_ERR 1)) ∧
  (∀ (s : State),
      s.smbUp = true →
      exec (.smbReadRegister) s = .next (((State.drainF (s.windowRead agSmb s.host.smbPtr).2.stage.toF.length
          (s.windowRead agSmb s.host.smbPtr).2).modHost
          (fun y => { y with smbPtr := (s.host.smbPtr + 4) % 2 ^ 32 })).smbAnswer (leBytes 4
          (s.windowRead agSmb s.host.smbPtr).1.toNat))) ∧
  (∀ (s : State),
      s.smbUp = true →
      exec (.smbReadHealth) s = .next (s.healthPayload.2.smbAnswer (s.healthPayload.1.take 32))) ∧
  (∀ (s : State),
      s.smbUp = true →
      exec (.smbReadMcpl) s = .next ((s.modHost (fun y => { y with smbAlert := false })).smbAnswer s.host.smbLast)) ∧
  (∀ (s : State),
      s.smbUp = true →
      s.host.smbAlert = true →
      exec (.smbAlertResponse) s = .next ((s.modHost (fun y => { y with smbAlert := false })).smbAnswer
          [BitVec.ofNat 8 (2 * s.fld R.HIF_SMB_CFG F.HIF_SMB_CFG_ADDR)])) ∧
  (∀ (f : InFlight) (c : Completion) (s : State),
      s.postable .smbus = some (f, c) →
      silent f c = false →
      exec (.smbDescriptorDone) s = .next (((s.dropFlight .smbus).setF R.HIF_SMB_STS F.HIF_SMB_STS_BUSY 0).modHost
          (fun h => { h with smbLast := f.record c, smbAlert := true }))) ∧
  (∀ (s : State),
      s.linkUp = true →
      s.power.hubUp = true →
      s.snap = none →
      ∃ t, exec (.mirrorRefreshArrive) s = .next t ∧
        t = (((s.modMirror (fun _ => s.capture)).modSnap (fun _ => none)).wr R.GLB_MIRROR_BLK
            (BitVec.ofNat 32 s.clk.blk)).setF R.GLB_MIRROR_STS F.GLB_MIRROR_STS_REFRESHING 0 ∧
        t.mirror = s.capture ∧
        t.snap = none ∧
        t.fld R.GLB_MIRROR_STS F.GLB_MIRROR_STS_REFRESHING = 0 ∧
        t.rd R.GLB_MIRROR_BLK = BitVec.ofNat 32 s.clk.blk ∧
        t.out = s.out ∧
        t.stage = s.stage) ∧
  (∀ (a : Nat) (m v : Word) (rest : List (Nat × Word × Word)) (s : State),
      s.stage.toF = (a, m, v) :: rest →
      exec (.fWriteApply) s = .next ((s.modStage (fun y => { y with toF := rest })).applyNow a m v))

/-- Where the window accepts the write, the CNT_CLR of a page on H clears the counters of that page and nothing else
changes but the register written; MP_GLB_CTL also stages its staged fields. Where the window accepts the write,
the CNT_CLR of a page on F clears the counters of that page on F; the mirror takes the write; PWR_GLB_CFG also
stages its staged fields. (R10, R437, R440) -/
def Obligations.CounterClears : Prop :=
  (∀ (a : Agent) (v : Word) (s : State),
      s.accepts a (R.ENG_GLB_CTL) (withBits v F.ENG_GLB_CTL_CNT_CLR) = true →
      exec (.engCntClr a v) s = .next ((s.written (R.ENG_GLB_CTL) (withBits v F.ENG_GLB_CTL_CNT_CLR)).engCntClr)) ∧
  (∀ (a : Agent) (v : Word) (s : State),
      s.accepts a (R.NET_GLB_CTL) (withBits v F.NET_GLB_CTL_CNT_CLR) = true →
      exec (.netCntClr a v) s = .next ((s.written (R.NET_GLB_CTL) (withBits v F.NET_GLB_CTL_CNT_CLR)).netCntClr)) ∧
  (∀ (a : Agent) (v : Word) (s : State),
      s.accepts a (R.LCK_GLB_CTL) (withBits v F.LCK_GLB_CTL_CNT_CLR) = true →
      exec (.lckCntClr a v) s = .next ((s.written (R.LCK_GLB_CTL) (withBits v F.LCK_GLB_CTL_CNT_CLR)).lckCntClr)) ∧
  (∀ (a : Agent) (v : Word) (s : State),
      s.accepts a (R.HIF_GLB_CTL) (withBits v F.HIF_GLB_CTL_CNT_CLR) = true →
      exec (.hifCntClr a v) s = .next ((s.written (R.HIF_GLB_CTL) (withBits v F.HIF_GLB_CTL_CNT_CLR)).hifCntClr)) ∧
  (∀ (a : Agent) (v : Word) (s : State),
      s.accepts a (R.MEM_CTL) (withBits v F.MEM_CTL_CNT_CLR) = true →
      exec (.memCntClr a v) s = .next ((s.written (R.MEM_CTL) (withBits v F.MEM_CTL_CNT_CLR)).memCntClr)) ∧
  (∀ (a : Agent) (v : Word) (s : State),
      s.accepts a (R.JNL_CTL) (withBits v F.JNL_CTL_CNT_CLR) = true →
      exec (.jnlCntClr a v) s = .next ((if hit (woMask R.JNL_CTL &&& withBits v F.JNL_CTL_CNT_CLR)
          F.JNL_CTL_COMPACT then (s.written (R.JNL_CTL) (withBits v F.JNL_CTL_CNT_CLR)).compactGo else (s.written
          (R.JNL_CTL) (withBits v F.JNL_CTL_CNT_CLR))).jnlCntClr)) ∧
  (∀ (a : Agent) (v : Word) (s : State),
      s.accepts a (R.GLB_CTL) (withBits v F.GLB_CTL_CNT_CLR) = true →
      exec (.glbCntClr a v) s = .next (if hit (woMask R.GLB_CTL &&& withBits v F.GLB_CTL_CNT_CLR)
          F.GLB_CTL_REFRESH then ((s.written (R.GLB_CTL) (withBits v F.GLB_CTL_CNT_CLR)).setF R.GLB_ACC_ERR
          F.GLB_ACC_ERR_COUNT 0).setF R.GLB_MIRROR_STS F.GLB_MIRROR_STS_REFRESHING 1 else (s.written (R.GLB_CTL)
          (withBits v F.GLB_CTL_CNT_CLR)).setF R.GLB_ACC_ERR F.GLB_ACC_ERR_COUNT 0)) ∧
  (∀ (a : Agent) (v : Word) (s : State),
      s.accepts a (R.TST_CTL) (withBits v F.TST_CTL_CNT_CLR) = true →
      exec (.tstCntClr a v) s = .next (((s.written (R.TST_CTL)
          (withBits v F.TST_CTL_CNT_CLR)).wr R.TST_REFUSED 0).setF R.TST_JTAG F.TST_JTAG_REGWIN 0)) ∧
  (∀ (a : Agent) (v : Word) (s : State),
      s.accepts a (R.MP_GLB_CTL) (withBits v F.MP_GLB_CTL_CNT_CLR) = true →
      exec (.mpCntClr a v) s = .next (State.drainF ((s.writeNow (R.MP_GLB_CTL) (nowMask (R.MP_GLB_CTL))
          (withBits v F.MP_GLB_CTL_CNT_CLR)).stageWrite a (R.MP_GLB_CTL)
          (withBits v F.MP_GLB_CTL_CNT_CLR)).stage.toF.length ((s.writeNow (R.MP_GLB_CTL) (nowMask (R.MP_GLB_CTL))
          (withBits v F.MP_GLB_CTL_CNT_CLR)).stageWrite a (R.MP_GLB_CTL) (withBits v F.MP_GLB_CTL_CNT_CLR)))) ∧
  (∀ (a : Agent) (v : Word) (s : State),
      s.accepts a (R.FLT_GLB_CTL) (withBits v F.FLT_GLB_CTL_CNT_CLR) = true →
      exec (.fltCntClr a v) s = .next ((s.written (R.FLT_GLB_CTL) (withBits v F.FLT_GLB_CTL_CNT_CLR)).fltCntClr)) ∧
  (∀ (a : Agent) (v : Word) (s : State),
      s.accepts a (R.TTH_CTL) (withBits v F.TTH_CTL_CNT_CLR) = true →
      exec (.tthCntClr a v) s = .next ((s.written (R.TTH_CTL) (withBits v F.TTH_CTL_CNT_CLR)).tthCntClr)) ∧
  (∀ (a : Agent) (v : Word) (s : State),
      s.accepts a (R.SNS_GLB_CTL) (withBits v F.SNS_GLB_CTL_CNT_CLR) = true →
      exec (.snsCntClr a v) s = .next ((s.written (R.SNS_GLB_CTL) (withBits v F.SNS_GLB_CTL_CNT_CLR)).snsCntClr)) ∧
  (∀ (a : Agent) (v : Word) (s : State),
      s.accepts a (R.PWR_GLB_CFG) (withBits v F.PWR_GLB_CFG_CNT_CLR) = true →
      exec (.pwrCntClr a v) s = .next (State.drainF ((s.writeNow (R.PWR_GLB_CFG) (nowMask (R.PWR_GLB_CFG))
          (withBits v F.PWR_GLB_CFG_CNT_CLR)).stageWrite a (R.PWR_GLB_CFG)
          (withBits v F.PWR_GLB_CFG_CNT_CLR)).stage.toF.length ((s.writeNow (R.PWR_GLB_CFG) (nowMask
          (R.PWR_GLB_CFG)) (withBits v F.PWR_GLB_CFG_CNT_CLR)).stageWrite a (R.PWR_GLB_CFG)
          (withBits v F.PWR_GLB_CFG_CNT_CLR))))

/-- Where the window accepts the write: a changed MODE or SE resets the chain of an enabled channel, and the same
word changes nothing more; a written gain starts its steps; a coefficient is written to the selected bank where
that is not in use; the SYNC trigger stages a SYNC, and an armed one follows FLT_SYNC_AT; a swap is staged with
its fields. (R53, R54, R68, R69, R72, R437, R440) -/
def Obligations.FrontEndWrites : Prop :=
  (∀ (a : Agent) (n : Fin 8) (v : Word) (s : State),
      s.accepts a (R.AFE_IN_CFG n) (v) = true →
      exec (.afeModeChange a n v) s = .next (if s.rd (R.AFE_IN_CFG n) = (s.written (R.AFE_IN_CFG n) (v)).rd
          (R.AFE_IN_CFG n) then (s.written (R.AFE_IN_CFG n) (v)) else (s.written (R.AFE_IN_CFG n) (v)).modeChanged n)) ∧
  (∀ (a : Agent) (n : Fin 8) (v : Word) (s : State),
      s.accepts a (R.AFE_IN_GAIN n) (v) = true →
      exec (.afeGainWrite a n v) s = .next ((s.written (R.AFE_IN_GAIN n) (v)).gainWritten n)) ∧
  (∀ (a : Agent) (i : Fin 128) (v : Word) (s : State),
      s.accepts a (R.FLT_COEF_WIN i) v = true →
      exec (.fltCoefWinWrite a i v) s = .next ((s.mirrored (R.FLT_COEF_WIN i) v).coefWinWrite i v)) ∧
  (∀ (a : Agent) (v : Word) (s : State),
      s.accepts a (R.FLT_SYNC_CTL) (withBits v F.FLT_SYNC_CTL_SW_SYNC) = true →
      exec (.fltSwSync a v) s = .next (if (s.rd R.FLT_SYNC_CTL).fld F.FLT_SYNC_CTL_ARM = 1 ∨ (s.written
          (R.FLT_SYNC_CTL) (withBits v F.FLT_SYNC_CTL_SW_SYNC)).swSync.on R.FLT_SYNC_CTL F.FLT_SYNC_CTL_ARM = true
          then (s.written (R.FLT_SYNC_CTL) (withBits v F.FLT_SYNC_CTL_SW_SYNC)).swSync.armSync else (s.written
          (R.FLT_SYNC_CTL) (withBits v F.FLT_SYNC_CTL_SW_SYNC)).swSync)) ∧
  (∀ (a : Agent) (v : Word) (s : State),
      s.accepts a (R.FLT_SYNC_AT_LO) (v) = true →
      exec (.syncArm a (.atLo v)) s = .next (if (s.written (R.FLT_SYNC_AT_LO)
          (v)).on R.FLT_SYNC_CTL F.FLT_SYNC_CTL_ARM then (s.written (R.FLT_SYNC_AT_LO) (v)).armSync else (s.written
          (R.FLT_SYNC_AT_LO) (v)))) ∧
  (∀ (a : Agent) (v : Word) (s : State),
      s.accepts a (R.FLT_SYNC_AT_HI) (v) = true →
      exec (.syncArm a (.atHi v)) s = .next (if (s.written (R.FLT_SYNC_AT_HI)
          (v)).on R.FLT_SYNC_CTL F.FLT_SYNC_CTL_ARM then (s.written (R.FLT_SYNC_AT_HI) (v)).armSync else (s.written
          (R.FLT_SYNC_AT_HI) (v)))) ∧
  (∀ (a : Agent) (c : Fin 16) (v : Word) (s : State),
      s.accepts a (R.FLT_SWAP c) (withBits v F.FLT_SWAP_GO) = true →
      exec (.fltSwapGo a c v) s = .next (State.drainF ((s.writeNow (R.FLT_SWAP c) (nowMask (R.FLT_SWAP c))
          (withBits v F.FLT_SWAP_GO)).stageWrite a (R.FLT_SWAP c) (withBits v F.FLT_SWAP_GO)).stage.toF.length
          ((s.writeNow (R.FLT_SWAP c) (nowMask (R.FLT_SWAP c)) (withBits v F.FLT_SWAP_GO)).stageWrite a
          (R.FLT_SWAP c) (withBits v F.FLT_SWAP_GO))))

/-- Where the window accepts the write of SAP_CFG, its change of EN starts or stops the direction, a cleared HOLD
sends the shadows across and a changed SRC_MODE is judged; a tracker that locks sets its bit and raises its
event, and the lanes whose change waits for it fade in; one that unlocks raises its event.
(R91, R93, R94, R96, R100, R101, R437) -/
def Obligations.SerialPortWrites : Prop :=
  (∀ (a : Agent) (d : Fin 8) (v : Word) (s : State),
      s.accepts a (R.SAP_CFG d) (withBits v F.SAP_CFG_EN) = true →
      exec (.sapStart a d v) s = .next ((s.written (R.SAP_CFG d) (withBits v F.SAP_CFG_EN)).sapCfgWritten d (s.rd
          (R.SAP_CFG d)))) ∧
  (∀ (a : Agent) (d : Fin 8) (v : Word) (s : State),
      s.accepts a (R.SAP_CFG d) (v.setFld F.SAP_CFG_EN 0) = true →
      exec (.sapStop a d v) s = .next ((s.written (R.SAP_CFG d) (v.setFld F.SAP_CFG_EN 0)).sapCfgWritten d (s.rd
          (R.SAP_CFG d)))) ∧
  (∀ (a : Agent) (d : Fin 8) (v : Word) (s : State),
      s.accepts a (R.SAP_CFG d) (v.setFld F.SAP_CFG_HOLD 0) = true →
      exec (.sapHoldRelease a d v) s = .next ((s.written (R.SAP_CFG d) (v.setFld F.SAP_CFG_HOLD 0)).sapCfgWritten d
          (s.rd (R.SAP_CFG d)))) ∧
  (∀ (a : Agent) (d : Fin 8) (v : Word) (s : State),
      s.accepts a (R.SAP_CFG d) (v) = true →
      exec (.srcModeChange a d v) s = .next ((s.written (R.SAP_CFG d) (v)).sapCfgWritten d (s.rd (R.SAP_CFG d)))) ∧
  (∀ (d : Fin 8) (rate : Nat) (s : State),
      (s.sapTracked d rate).on (R.SAP_STS d) F.SAP_STS_LOCK = true →
      exec (.srcLocked (.sap d) rate) s = .next ((s.sapTracked d rate).splitLocked
          (fun src => sapOf src == some d.val) (s.sapTracked d rate).nextBoundary (s.sapTracked d rate).mp.routes)) ∧
  (∀ (st : Fin 16) (rate : Nat) (s : State),
      (s.listenerTracked st).mp.lsLocked.contains st.val = true →
      exec (.srcLocked (.listener st) rate) s = .next ((s.listenerTracked st).splitLocked
          (fun src => listenerOf src == some st.val) (s.listenerTracked st).nextBoundary
          (s.listenerTracked st).mp.routes)) ∧
  (∀ (d : Fin 8) (s : State),
      (s.dir d).use = .track →
      s.on (R.SAP_STS d) F.SAP_STS_LOCK = true →
      ∃ t, exec (.srcUnlocked (.sap d)) s = .next t ∧
        t = s.sapTrackLost d ∧
        t.fld (R.SAP_STS d) F.SAP_STS_LOCK = 0 ∧
        t.mp = s.mp) ∧
  (∀ (st : Fin 16) (s : State),
      s.mp.lsLocked.contains st.val = true →
      ∃ t, exec (.srcUnlocked (.listener st)) s = .next t ∧
        t = s.listenerTrackLost st ∧
        t.mp = { s.mp with lsLocked := s.mp.lsLocked.filter (fun x => x != st.val) } ∧
        t.fe = s.fe)

/-- Where the window accepts the write: a preset trigger stages its preset; the arbiter takes its snapshot; an MDIO
frame begins; a written gain of the gain window starts its ramp; the player takes a request or stops; a tone
register starts its pattern again; a servo closes; the maintenance bit is written; the registers with staged
fields stage them beside their triggers. (R135, R153, R174, R175, R252, R265, R285, R288, R291, R437) -/
def Obligations.EngineNetworkOutputWrites : Prop :=
  (∀ (a : Agent) (v : Word) (s : State),
      s.accepts a (R.MP_PRESET_CTL) (withBits v F.MP_PRESET_CTL_GO) = true →
      exec (.presetGo a v) s = .next ((s.written (R.MP_PRESET_CTL) (withBits v F.MP_PRESET_CTL_GO)).stagePreset
          ((s.written (R.MP_PRESET_CTL) (withBits v F.MP_PRESET_CTL_GO)).fld R.MP_PRESET_CTL F.MP_PRESET_CTL_INDEX))) ∧
  (∀ (a : Agent) (n : Fin 8) (v : Word) (s : State),
      s.accepts a (R.ENG_CTL n) (v) = true →
      exec (.engineModeWrite a n v) s = .next (State.drainF ((s.writeNow (R.ENG_CTL n) (nowMask (R.ENG_CTL n))
          (v)).stageWrite a (R.ENG_CTL n) (v)).stage.toF.length ((s.writeNow (R.ENG_CTL n) (nowMask (R.ENG_CTL n))
          (v)).stageWrite a (R.ENG_CTL n) (v)))) ∧
  (∀ (a : Agent) (v : Word) (s : State),
      s.accepts a (R.ARB_CTL) (withBits v F.ARB_CTL_SNAP) = true →
      exec (.arbSnap a v) s = .next ((s.written (R.ARB_CTL) (withBits v F.ARB_CTL_SNAP)).arbSnap (hit
          (woMask R.ARB_CTL &&& withBits v F.ARB_CTL_SNAP) F.ARB_CTL_CLR))) ∧
  (∀ (a : Agent) (v : Word) (s : State),
      s.accepts a (R.NET_MDIO_CTL) (withBits v F.NET_MDIO_CTL_GO) = true →
      exec (.mdioGo a v) s = .next ((s.written (R.NET_MDIO_CTL) (withBits v F.NET_MDIO_CTL_GO)).mdioGo)) ∧
  (∀ (a : Agent) (m : Fin 8) (v : Word) (s : State),
      s.accepts a (R.PWR_CTL m) (withBits v F.PWR_CTL_CLR_FAULT) = true →
      exec (.pwrClrFault a m v) s = .next (State.drainF ((s.writeNow (R.PWR_CTL m) (nowMask (R.PWR_CTL m))
          (withBits v F.PWR_CTL_CLR_FAULT)).stageWrite a (R.PWR_CTL m)
          (withBits v F.PWR_CTL_CLR_FAULT)).stage.toF.length ((s.writeNow (R.PWR_CTL m) (nowMask (R.PWR_CTL m))
          (withBits v F.PWR_CTL_CLR_FAULT)).stageWrite a (R.PWR_CTL m) (withBits v F.PWR_CTL_CLR_FAULT)))) ∧
  (∀ (a : Agent) (m : Fin 8) (v : Word) (s : State),
      s.accepts a (R.PWR_CTL m) (withBits v F.PWR_CTL_DIAG_GO) = true →
      exec (.pwrDiagGo a m v) s = .next (State.drainF ((s.writeNow (R.PWR_CTL m) (nowMask (R.PWR_CTL m))
          (withBits v F.PWR_CTL_DIAG_GO)).stageWrite a (R.PWR_CTL m)
          (withBits v F.PWR_CTL_DIAG_GO)).stage.toF.length ((s.writeNow (R.PWR_CTL m) (nowMask (R.PWR_CTL m))
          (withBits v F.PWR_CTL_DIAG_GO)).stageWrite a (R.PWR_CTL m) (withBits v F.PWR_CTL_DIAG_GO)))) ∧
  (∀ (a : Agent) (e : Fin 8) (v : Word) (s : State),
      s.accepts a (R.EXT_CFG e) (withBits v F.EXT_CFG_CLR_FAULT) = true →
      exec (.extClrFault a e v) s = .next (State.drainF ((s.writeNow (R.EXT_CFG e) (nowMask (R.EXT_CFG e))
          (withBits v F.EXT_CFG_CLR_FAULT)).stageWrite a (R.EXT_CFG e)
          (withBits v F.EXT_CFG_CLR_FAULT)).stage.toF.length ((s.writeNow (R.EXT_CFG e) (nowMask (R.EXT_CFG e))
          (withBits v F.EXT_CFG_CLR_FAULT)).stageWrite a (R.EXT_CFG e) (withBits v F.EXT_CFG_CLR_FAULT)))) ∧
  (∀ (a : Agent) (v : Word) (s : State),
      s.accepts a (R.TTH_GWIN_DATA) (v) = true →
      exec (.tthGwinWrite a v) s = .next ((s.written (R.TTH_GWIN_DATA) (v)).gwinWrite v)) ∧
  (∀ (a : Agent) (o : Fin 24) (v : Word) (s : State),
      s.accepts a (R.TTH_OUT_CFG o) (withBits v F.TTH_OUT_CFG_CLR_FAULT) = true →
      exec (.tthClrFault a o v) s = .next (State.drainF ((s.writeNow (R.TTH_OUT_CFG o) (nowMask (R.TTH_OUT_CFG o))
          (withBits v F.TTH_OUT_CFG_CLR_FAULT)).stageWrite a (R.TTH_OUT_CFG o)
          (withBits v F.TTH_OUT_CFG_CLR_FAULT)).stage.toF.length ((s.writeNow (R.TTH_OUT_CFG o) (nowMask
          (R.TTH_OUT_CFG o)) (withBits v F.TTH_OUT_CFG_CLR_FAULT)).stageWrite a (R.TTH_OUT_CFG o)
          (withBits v F.TTH_OUT_CFG_CLR_FAULT)))) ∧
  (∀ (a : Agent) (v : Word) (s : State),
      s.accepts a (R.TTH_PLAY_CTL) (withBits v F.TTH_PLAY_CTL_GO) = true →
      exec (.tthPlayGo a v) s = .next ((let t := (s.written (R.TTH_PLAY_CTL) (withBits v F.TTH_PLAY_CTL_GO)).playGo ((s.written (R.TTH_PLAY_CTL) (withBits v F.TTH_PLAY_CTL_GO)).fld R.TTH_PLAY_CTL F.TTH_PLAY_CTL_MSG) ((s.written (R.TTH_PLAY_CTL) (withBits v F.TTH_PLAY_CTL_GO)).fld R.TTH_PLAY_CTL F.TTH_PLAY_CTL_REPEAT)
        if hit (woMask R.TTH_PLAY_CTL &&& (withBits v F.TTH_PLAY_CTL_GO)) F.TTH_PLAY_CTL_STOP then t.playStop else t))) ∧
  (∀ (a : Agent) (v : Word) (s : State),
      s.accepts a (R.TTH_PLAY_CTL) (withBits v F.TTH_PLAY_CTL_STOP) = true →
      exec (.tthPlayStop a v) s = .next ((if hit (woMask R.TTH_PLAY_CTL &&& (withBits v F.TTH_PLAY_CTL_STOP))
          F.TTH_PLAY_CTL_GO then (s.written (R.TTH_PLAY_CTL) (withBits v F.TTH_PLAY_CTL_STOP)).playGo ((s.written
          (R.TTH_PLAY_CTL) (withBits v F.TTH_PLAY_CTL_STOP)).fld R.TTH_PLAY_CTL F.TTH_PLAY_CTL_MSG) ((s.written
          (R.TTH_PLAY_CTL) (withBits v F.TTH_PLAY_CTL_STOP)).fld R.TTH_PLAY_CTL F.TTH_PLAY_CTL_REPEAT) else
          (s.written (R.TTH_PLAY_CTL) (withBits v F.TTH_PLAY_CTL_STOP))).playStop)) ∧
  (∀ (a : Agent) (freq : Bool) (v : Word) (s : State),
      s.accepts a (if freq then R.TTH_TONE_FREQ else R.TTH_TONE_CFG) (v) = true →
      exec (.toneCfgWrite a freq v) s = .next ((s.written (if freq then R.TTH_TONE_FREQ else R.TTH_TONE_CFG)
          (v)).toneRestart)) ∧
  (∀ (a : Agent) (m : Fin 8) (v : Word) (s : State),
      s.accepts a (R.TTH_SRV_CFG m) (withBits v F.TTH_SRV_CFG_CLOSE) = true →
      exec (.servoClose a m v) s = .next ((s.written (R.TTH_SRV_CFG m) (withBits v F.TTH_SRV_CFG_CLOSE)).servoClose m)) ∧
  (∀ (a : Agent) (v : Word) (s : State),
      s.accepts a (R.TTH_CTL) (v) = true →
      exec (.tthMaintWrite a v) s = .next (if hit (woMask R.TTH_CTL &&& v) F.TTH_CTL_CNT_CLR then (s.written
          (R.TTH_CTL) (v)).tthCntClr else (s.written (R.TTH_CTL) (v))))

/-- Where the window accepts the write: GO starts and STOP ends a handover; a software trigger, a pause, a resume, a
disable, an injection, a calibration step, the reference buffer and the calibration table act on their
converter; the test switches are written. (R309, R317, R320, R321, R324, R325, R326, R330, R437) -/
def Obligations.ListenerAndSenseWrites : Prop :=
  (∀ (a : Agent) (v : Word) (s : State),
      s.accepts a (R.AFE_GTH_CFG) (withBits v F.AFE_GTH_CFG_GO) = true →
      exec (.gthGoWrite a v) s = .next ((let t := (s.written (R.AFE_GTH_CFG) (withBits v F.AFE_GTH_CFG_GO)).gatherStart ((s.written (R.AFE_GTH_CFG) (withBits v F.AFE_GTH_CFG_GO)).fld R.AFE_GTH_CFG F.AFE_GTH_CFG_FMT)
        if hit (woMask R.AFE_GTH_CFG &&& (withBits v F.AFE_GTH_CFG_GO)) F.AFE_GTH_CFG_STOP then t.gatherStop else t))) ∧
  (∀ (a : Agent) (v : Word) (s : State),
      s.accepts a (R.AFE_GTH_CFG) (withBits v F.AFE_GTH_CFG_STOP) = true →
      exec (.gthStopWrite a v) s = .next ((if hit (woMask R.AFE_GTH_CFG &&& (withBits v F.AFE_GTH_CFG_STOP))
          F.AFE_GTH_CFG_GO then (s.written (R.AFE_GTH_CFG) (withBits v F.AFE_GTH_CFG_STOP)).gatherStart ((s.written
          (R.AFE_GTH_CFG) (withBits v F.AFE_GTH_CFG_STOP)).fld R.AFE_GTH_CFG F.AFE_GTH_CFG_FMT) else (s.written
          (R.AFE_GTH_CFG) (withBits v F.AFE_GTH_CFG_STOP))).gatherStop)) ∧
  (∀ (a : Agent) (c : Fin 2) (v : Word) (s : State),
      s.accepts a (R.SNS_TRIG c) (withBits v F.SNS_TRIG_SW) = true →
      exec (.snsSwTrigger a c v) s = .next ((s.written (R.SNS_TRIG c) (withBits v F.SNS_TRIG_SW)).snsSoftware c)) ∧
  (∀ (a : Agent) (c : Fin 2) (v : Word) (s : State),
      s.accepts a (R.SNS_CFG c) (withBits v F.SNS_CFG_PAUSE) = true →
      exec (.sensePause a c v) s = .next ((s.written (R.SNS_CFG c) (withBits v F.SNS_CFG_PAUSE)).snsCfgWritten c
          (s.rd (R.SNS_CFG c)))) ∧
  (∀ (a : Agent) (c : Fin 2) (v : Word) (s : State),
      s.accepts a (R.SNS_CFG c) (v.setFld F.SNS_CFG_PAUSE 0) = true →
      exec (.senseResume a c v) s = .next ((s.written (R.SNS_CFG c) (v.setFld F.SNS_CFG_PAUSE 0)).snsCfgWritten c
          (s.rd (R.SNS_CFG c)))) ∧
  (∀ (a : Agent) (c : Fin 2) (v : Word) (s : State),
      s.accepts a (R.SNS_CFG c) (v.setFld F.SNS_CFG_EN 0) = true →
      exec (.senseDisable a c v) s = .next ((s.written (R.SNS_CFG c) (v.setFld F.SNS_CFG_EN 0)).snsCfgWritten c
          (s.rd (R.SNS_CFG c)))) ∧
  (∀ (a : Agent) (c : Fin 2) (v : Word) (s : State),
      s.accepts a (R.SNS_INJ c) (v.setFld ⟨31, 1⟩ 1) = true →
      exec (.snsInjGo a c v) s = .next ((s.written (R.SNS_INJ c) (v.setFld ⟨31, 1⟩ 1)).injGo c)) ∧
  (∀ (a : Agent) (c : Fin 2) (v : Word) (s : State),
      s.accepts a (R.SNS_CAL_CTL c) (withBits v F.SNS_CAL_CTL_GO) = true →
      exec (.snsCalGo a c v) s = .next ((s.written (R.SNS_CAL_CTL c) (withBits v F.SNS_CAL_CTL_GO)).calGo c)) ∧
  (∀ (a : Agent) (on : Bool) (s : State),
      s.accepts a (R.SNS_REF) (s.asRead a R.SNS_REF F.SNS_REF_BUFEN on.toNat) = true →
      exec (.refBufferEnable a on) s = .next ((s.written (R.SNS_REF)
          (s.asRead a R.SNS_REF F.SNS_REF_BUFEN on.toNat)).refWritten (s.rd R.SNS_REF))) ∧
  (∀ (a : Agent) (v : Word) (s : State),
      s.accepts a (R.SNS_CAL_GAIN) (v) = true →
      exec (.snsCalTableWrite a true v) s = .next ((s.written (R.SNS_CAL_GAIN) (v)).calGainWritten v)) ∧
  (∀ (a : Agent) (v : Word) (s : State),
      s.accepts a (R.SNS_CAL_OFS) (v) = true →
      exec (.snsCalTableWrite a false v) s = .next ((s.written (R.SNS_CAL_OFS) (v)).calOfsWritten v)) ∧
  (∀ (a : Agent) (v : Word) (s : State),
      s.accepts a (R.SNS_TDAC_SW) (v) = true →
      exec (.tdacSwitchWrite a v) s = .next ((s.written (R.SNS_TDAC_SW) (v))))

/-- Where the window accepts the write: EN of a ring enables it or disables it as the new word says; an owner reset
drops what the owner holds; a detail record is selected; an error is injected; a compaction and a recovery
begin; a commit hold is set, and its release stages the batch; a refresh of the mirror begins; a signal is
selected. (R336, R354, R356, R375, R414, R417, R430, R437, R443, R461) -/
def Obligations.HostLockAndSystemWrites : Prop :=
  (∀ (a : Agent) (r : Fin 16) (s : State),
      s.accepts a (R.HIF_RING_CTL r) (s.asRead a (R.HIF_RING_CTL r) F.HIF_RING_CTL_EN 1) = true →
      exec (.ringEnable a r) s = .next ((s.written (R.HIF_RING_CTL r) (s.asRead a (R.HIF_RING_CTL r)
          F.HIF_RING_CTL_EN 1)).ringCtlWritten r (s.rd (R.HIF_RING_CTL r)) [])) ∧
  (∀ (a : Agent) (r : Fin 16) (s : State),
      s.accepts a (R.HIF_RING_CTL r) (0) = true →
      exec (.ringDisableDrain a r) s = .next ((s.written (R.HIF_RING_CTL r) (0)).ringCtlWritten r (s.rd
          (R.HIF_RING_CTL r)) [])) ∧
  (∀ (a : Agent) (r : Fin 16) (tags : List Nat) (s : State),
      s.windowOk a (R.HIF_RING_CTL r) = true →
      s.refusedBits (R.HIF_RING_CTL r) (s.rd (R.HIF_RING_CTL r)) F.HIF_RING_CTL_ABORT.mask = 0 →
      exec (.ringDisableAbort a r tags) s = .next ((s.wr (R.HIF_RING_CTL r)
          F.HIF_RING_CTL_ABORT.mask).ringCtlWritten r (s.rd (R.HIF_RING_CTL r)) tags)) ∧
  (∀ (a : Agent) (o : Fin 64) (s : State),
      s.accepts a (R.LCK_OWNER_RST) (withBits (BitVec.ofNat 32 o.val) F.LCK_OWNER_RST_GO) = true →
      exec (.lckOwnerReset a o) s = .next ((s.written (R.LCK_OWNER_RST) (withBits (BitVec.ofNat 32 o.val)
          F.LCK_OWNER_RST_GO)).ownerReset ((s.written (R.LCK_OWNER_RST) (withBits (BitVec.ofNat 32 o.val)
          F.LCK_OWNER_RST_GO)).fld R.LCK_OWNER_RST F.LCK_OWNER_RST_OWNER) 2)) ∧
  (∀ (a : Agent) (v : Word) (s : State),
      s.accepts a (R.MEM_EVT_DET_SEL) (v) = true →
      exec (.evtDetailSelect a v) s = .next ((s.written (R.MEM_EVT_DET_SEL) (v)))) ∧
  (∀ (a : Agent) (v : Word) (s : State),
      s.accepts a (R.MEM_INJ) (withBits v F.MEM_INJ_GO) = true →
      exec (.memInject a v) s = .next ((s.written (R.MEM_INJ) (withBits v F.MEM_INJ_GO)).modErr
          (fun y => { y with inject := some ((s.written (R.MEM_INJ) (withBits v F.MEM_INJ_GO)).fld R.MEM_INJ F.MEM_INJ_STORE, (s.written (R.MEM_INJ) (withBits v F.MEM_INJ_GO)).on R.MEM_INJ F.MEM_INJ_DOUBLE) }))) ∧
  (∀ (a : Agent) (v : Word) (s : State),
      s.accepts a (R.JNL_CTL) (withBits v F.JNL_CTL_COMPACT) = true →
      exec (.jnlCompactGo a v) s = .next (if hit (woMask R.JNL_CTL &&& (withBits v F.JNL_CTL_COMPACT))
          F.JNL_CTL_CNT_CLR then (s.written (R.JNL_CTL) (withBits v F.JNL_CTL_COMPACT)).compactGo.jnlCntClr else
          (s.written (R.JNL_CTL) (withBits v F.JNL_CTL_COMPACT)).compactGo)) ∧
  (∀ (a : Agent) (v : Word) (s : State),
      s.accepts a (R.CLK_RECOVERY) (withBits v F.CLK_RECOVERY_GO) = true →
      exec (.recoveryGo a v) s = .next ((s.written (R.CLK_RECOVERY) (withBits v F.CLK_RECOVERY_GO)).recoveryStart)) ∧
  (∀ (a : Agent) (s : State),
      s.accepts a (R.GLB_COMMIT_CTL) (F.GLB_COMMIT_CTL_HOLD.mask) = true →
      exec (.commitHoldSet a) s = .next ((s.written (R.GLB_COMMIT_CTL) (F.GLB_COMMIT_CTL_HOLD.mask)))) ∧
  (∀ (a : Agent) (s : State),
      s.accepts a (R.GLB_COMMIT_CTL) (0) = true →
      s.on R.GLB_COMMIT_CTL F.GLB_COMMIT_CTL_HOLD = true →
      exec (.commitHoldRelease a) s = .next ((s.written (R.GLB_COMMIT_CTL) (0)).holdRelease)) ∧
  (∀ (a : Agent) (v : Word) (s : State),
      s.accepts a (R.GLB_CTL) (withBits v F.GLB_CTL_REFRESH) = true →
      exec (.mirrorRefresh a v) s = .next ((if hit (woMask R.GLB_CTL &&& (withBits v F.GLB_CTL_REFRESH))
          F.GLB_CTL_CNT_CLR then (s.written (R.GLB_CTL) (withBits v F.GLB_CTL_REFRESH)).setF R.GLB_ACC_ERR
          F.GLB_ACC_ERR_COUNT 0 else (s.written (R.GLB_CTL) (withBits v F.GLB_CTL_REFRESH))).setF R.GLB_MIRROR_STS
          F.GLB_MIRROR_STS_REFRESHING 1)) ∧
  (∀ (a : Agent) (k : Fin 3) (v : Word) (s : State),
      s.accepts a (R.TST_SEL k) (v) = true →
      exec (.tstSelWrite a k v) s = .next ((s.written (R.TST_SEL k) (v)).tstWritten k))

/-- A read of the latching registers returns the word and latches its partner; JTAG sets its instructions, resets
its TAPs, and reads the window with the word it returns; an Update-DR under another instruction does nothing.
(R404, R441, R463, R464, R465) -/
def Obligations.ReadsAndJtag : Prop :=
  (∀ (a : Agent) (x : Nat) (s : State),
      exec (.loLatchRead a x) s = .next ((s.windowRead a x).2.modHost
          (fun y => { y with readData := (s.windowRead a x).1 }))) ∧
  (∀ (a : Agent) (s : State),
      exec (.calTimeRead a) s = .next ((s.windowRead a R.CAL_TIME_LO).2.modHost
          (fun y => { y with readData := (s.windowRead a R.CAL_TIME_LO).1 }))) ∧
  (∀ (irH : BitVec 8) (irF : BitVec 6) (irM : BitVec 4) (s : State),
      ∃ t, exec (.jtagUpdateIr irH irF irM) s = .next t ∧
        t = (s.setF R.TST_JTAG F.TST_JTAG_IR irH.toNat).modTest
            (fun x => { x with irF := irF.toNat, irM := if s.mExcluded then x.irM else irM.toNat }) ∧
        t.fld R.TST_JTAG F.TST_JTAG_IR = irH.toNat ∧
        t.test.irF = irF.toNat ∧
        t.test.irM = (if s.mExcluded then s.test.irM else irM.toNat) ∧
        t.out = s.out) ∧
  (∀ (s : State),
      ∃ t, exec (.jtagTapReset) s = .next t ∧
        t = (s.setF R.TST_JTAG F.TST_JTAG_IR 1).modTest (fun y => { y with irF := 1, irM := 1 }) ∧
        t.fld R.TST_JTAG F.TST_JTAG_IR = 1 ∧
        t.test.irF = 1 ∧
        t.test.irM = 1 ∧
        t.out = s.out) ∧
  (∀ (w : BitVec 50) (s : State),
      s.fld R.TST_JTAG F.TST_JTAG_IR ≠ irRegwin →
      exec (.jtagRegwin w) s = .next (s)) ∧
  (∀ (w : BitVec 50) (s : State),
      s.fld R.TST_JTAG F.TST_JTAG_IR = irRegwin →
      w.getLsbD 49 = false →
      exec (.jtagRegwin w) s = .next ((let x := (w.extractLsb' 32 17).toNat
        let s1 := s.incSat R.TST_JTAG F.TST_JTAG_REGWIN
        (s1.windowRead 14 x).2.modTest (fun y => { y with data := (s1.windowRead 14 x).1, done := s1.mayRead 14 x && s1.agentOk 14, refused := !(s1.mayRead 14 x && s1.agentOk 14) })))) ∧
  (∀ (w : BitVec 50) (s : State),
      s.fld R.TST_JTAG F.TST_JTAG_IR = irRegwin →
      w.getLsbD 49 = true →
      exec (.jtagRegwin w) s = .next ((let x := (w.extractLsb' 32 17).toNat
        let s1 := s.incSat R.TST_JTAG F.TST_JTAG_REGWIN
        let ok := s1.mayWrite 14 x && s1.agentOk 14 && !(s1.isSealed && (s1.needsBit 14 x || rwbMask x != 0))
        ((s1.fresh 32).2.writeThrough 14 x (w.extractLsb' 0 32)).modTest (fun y => { y with data := (s1.fresh 32).1, done := ok, refused := !ok }))))

/-- A descriptor that the part takes and whose target, inline parameter and payload have the layout that the command
table gives stages its one change: the write of the lane, bus, mix or sink register, the two dynamics words, the
preset as it stands now, the swap of a filter bank, or the SYNC. PRESET_STORE holds the pairs of its payload and
completes DONE; FILTER_COEF writes a bank that is not in use and completes DONE.
(R36, R68, R118, R124, R125, R128, R131, R134, R135, R345, R352) -/
def Obligations.PathCommands : Prop :=
  (∀ (o : Origin) (d : Desc) (s : State),
      s.takes o 0x01 d = true →
      d.target < 128 →
      (s.begun o 0x01 d).sourceOk d.target (Word.fld (BitVec.ofNat 32 d.inl) F.MP_LANE_SRC_SRC) = true →
      d.payLen = 0 →
      d.inlIn (rwsMask (R.MP_LANE_SRC d.target)).toNat = true →
      exec (.laneSource o d) s = .next (s.stages o 0x01 d (.reg (R.MP_LANE_SRC d.target) (BitVec.ofNat 32 d.inl)
          true))) ∧
  (∀ (o : Origin) (d : Desc) (s : State),
      s.takes o 0x02 d = true →
      d.target < 128 →
      d.payLen = 0 →
      d.inlIn (rwsMask (R.MP_LANE_TRIM d.target)).toNat = true →
      exec (.laneTrim o d) s = .next (s.stages o 0x02 d (.reg (R.MP_LANE_TRIM d.target) (BitVec.ofNat 32 d.inl) true))) ∧
  (∀ (o : Origin) (d : Desc) (s : State),
      s.takes o 0x03 d = true →
      d.target < 128 →
      d.payLen = 0 →
      d.inlIn (rwsMask (R.MP_LANE_DET d.target)).toNat = true →
      exec (.laneDetect o d) s = .next (s.stages o 0x03 d (.reg (R.MP_LANE_DET d.target) (BitVec.ofNat 32 d.inl)
          true))) ∧
  (∀ (o : Origin) (d : Desc) (s : State),
      s.takes o 0x04 d = true →
      d.target < 512 →
      d.payLen = 0 →
      d.inlIn (rwsMask (R.MIX_GAIN (d.target / 32) (d.target % 32))).toNat = true →
      exec (.busInput o d) s = .next (s.stages o 0x04 d (.reg (R.MIX_GAIN (d.target / 32) (d.target % 32))
          (BitVec.ofNat 32 d.inl) true))) ∧
  (∀ (o : Origin) (d : Desc) (s : State),
      s.takes o 0x05 d = true →
      d.target < 16 →
      d.payLen = 0 →
      d.inlIn (rwsMask (R.MIX_BUS_CFG d.target)).toNat = true →
      exec (.busCfg o d) s = .next (s.stages o 0x05 d (.reg (R.MIX_BUS_CFG d.target) (BitVec.ofNat 32 d.inl) true))) ∧
  (∀ (o : Origin) (d : Desc) (s : State),
      s.takes o 0x06 d = true →
      sinkKnown d.target = true →
      sinkSelOk (BitVec.ofNat 32 d.inl) = true →
      d.payLen = 0 →
      d.inlIn (rwsMask (R.MP_SINK d.target)).toNat = true →
      exec (.sink o d) s = .next (s.stages o 0x06 d (.reg (R.MP_SINK d.target) (BitVec.ofNat 32 d.inl) true))) ∧
  (∀ (o : Origin) (d : Desc) (bs : List Byte) (s : State),
      s.takes o 0x07 d = true →
      (s.begun o 0x07 d).payloadOf o d = bs →
      d.target < 22 →
      d.inl = 0 →
      bs.length = 8 →
      (BitVec.ofNat 32 (natAt bs 0) : Word) &&& rwsMask (R.MP_COMP d.target) = BitVec.ofNat 32 (natAt bs 0) →
      (BitVec.ofNat 32 (natAt bs 4) : Word) &&& rwsMask (R.MP_LIM d.target) = BitVec.ofNat 32 (natAt bs 4) →
      exec (.sinkDynamics o d) s = .next (s.stages o 0x07 d (.sinkDyn d.target (BitVec.ofNat 32 (natAt bs 0))
          (BitVec.ofNat 32 (natAt bs 4))))) ∧
  (∀ (o : Origin) (d : Desc) (s : State),
      s.takes o 0x09 d = true →
      d.target < 16 →
      d.payLen = 0 →
      d.inl = 0 →
      exec (.presetApply o d) s = .next (s.stages o 0x09 d (.preset ((s.begun o 0x09 d).presetOf d.target)))) ∧
  (∀ (o : Origin) (d : Desc) (s : State),
      s.takes o 0x0A d = true →
      d.target < 16 →
      d.payLen = 0 →
      d.inlIn 7 = true →
      exec (.filterSwap o d) s = .next (s.stages o 0x0A d (.filterSwap d.target (d.inl.testBit 0) (d.inl / 2)))) ∧
  (∀ (o : Origin) (d : Desc) (s : State),
      s.takes o 0x0C d = true →
      d.target = 0 →
      d.payLen = 0 →
      d.inlIn 0xFFFF = true →
      exec (.frontEndSync o d) s = .next (s.stages o 0x0C d (.feSync (if d.inl = 0 then none else some d.inl)
          .command))) ∧
  (∀ (o : Origin) (d : Desc) (bs : List Byte) (s : State),
      s.takes o 0x08 d = true →
      (s.begun o 0x08 d).payloadOf o d = bs →
      1 ≤ d.target →
      d.target ≤ 15 →
      d.inl = 0 →
      presetLen bs.length = true →
      exec (.presetStore o d) s = .next (((s.begun o 0x08 d).presetStore d.target bs).ends (s.readId o) .done)) ∧
  (∀ (o : Origin) (d : Desc) (bs : List Byte) (s : State),
      s.takes o 0x0B d = true →
      (s.begun o 0x0B d).payloadOf o d = bs →
      d.target < 32 →
      d.inl = 0 →
      bs.length = 8 * (s.begun o 0x0B d).quarterN (d.target % 16) →
      (s.begun o 0x0B d).bankInUse (d.target % 16) (d.target / 16 == 1) = false →
      exec (.filterCoef o d) s = .next ((State.setCoefs (d.target % 16) (d.target / 16 == 1) 0 (wordsOf bs)
          (s.begun o 0x0B d)).ends (s.readId o) .done)) ∧
  (∀ (o : Origin) (d : Desc) (bs : List Byte) (s : State),
      s.takes o 0x0B d = true →
      (s.begun o 0x0B d).payloadOf o d = bs →
      d.target < 32 →
      d.inl = 0 →
      bs.length = 8 * (s.begun o 0x0B d).quarterN (d.target % 16) →
      (s.begun o 0x0B d).bankInUse (d.target % 16) (d.target / 16 == 1) = true →
      exec (.filterCoef o d) s = .next ((s.begun o 0x0B d).ends (s.readId o) .refusedBusy))

/-- A register write whose addresses the command may write stages one write, one masked write or one run; GENERATOR
stages the setting of its payload. NOP completes DONE; DESCRIPTOR_FETCH takes the entry at HEAD, moves HEAD on
and carries it out; SMB_SUBMIT with nothing submitted sets BUSY and carries its descriptor out, and is refused
with NACKED while BUSY is set. (R36, R334, R345, R346, R352, R353, R470) -/
def Obligations.ParameterCommandsAndReading : Prop :=
  (∀ (o : Origin) (d : Desc) (s : State),
      s.takes o 0x20 d = true →
      d.payLen = 0 →
      (s.begun o 0x20 d).regsRefused o [d.target] = none →
      exec (.regWrite o d) s = .next (s.stages o 0x20 d (.reg d.target (BitVec.ofNat 32 d.inl) true))) ∧
  (∀ (o : Origin) (d : Desc) (bs : List Byte) (s : State),
      s.takes o 0x21 d = true →
      (s.begun o 0x21 d).payloadOf o d = bs →
      d.inl = 0 →
      bs.length = 8 →
      (s.begun o 0x21 d).regsRefused o [d.target] = none →
      exec (.regWriteMasked o d) s = .next (s.stages o 0x21 d (.regMask d.target (BitVec.ofNat 32 (natAt bs 0))
          (BitVec.ofNat 32 (natAt bs 4))))) ∧
  (∀ (o : Origin) (d : Desc) (bs : List Byte) (s : State),
      s.takes o 0x22 d = true →
      (s.begun o 0x22 d).payloadOf o d = bs →
      d.inl = 0 →
      4 ≤ bs.length →
      bs.length ≤ 1024 →
      bs.length % 4 = 0 →
      (s.begun o 0x22 d).regsRefused o { d with op := 0x22 }.regs = none →
      exec (.regWriteRun o d) s = .next (s.stages o 0x22 d (.regRun d.target (wordsOf bs)))) ∧
  (∀ (o : Origin) (d : Desc) (bs : List Byte) (s : State),
      s.takes o 0x28 d = true →
      (s.begun o 0x28 d).payloadOf o d = bs →
      d.target < 16 →
      d.inl = 0 →
      bs.length = 16 →
      genOk bs = true →
      exec (.generator o d) s = .next (s.stages o 0x28 d (.generator d.target (bytesAt bs 0 1) (natAt bs 4)
          (natAt bs 8) (natAt bs 12)))) ∧
  (∀ (o : Origin) (d : Desc) (s : State),
      s.takes o 0xF0 d = true →
      d.target = 0 →
      d.payLen = 0 →
      d.inl = 0 →
      exec (.nop o d) s = .next ((s.begun o 0xF0 d).ends (s.readId o) .done)) ∧
  (∀ (mgmt : Bool) (bytes payload : List Byte) (s : State),
      s.reads = true →
      s.ringHasDesc (if mgmt then 3 else 0) = true →
      s.canBegin (if mgmt then .mcmd else .cmd) (descOf (if s.ringLocal (if mgmt then 3 else 0)
          then Mem.getMany 0 s.window (s.ringAddr (if mgmt then 3 else 0) (s.ringHead (if mgmt then 3 else 0)))
          32 else fitBytes 32 bytes) payload).fence = true →
      exec (.descriptorFetch mgmt bytes payload) s = .next (((((s.setF (R.HIF_RING_IDX (if mgmt then 3 else 0))
          F.HIF_RING_IDX_HEAD ((s.ringHead (if mgmt then 3 else 0) + 1) % 65536)).ringFull
          (if mgmt then 3 else 0)).modHost (fun h => { h with idxChanged := true })).runDesc
          (if mgmt then .mcmd else .cmd) (descOf (if s.ringLocal (if mgmt then 3 else 0) then Mem.getMany 0 s.window
          (s.ringAddr (if mgmt then 3 else 0) (s.ringHead (if mgmt then 3 else 0))) 32 else fitBytes 32 bytes)
          payload)))) ∧
  (∀ (d : Desc) (pecOk : Bool) (s : State),
      s.smbUp = true →
      pecOk = true ∨ s.on R.HIF_SMB_CFG F.HIF_SMB_CFG_PEC_EN = false →
      s.on R.HIF_SMB_STS F.HIF_SMB_STS_BUSY = false →
      s.reads = true →
      exec (.smbSubmit d pecOk) s = .next ((s.setF R.HIF_SMB_STS F.HIF_SMB_STS_BUSY 1).runDesc .smbus d)) ∧
  (∀ (d : Desc) (pecOk : Bool) (s : State),
      s.smbUp = true →
      pecOk = true ∨ s.on R.HIF_SMB_CFG F.HIF_SMB_CFG_PEC_EN = false →
      s.on R.HIF_SMB_STS F.HIF_SMB_STS_BUSY = true →
      exec (.smbSubmit d pecOk) s = .next (s.setF R.HIF_SMB_STS F.HIF_SMB_STS_NACKED 1))

/-- PROG_LOAD admits an image, holds it as the staged program and sets STAGED; PROG_START of the staged program,
ENGINE_MODE and PARAM_WRITE stage their change; IR_LOAD, RUNAHEAD_SET and RUNAHEAD_STATUS run at once with the
status they give. (R36, R150, R151, R152, R155, R164, R209, R238, R345, R352) -/
def Obligations.EngineCommands : Prop :=
  (∀ (o : Origin) (d : Desc) (bs : List Byte) (p : Prog) (s : State),
      s.takes o 0x40 d = true →
      (s.begun o 0x40 d).payloadOf o d = bs →
      d.target < 8 →
      d.inl = 0 →
      0 < bs.length →
      (s.begun o 0x40 d).swapping d.target = false →
      admission ((s.begun o 0x40 d).limits d.target) bs = .ok p →
      exec (.progLoad o d) s = .next ((((s.begun o 0x40 d).modEng d.target
          (fun x => { x with staged := some p })).setF (R.ENG_STS d.target) F.ENG_STS_STAGED 1).ends (s.readId o)
          .done)) ∧
  (∀ (o : Origin) (d : Desc) (bs : List Byte) (i e : Nat) (s : State),
      s.takes o 0x40 d = true →
      (s.begun o 0x40 d).payloadOf o d = bs →
      d.target < 8 →
      d.inl = 0 →
      0 < bs.length →
      (s.begun o 0x40 d).swapping d.target = false →
      admission ((s.begun o 0x40 d).limits d.target) bs = .error (i, e) →
      exec (.progLoad o d) s = .next ((((s.begun o 0x40 d).setF (R.ENG_REC_ERR d.target)
          F.ENG_REC_ERR_REASON e).setF (R.ENG_REC_ERR d.target) F.ENG_REC_ERR_RECORD i).ends (s.readId o) .badParam)) ∧
  (∀ (o : Origin) (d : Desc) (p : Prog) (s : State),
      s.takes o 0x41 d = true →
      d.target < 8 →
      d.payLen = 0 →
      ((s.begun o 0x41 d).engX d.target).staged = some p →
      p.id = d.inl →
      (s.begun o 0x41 d).swapping d.target = false →
      exec (.progStart o d) s = .next (s.stages o 0x41 d (.engMode d.target 2))) ∧
  (∀ (o : Origin) (d : Desc) (s : State),
      s.takes o 0x42 d = true →
      d.target < 8 →
      d.payLen = 0 →
      d.inl < 2 →
      exec (.engineMode o d) s = .next (s.stages o 0x42 d (.engMode d.target d.inl))) ∧
  (∀ (o : Origin) (d : Desc) (bs : List Byte) (s : State),
      s.takes o 0x43 d = true →
      (s.begun o 0x43 d).payloadOf o d = bs →
      d.target < 8 →
      d.inl = 0 →
      16 ≤ bs.length →
      (s.begun o 0x43 d).paramOk d.target bs = true →
      exec (.paramWrite o d) s = .next (s.stages o 0x43 d (.param d.target (natAt bs 0) (bytesAt bs 4 2)
          (natAt bs 8) (wordsAt bs 16)))) ∧
  (∀ (o : Origin) (d : Desc) (bs : List Byte) (t : State) (s : State),
      s.takes o 0x44 d = true →
      (s.begun o 0x44 d).payloadOf o d = bs →
      d.target < 8 →
      d.inl = 0 →
      (s.begun o 0x44 d).irLoad d.target bs = (.done, t) →
      exec (.irLoad o d) s = .next (t.ends (s.readId o) .done)) ∧
  (∀ (o : Origin) (d : Desc) (bs : List Byte) (s : State),
      s.takes o 0x45 d = true →
      (s.begun o 0x45 d).payloadOf o d = bs →
      d.target = 0 →
      d.inl = 0 →
      bs.length = 8 →
      bytesAt bs 0 1 ≤ 7 →
      2 ≤ bytesAt bs 2 1 →
      bytesAt bs 2 1 ≤ bytesAt bs 1 1 →
      bytesAt bs 1 1 ≤ 48 →
      (bs.drop 3).all (fun b => b == 0) = true →
      (s.begun o 0x45 d).fld (R.ENG_STS (bytesAt bs 0 1)) F.ENG_STS_MODE_ACT = 0 →
      exec (.runaheadSet o d) s = .next (((s.begun o 0x45 d).modEng (bytesAt bs 0 1)
          (fun x => { x with lead := bytesAt bs 1 1, margin := bytesAt bs 2 1 })).ends (s.readId o) .done)) ∧
  (∀ (o : Origin) (d : Desc) (bs : List Byte) (s : State),
      s.takes o 0x46 d = true →
      (s.begun o 0x46 d).payloadOf o d = bs →
      d.target = 0 →
      d.inl = 0 →
      bs.length = 2 →
      bytesAt bs 0 1 < 8 →
      bytesAt bs 1 1 < 2 →
      exec (.runaheadStatus o d) s = .next ((if bytesAt bs 1 1 = 1 then ((s.begun o 0x46 d).putPayload o d.payAddr
          ((s.begun o 0x46 d).raStatus (bytesAt bs 0 1))).raClear (bytesAt bs 0 1) else
          (s.begun o 0x46 d).putPayload o d.payAddr ((s.begun o 0x46 d).raStatus (bytesAt bs 0 1))).ends
          (s.readId o) .done))

/-- GATHER_START with ring 5 running and the listener enabled starts a handover, and GATHER_STOP ends it; a host
stream start or stop is staged. SENSE_TRIGGER triggers a converter whose source is software; SENSE_INJECT joins
the queue of its converter; a calibration step, an offset calibration and a fault clear stage their change.
(R36, R248, R252, R309, R317, R323, R326, R342, R345, R352) -/
def Obligations.StreamSenseOutputCommands : Prop :=
  (∀ (o : Origin) (d : Desc) (s : State),
      s.takes o 0x50 d = true →
      d.target = 0 →
      d.payLen = 0 →
      d.inlIn 1 = true →
      (s.begun o 0x50 d).ringState 5 = ringRunning →
      (s.begun o 0x50 d).on R.AFE_LSN_CFG F.AFE_LSN_CFG_EN = true →
      exec (.gatherStart o d) s = .next (((s.begun o 0x50 d).gatherStart d.inl).ends (s.readId o) .done)) ∧
  (∀ (o : Origin) (d : Desc) (s : State),
      s.takes o 0x50 d = true →
      d.target = 0 →
      d.payLen = 0 →
      d.inlIn 1 = true →
      (s.begun o 0x50 d).on R.AFE_LSN_CFG F.AFE_LSN_CFG_EN = false →
      exec (.gatherStart o d) s = .next ((s.begun o 0x50 d).ends (s.readId o) .refusedBusy)) ∧
  (∀ (o : Origin) (d : Desc) (s : State),
      s.takes o 0x51 d = true →
      d.target = 0 →
      d.payLen = 0 →
      d.inl = 0 →
      exec (.gatherStop o d) s = .next ((s.begun o 0x51 d).gatherStop.ends (s.readId o) .done)) ∧
  (∀ (o : Origin) (d : Desc) (s : State),
      s.takes o 0x52 d = true →
      6 ≤ d.target →
      d.target ≤ 13 →
      d.payLen = 0 →
      d.inl = 0 →
      exec (.hostStreamStart o d) s = .next (s.stages o 0x52 d (.streamOn d.target))) ∧
  (∀ (o : Origin) (d : Desc) (s : State),
      s.takes o 0x53 d = true →
      6 ≤ d.target →
      d.target ≤ 13 →
      d.payLen = 0 →
      d.inl = 0 →
      exec (.hostStreamStop o d) s = .next (s.stages o 0x53 d (.streamOff d.target))) ∧
  (∀ (o : Origin) (d : Desc) (s : State),
      s.takes o 0x70 d = true →
      d.target < 2 →
      d.payLen = 0 →
      d.inl = 0 →
      exec (.senseTrigger o d) s = .next (((s.begun o 0x70 d).snsSoftware d.target).ends (s.readId o) .done)) ∧
  (∀ (o : Origin) (d : Desc) (bs : List Byte) (s : State),
      s.takes o 0x71 d = true →
      (s.begun o 0x71 d).payloadOf o d = bs →
      d.target = 0 →
      d.inl = 0 →
      bs.length = 4 →
      bytesAt bs 0 1 < 2 →
      bytesAt bs 1 1 < 32 →
      bytesAt bs 2 1 < 8 →
      bytesAt bs 3 1 ≤ 10 →
      (s.begun o 0x71 d).injFull (bytesAt bs 0 1) = false →
      exec (.senseInject o d) s = .next ((s.begun o 0x71 d).inject (bytesAt bs 0 1)
          ⟨.cmd (s.readId o) d.payAddr, bytesAt bs 1 1, bytesAt bs 2 1, bytesAt bs 3 1⟩)) ∧
  (∀ (o : Origin) (d : Desc) (bs : List Byte) (s : State),
      s.takes o 0x72 d = true →
      (s.begun o 0x72 d).payloadOf o d = bs →
      d.target = 0 →
      d.inl = 0 →
      calOk bs = true →
      exec (.senseCalibrate o d) s = .next (s.stages o 0x72 d (.senseCal (bytesAt bs 0 1) (bytesAt bs 1 1)
          (bytesAt bs 2 1) (bytesAt bs 3 1) (bytesAt bs 4 1) (sgn 32 (natAt bs 8))))) ∧
  (∀ (o : Origin) (d : Desc) (s : State),
      s.takes o 0x80 d = true →
      d.target < 8 →
      d.payLen = 0 →
      d.inl = 0 →
      exec (.outputOffsetCal o d) s = .next (s.stages o 0x80 d (.offsetCal d.target))) ∧
  (∀ (o : Origin) (d : Desc) (s : State),
      s.takes o 0x81 d = true →
      d.target < 16 →
      d.payLen = 0 →
      d.inl = 0 →
      exec (.outputClearFault o d) s = .next (s.stages o 0x81 d (.clearFault d.target)))

/-- Node gains, a mode command that Tether allows, a fault clear and the self-test stage their change; MESSAGE_PLAY
of a message that the directory holds joins the queue while there is room, and MESSAGE_STOP stops the player.
(R36, R266, R269, R273, R285, R294, R345, R352) -/
def Obligations.TetherCommands : Prop :=
  (∀ (o : Origin) (d : Desc) (bs : List Byte) (s : State),
      s.takes o 0x60 d = true →
      (s.begun o 0x60 d).payloadOf o d = bs →
      d.inl = 0 →
      4 ≤ bs.length →
      bs.length % 4 = 0 →
      d.target + (wordsOf bs).length ≤ 1152 →
      (wordsOf bs).all (fun w => decide (w.toNat < 2 ^ 18)) = true →
      exec (.tetherGains o d) s = .next (s.stages o 0x60 d (.tthGains d.target (wordsOf bs)))) ∧
  (∀ (o : Origin) (d : Desc) (s : State),
      s.takes o 0x61 d = true →
      d.target = 0 →
      d.payLen = 0 →
      d.inl / 2 ^ 24 < 8 →
      (s.begun o 0x61 d).modeBad (d.inl % 2 ^ 24) (d.inl / 2 ^ 24) = false →
      exec (.tetherMode o d) s = .next (s.stages o 0x61 d (.tthMode (d.inl % 2 ^ 24) (d.inl / 2 ^ 24)))) ∧
  (∀ (o : Origin) (d : Desc) (s : State),
      s.takes o 0x62 d = true →
      d.target = 0 →
      d.payLen = 0 →
      d.inl < 2 ^ 24 →
      exec (.tetherFaultClear o d) s = .next (s.stages o 0x62 d (.tthFaultClear d.inl))) ∧
  (∀ (o : Origin) (d : Desc) (s : State),
      s.takes o 0x63 d = true →
      d.target = 0 →
      d.payLen = 0 →
      d.inl = 0 →
      exec (.tetherSelftest o d) s = .next (s.stages o 0x63 d (.tthSelftest))) ∧
  (∀ (o : Origin) (d : Desc) (s : State),
      s.takes o 0x64 d = true →
      d.target = 0 →
      d.payLen = 0 →
      d.inlIn 0xFF03FF = true →
      ((s.begun o 0x64 d).dirEntry (d.inl % 1024)).isNone = false →
      (s.begun o 0x64 d).playRoom = true →
      exec (.messagePlay o d) s = .next (((s.begun o 0x64 d).playQueue ⟨d.inl % 1024, d.inl / 65536⟩).ends
          (s.readId o) .done)) ∧
  (∀ (o : Origin) (d : Desc) (s : State),
      s.takes o 0x65 d = true →
      d.target = 0 →
      d.payLen = 0 →
      d.inl = 0 →
      exec (.messageStop o d) s = .next ((s.begun o 0x65 d).playStop.ends (s.readId o) .done))

/-- The first acquisition of a free lock by an owner that holds none succeeds, with its lease; the owner that holds
the lock renews its lease, discards its sequence, or releases it, which stages the sequence for one block; an
acquisition of a held lock is refused and counted, and any other owner meets LOCK_NOT_HELD.
(R357, R359, R361, R352) -/
def Obligations.LockCommands : Prop :=
  (∀ (o : Origin) (d : Desc) (w : Nat) (s : State),
      s.takes o 0xA0 d = true →
      d.target < 28 →
      d.payLen = 0 →
      d.inl ≤ leaseMax →
      originOwner o = some w →
      (s.begun o 0xA0 d).lockOf w = none →
      (s.begun o 0xA0 d).lockHeld d.target = false →
      (s.begun o 0xA0 d).on (R.LCK_STS d.target) F.LCK_STS_ABANDONED = false →
      exec (.lockAcquire o d) s = .next (((s.begun o 0xA0 d).lockAcquire w d.target d.inl).2.ends (s.readId o) .done)) ∧
  (∀ (o : Origin) (d : Desc) (w : Nat) (s : State),
      s.takes o 0xA0 d = true →
      d.target < 28 →
      d.payLen = 0 →
      d.inl ≤ leaseMax →
      originOwner o = some w →
      (s.begun o 0xA0 d).lockOf w = none →
      (s.begun o 0xA0 d).lockHeld d.target = true →
      exec (.lockAcquire o d) s = .next (((s.begun o 0xA0 d).incWrap R.LCK_REFUSED F.LCK_REFUSED_COUNT).ends
          (s.readId o) .refusedBusy)) ∧
  (∀ (o : Origin) (d : Desc) (s : State),
      s.takes o 0xA1 d = true →
      d.target < 32 →
      d.payLen = 0 →
      d.inl = 0 →
      ((originOwner o).bind (s.begun o 0xA1 d).lockOf) = some d.target →
      (s.begun o 0xA1 d).seqTooLong d.target = false →
      ((s.begun o 0xA1 d).lock d.target).failed = false →
      exec (.lockRelease o d) s = .next ((s.begun o 0xA1 d).lockRelease (s.readId o) d.target d.want)) ∧
  (∀ (o : Origin) (d : Desc) (s : State),
      s.takes o 0xA2 d = true →
      d.target < 32 →
      d.payLen = 0 →
      d.inl = 0 →
      ((originOwner o).bind (s.begun o 0xA2 d).lockOf) = some d.target →
      exec (.lockDiscard o d) s = .next (((s.begun o 0xA2 d).lockDiscard d.target).ends (s.readId o) .done)) ∧
  (∀ (o : Origin) (d : Desc) (s : State),
      s.takes o 0xA2 d = true →
      d.target < 32 →
      d.payLen = 0 →
      d.inl = 0 →
      (originOwner o).bind (s.begun o 0xA2 d).lockOf ≠ some d.target →
      exec (.lockDiscard o d) s = .next ((s.begun o 0xA2 d).finishBad (s.readId o) .lockNotHeld)) ∧
  (∀ (o : Origin) (d : Desc) (s : State),
      s.takes o 0xA3 d = true →
      d.target < 32 →
      d.payLen = 0 →
      d.inl ≤ leaseMax →
      ((originOwner o).bind (s.begun o 0xA3 d).lockOf) = some d.target →
      exec (.lockRenew o d) s = .next (((s.begun o 0xA3 d).lockRenew d.target d.inl).ends (s.readId o) .done))

/-- PERSIST and FIRMWARE_SELECT begin a journal write, JOURNAL_READ returns the record that the journal shows for
its key, FIRMWARE_WRITE, MESSAGE_STORE and TETHER_IMAGE_STORE begin to program flash that is not protected,
POWER_MODE runs its transition, METROLOGY_READ asks M. (R283, R287, R293, R352, R396, R413, R420, R425, R428,
R432) -/
def Obligations.ManagementCommands : Prop :=
  (∀ (o : Origin) (d : Desc) (s : State),
      s.takes o 0xC0 d = true →
      d.payLen = 0 →
      d.inl = 0 →
      d.target ≤ 8 →
      (s.begun o 0xC0 d).journalShut = false →
      exec (.persist o d) s = .next ((s.begun o 0xC0 d).flashBegin (some (s.readId o)) (.journal
          ((s.begun o 0xC0 d).groupRecords d.target) [d.target]))) ∧
  (∀ (o : Origin) (d : Desc) (s : State),
      s.takes o 0xC0 d = true →
      d.payLen = 0 →
      d.inl = 0 →
      d.target = 0xFFFFFFFF →
      (s.begun o 0xC0 d).journalShut = false →
      exec (.persist o d) s = .next ((s.begun o 0xC0 d).flashBegin (some (s.readId o)) (.journal
          ((List.range 9).flatMap (s.begun o 0xC0 d).groupRecords) (List.range 9)))) ∧
  (∀ (o : Origin) (d : Desc) (r : JRec) (s : State),
      s.takes o 0xC1 d = true →
      d.inl = 0 →
      d.target ≤ 0xFFFE →
      d.payLen ≤ 4096 →
      (s.begun o 0xC1 d).flash.view d.target = .record r →
      r.size ≤ d.payLen →
      exec (.journalRead o d) s = .next (((s.begun o 0xC1 d).putPayload o d.payAddr r.bytes).ends (s.readId o) .done)) ∧
  (∀ (o : Origin) (d : Desc) (bs : List Byte) (s : State),
      s.takes o 0xC2 d = true →
      (s.begun o 0xC2 d).payloadOf o d = bs →
      d.target < 2 →
      d.inl % 65536 = 0 →
      d.inl < 0x400000 →
      1 ≤ bs.length →
      bs.length ≤ 65536 →
      (s.begun o 0xC2 d).fld R.CLK_BOOT_STS F.CLK_BOOT_STS_IMG ≠ d.target →
      (s.begun o 0xC2 d).rangeProtected (bootBase d.target + d.inl) 65536 = false →
      exec (.firmwareWrite o d) s = .next ((s.begun o 0xC2 d).flashBegin (some (s.readId o))
          (.firmware d.target d.inl bs))) ∧
  (∀ (o : Origin) (d : Desc) (s : State),
      s.takes o 0xC3 d = true →
      d.target < 2 →
      d.payLen = 0 →
      d.inl = 0 →
      (s.begun o 0xC3 d).journalShut = false →
      exec (.firmwareSelect o d) s = .next ((s.begun o 0xC3 d).flashBegin (some (s.readId o))
          (.journal [(1, leBytes 1 d.target)] []))) ∧
  (∀ (o : Origin) (d : Desc) (s : State),
      s.takes o 0xC4 d = true →
      d.target = 1 →
      d.payLen = 0 →
      d.inl = 0 →
      (s.begun o 0xC4 d).power.trans = none →
      (s.begun o 0xC4 d).power.mode = .run →
      (s.begun o 0xC4 d).tthIdle16 = true →
      exec (.powerMode o d) s = .next (((s.begun o 0xC4 d).ends (s.readId o) .done).quietBegin 0)) ∧
  (∀ (o : Origin) (d : Desc) (s : State),
      s.takes o 0xC4 d = true →
      d.target < 4 →
      d.payLen = 0 →
      d.inl = 0 →
      (s.begun o 0xC4 d).power.trans = none →
      modeCode (s.begun o 0xC4 d).power.mode = d.target →
      exec (.powerMode o d) s = .next ((s.begun o 0xC4 d).ends (s.readId o) .done)) ∧
  (∀ (o : Origin) (d : Desc) (bs : List Byte) (s : State),
      s.takes o 0xC5 d = true →
      (s.begun o 0xC5 d).payloadOf o d = bs →
      d.target < 1024 →
      d.inl = 0 →
      messageOk bs = true →
      (s.begun o 0xC5 d).messageBusy d.target = false →
      (s.begun o 0xC5 d).rangeProtected (messageBase + framePlace d.target (frameCount (natAt bs 0)))
          (256 * frameCount (natAt bs 0)) = false →
      (s.begun o 0xC5 d).rangeProtected (messageBase + 0x20000 + 16 * d.target) 16 = false →
      exec (.messageStore o d) s = .next ((s.begun o 0xC5 d).flashBegin (some (s.readId o)) (.message d.target
          (natAt bs 0) (bytesAt bs 4 2) (bs.drop 12)))) ∧
  (∀ (o : Origin) (d : Desc) (bs : List Byte) (s : State),
      s.takes o 0xC6 d = true →
      (s.begun o 0xC6 d).payloadOf o d = bs →
      d.target = 0 →
      d.inl = 0 →
      tthImageOk bs = true →
      (s.begun o 0xC6 d).rangeProtected (messageBase + 0x10000 * (s.begun o 0xC6 d).tthTarget) bs.length = false →
      exec (.tetherImageStore o d) s = .next ((s.begun o 0xC6 d).flashBegin (some (s.readId o)) (.tetherImage bs))) ∧
  (∀ (o : Origin) (d : Desc) (s : State),
      s.takes o 0xC7 d = true →
      d.inl = 0 →
      d.payLen % 64 = 0 →
      64 ≤ d.payLen →
      d.payLen ≤ 65536 →
      (s.begun o 0xC7 d).metro.read = none →
      exec (.metrologyRead o d) s = .next ((s.begun o 0xC7 d).modMetro
          (fun m => { m with read := some ((s.readId o), d.target, d.payLen / 64, d.payAddr, (s.begun o 0xC7 d).clk.now3) })))

/-- From OFF, VSYS above 4.40 V starts the part with its rails shown; VSYS falling removes everything but the
calendar; RESET_N resets every die but M and counts its reset; VIO and a rail fault show in their registers; a
loss of the hub supply latches POWER and resets H, but not inside a transition that removes the supply.
(R274, R279, R406, R407, R408, R410, R411) -/
def Obligations.SuppliesAndReset : Prop :=
  (∀ (vsys : Nat) (testen : Bool) (s : State),
      s.power.mode = .off →
      4400 < vsys →
      exec (.powerOn vsys testen) s = .next (State.railsShow (List.range 16) (((s.cold.modTest
          (fun _ => { TestX.reset with testen := testen })).setF R.CLK_SUPPLY_STS F.CLK_SUPPLY_STS_VSYS
          (vsys / 10)).setF R.CLK_SUPPLY_STS F.CLK_SUPPLY_STS_VSYS_OK 1))) ∧
  (∀ (s : State),
      s.power.mode ≠ .off →
      exec (.vsysFail) s = .next (((s.flashCut.cold.modPower (fun y => y.down .off)).modClk
          (fun y => { y with run := false })).modMetro (fun y => { y.drop with onVbak := true }))) ∧
  (∀ (testen : Bool) (s : State),
      s.power.mode ≠ .off →
      s.power.mode ≠ .shelf →
      exec (.resetN testen) s = .next (State.railsShow (List.range 16) (((((((s.flashCut.cold.modTest
          (fun _ => { TestX.reset with testen := testen })).modRegs
          (fun _ => s.flashCut.regs.resetWhere resetByPin)).wr R.CLK_SYSPLL_STS
          (s.flashCut.rd R.CLK_SYSPLL_STS &&& F.CLK_SYSPLL_STS_LOSS.mask)).setF R.MEM_RST_CAUSE
          F.MEM_RST_CAUSE_CAUSE 1).incSat R.MEM_RST_CAUSE F.MEM_RST_CAUSE_COUNT).setF R.TTH_TKO_CAUSE
          F.TTH_TKO_CAUSE_HUB_PWR_OK (s.fld R.TTH_TKO_CAUSE F.TTH_TKO_CAUSE_HUB_PWR_OK)).modPower
          (fun p => { p with trans := none, cause := 8, rstCause := 1, rstBlk := s.clk.blk })))) ∧
  (∀ (testen : Bool) (s : State),
      s.power.mode = .shelf →
      exec (.resetN testen) s = .next (State.railsShow (List.range 16) (((((s.flashCut.cold.modTest
          (fun _ => { TestX.reset with testen := testen })).setF R.MEM_RST_CAUSE F.MEM_RST_CAUSE_CAUSE 1).incSat
          R.MEM_RST_CAUSE F.MEM_RST_CAUSE_COUNT).setF R.CLK_SUPPLY_STS F.CLK_SUPPLY_STS_VSYS_OK 1).modPower
          (fun p => { p with trans := some .run, cause := 8, rstCause := 1, rstBlk := s.clk.blk })))) ∧
  (∀ (good : Bool) (mv : Nat) (s : State),
      ∃ t, exec (.vioGoodChange good mv) s = .next t ∧
        t = (s.setF R.CLK_SUPPLY_STS F.CLK_SUPPLY_STS_VIO_OK good.toNat).setF R.CLK_SUPPLY_STS F.CLK_SUPPLY_STS_VIO
            (min 4095 (mv / 10)) ∧
        t.fld R.CLK_SUPPLY_STS F.CLK_SUPPLY_STS_VIO_OK = good.toNat ∧
        t.fld R.CLK_SUPPLY_STS F.CLK_SUPPLY_STS_VIO = min 4095 (mv / 10) ∧
        t.out = s.out ∧
        t.power = s.power) ∧
  (∀ (i : Fin 16) (mv : Nat) (s : State),
      s.on (R.CLK_RAIL i) F.CLK_RAIL_ON = true →
      ∃ t, exec (.railFault i mv) s = .next t ∧
        t = ((s.setF (R.CLK_RAIL i) F.CLK_RAIL_FAULT 1).setF (R.CLK_RAIL i) F.CLK_RAIL_PG 0).setF (R.CLK_RAIL i)
            F.CLK_RAIL_MV (min 65535 mv) ∧
        t.fld (R.CLK_RAIL i) F.CLK_RAIL_FAULT = 1 ∧
        t.fld (R.CLK_RAIL i) F.CLK_RAIL_PG = 0 ∧
        t.fld (R.CLK_RAIL i) F.CLK_RAIL_MV = min 65535 mv ∧
        t.out = s.out ∧
        t.power = s.power) ∧
  (∀ (s : State),
      s.leaving = false →
      s.power.hubUp = true →
      exec (.hubPowerGoodLow) s = .next (((s.setF R.TTH_TKO_CAUSE F.TTH_TKO_CAUSE_HUB_PWR_OK 0).latchCause 3 allOuts
          s.nextSample).hubReset 4)) ∧
  (∀ (s : State),
      s.leaving = true →
      exec (.hubPowerGoodLow) s = .next (s.setF R.TTH_TKO_CAUSE F.TTH_TKO_CAUSE_HUB_PWR_OK 0)) ∧
  (∀ (s : State),
      ∃ t, exec (.hubPowerGoodHigh) s = .next t ∧
        t = s.setF R.TTH_TKO_CAUSE F.TTH_TKO_CAUSE_HUB_PWR_OK 1 ∧
        t.fld R.TTH_TKO_CAUSE F.TTH_TKO_CAUSE_HUB_PWR_OK = 1 ∧
        t.out = s.out ∧
        t.power = s.power)

/-- BOOT_ROM_START brings H up with its clock, reports the reset and selects the image; BOOTSEAL measures the boot
and starts the restore of the journal; the restore ends once nothing of it is left; a recovery that ended well
writes image A, and one that failed sets ERR; a register write goes through the window.
(R372, R411, R413, R414, R416, R417, R435, R437) -/
def Obligations.BootAndSeal : Prop :=
  (∀ (errA errB : Bool) (s : State),
      s.mayBoot = true →
      ∃ t, exec (.bootRomStart errA errB) s = .next t ∧
        t = ((State.railsShow (List.range 16)
          (((((((s.modPower (fun y =>
              { y with hubUp := true, reading := false, released := s.clk.now3 - 1500000 })).setF R.CLK_SYSPLL_STS
              F.CLK_SYSPLL_STS_XTAL_OK 1).setF R.CLK_SYSPLL_STS F.CLK_SYSPLL_STS_LOCK 1).setF R.CLK_MODE_STS
              F.CLK_MODE_STS_TRANS s.power.trans.isSome.toNat).setF R.CLK_MODE_STS F.CLK_MODE_STS_MODE
              (if s.power.mode = .quiet then 1 else 0)).wr R.CLK_WAKE_CFG
              (resetWord R.CLK_WAKE_CFG)).setF R.TTH_TKO_CAUSE F.TTH_TKO_CAUSE_HUB_PWR_OK 1)).raiseAt 0x0108 0x0E00
              s.power.rstAt
          ([s.power.rstCause, 0, 0, 0, 0, 0, 0, 0] ++ (leBytes 8 s.power.rstBlk).map
              (·.toNat))).jnlScan.chooseImage errA errB) ∧
  (∀ (a : Agent) (s : State),
      s.accepts a R.CLK_BOOTSEAL 1 = true →
      s.isSealed = false →
      exec (.bootseal a) s = .next (((s.written R.CLK_BOOTSEAL 1).setF R.CLK_BOOT_STS F.CLK_BOOT_STS_BOOT_MS
          (min 0xFFFF ((s.clk.now3 - s.power.released) / 3000000))).afterSeal false)) ∧
  (∀ (a : Agent) (addr : BitVec 17) (v : Word) (s : State),
      s.accepts a addr.toNat v = true →
      exec (.registerWrite a addr v 15) s = .next ((s.writeFields a addr.toNat v).afterSeal s.isSealed)) ∧
  (∀ (s : State),
      s.power.hubUp = true →
      s.isSealed = true →
      s.on R.CLK_BOOT_STS F.CLK_BOOT_STS_JNL_DONE = false →
      s.fld R.CLK_BOOT_STS F.CLK_BOOT_STS_IMG ≠ 2 →
      s.stage.toF = [] →
      s.stage.changes.all (fun c => c.rank != rankRestore) = true →
      exec (.journalRestoreDone) s = .next (((s.setF R.CLK_BOOT_STS F.CLK_BOOT_STS_JNL_DONE 1).modPower
          (fun y => { y with reading := true })).bootEnds)) ∧
  (∀ (off : Nat) (bs : List Byte) (o : FlashOp) (rest : List FlashOp) (s : State),
      s.flash.ops = o :: rest →
      o.job = .recovery off bs →
      exec (.recoveryDone true) s = .next ((((s.modFlash (fun f => { f with ops := rest })).setF R.CLK_RECOVERY
          F.CLK_RECOVERY_BUSY 0).flashApply (.recovery off bs)).jnlShow)) ∧
  (∀ (off : Nat) (bs : List Byte) (o : FlashOp) (rest : List FlashOp) (s : State),
      s.flash.ops = o :: rest →
      o.job = .recovery off bs →
      exec (.recoveryDone false) s = .next ((((s.modFlash (fun f => { f with ops := rest })).setF R.CLK_RECOVERY
          F.CLK_RECOVERY_BUSY 0).setF R.CLK_RECOVERY F.CLK_RECOVERY_ERR 1).jnlShow))

/-- Once the outputs are at zero the channels and lines stop and the switch window opens; 60 ms later, with flash
idle, the rails go and the part is in LISTEN or SHELF; a wake source in the entry cancels it; a GPIO edge wakes;
6 ms after the request the outputs start, and 70 ms after it the hub is ready.
(R298, R305, R307, R419, R420, R421, R422, R423) -/
def Obligations.ListenAndWake : Prop :=
  (∀ (idx : Nat) (s : State),
      s.entering = true →
      s.power.step = 2 →
      s.outputsZero = true →
      s.power.trans ≠ some .listen ∨ s.on R.CLK_MODE_CTL F.CLK_MODE_CTL_LISTEN_PARK = false →
      exec (.listenOutputsZero idx) s = .next ((((State.loDownAll (List.range 5) (State.stopAll
          ((List.range 16).filter (fun c => s.chState c != stParked)) s)).switchWindow idx true).modPower
          (fun p => { p with step := 3, stepAt := s.clk.now3 })))) ∧
  (∀ (idx : Nat) (s : State),
      s.power.trans = some .listen →
      s.power.step = 2 →
      s.outputsZero = true →
      s.on R.CLK_MODE_CTL F.CLK_MODE_CTL_LISTEN_PARK = true →
      exec (.listenOutputsZero idx) s = .next ((((State.loDownAll (List.range 5) (State.stopAll
          ((List.range 16).filter (fun c => (State.park (List.range 8) s).chState c != stParked)) (State.park
          (List.range 8) s))).switchWindow idx true).modPower (fun p => { p with step := 3, stepAt := s.clk.now3 })))) ∧
  (∀ (s : State),
      s.power.trans = some .listen →
      s.power.step = 3 →
      s.power.stepAt + 180000000 ≤ s.clk.now3 →
      s.flash.ops = [] →
      s.flash.compacting = none →
      exec (.listenRailRemove) s = .next (s.intoListen)) ∧
  (∀ (s : State),
      s.power.trans = some .shelf →
      s.power.step = 3 →
      s.power.stepAt + 180000000 ≤ s.clk.now3 →
      s.flash.ops = [] →
      s.flash.compacting = none →
      exec (.listenRailRemove) s = .next (s.intoShelf)) ∧
  (∀ (src : Fin 4) (s : State),
      s.power.trans = some .listen →
      ∃ t, exec (.listenEntryCancel src) s = .next t ∧
        t = (State.unpark (List.range 8) (((s.transEnd .run).incSat R.CLK_MODE_CNT F.CLK_MODE_CNT_CANCEL).modPower
            (fun y => { y with reading := true }))).modeChangedEvent .listen .run (3 + src.val)) ∧
  (∀ (k : Fin 4) (s : State),
      s.bit R.CLK_WAKE_CFG k = true →
      s.power.mode = .listen →
      s.power.trans = none →
      exec (.gpioWake k) s = .next (((s.setF R.CLK_WAKE_STS F.CLK_WAKE_STS_GPIO (2 ^ k.val)).modPower
          (fun y => { y with trans := some .run, cause := 6, since := s.clk.now3 })).setF R.CLK_WAKE_STS
          F.CLK_WAKE_STS_SRC (wakeSrc 6))) ∧
  (∀ (idx : Nat) (s : State),
      s.power.mode = .listen →
      s.power.trans = some .run →
      s.power.step = 0 →
      s.power.since + 18000000 ≤ s.clk.now3 →
      exec (.wakeOutputsReady idx) s = .next (State.railsShow (List.range 16) ((State.startAll (List.range 16)
          (State.unpark (List.range 8) (s.modPower (fun y => { y with step := 3 })).pllLocks)).switchWindow idx
          false))) ∧
  (∀ (s : State),
      s.power.hubUp = true →
      s.power.mode = .listen →
      s.power.trans = some .run →
      s.power.step = 3 →
      s.power.since + 210000000 ≤ s.clk.now3 →
      ∃ t, exec (.hubReady) s = .next t ∧
        t = (let s2 := State.railsShow (List.range 16) (((s.spaceReturn.histEntry .listen .run s.power.cause).modeChangedEvent .listen .run s.power.cause).transEnd .run).refResume
        if s2.on R.AFE_LSN_CFG F.AFE_LSN_CFG_AUTO_HO && s2.ringState 5 == ringRunning then s2.gatherStart (s2.fld R.AFE_GTH_CFG F.AFE_GTH_CFG_FMT) else s2))

/-- A new message of a controller entry is noted by its number; DISCOVER waits for its reply, ADDRESS sets the short
address, PARAM and HEALTH with a descriptor queue it while the entry has room, HEALTH alone is answered with the
report, a PRIORITY is staged; a message seen before is counted and its stored reply sent again. A new entry
whose block is still open waits, and one whose block is not is staged at the first block that is; an entry whose
cutoff comes is staged; a full table refuses a new entry. (R194, R195, R196, R197, R198, R199, R200, R201) -/
def Obligations.Zhevdom : Prop :=
  (∀ (m : ZvMsg) (i : Nat) (s : State),
      s.zvTake 1 m = .accept (some i) →
      (s.net.zv.seen.getD i []).find? (fun x => x.seq == m.seq) = none →
      exec (.zvDiscover m) s = .next ((s.zvNote i m.seq).modZv
          (fun z => { z with disc := z.disc ++ [(m.src, m.seq, some i, (s.zvNote i m.seq).clk.now3)] }))) ∧
  (∀ (m : ZvMsg) (s : State),
      s.zvTake 1 m = .accept none →
      exec (.zvDiscover m) s = .next (s.modZv
          (fun z => { z with disc := z.disc ++ [(m.src, m.seq, none, s.clk.now3)] }))) ∧
  (∀ (i : Nat) (mac : Mac) (seq : Nat) (e : Option Nat) (at_ : Nat) (s : State),
      s.net.zv.disc[i]? = some (mac, seq, e, at_) →
      exec (.discoverReplySend i) s = .next ((s.modZv (fun z => { z with disc := z.disc.eraseIdx i })).zvReply e seq
          mac 1 (replyFlags false) s.discoverBytes)) ∧
  (∀ (m : ZvMsg) (i : Nat) (s : State),
      s.zvTake 2 m = .accept (some i) →
      (s.net.zv.seen.getD i []).find? (fun x => x.seq == m.seq) = none →
      m.payload.length = 10 →
      bytesAt m.payload 0 8 = (s.zvNote i m.seq).getPair R.GLB_DIE_ID_LO R.GLB_DIE_ID_HI →
      addrOk (bytesAt m.payload 8 2) = true →
      exec (.zvAddress m) s = .next (((s.zvNote i m.seq).setF R.NET_ZV_ADDR F.NET_ZV_ADDR_ADDR
          (bytesAt m.payload 8 2)).zvStatus (some i) 2 m none (doneAt (s.zvNote i m.seq).clk.blk))) ∧
  (∀ (m : ZvMsg) (i : Fin 8) (s : State),
      s.zvTake 3 m = .accept (some i.val) →
      (s.net.zv.seen.getD i []).find? (fun x => x.seq == m.seq) = none →
      32 ≤ m.payload.length →
      ((s.zvNote i m.seq).queue (.param i)).flight.length + (s.zvNote i m.seq).zvWaiting (.param i) < paramMax →
      exec (.zvParam m) s = .next ((s.zvNote i m.seq).zvQueue (.param i) m)) ∧
  (∀ (m : ZvMsg) (i : Nat) (s : State),
      m.flags.testBit 0 = false →
      s.zvTake 6 m = .accept (some i) →
      (s.net.zv.seen.getD i []).find? (fun x => x.seq == m.seq) = none →
      i < 8 →
      m.payload = [] →
      exec (.zvHealth m) s = .next (((s.zvNote i m.seq).healthPayload.2.healthSent).zvReply (some i) m.seq m.src 6
          (replyFlags false) (s.zvNote i m.seq).healthPayload.1)) ∧
  (∀ (m : ZvMsg) (i : Fin 8) (s : State),
      m.flags.testBit 0 = false →
      s.zvTake 6 m = .accept (some i.val) →
      (s.net.zv.seen.getD i []).find? (fun x => x.seq == m.seq) = none →
      32 ≤ m.payload.length →
      (s.zvNote i m.seq).on (R.NET_ZV_CTRL_HI i) F.NET_ZV_CTRL_HI_MGMT = true →
      exec (.zvHealth m) s = .next ((s.zvNote i m.seq).zvQueue (.health i) m)) ∧
  (∀ (s : State),
      s.on R.NET_ZV_CFG F.NET_ZV_CFG_EN = true →
      s.fld R.NET_ZV_HEALTH F.NET_ZV_HEALTH_PERIOD ≠ 0 →
      s.net.zv.healthAt + s.fld R.NET_ZV_HEALTH F.NET_ZV_HEALTH_PERIOD * second3 ≤ s.clk.now3 →
      exec (.healthReport) s = .next ((State.toReport 6 (replyFlags false) s.healthPayload.1 (List.range 8)
          s.healthPayload.2).healthSent.modZv (fun z => { z with healthAt := s.clk.now3 }))) ∧
  (∀ (m : ZvMsg) (i : Nat) (s : State),
      s.zvTake 5 m = .accept (some i) →
      (s.net.zv.seen.getD i []).find? (fun x => x.seq == m.seq) = none →
      m.payload.length = 16 →
      bytesAt m.payload 0 1 ≤ 1 →
      exec (.zvPriority m) s = .next
          ((s.zvNote i m.seq).stageAct
          ⟨none, max (bytesAt m.payload 8 8) ((s.zvNote i m.seq).openFor [.prioNet (bytesAt m.payload 0 1 == 1) (bytesAt m.payload 1 3)]), rankPart, none, .prioNet (bytesAt m.payload 0 1 == 1) (bytesAt m.payload 1 3)⟩)) ∧
  (∀ (m : ZvMsg) (i : Nat) (x : ZvSeen) (s : State),
      s.zvTake 1 m = .accept (some i) →
      (s.net.zv.seen.getD i []).find? (fun x => x.seq == m.seq) = some x →
      x.reply = none →
      exec (.zvDiscover m) s = .next (s.incSat R.NET_ZV_CNT F.NET_ZV_CNT_DUP)) ∧
  (∀ (m : ZvMsg) (i : Nat) (s : State),
      s.zvTake 4 m = .accept (some i) →
      (s.net.zv.seen.getD i []).find? (fun x => x.seq == m.seq) = none →
      m.payload.length = 32 →
      exec (.zvSchedule m) s = .next
          ((s.zvNote i m.seq).schedTake
          ⟨i, m.src, bytesAt m.payload 2 2, bytesAt m.payload 8 8, bytesAt m.payload 0 1, m.payload.drop 16, m.seq⟩)) ∧
  (∀ (e : SchedEntry) (s : State), 1 ≤ e.action → e.action ≤ 4 → e.k ≤ s.clk.blk + schedAhead → e.argsOk = true →
      s.schedFind e.ctrl e.id = none → s.net.zv.sched.length < schedMax → s.schedOpen e ≤ e.k →
      s.schedTake e = s.modZv (fun z => { z with sched := z.sched ++ [e] })) ∧
  (∀ (i : Fin 8) (id : Nat) (e : SchedEntry) (s : State),
      s.schedFind i id = some e →
      e.k < s.schedOpen e →
      exec (.scheduleStage i id) s = .next ((s.schedDrop i id).schedApply e (max e.k (s.clk.blk + 1)))) ∧
  (∀ (i : Fin 8) (id : Nat) (e : SchedEntry) (s : State),
      s.schedFind i id = some e →
      s.schedOpen e ≤ e.k →
      exec (.scheduleStage i id) s = .next (s))

/-- The oldest descriptor of an origin that has its completion is posted to its ring or message; the commit point of
the next block carries out what is due; a reload sets the counter to the block index of array time; Tether boots
once from the copy it selects. (R12, R30, R34, R181, R292, R347, R348) -/
def Obligations.CompletionsAndBoundaries : Prop :=
  (∀ (f : InFlight) (c : Completion) (s : State),
      s.postable .cmd = some (f, c) →
      silent f c = false →
      s.ringRoom 1 = true →
      exec (.completionPost .cmd) s = .next (((s.dropFlight .cmd).ringPost 1 (f.record c)).setF (R.HIF_RING_STS 0)
          F.HIF_RING_STS_HELD 0)) ∧
  (∀ (f : InFlight) (c : Completion) (s : State),
      s.postable .cmd = some (f, c) →
      silent f c = false →
      s.ringRoom 1 = false →
      exec (.completionPost .cmd) s = .next (s.setF (R.HIF_RING_STS 0) F.HIF_RING_STS_HELD 1)) ∧
  (∀ (f : InFlight) (c : Completion) (s : State),
      s.postable .cmd = some (f, c) →
      silent f c = true →
      exec (.completionPost .cmd) s = .next (s.dropFlight .cmd)) ∧
  (∀ (f : InFlight) (c : Completion) (s : State),
      s.postable .mcmd = some (f, c) →
      silent f c = false →
      s.ringRoom 4 = true →
      exec (.completionPost .mcmd) s = .next (((s.dropFlight .mcmd).ringPost 4 (f.record c)).setF (R.HIF_RING_STS 3)
          F.HIF_RING_STS_HELD 0)) ∧
  (∀ (i : Fin 8) (f : InFlight) (c : Completion) (s : State),
      s.postable (.param i) = some (f, c) →
      silent f c = true →
      exec (.completionPost (.param i)) s = .next (((s.dropFlight (.param i)).modZv
          (fun z => { z with cmds := z.cmds.filter (fun x => !decide (x.id = DescId.mk (.param i) f.ord)) })).zvPumpAll (.param i))) ∧
  (∀ (m : BlockInputs) (s : State),
      s.clk.run = true →
      exec (.commitPoint m) s = .next (s.nextBlock.commitPoint (s.clk.blk + 1) m)) ∧
  (∀ (s : State),
      s.clk.reload = true →
      s.clk.run = true →
      s.clk.smp = 0 →
      s.net.ptp.step = false →
      s.power.hubUp = true →
      exec (.blockCounterReload) s = .next ((let s1 := (s.modClk (fun y => { y with blk := s.reloadTo, slips := 0, reload := false })).modPtp (fun x => { x with step := false })
        let s2 := State.aheadRestart s.reloadTo (List.range 8) s1
        (State.schedSkipped s.reloadTo s2.net.zv.sched s2).commitDue s.reloadTo))) ∧
  (∀ (s : State),
      s.on R.TTH_STS F.TTH_STS_READY = false →
      s.power.mode ≠ .off →
      s.power.mode ≠ .shelf →
      exec (.tetherBoot) s = .next ((s.bootSelect.setF R.TTH_STS F.TTH_STS_READY 1).raiseF 0x0901 0x0C20))

/-- For every command, queue and state: a step with the command in front is exec of that command on the state whose
queue is the rest. (98_reader.md (the part answers what reaches it, one thing after another)) -/
def Obligations.StepTakesTheFront : Prop :=
  ∀ (c : Instr) (rest : List Instr) (s : State), step (s.withRest (c :: rest)) = exec c (s.withRest rest)

/-- The model's choice (assumption log entry 7): with nothing queued a step always goes on; it moves array time by
one sample (31,250 thirds of a nanosecond, R12) and, while blocks advance, the sample number with it, but it
waits at sample 15 for the commit point. Nothing else changes. (R12, R30) -/
def Obligations.EmptyQueueTicks : Prop :=
  (∀ (s : State), s.pending = [] → s.clk.run = true → s.clk.smp < 15 →
      step s = .next { s with clk := { s.clk with smp := s.clk.smp + 1, now3 := s.clk.now3 + 31250 } }) ∧
  (∀ (s : State), s.pending = [] → s.clk.run = true → 15 ≤ s.clk.smp → step s = .next s) ∧
  (∀ (s : State), s.pending = [] → s.clk.run = false →
    step s = .next { s with clk := { s.clk with now3 := s.clk.now3 + 31250 } })

/-- Whatever the command and the state, exec answers a next state: no command of the table ends in a fault or a
refusal. (R437, R351, 98_reader.md) -/
def Obligations.NoCommandStops : Prop :=
  ∀ (c : Instr) (s : State), ∃ t, exec c s = .next t

/-- Right after power-on reset every register file and byte memory has its canonical form, every list that stands
for a fixed number of like things has that length, and no command waits. (R10, R411, 16_register_map.md) -/
def Obligations.ResetIsWellFormed : Prop :=
  State.reset.Inv ∧ State.reset.pending = []

/-- From every state whose register files and byte memories have their canonical form and whose lists have their
fixed lengths, whatever command waits in front and with whatever operands, a step leads to such a state again.
(R437, R438, R346, R356, 16_register_map.md) -/
def Obligations.StepKeepsTheInvariant : Prop :=
  ∀ (s t : State), s.Inv → step s = .next t → t.Inv

/-- From a state that meets the invariant, no command adds to the queue of waiting commands, drops one or reorders
them. (98_reader.md) -/
def Obligations.ExecLeavesTheQueue : Prop :=
  ∀ (c : Instr) (s t : State), s.Inv → exec c s = .next t → t.pending = s.pending

/-- From every state that meets the invariant, as many steps as commands wait reach a state with an empty queue that
meets the invariant; no step on the way stops. (98_reader.md, R351) -/
def Obligations.QueuedCommandsAllRun : Prop :=
  ∀ (s : State), s.Inv → ∃ t, RunsTo s.pending.length s t ∧ t.pending = [] ∧ t.Inv

/-- From every state, every number of steps is possible: no run meets a fault or a refusal.
(R437, R351, 98_reader.md) -/
def Obligations.EveryRunGoesOn : Prop :=
  ∀ (s : State), Safe s

/-- Once SEAL is set, a write through the window by any agent, with any byte enables, to a register that holds RWB
fields leaves that register as it was. (R416, R417, R437) -/
def Obligations.SealedFieldsStay : Prop :=
  ∀ (ag x be : Nat) (v : Word) (s : State), s.isSealed = true → rwbMask x ≠ 0 → (s.windowWrite ag x v be).rd x = s.rd x

/-- A write by an agent that may not write the page, or that lacks the bit for it, changes CLK_PROT_VIOL and
CLK_PROT_ADDR, and what the raising of its event posts to the host; it touches no other register outside the
HIF_ page and no other part of the state. (R416, R437, R418) -/
def Obligations.RefusedWritesTouchOnlyTheRecord : Prop :=
  ∀ (ag x be : Nat) (v : Word) (s : State), s.mayWrite ag x = false →
      (s.windowWrite ag x v be).fld R.CLK_PROT_VIOL F.CLK_PROT_VIOL_AGENT = ag % 256 ∧
      (s.windowWrite ag x v be).fld R.CLK_PROT_VIOL F.CLK_PROT_VIOL_KIND = 1 ∧
      (s.windowWrite ag x v be).rd R.CLK_PROT_ADDR = BitVec.ofNat 32 x ∧
      (∀ y, y ≠ R.CLK_PROT_VIOL → y ≠ R.CLK_PROT_ADDR → y < 0x2000 ∨ 0x3000 ≤ y →
          (s.windowWrite ag x v be).rd y = s.rd y) ∧
      (∃ rf w h c o, s.windowWrite ag x v be = { s with regs := rf, window := w, host := h, col := c, out := o })

/-- Bytes put to the local ring window read back at their addresses, and every other byte of the window and
everything else of the state is as before; no two writes interfere but where they overlap.
(R335, 12_host_rings.md) -/
def Obligations.WindowBytes : Prop :=
  (∀ (a y : Nat) (bs : List Byte) (s : State),
      Mem.get 0 (s.putBytes true a bs).window y = (if h : a ≤ y ∧
          y < a + bs.length then bs[y - a]'(by omega) else Mem.get 0 s.window y) ∧
      s.putBytes true a bs = { s with window := (s.putBytes true a bs).window }) ∧
  (∀ (a b : Nat) (us vs : List Byte) (s : State), a + us.length ≤ b ∨ b + vs.length ≤ a → ∀ y,
      Mem.get 0 ((s.putBytes true a us).putBytes true b vs).window y = Mem.get 0
          ((s.putBytes true b vs).putBytes true a us).window y)

/-- A LOCK_ACQUIRE of lock 28 to 31 by an owner other than the part is DENIED; one by an owner that already holds a
lock is DENIED and not counted; one of a held lock is REFUSED_BUSY and counted in LCK_REFUSED; one of a free
lock gives the lock to the owner with an empty open sequence and completes DONE, or once LOCK_ABANDONED where
the last holder abandoned it, and ABANDONED clears. The lease of L ms ends L ms after the acquire, or after the
last LOCK_RENEW. (R357) -/
def Obligations.LockAcquireOrder : Prop :=
  (∀ (o : Origin) (d : Desc) (w : Nat) (s : State), s.takes o 0xA0 d = true → d.payLen = 0 → d.inl ≤ leaseMax →
    originOwner o = some w → 28 ≤ d.target → d.target < 32 →
      exec (.lockAcquire o d) s = .next ((s.begun o 0xA0 d).ends (s.readId o) .denied)) ∧
  (∀ (o : Origin) (d : Desc) (w : Nat) (s : State), s.takes o 0xA0 d = true → d.payLen = 0 → d.inl ≤ leaseMax →
    originOwner o = some w → d.target < 28 → (s.begun o 0xA0 d).lockOf w ≠ none →
      exec (.lockAcquire o d) s = .next ((s.begun o 0xA0 d).ends (s.readId o) .denied)) ∧
  (∀ (o : Origin) (d : Desc) (w : Nat) (s : State), s.takes o 0xA0 d = true → d.payLen = 0 → d.inl ≤ leaseMax →
    originOwner o = some w → d.target < 28 → (s.begun o 0xA0 d).lockOf w = none →
    (s.begun o 0xA0 d).lockHeld d.target = true →
      exec (.lockAcquire o d) s = .next (((s.begun o 0xA0 d).incWrap R.LCK_REFUSED F.LCK_REFUSED_COUNT).ends
          (s.readId o) .refusedBusy)) ∧
  (∀ (o : Origin) (d : Desc) (w : Nat) (s : State), s.shaped = true → w < 64 → s.takes o 0xA0 d = true → d.payLen = 0 →
    d.inl ≤ leaseMax → originOwner o = some w → d.target < 28 → (s.begun o 0xA0 d).lockOf w = none →
      (s.begun o 0xA0 d).lockHeld d.target = false → ∃ u : State,
      exec (.lockAcquire o d) s = .next (u.ends (s.readId o) (if (s.begun o 0xA0 d).on (R.LCK_STS d.target)
          F.LCK_STS_ABANDONED then .lockAbandoned else .done)) ∧
      u.lockOf w = some d.target ∧ u.fld (R.LCK_STS d.target) F.LCK_STS_ABANDONED = 0 ∧
      (u.lock d.target).staged = [] ∧ (u.lock d.target).failed = false ∧
      (u.lock d.target).expires = (if d.inl = 0 then none else some ((s.begun o 0xA0 d).clk.now3 + 3000000 * d.inl)) ∧
      (∀ j, j < 32 → j ≠ d.target → u.rd (R.LCK_STS j) = (s.begun o 0xA0 d).rd (R.LCK_STS j) ∧
          u.lock j = (s.begun o 0xA0 d).lock j)) ∧
  (∀ (k lease : Nat) (s : State), s.shaped = true → k < 32 →
      ((s.lockRenew k lease).lock k).expires = (if lease = 0 then none else some (s.clk.now3 + 3000000 * lease))) ∧
  (∀ (k e : Nat) (s : State), (s.lock k).expires = some e →
      (s.leaseOver k = true ↔ s.lockHeld k = true ∧ s.lockState k = lockOpen ∧ e ≤ s.clk.now3))

/-- A completion record has 16 bytes: the tag, the status, the flags LATE, SLIPPED and CHAINED with bits 7 to 3
zero, the ordinal of the descriptor on its ring, and the effective block. LATE is set where the effective block
is later than the AT_BLOCK index. With NO_CPL nothing is posted for DONE; every other status is posted. (R347) -/
def Obligations.CompletionRecord : Prop :=
  (∀ (f : InFlight) (c : Completion), (f.record c).length = 16 ∧ bytesAt (f.record c) 0 2 = f.tag % 65536 ∧
      bytesAt (f.record c) 2 1 = statusCode c.status ∧
      bytesAt (f.record c) 3 1 = c.late.toNat + 2 * c.slipped.toNat + 4 * c.chained.toNat ∧
      bytesAt (f.record c) 4 4 = f.num % 2 ^ 32 ∧ bytesAt (f.record c) 8 8 = c.eff % 2 ^ 64) ∧
  (∀ (s : State) (f : InFlight) (c : Completion), s.postable .cmd = some (f, c) → f.noCpl = true → c.status = .done →
      exec (.completionPost .cmd) s = .next (s.dropFlight .cmd)) ∧
  (∀ (s : State) (f : InFlight) (c : Completion), s.postable .cmd = some (f, c) → (f.noCpl = false ∨ c.status ≠ .done) →
      s.ringRoom 1 = true →
      exec (.completionPost .cmd) s = .next (((s.dropFlight .cmd).ringPost 1 (f.record c)).setF (R.HIF_RING_STS 0)
          F.HIF_RING_STS_HELD 0)) ∧
  (∀ (s : State) (f : InFlight) (c : Completion), s.postable .mcmd = some (f, c) → (f.noCpl = false ∨ c.status ≠ .done) →
      s.ringRoom 4 = true →
      exec (.completionPost .mcmd) s = .next (((s.dropFlight .mcmd).ringPost 4 (f.record c)).setF (R.HIF_RING_STS 3)
          F.HIF_RING_STS_HELD 0)) ∧
  (∀ (s : State) (f : InFlight) (c : Completion), s.postable .mcmd = some (f, c) → f.noCpl = true → c.status = .done →
      exec (.completionPost .mcmd) s = .next (s.dropFlight .mcmd)) ∧
  (∀ (s : State) (o : Origin) (i w : Nat) (f : InFlight) (k : Nat), originIdx o < s.host.queues.length →
    (s.queue o).flight = [f] → f.ord = i → f.cpl = none → f.want = some w →
      ∃ g, ((s.finish ⟨o, i⟩ ⟨.done, false, false, false, k, none⟩).queue o).flight = [g] ∧
        g.cpl = some ⟨.done, decide (w < k), f.slip, f.chained, k, none⟩)

/-- For each controller entry the part keeps the last 64 numbers that it accepted, each with the reply that was sent
for it. A message of that entry that repeats one of them is not executed: the part sends the stored reply once
more and counts the message in NET_ZV_CNT.DUP, and nothing else changes. (R194) -/
def Obligations.DuplicateMessages : Prop :=
  (∀ (m : ZvMsg) (i : Nat) (x : ZvSeen) (ty fl own : Nat) (bs : List Byte) (s : State), s.zvTake 1 m = .accept (some i) →
      (s.net.zv.seen.getD i []).find? (fun z => z.seq == m.seq) = some x → x.reply = some (ty, fl, own, bs) →
      exec (.zvDiscover m) s = .next ((s.incSat R.NET_ZV_CNT F.NET_ZV_CNT_DUP).emit (.zv m.src ty fl own bs))) ∧
  (∀ (m : ZvMsg) (i : Nat) (x : ZvSeen) (ty fl own : Nat) (bs : List Byte) (s : State), s.zvTake 2 m = .accept (some i) →
      (s.net.zv.seen.getD i []).find? (fun z => z.seq == m.seq) = some x → x.reply = some (ty, fl, own, bs) →
      exec (.zvAddress m) s = .next ((s.incSat R.NET_ZV_CNT F.NET_ZV_CNT_DUP).emit (.zv m.src ty fl own bs))) ∧
  (∀ (m : ZvMsg) (i : Nat) (x : ZvSeen) (ty fl own : Nat) (bs : List Byte) (s : State), s.zvTake 3 m = .accept (some i) →
      (s.net.zv.seen.getD i []).find? (fun z => z.seq == m.seq) = some x → x.reply = some (ty, fl, own, bs) →
      exec (.zvParam m) s = .next ((s.incSat R.NET_ZV_CNT F.NET_ZV_CNT_DUP).emit (.zv m.src ty fl own bs))) ∧
  (∀ (m : ZvMsg) (i : Nat) (x : ZvSeen) (ty fl own : Nat) (bs : List Byte) (s : State), s.zvTake 4 m = .accept (some i) →
      (s.net.zv.seen.getD i []).find? (fun z => z.seq == m.seq) = some x → x.reply = some (ty, fl, own, bs) →
      exec (.zvSchedule m) s = .next ((s.incSat R.NET_ZV_CNT F.NET_ZV_CNT_DUP).emit (.zv m.src ty fl own bs))) ∧
  (∀ (m : ZvMsg) (i : Nat) (x : ZvSeen) (ty fl own : Nat) (bs : List Byte) (s : State), s.zvTake 5 m = .accept (some i) →
      (s.net.zv.seen.getD i []).find? (fun z => z.seq == m.seq) = some x → x.reply = some (ty, fl, own, bs) →
      exec (.zvPriority m) s = .next ((s.incSat R.NET_ZV_CNT F.NET_ZV_CNT_DUP).emit (.zv m.src ty fl own bs))) ∧
  (∀ (m : ZvMsg) (i : Nat) (x : ZvSeen) (ty fl own : Nat) (bs : List Byte) (s : State), m.flags.testBit 0 = false →
    s.zvTake 6 m = .accept (some i) →
      (s.net.zv.seen.getD i []).find? (fun z => z.seq == m.seq) = some x → x.reply = some (ty, fl, own, bs) →
      exec (.zvHealth m) s = .next ((s.incSat R.NET_ZV_CNT F.NET_ZV_CNT_DUP).emit (.zv m.src ty fl own bs))) ∧
  (∀ (i seq : Nat) (s : State), i < s.net.zv.seen.length →
      (s.zvNote i seq).net.zv.seen.getD i [] = (⟨seq, none⟩ :: s.net.zv.seen.getD i []).take 64 ∧
      ∀ j, j ≠ i → (s.zvNote i seq).net.zv.seen.getD j [] = s.net.zv.seen.getD j []) ∧
  (∀ (i seq ty fl : Nat) (dst : Mac) (bs : List Byte) (s : State), i < s.net.zv.seen.length →
      (s.zvReply (some i) seq dst ty fl bs).net.zv.seen.getD i [] = (s.net.zv.seen.getD i []).map (fun x =>
        if x.seq = seq ∧ x.reply.isNone then { x with reply := some (ty, fl, s.net.zv.seq, bs) } else x))

/-- A change that concerns no engine and names no block, staged while the block is at a sample before 14, takes
effect at the next block; staged at sample 14 or 15, at the block after that. A change that names a later block
keeps it. The change joins the end of the list. A hold batch takes at
most 256 RWS writes of agents 0 to 2; one more is dropped and sets HOLD_OVF. (R33, R36, R443) -/
def Obligations.CommitCutoff : Prop :=
  (∀ (s : State), s.nextOpen = if s.clk.smp < 14 then s.clk.blk + 1 else s.clk.blk + 2) ∧
  (∀ (s : State) (act : Act), s.governed [act] = [] → s.openFor [act] = s.nextOpen) ∧
  (∀ (s : State) (id : DescId) (act : Act) (d : Desc), s.governed [act] = [] → d.want = none →
      (s.stageDesc id d act).stage.changes = s.stage.changes ++ [⟨some id, s.nextOpen, originRank id.org, none, act⟩]) ∧
  (∀ (s : State) (id : DescId) (act : Act) (d : Desc) (k : Nat), s.governed [act] = [] → d.want = some k →
    s.nextOpen ≤ k →
      (s.stageDesc id d act).stage.changes = s.stage.changes ++ [⟨some id, k, originRank id.org, none, act⟩]) ∧
  (∀ (s : State) (ag x : Nat) (v : Word), s.on R.GLB_COMMIT_CTL F.GLB_COMMIT_CTL_HOLD = true → ag ≤ 2 →
    s.stage.held.length < 256 →
      s.stageWrite ag x v = s.modStage (fun y => { y with held := y.held ++ [(x, v)] })) ∧
  (∀ (s : State) (ag x : Nat) (v : Word), s.on R.GLB_COMMIT_CTL F.GLB_COMMIT_CTL_HOLD = true → ag ≤ 2 →
    256 ≤ s.stage.held.length →
      s.stageWrite ag x v = s.setF R.GLB_STS F.GLB_STS_HOLD_OVF 1)

/-- A requantised sample is the nearest code, the even one at a tie, with its tags; a value that rounds beyond a limit of
Q1.31 gives that limit with O added. A single input at unity gain passes unchanged. U, O and C of a sum are the OR over
the inputs whose weight is not zero, P over every input. Moving the samples on at a block boundary sets, of the registers,
only OVR of lanes, SAT of buses and CLIP of sinks; the clock, the link, the host side, staged changes, locks, errors,
power, the settings of the main path, the output stages, Tether and the network stay, and the waiting commands with them.
(R41, R63, R110, R117, R119, R123, R141, R145) -/
def Obligations.SamplesRoundAndStay : Prop :=
  (∀ (n : Int) (d : Nat) (t : Tag), 0 < d → (2 * qMax + 1) * d ≤ 2 * n → requant ⟨n, d⟩ t = ⟨0x7FFFFFFF, t ||| tagO⟩) ∧
  (∀ (n : Int) (d : Nat) (t : Tag), 0 < d → 2 * n < (2 * qMin - 1) * d → requant ⟨n, d⟩ t = ⟨0x80000000, t ||| tagO⟩) ∧
  (∀ (n : Int) (d : Nat) (t : Tag), 0 < d → (2 * qMin - 1) * d ≤ 2 * n → 2 * n < (2 * qMax + 1) * d →
      (requant ⟨n, d⟩ t).tag = t ∧ 2 * ((requant ⟨n, d⟩ t).int * d - n).natAbs ≤ d ∧
      (2 * ((requant ⟨n, d⟩ t).int * d - n).natAbs = d → (requant ⟨n, d⟩ t).int % 2 = 0)) ∧
  (∀ (x : Smp), sumSmp [(Frac.one, x)] = x) ∧
  (∀ (terms : List (Frac × Smp)),
      (∀ j, j < 3 → (sumTag terms).getLsbD j = terms.any (fun p => decide (p.1.num ≠ 0) && p.2.tag.getLsbD j)) ∧
      (sumTag terms).getLsbD 3 = terms.any (fun p => p.2.tag.getLsbD 3)) ∧
  (∀ (s : State) (k : Nat) (m : BlockInputs) (a j : Nat),
      ((s.dataPath k m).rd a).getLsbD j = (s.rd a).getLsbD j ∨
      ((s.dataPath k m).rd a).getLsbD j = true ∧
        ((∃ l, a = R.MP_LANE_STS l) ∧ F.MP_LANE_STS_OVR.mask.getLsbD j = true ∨
         (∃ b, a = R.MIX_BUS_STS b) ∧ F.MIX_BUS_STS_SAT.mask.getLsbD j = true ∨
         (∃ i, a = R.MP_DYN_STS i) ∧ F.MP_DYN_STS_CLIP.mask.getLsbD j = true)) ∧
  (∀ (s : State) (k : Nat) (m : BlockInputs),
      (s.dataPath k m).clk = s.clk ∧ (s.dataPath k m).link = s.link ∧ (s.dataPath k m).host = s.host ∧
      (s.dataPath k m).stage = s.stage ∧ (s.dataPath k m).locks = s.locks ∧ (s.dataPath k m).err = s.err ∧
      (s.dataPath k m).power = s.power ∧ (s.dataPath k m).mp = s.mp ∧ (s.dataPath k m).outs = s.outs ∧
      (s.dataPath k m).tth = s.tth ∧ (s.dataPath k m).net = s.net ∧ (s.dataPath k m).pending = s.pending ∧
      ∃ l, (s.dataPath k m).out = l ++ s.out)
end

