-- ==== Sys2Proof/Laws/Desc.lean ====
section
/-!
SUPPORT. What the reading of a descriptor does once the checks that every opcode has pass (R345, R346, R351).
-/
namespace Sys2Proof.Machine

/-- A descriptor that passes the common checks begins. -/
theorem State.opRow_takes (s : State) (op : Nat) (o : Origin) (d : Desc) (h : s.takes o op d = true) :
    ∃ k, opKind op = some k ∧ s.opRow op o d = (s.begun o op d).beginDesc (s.readId o) { d with op := op } k := by
  simp only [State.takes, Bool.and_eq_true, Bool.not_eq_true'] at h
  obtain ⟨⟨⟨⟨⟨⟨⟨h1, h2⟩, h3⟩, h4⟩, h5⟩, h6⟩, h7⟩, h8⟩ := h
  have hc : ({ d with op := op } : Desc).chain = false := h7
  revert h8
  cases hk : opKind op with
  | none => intro h8; simp at h8
  | some k =>
    intro h8
    refine ⟨k, rfl, ?_⟩
    simp only [Bool.not_eq_true'] at h8
    have hb : s.begun o op d = if wakesQuiet op k then (s.justRead o op d).quietTrigger 0 else s.justRead o op d := by
      unfold State.begun
      rw [hk]
    have e1 : s.opRow op o d = s.runDesc o { d with op := op } := by
      unfold State.opRow
      simp [h1, h2, h3]
    rw [e1]
    have e2 : s.runDesc o { d with op := op } = (s.justRead o op d).checkDesc (s.readId o) { d with op := op } := rfl
    have hf : (if wakesQuiet op k then (s.justRead o op d).quietTrigger 0 else s.justRead o op d).formBad o
        { d with op := op } k = false := by rw [← hb]; exact h8
    rw [e2, hb]
    unfold State.checkDesc
    simp only [hk]
    have q1 : takesOp (s.readId o).org op = true := h4
    have q2 : (s.justRead o op d).opAllowed (s.readId o).org op = true := h6
    have q3 : (s.readId o).org = o := rfl
    rw [q3] at q1 q2
    simp only [q3, q1, q2, h5, hc, hf, Bool.not_true, Bool.false_and, if_false, Bool.false_eq_true]

/-- A change that passes its own checks is staged. -/
theorem State.opRow_stages (s : State) (op : Nat) (o : Origin) (d : Desc) (act : Act) (h : s.takes o op d = true)
    (hk : opKind op ≠ some .oper) (hr : op ≠ 0xA1)
    (ha : (s.begun o op d).changeOf o { d with op := op } ((s.begun o op d).payloadOf o d) = .ok act) :
    s.opRow op o d = s.stages o op d act := by
  have hc : ({ d with op := op } : Desc).chain = false := by
    simp only [State.takes, Bool.and_eq_true, Bool.not_eq_true'] at h
    exact h.1.2
  obtain ⟨k, h1, h2⟩ := s.opRow_takes op o d h
  rw [h2]
  unfold State.beginDesc
  have q3 : (s.readId o).org = o := rfl
  have q4 : (s.begun o op d).payloadOf o { d with op := op } = (s.begun o op d).payloadOf o d := rfl
  have q5 : k ≠ .oper := fun q => hk (by rw [h1, q])
  simp only [hr, q5, q3, q4, ha, if_false]
  simp only [State.chainLock, hc, if_false, Bool.false_eq_true]
  rfl

/-- An operation runs. -/
theorem State.opRow_runs (s : State) (op : Nat) (o : Origin) (d : Desc) (h : s.takes o op d = true)
    (hk : opKind op = some .oper) :
    s.opRow op o d = (s.begun o op d).operOf (s.readId o) { d with op := op } ((s.begun o op d).payloadOf o d) := by
  obtain ⟨k, h1, h2⟩ := s.opRow_takes op o d h
  rw [h2]
  have q5 : k = .oper := by rw [hk] at h1; exact (Option.some.inj h1).symm
  have hr : op ≠ 0xA1 := by
    intro e
    rw [e] at hk
    exact absurd hk (by decide)
  unfold State.beginDesc
  simp only [hr, q5, if_false, if_true]
  rfl

end Sys2Proof.Machine
end

