-- ==== Sys2Proof/Laws/RegFile.lean ====
section
/-!
SUPPORT. Laws of words, register files and byte memories: read after write, other places, canonical form.
-/
namespace Sys2Proof

/-! ### Words -/

theorem Fld.mask_bit (f : Fld) (h : f.lo + f.w ≤ 32) (i : Nat) :
    f.mask.getLsbD i = (decide (f.lo ≤ i) && decide (i < f.lo + f.w)) := by
  by_cases h1 : i < f.lo
  · have : ¬ f.lo ≤ i := by omega
    simp [Fld.mask, h1, this]
  · by_cases h2 : i < f.lo + f.w
    · have e1 : f.lo ≤ i := by omega
      have e2 : i < 32 := by omega
      have e3 : i - f.lo < f.w := by omega
      simp [Fld.mask, h1, h2, e1, e2, e3]
    · have e1 : f.lo ≤ i := by omega
      have e3 : ¬ i - f.lo < f.w := by omega
      simp [Fld.mask, h1, h2, e1, e3]

/-- A field reads the value written to it, cut to its width. -/
theorem Word.fld_setFld (v : Word) (f : Fld) (x : Nat) (h : f.lo + f.w ≤ 32) :
    (v.setFld f x).fld f = x % 2 ^ f.w := by
  have e : (v.setFld f x).extractLsb' f.lo f.w = BitVec.ofNat f.w x := by
    apply BitVec.eq_of_getLsbD_eq
    intro i hi
    have b1 : f.lo + i < 32 := by omega
    have b2 : i < 32 := by omega
    simp only [Word.setFld, BitVec.getLsbD_extractLsb', hi, decide_true, Bool.true_and, BitVec.getLsbD_or,
      BitVec.getLsbD_and, BitVec.getLsbD_not, BitVec.getLsbD_shiftLeft, BitVec.getLsbD_setWidth, b1, Fld.mask_bit f h]
    have c1 : f.lo ≤ f.lo + i := by omega
    have c2 : f.lo + i < f.lo + f.w := by omega
    have c3 : ¬ f.lo + i < f.lo := by omega
    have c4 : f.lo + i - f.lo = i := by omega
    simp [hi, b2]
  rw [Word.fld, e]
  simp

/-- A field that does not overlap the one written reads as before. -/
theorem Word.fld_setFld_ne (v : Word) (f g : Fld) (x : Nat) (h : f.lo + f.w ≤ 32)
    (d : g.lo + g.w ≤ f.lo ∨ f.lo + f.w ≤ g.lo) : (v.setFld f x).fld g = v.fld g := by
  have e : (v.setFld f x).extractLsb' g.lo g.w = v.extractLsb' g.lo g.w := by
    apply BitVec.eq_of_getLsbD_eq
    intro i hi
    by_cases b : g.lo + i < 32
    · simp only [Word.setFld, BitVec.getLsbD_extractLsb', hi, decide_true, Bool.true_and, BitVec.getLsbD_or,
        BitVec.getLsbD_and, BitVec.getLsbD_not, BitVec.getLsbD_shiftLeft, BitVec.getLsbD_setWidth, b, Fld.mask_bit f h]
      rcases d with d | d
      · have c1 : ¬ f.lo ≤ g.lo + i := by omega
        have c2 : g.lo + i < f.lo := by omega
        simp [c1, c2]
      · have c2 : ¬ g.lo + i < f.lo + f.w := by omega
        have c1 : f.lo ≤ g.lo + i := by omega
        have c3 : f.w ≤ g.lo + i - f.lo := by omega
        have c4 : (BitVec.ofNat f.w x).getLsbD (g.lo + i - f.lo) = false := BitVec.getLsbD_of_ge _ _ c3
        simp [c1, c2, c4]
    · have b2 : 32 ≤ g.lo + i := by omega
      simp only [BitVec.getLsbD_extractLsb', hi, decide_true, Bool.true_and]
      rw [BitVec.getLsbD_of_ge _ _ b2, BitVec.getLsbD_of_ge _ _ b2]
  rw [Word.fld, e, Word.fld]

namespace Machine

/-! ### Register files -/

@[simp] theorem RegFile.get_nil (a : Nat) : RegFile.get [] a = resetWord a := rfl

theorem RegFile.find_erase_same (rf : RegFile) (a : Nat) : (rf.erase a).find a = none := by
  induction rf with
  | nil => rfl
  | cons p rest ih =>
    obtain ⟨b, v⟩ := p
    by_cases h : b = a
    · simp [RegFile.erase, h, ih]
    · simp [RegFile.erase, h, RegFile.find, ih]

theorem RegFile.find_erase_ne (rf : RegFile) (a b : Nat) (h : a ≠ b) : (rf.erase a).find b = rf.find b := by
  induction rf with
  | nil => rfl
  | cons p rest ih =>
    obtain ⟨c, v⟩ := p
    by_cases h1 : c = a
    · have : c ≠ b := by omega
      simp [RegFile.erase, h1, ih, RegFile.find, h]
    · simp [RegFile.erase, h1, RegFile.find, ih]

theorem RegFile.find_insert_same (rf : RegFile) (a : Nat) (v : Word) (h : rf.find a = none) :
    (rf.insert a v).find a = some v := by
  induction rf with
  | nil => simp [RegFile.insert, RegFile.find]
  | cons p rest ih =>
    obtain ⟨c, w⟩ := p
    have hc : c ≠ a := by
      intro e
      simp [RegFile.find, e] at h
    have hr : RegFile.find rest a = none := by simpa [RegFile.find, hc] using h
    by_cases h1 : a < c
    · simp [RegFile.insert, h1, RegFile.find]
    · simp [RegFile.insert, h1, RegFile.find, hc, ih hr]

theorem RegFile.find_insert_ne (rf : RegFile) (a b : Nat) (v : Word) (h : a ≠ b) :
    (rf.insert a v).find b = rf.find b := by
  induction rf with
  | nil => simp [RegFile.insert, RegFile.find, h]
  | cons p rest ih =>
    obtain ⟨c, w⟩ := p
    by_cases h1 : a < c
    · simp [RegFile.insert, h1, RegFile.find, h]
    · simp [RegFile.insert, h1, RegFile.find, ih]

/-- A register reads the word written to it. -/
@[simp] theorem RegFile.get_set_same (rf : RegFile) (a : Nat) (v : Word) : (rf.set a v).get a = v := by
  by_cases h : v = resetWord a
  · simp [RegFile.set, RegFile.get, h, RegFile.find_erase_same]
  · simp [RegFile.set, RegFile.get, h, RegFile.find_insert_same _ _ _ (RegFile.find_erase_same rf a)]

/-- Every other register reads as before. -/
theorem RegFile.get_set_ne (rf : RegFile) (a b : Nat) (v : Word) (h : a ≠ b) : (rf.set a v).get b = rf.get b := by
  by_cases e : v = resetWord a
  · simp [RegFile.set, RegFile.get, e, RegFile.find_erase_ne _ _ _ h]
  · simp [RegFile.set, RegFile.get, e, RegFile.find_insert_ne _ _ _ _ h, RegFile.find_erase_ne _ _ _ h]

theorem RegFile.sortedFrom_mono {n m : Nat} (h : n ≤ m) :
    ∀ {rf : RegFile}, RegFile.sortedFrom m rf = true → RegFile.sortedFrom n rf = true
  | [], _ => rfl
  | (b, v) :: rest, hs => by
    simp only [RegFile.sortedFrom, Bool.and_eq_true, decide_eq_true_eq] at hs ⊢
    exact ⟨by omega, hs.2⟩

theorem RegFile.sorted_erase (a : Nat) : ∀ (n : Nat) (rf : RegFile), RegFile.sortedFrom n rf = true →
    RegFile.sortedFrom n (rf.erase a) = true
  | _, [], _ => rfl
  | n, (b, v) :: rest, hs => by
    simp only [RegFile.sortedFrom, Bool.and_eq_true, decide_eq_true_eq] at hs
    have ih := RegFile.sorted_erase a (b + 1) rest hs.2
    by_cases h : b = a
    · simpa [RegFile.erase, h] using RegFile.sortedFrom_mono (by omega : n ≤ b + 1) ih
    · simp [RegFile.erase, h, RegFile.sortedFrom, hs.1, ih]

theorem RegFile.sorted_insert (a : Nat) (v : Word) : ∀ (n : Nat) (rf : RegFile), n ≤ a → rf.find a = none →
    RegFile.sortedFrom n rf = true → RegFile.sortedFrom n (rf.insert a v) = true
  | n, [], hn, _, _ => by simp [RegFile.insert, RegFile.sortedFrom, hn]
  | n, (b, w) :: rest, hn, hf, hs => by
    simp only [RegFile.sortedFrom, Bool.and_eq_true, decide_eq_true_eq] at hs
    have hb : b ≠ a := by
      intro e
      simp [RegFile.find, e] at hf
    have hr : RegFile.find rest a = none := by simpa [RegFile.find, hb] using hf
    by_cases h : a < b
    · simp [RegFile.insert, h, RegFile.sortedFrom, hn, hs.2, Nat.succ_le_of_lt h]
    · have ih := RegFile.sorted_insert a v (b + 1) rest (by omega) hr hs.2
      simp [RegFile.insert, h, RegFile.sortedFrom, hs.1, ih]

theorem RegFile.tight_erase (a : Nat) : ∀ rf : RegFile, rf.tight = true → (rf.erase a).tight = true
  | [], _ => rfl
  | (b, v) :: rest, h => by
    simp only [RegFile.tight, Bool.and_eq_true, decide_eq_true_eq] at h
    have ih := RegFile.tight_erase a rest h.2
    by_cases e : b = a
    · simp [RegFile.erase, e, ih]
    · simp [RegFile.erase, e, RegFile.tight, h.1, ih]

theorem RegFile.tight_insert (a : Nat) (v : Word) (hv : v ≠ resetWord a) : ∀ rf : RegFile, rf.tight = true →
    (rf.insert a v).tight = true
  | [], _ => by simp [RegFile.insert, RegFile.tight, hv]
  | (b, w) :: rest, h => by
    simp only [RegFile.tight, Bool.and_eq_true, decide_eq_true_eq] at h
    have ih := RegFile.tight_insert a v hv rest h.2
    by_cases e : a < b
    · simp [RegFile.insert, e, RegFile.tight, hv, h.1, h.2]
    · simp [RegFile.insert, e, RegFile.tight, h.1, ih]

/-- A write keeps the canonical form. -/
theorem RegFile.wf_set (rf : RegFile) (a : Nat) (v : Word) (h : rf.wf = true) : (rf.set a v).wf = true := by
  simp only [RegFile.wf, Bool.and_eq_true] at h ⊢
  unfold RegFile.set
  split
  · exact ⟨RegFile.sorted_erase a 0 rf h.1, RegFile.tight_erase a rf h.2⟩
  · rename_i hv
    exact ⟨RegFile.sorted_insert a v 0 _ (by omega) (RegFile.find_erase_same rf a) (RegFile.sorted_erase a 0 rf h.1),
      RegFile.tight_insert a v hv _ (RegFile.tight_erase a rf h.2)⟩

theorem RegFile.wf_setFld (rf : RegFile) (a : Nat) (f : Fld) (x : Nat) (h : rf.wf = true) : (rf.setFld a f x).wf = true :=
  RegFile.wf_set _ _ _ h

theorem RegFile.sorted_resetWhere (p : Nat → Bool) : ∀ (n : Nat) (rf : RegFile), RegFile.sortedFrom n rf = true →
    RegFile.sortedFrom n (rf.resetWhere p) = true
  | _, [], _ => rfl
  | n, (b, v) :: rest, hs => by
    simp only [RegFile.sortedFrom, Bool.and_eq_true, decide_eq_true_eq] at hs
    have ih := RegFile.sorted_resetWhere p (b + 1) rest hs.2
    by_cases h : p b = true
    · simpa [RegFile.resetWhere, h] using RegFile.sortedFrom_mono (by omega : n ≤ b + 1) ih
    · simp [RegFile.resetWhere, h, RegFile.sortedFrom, hs.1, ih]

theorem RegFile.tight_resetWhere (p : Nat → Bool) : ∀ rf : RegFile, rf.tight = true → (rf.resetWhere p).tight = true
  | [], _ => rfl
  | (b, v) :: rest, h => by
    simp only [RegFile.tight, Bool.and_eq_true, decide_eq_true_eq] at h
    have ih := RegFile.tight_resetWhere p rest h.2
    by_cases e : p b = true
    · simp [RegFile.resetWhere, e, ih]
    · simp [RegFile.resetWhere, e, RegFile.tight, h.1, ih]

/-- A reset of some registers keeps the canonical form. -/
theorem RegFile.wf_resetWhere (p : Nat → Bool) (rf : RegFile) (h : rf.wf = true) : (rf.resetWhere p).wf = true := by
  simp only [RegFile.wf, Bool.and_eq_true] at h ⊢
  exact ⟨RegFile.sorted_resetWhere p 0 rf h.1, RegFile.tight_resetWhere p rf h.2⟩

theorem RegFile.filter_eq (p : Nat → Bool) : ∀ rf : RegFile, rf.filter (fun c => p c.1) = rf.resetWhere (fun a => !p a)
  | [] => rfl
  | (b, v) :: rest => by
    have ih := RegFile.filter_eq p rest
    cases h : p b <;> simp [List.filter, RegFile.resetWhere, h, ← ih]

/-- A part of the registers keeps the canonical form. -/
theorem RegFile.wf_filter (p : Nat → Bool) (rf : RegFile) (h : rf.wf = true) :
    RegFile.wf (rf.filter (fun c => p c.1)) = true := by
  rw [RegFile.filter_eq]
  exact RegFile.wf_resetWhere _ rf h

theorem RegFile.find_resetWhere (p : Nat → Bool) (rf : RegFile) (a : Nat) :
    (rf.resetWhere p).find a = if p a then none else rf.find a := by
  induction rf with
  | nil => simp [RegFile.resetWhere, RegFile.find]
  | cons q rest ih =>
    obtain ⟨b, v⟩ := q
    by_cases hp : p b = true
    · by_cases hb : b = a
      · subst hb
        simp [RegFile.resetWhere, hp, ih]
      · simp [RegFile.resetWhere, hp, ih, RegFile.find, hb]
    · by_cases hb : b = a
      · subst hb
        simp [RegFile.resetWhere, hp, RegFile.find]
      · simp [RegFile.resetWhere, hp, ih, RegFile.find, hb]

/-- What a reset of some registers leaves: those read their reset words, every other one reads as before. -/
theorem RegFile.get_resetWhere (p : Nat → Bool) (rf : RegFile) (a : Nat) :
    (rf.resetWhere p).get a = if p a then resetWord a else rf.get a := by
  unfold RegFile.get
  rw [RegFile.find_resetWhere]
  split <;> simp_all

/-! ### Byte memories -/

theorem Mem.get_erase_same (d : Byte) (m : Mem) (a : Nat) : Mem.get d (m.erase a) a = d := by
  induction m with
  | nil => rfl
  | cons p rest ih =>
    obtain ⟨b, v⟩ := p
    by_cases h : b = a
    · simp [Mem.erase, h, ih]
    · simp [Mem.erase, h, Mem.get, ih]

theorem Mem.get_erase_ne (d : Byte) (m : Mem) (a b : Nat) (h : a ≠ b) : Mem.get d (m.erase a) b = Mem.get d m b := by
  induction m with
  | nil => rfl
  | cons p rest ih =>
    obtain ⟨c, v⟩ := p
    by_cases h1 : c = a
    · simp [Mem.erase, h1, ih, Mem.get, h]
    · simp [Mem.erase, h1, Mem.get, ih]

/-- No entry of a memory stands at an address. -/
def Mem.absent (m : Mem) (a : Nat) : Bool := m.all (fun p => p.1 != a)

theorem Mem.absent_erase (m : Mem) (a : Nat) : Mem.absent (m.erase a) a = true := by
  induction m with
  | nil => rfl
  | cons p rest ih =>
    obtain ⟨b, v⟩ := p
    by_cases h : b = a
    · simpa [Mem.erase, h] using ih
    · simp only [Mem.absent] at ih
      simp [Mem.erase, h, Mem.absent, ih]

theorem Mem.get_insert_same (d : Byte) (m : Mem) (a : Nat) (v : Byte) (h : Mem.absent m a = true) :
    Mem.get d (m.insert a v) a = v := by
  induction m with
  | nil => simp [Mem.insert, Mem.get]
  | cons p rest ih =>
    obtain ⟨c, w⟩ := p
    simp only [Mem.absent, List.all_cons, Bool.and_eq_true, bne_iff_ne] at h
    by_cases h1 : a < c
    · simp [Mem.insert, h1, Mem.get]
    · simp [Mem.insert, h1, Mem.get, h.1, ih h.2]

theorem Mem.get_insert_ne (d : Byte) (m : Mem) (a b : Nat) (v : Byte) (h : a ≠ b) :
    Mem.get d (m.insert a v) b = Mem.get d m b := by
  induction m with
  | nil => simp [Mem.insert, Mem.get, h]
  | cons p rest ih =>
    obtain ⟨c, w⟩ := p
    by_cases h1 : a < c
    · simp [Mem.insert, h1, Mem.get, h]
    · simp [Mem.insert, h1, Mem.get, ih]

/-- A byte reads as written. -/
@[simp] theorem Mem.get_set_same (d : Byte) (m : Mem) (a : Nat) (v : Byte) : Mem.get d (m.set d a v) a = v := by
  unfold Mem.set
  split
  · rename_i h
    rw [h, Mem.get_erase_same]
  · exact Mem.get_insert_same d _ a v (Mem.absent_erase m a)

/-- Every other byte reads as before. -/
theorem Mem.get_set_ne (d : Byte) (m : Mem) (a b : Nat) (v : Byte) (h : a ≠ b) :
    Mem.get d (m.set d a v) b = Mem.get d m b := by
  unfold Mem.set
  split
  · exact Mem.get_erase_ne d m a b h
  · rw [Mem.get_insert_ne _ _ _ _ _ h, Mem.get_erase_ne _ _ _ _ h]

/-- A byte outside the written ones reads as before. -/
theorem Mem.get_setMany_out (d : Byte) : ∀ (bs : List Byte) (m : Mem) (a b : Nat), b < a ∨ a + bs.length ≤ b →
    Mem.get d (Mem.setMany d m a bs) b = Mem.get d m b
  | [], _, _, _, _ => rfl
  | v :: vs, m, a, b, h => by
    simp only [List.length_cons] at h
    have ih := Mem.get_setMany_out d vs (m.set d a v) (a + 1) b (by omega)
    rw [Mem.setMany, ih, Mem.get_set_ne d m a b v (by omega)]

/-- A written byte reads as written. -/
theorem Mem.get_setMany_in (d : Byte) : ∀ (bs : List Byte) (m : Mem) (a i : Nat), i < bs.length →
    Mem.get d (Mem.setMany d m a bs) (a + i) = bs.getD i 0
  | [], _, _, i, h => by simp at h
  | v :: vs, m, a, 0, _ => by
    rw [Mem.setMany, Mem.get_setMany_out d vs _ (a + 1) (a + 0) (by omega)]
    simp
  | v :: vs, m, a, i + 1, h => by
    have ih := Mem.get_setMany_in d vs (m.set d a v) (a + 1) i (by simpa using h)
    rw [Mem.setMany, show a + (i + 1) = a + 1 + i by omega, ih]
    simp

theorem Mem.sortedFrom_mono {n k : Nat} (h : n ≤ k) :
    ∀ {m : Mem}, Mem.sortedFrom k m = true → Mem.sortedFrom n m = true
  | [], _ => rfl
  | (b, v) :: rest, hs => by
    simp only [Mem.sortedFrom, Bool.and_eq_true, decide_eq_true_eq] at hs ⊢
    exact ⟨by omega, hs.2⟩

theorem Mem.sorted_erase (a : Nat) : ∀ (n : Nat) (m : Mem), Mem.sortedFrom n m = true → Mem.sortedFrom n (m.erase a) = true
  | _, [], _ => rfl
  | n, (b, v) :: rest, hs => by
    simp only [Mem.sortedFrom, Bool.and_eq_true, decide_eq_true_eq] at hs
    have ih := Mem.sorted_erase a (b + 1) rest hs.2
    by_cases h : b = a
    · simpa [Mem.erase, h] using Mem.sortedFrom_mono (by omega : n ≤ b + 1) ih
    · simp [Mem.erase, h, Mem.sortedFrom, hs.1, ih]

theorem Mem.sorted_insert (a : Nat) (v : Byte) : ∀ (n : Nat) (m : Mem), n ≤ a → Mem.absent m a = true →
    Mem.sortedFrom n m = true → Mem.sortedFrom n (m.insert a v) = true
  | n, [], hn, _, _ => by simp [Mem.insert, Mem.sortedFrom, hn]
  | n, (b, w) :: rest, hn, hf, hs => by
    simp only [Mem.sortedFrom, Bool.and_eq_true, decide_eq_true_eq] at hs
    simp only [Mem.absent, List.all_cons, Bool.and_eq_true, bne_iff_ne] at hf
    by_cases h : a < b
    · simp [Mem.insert, h, Mem.sortedFrom, hn, hs.2, Nat.succ_le_of_lt h]
    · have ih := Mem.sorted_insert a v (b + 1) rest (by have := hf.1; omega) hf.2 hs.2
      simp [Mem.insert, h, Mem.sortedFrom, hs.1, ih]

theorem Mem.tight_erase (d : Byte) (a : Nat) : ∀ m : Mem, m.tight d = true → Mem.tight d (m.erase a) = true
  | [], _ => rfl
  | (b, v) :: rest, h => by
    simp only [Mem.tight, Bool.and_eq_true, decide_eq_true_eq] at h
    have ih := Mem.tight_erase d a rest h.2
    by_cases e : b = a
    · simp [Mem.erase, e, ih]
    · simp [Mem.erase, e, Mem.tight, h.1, ih]

theorem Mem.tight_insert (d : Byte) (a : Nat) (v : Byte) (hv : v ≠ d) : ∀ m : Mem, m.tight d = true →
    Mem.tight d (m.insert a v) = true
  | [], _ => by simp [Mem.insert, Mem.tight, hv]
  | (b, w) :: rest, h => by
    simp only [Mem.tight, Bool.and_eq_true, decide_eq_true_eq] at h
    have ih := Mem.tight_insert d a v hv rest h.2
    by_cases e : a < b
    · simp [Mem.insert, e, Mem.tight, hv, h.1, h.2]
    · simp [Mem.insert, e, Mem.tight, h.1, ih]

/-- A write of one byte keeps the canonical form. -/
theorem Mem.wf_set (d : Byte) (m : Mem) (a : Nat) (v : Byte) (h : Mem.wf d m = true) : Mem.wf d (m.set d a v) = true := by
  simp only [Mem.wf, Bool.and_eq_true] at h ⊢
  unfold Mem.set
  split
  · exact ⟨Mem.sorted_erase a 0 m h.1, Mem.tight_erase d a m h.2⟩
  · rename_i hv
    exact ⟨Mem.sorted_insert a v 0 _ (by omega) (Mem.absent_erase m a) (Mem.sorted_erase a 0 m h.1),
      Mem.tight_insert d a v hv _ (Mem.tight_erase d a m h.2)⟩

/-- A write of bytes keeps the canonical form. -/
theorem Mem.wf_setMany (d : Byte) : ∀ (bs : List Byte) (m : Mem) (a : Nat), Mem.wf d m = true →
    Mem.wf d (Mem.setMany d m a bs) = true
  | [], _, _, h => h
  | v :: vs, m, a, h => Mem.wf_setMany d vs _ (a + 1) (Mem.wf_set d m a v h)

theorem leBytes_length : ∀ n x : Nat, (leBytes n x).length = n
  | 0, _ => rfl
  | n + 1, x => by simp [leBytes, leBytes_length n]

/-- Little-endian bytes spell the number they were made from. -/
theorem leNat_leBytes : ∀ n x : Nat, leNat (leBytes n x) = x % 256 ^ n
  | 0, x => by simp [leBytes, leNat, Nat.mod_one]
  | n + 1, x => by
    simp only [leBytes, leNat, leNat_leBytes n, BitVec.toNat_ofNat]
    rw [show 256 ^ (n + 1) = 256 * 256 ^ n from by rw [Nat.pow_succ, Nat.mul_comm], Nat.mod_mul]

end Machine

end Sys2Proof
end

