-- ==== Sys2Proof/Laws/State.lean ====
section
/-!
SUPPORT. One lemma for each field of State under each plain update of it.
-/
namespace Sys2Proof.Machine

/-! ### State.wr -/

@[simp] theorem State.wr_mirror (s : State) (a : Nat) (v : Word) : (s.wr a v).mirror = s.mirror := rfl
@[simp] theorem State.wr_window (s : State) (a : Nat) (v : Word) : (s.wr a v).window = s.window := rfl
@[simp] theorem State.wr_clk (s : State) (a : Nat) (v : Word) : (s.wr a v).clk = s.clk := rfl
@[simp] theorem State.wr_link (s : State) (a : Nat) (v : Word) : (s.wr a v).link = s.link := rfl
@[simp] theorem State.wr_col (s : State) (a : Nat) (v : Word) : (s.wr a v).col = s.col := rfl
@[simp] theorem State.wr_host (s : State) (a : Nat) (v : Word) : (s.wr a v).host = s.host := rfl
@[simp] theorem State.wr_stage (s : State) (a : Nat) (v : Word) : (s.wr a v).stage = s.stage := rfl
@[simp] theorem State.wr_locks (s : State) (a : Nat) (v : Word) : (s.wr a v).locks = s.locks := rfl
@[simp] theorem State.wr_err (s : State) (a : Nat) (v : Word) : (s.wr a v).err = s.err := rfl
@[simp] theorem State.wr_power (s : State) (a : Nat) (v : Word) : (s.wr a v).power = s.power := rfl
@[simp] theorem State.wr_flash (s : State) (a : Nat) (v : Word) : (s.wr a v).flash = s.flash := rfl
@[simp] theorem State.wr_fe (s : State) (a : Nat) (v : Word) : (s.wr a v).fe = s.fe := rfl
@[simp] theorem State.wr_sap (s : State) (a : Nat) (v : Word) : (s.wr a v).sap = s.sap := rfl
@[simp] theorem State.wr_mp (s : State) (a : Nat) (v : Word) : (s.wr a v).mp = s.mp := rfl
@[simp] theorem State.wr_outs (s : State) (a : Nat) (v : Word) : (s.wr a v).outs = s.outs := rfl
@[simp] theorem State.wr_tth (s : State) (a : Nat) (v : Word) : (s.wr a v).tth = s.tth := rfl
@[simp] theorem State.wr_lsn (s : State) (a : Nat) (v : Word) : (s.wr a v).lsn = s.lsn := rfl
@[simp] theorem State.wr_sns (s : State) (a : Nat) (v : Word) : (s.wr a v).sns = s.sns := rfl
@[simp] theorem State.wr_eng (s : State) (a : Nat) (v : Word) : (s.wr a v).eng = s.eng := rfl
@[simp] theorem State.wr_net (s : State) (a : Nat) (v : Word) : (s.wr a v).net = s.net := rfl
@[simp] theorem State.wr_metro (s : State) (a : Nat) (v : Word) : (s.wr a v).metro = s.metro := rfl
@[simp] theorem State.wr_test (s : State) (a : Nat) (v : Word) : (s.wr a v).test = s.test := rfl
@[simp] theorem State.wr_sig (s : State) (a : Nat) (v : Word) : (s.wr a v).sig = s.sig := rfl
@[simp] theorem State.wr_snap (s : State) (a : Nat) (v : Word) : (s.wr a v).snap = s.snap := rfl
@[simp] theorem State.wr_out (s : State) (a : Nat) (v : Word) : (s.wr a v).out = s.out := rfl
@[simp] theorem State.wr_free (s : State) (a : Nat) (v : Word) : (s.wr a v).free = s.free := rfl
@[simp] theorem State.wr_pending (s : State) (a : Nat) (v : Word) : (s.wr a v).pending = s.pending := rfl

/-! ### State.setF -/

@[simp] theorem State.setF_mirror (s : State) (a : Nat) (f : Fld) (x : Nat) : (s.setF a f x).mirror = s.mirror := rfl
@[simp] theorem State.setF_window (s : State) (a : Nat) (f : Fld) (x : Nat) : (s.setF a f x).window = s.window := rfl
@[simp] theorem State.setF_clk (s : State) (a : Nat) (f : Fld) (x : Nat) : (s.setF a f x).clk = s.clk := rfl
@[simp] theorem State.setF_link (s : State) (a : Nat) (f : Fld) (x : Nat) : (s.setF a f x).link = s.link := rfl
@[simp] theorem State.setF_col (s : State) (a : Nat) (f : Fld) (x : Nat) : (s.setF a f x).col = s.col := rfl
@[simp] theorem State.setF_host (s : State) (a : Nat) (f : Fld) (x : Nat) : (s.setF a f x).host = s.host := rfl
@[simp] theorem State.setF_stage (s : State) (a : Nat) (f : Fld) (x : Nat) : (s.setF a f x).stage = s.stage := rfl
@[simp] theorem State.setF_locks (s : State) (a : Nat) (f : Fld) (x : Nat) : (s.setF a f x).locks = s.locks := rfl
@[simp] theorem State.setF_err (s : State) (a : Nat) (f : Fld) (x : Nat) : (s.setF a f x).err = s.err := rfl
@[simp] theorem State.setF_power (s : State) (a : Nat) (f : Fld) (x : Nat) : (s.setF a f x).power = s.power := rfl
@[simp] theorem State.setF_flash (s : State) (a : Nat) (f : Fld) (x : Nat) : (s.setF a f x).flash = s.flash := rfl
@[simp] theorem State.setF_fe (s : State) (a : Nat) (f : Fld) (x : Nat) : (s.setF a f x).fe = s.fe := rfl
@[simp] theorem State.setF_sap (s : State) (a : Nat) (f : Fld) (x : Nat) : (s.setF a f x).sap = s.sap := rfl
@[simp] theorem State.setF_mp (s : State) (a : Nat) (f : Fld) (x : Nat) : (s.setF a f x).mp = s.mp := rfl
@[simp] theorem State.setF_outs (s : State) (a : Nat) (f : Fld) (x : Nat) : (s.setF a f x).outs = s.outs := rfl
@[simp] theorem State.setF_tth (s : State) (a : Nat) (f : Fld) (x : Nat) : (s.setF a f x).tth = s.tth := rfl
@[simp] theorem State.setF_lsn (s : State) (a : Nat) (f : Fld) (x : Nat) : (s.setF a f x).lsn = s.lsn := rfl
@[simp] theorem State.setF_sns (s : State) (a : Nat) (f : Fld) (x : Nat) : (s.setF a f x).sns = s.sns := rfl
@[simp] theorem State.setF_eng (s : State) (a : Nat) (f : Fld) (x : Nat) : (s.setF a f x).eng = s.eng := rfl
@[simp] theorem State.setF_net (s : State) (a : Nat) (f : Fld) (x : Nat) : (s.setF a f x).net = s.net := rfl
@[simp] theorem State.setF_metro (s : State) (a : Nat) (f : Fld) (x : Nat) : (s.setF a f x).metro = s.metro := rfl
@[simp] theorem State.setF_test (s : State) (a : Nat) (f : Fld) (x : Nat) : (s.setF a f x).test = s.test := rfl
@[simp] theorem State.setF_sig (s : State) (a : Nat) (f : Fld) (x : Nat) : (s.setF a f x).sig = s.sig := rfl
@[simp] theorem State.setF_snap (s : State) (a : Nat) (f : Fld) (x : Nat) : (s.setF a f x).snap = s.snap := rfl
@[simp] theorem State.setF_out (s : State) (a : Nat) (f : Fld) (x : Nat) : (s.setF a f x).out = s.out := rfl
@[simp] theorem State.setF_free (s : State) (a : Nat) (f : Fld) (x : Nat) : (s.setF a f x).free = s.free := rfl
@[simp] theorem State.setF_pending (s : State) (a : Nat) (f : Fld) (x : Nat) : (s.setF a f x).pending = s.pending := rfl

/-! ### State.addSat -/

@[simp] theorem State.addSat_mirror (s : State) (a : Nat) (f : Fld) (n : Nat) : (s.addSat a f n).mirror = s.mirror := rfl
@[simp] theorem State.addSat_window (s : State) (a : Nat) (f : Fld) (n : Nat) : (s.addSat a f n).window = s.window := rfl
@[simp] theorem State.addSat_clk (s : State) (a : Nat) (f : Fld) (n : Nat) : (s.addSat a f n).clk = s.clk := rfl
@[simp] theorem State.addSat_link (s : State) (a : Nat) (f : Fld) (n : Nat) : (s.addSat a f n).link = s.link := rfl
@[simp] theorem State.addSat_col (s : State) (a : Nat) (f : Fld) (n : Nat) : (s.addSat a f n).col = s.col := rfl
@[simp] theorem State.addSat_host (s : State) (a : Nat) (f : Fld) (n : Nat) : (s.addSat a f n).host = s.host := rfl
@[simp] theorem State.addSat_stage (s : State) (a : Nat) (f : Fld) (n : Nat) : (s.addSat a f n).stage = s.stage := rfl
@[simp] theorem State.addSat_locks (s : State) (a : Nat) (f : Fld) (n : Nat) : (s.addSat a f n).locks = s.locks := rfl
@[simp] theorem State.addSat_err (s : State) (a : Nat) (f : Fld) (n : Nat) : (s.addSat a f n).err = s.err := rfl
@[simp] theorem State.addSat_power (s : State) (a : Nat) (f : Fld) (n : Nat) : (s.addSat a f n).power = s.power := rfl
@[simp] theorem State.addSat_flash (s : State) (a : Nat) (f : Fld) (n : Nat) : (s.addSat a f n).flash = s.flash := rfl
@[simp] theorem State.addSat_fe (s : State) (a : Nat) (f : Fld) (n : Nat) : (s.addSat a f n).fe = s.fe := rfl
@[simp] theorem State.addSat_sap (s : State) (a : Nat) (f : Fld) (n : Nat) : (s.addSat a f n).sap = s.sap := rfl
@[simp] theorem State.addSat_mp (s : State) (a : Nat) (f : Fld) (n : Nat) : (s.addSat a f n).mp = s.mp := rfl
@[simp] theorem State.addSat_outs (s : State) (a : Nat) (f : Fld) (n : Nat) : (s.addSat a f n).outs = s.outs := rfl
@[simp] theorem State.addSat_tth (s : State) (a : Nat) (f : Fld) (n : Nat) : (s.addSat a f n).tth = s.tth := rfl
@[simp] theorem State.addSat_lsn (s : State) (a : Nat) (f : Fld) (n : Nat) : (s.addSat a f n).lsn = s.lsn := rfl
@[simp] theorem State.addSat_sns (s : State) (a : Nat) (f : Fld) (n : Nat) : (s.addSat a f n).sns = s.sns := rfl
@[simp] theorem State.addSat_eng (s : State) (a : Nat) (f : Fld) (n : Nat) : (s.addSat a f n).eng = s.eng := rfl
@[simp] theorem State.addSat_net (s : State) (a : Nat) (f : Fld) (n : Nat) : (s.addSat a f n).net = s.net := rfl
@[simp] theorem State.addSat_metro (s : State) (a : Nat) (f : Fld) (n : Nat) : (s.addSat a f n).metro = s.metro := rfl
@[simp] theorem State.addSat_test (s : State) (a : Nat) (f : Fld) (n : Nat) : (s.addSat a f n).test = s.test := rfl
@[simp] theorem State.addSat_sig (s : State) (a : Nat) (f : Fld) (n : Nat) : (s.addSat a f n).sig = s.sig := rfl
@[simp] theorem State.addSat_snap (s : State) (a : Nat) (f : Fld) (n : Nat) : (s.addSat a f n).snap = s.snap := rfl
@[simp] theorem State.addSat_out (s : State) (a : Nat) (f : Fld) (n : Nat) : (s.addSat a f n).out = s.out := rfl
@[simp] theorem State.addSat_free (s : State) (a : Nat) (f : Fld) (n : Nat) : (s.addSat a f n).free = s.free := rfl
@[simp] theorem State.addSat_pending (s : State) (a : Nat) (f : Fld) (n : Nat) : (s.addSat a f n).pending = s.pending := rfl

/-! ### State.incSat -/

@[simp] theorem State.incSat_mirror (s : State) (a : Nat) (f : Fld) : (s.incSat a f).mirror = s.mirror := rfl
@[simp] theorem State.incSat_window (s : State) (a : Nat) (f : Fld) : (s.incSat a f).window = s.window := rfl
@[simp] theorem State.incSat_clk (s : State) (a : Nat) (f : Fld) : (s.incSat a f).clk = s.clk := rfl
@[simp] theorem State.incSat_link (s : State) (a : Nat) (f : Fld) : (s.incSat a f).link = s.link := rfl
@[simp] theorem State.incSat_col (s : State) (a : Nat) (f : Fld) : (s.incSat a f).col = s.col := rfl
@[simp] theorem State.incSat_host (s : State) (a : Nat) (f : Fld) : (s.incSat a f).host = s.host := rfl
@[simp] theorem State.incSat_stage (s : State) (a : Nat) (f : Fld) : (s.incSat a f).stage = s.stage := rfl
@[simp] theorem State.incSat_locks (s : State) (a : Nat) (f : Fld) : (s.incSat a f).locks = s.locks := rfl
@[simp] theorem State.incSat_err (s : State) (a : Nat) (f : Fld) : (s.incSat a f).err = s.err := rfl
@[simp] theorem State.incSat_power (s : State) (a : Nat) (f : Fld) : (s.incSat a f).power = s.power := rfl
@[simp] theorem State.incSat_flash (s : State) (a : Nat) (f : Fld) : (s.incSat a f).flash = s.flash := rfl
@[simp] theorem State.incSat_fe (s : State) (a : Nat) (f : Fld) : (s.incSat a f).fe = s.fe := rfl
@[simp] theorem State.incSat_sap (s : State) (a : Nat) (f : Fld) : (s.incSat a f).sap = s.sap := rfl
@[simp] theorem State.incSat_mp (s : State) (a : Nat) (f : Fld) : (s.incSat a f).mp = s.mp := rfl
@[simp] theorem State.incSat_outs (s : State) (a : Nat) (f : Fld) : (s.incSat a f).outs = s.outs := rfl
@[simp] theorem State.incSat_tth (s : State) (a : Nat) (f : Fld) : (s.incSat a f).tth = s.tth := rfl
@[simp] theorem State.incSat_lsn (s : State) (a : Nat) (f : Fld) : (s.incSat a f).lsn = s.lsn := rfl
@[simp] theorem State.incSat_sns (s : State) (a : Nat) (f : Fld) : (s.incSat a f).sns = s.sns := rfl
@[simp] theorem State.incSat_eng (s : State) (a : Nat) (f : Fld) : (s.incSat a f).eng = s.eng := rfl
@[simp] theorem State.incSat_net (s : State) (a : Nat) (f : Fld) : (s.incSat a f).net = s.net := rfl
@[simp] theorem State.incSat_metro (s : State) (a : Nat) (f : Fld) : (s.incSat a f).metro = s.metro := rfl
@[simp] theorem State.incSat_test (s : State) (a : Nat) (f : Fld) : (s.incSat a f).test = s.test := rfl
@[simp] theorem State.incSat_sig (s : State) (a : Nat) (f : Fld) : (s.incSat a f).sig = s.sig := rfl
@[simp] theorem State.incSat_snap (s : State) (a : Nat) (f : Fld) : (s.incSat a f).snap = s.snap := rfl
@[simp] theorem State.incSat_out (s : State) (a : Nat) (f : Fld) : (s.incSat a f).out = s.out := rfl
@[simp] theorem State.incSat_free (s : State) (a : Nat) (f : Fld) : (s.incSat a f).free = s.free := rfl
@[simp] theorem State.incSat_pending (s : State) (a : Nat) (f : Fld) : (s.incSat a f).pending = s.pending := rfl

/-! ### State.incWrap -/

@[simp] theorem State.incWrap_mirror (s : State) (a : Nat) (f : Fld) : (s.incWrap a f).mirror = s.mirror := rfl
@[simp] theorem State.incWrap_window (s : State) (a : Nat) (f : Fld) : (s.incWrap a f).window = s.window := rfl
@[simp] theorem State.incWrap_clk (s : State) (a : Nat) (f : Fld) : (s.incWrap a f).clk = s.clk := rfl
@[simp] theorem State.incWrap_link (s : State) (a : Nat) (f : Fld) : (s.incWrap a f).link = s.link := rfl
@[simp] theorem State.incWrap_col (s : State) (a : Nat) (f : Fld) : (s.incWrap a f).col = s.col := rfl
@[simp] theorem State.incWrap_host (s : State) (a : Nat) (f : Fld) : (s.incWrap a f).host = s.host := rfl
@[simp] theorem State.incWrap_stage (s : State) (a : Nat) (f : Fld) : (s.incWrap a f).stage = s.stage := rfl
@[simp] theorem State.incWrap_locks (s : State) (a : Nat) (f : Fld) : (s.incWrap a f).locks = s.locks := rfl
@[simp] theorem State.incWrap_err (s : State) (a : Nat) (f : Fld) : (s.incWrap a f).err = s.err := rfl
@[simp] theorem State.incWrap_power (s : State) (a : Nat) (f : Fld) : (s.incWrap a f).power = s.power := rfl
@[simp] theorem State.incWrap_flash (s : State) (a : Nat) (f : Fld) : (s.incWrap a f).flash = s.flash := rfl
@[simp] theorem State.incWrap_fe (s : State) (a : Nat) (f : Fld) : (s.incWrap a f).fe = s.fe := rfl
@[simp] theorem State.incWrap_sap (s : State) (a : Nat) (f : Fld) : (s.incWrap a f).sap = s.sap := rfl
@[simp] theorem State.incWrap_mp (s : State) (a : Nat) (f : Fld) : (s.incWrap a f).mp = s.mp := rfl
@[simp] theorem State.incWrap_outs (s : State) (a : Nat) (f : Fld) : (s.incWrap a f).outs = s.outs := rfl
@[simp] theorem State.incWrap_tth (s : State) (a : Nat) (f : Fld) : (s.incWrap a f).tth = s.tth := rfl
@[simp] theorem State.incWrap_lsn (s : State) (a : Nat) (f : Fld) : (s.incWrap a f).lsn = s.lsn := rfl
@[simp] theorem State.incWrap_sns (s : State) (a : Nat) (f : Fld) : (s.incWrap a f).sns = s.sns := rfl
@[simp] theorem State.incWrap_eng (s : State) (a : Nat) (f : Fld) : (s.incWrap a f).eng = s.eng := rfl
@[simp] theorem State.incWrap_net (s : State) (a : Nat) (f : Fld) : (s.incWrap a f).net = s.net := rfl
@[simp] theorem State.incWrap_metro (s : State) (a : Nat) (f : Fld) : (s.incWrap a f).metro = s.metro := rfl
@[simp] theorem State.incWrap_test (s : State) (a : Nat) (f : Fld) : (s.incWrap a f).test = s.test := rfl
@[simp] theorem State.incWrap_sig (s : State) (a : Nat) (f : Fld) : (s.incWrap a f).sig = s.sig := rfl
@[simp] theorem State.incWrap_snap (s : State) (a : Nat) (f : Fld) : (s.incWrap a f).snap = s.snap := rfl
@[simp] theorem State.incWrap_out (s : State) (a : Nat) (f : Fld) : (s.incWrap a f).out = s.out := rfl
@[simp] theorem State.incWrap_free (s : State) (a : Nat) (f : Fld) : (s.incWrap a f).free = s.free := rfl
@[simp] theorem State.incWrap_pending (s : State) (a : Nat) (f : Fld) : (s.incWrap a f).pending = s.pending := rfl

/-! ### State.setPair -/

@[simp] theorem State.setPair_mirror (s : State) (lo hi x : Nat) : (s.setPair lo hi x).mirror = s.mirror := rfl
@[simp] theorem State.setPair_window (s : State) (lo hi x : Nat) : (s.setPair lo hi x).window = s.window := rfl
@[simp] theorem State.setPair_clk (s : State) (lo hi x : Nat) : (s.setPair lo hi x).clk = s.clk := rfl
@[simp] theorem State.setPair_link (s : State) (lo hi x : Nat) : (s.setPair lo hi x).link = s.link := rfl
@[simp] theorem State.setPair_col (s : State) (lo hi x : Nat) : (s.setPair lo hi x).col = s.col := rfl
@[simp] theorem State.setPair_host (s : State) (lo hi x : Nat) : (s.setPair lo hi x).host = s.host := rfl
@[simp] theorem State.setPair_stage (s : State) (lo hi x : Nat) : (s.setPair lo hi x).stage = s.stage := rfl
@[simp] theorem State.setPair_locks (s : State) (lo hi x : Nat) : (s.setPair lo hi x).locks = s.locks := rfl
@[simp] theorem State.setPair_err (s : State) (lo hi x : Nat) : (s.setPair lo hi x).err = s.err := rfl
@[simp] theorem State.setPair_power (s : State) (lo hi x : Nat) : (s.setPair lo hi x).power = s.power := rfl
@[simp] theorem State.setPair_flash (s : State) (lo hi x : Nat) : (s.setPair lo hi x).flash = s.flash := rfl
@[simp] theorem State.setPair_fe (s : State) (lo hi x : Nat) : (s.setPair lo hi x).fe = s.fe := rfl
@[simp] theorem State.setPair_sap (s : State) (lo hi x : Nat) : (s.setPair lo hi x).sap = s.sap := rfl
@[simp] theorem State.setPair_mp (s : State) (lo hi x : Nat) : (s.setPair lo hi x).mp = s.mp := rfl
@[simp] theorem State.setPair_outs (s : State) (lo hi x : Nat) : (s.setPair lo hi x).outs = s.outs := rfl
@[simp] theorem State.setPair_tth (s : State) (lo hi x : Nat) : (s.setPair lo hi x).tth = s.tth := rfl
@[simp] theorem State.setPair_lsn (s : State) (lo hi x : Nat) : (s.setPair lo hi x).lsn = s.lsn := rfl
@[simp] theorem State.setPair_sns (s : State) (lo hi x : Nat) : (s.setPair lo hi x).sns = s.sns := rfl
@[simp] theorem State.setPair_eng (s : State) (lo hi x : Nat) : (s.setPair lo hi x).eng = s.eng := rfl
@[simp] theorem State.setPair_net (s : State) (lo hi x : Nat) : (s.setPair lo hi x).net = s.net := rfl
@[simp] theorem State.setPair_metro (s : State) (lo hi x : Nat) : (s.setPair lo hi x).metro = s.metro := rfl
@[simp] theorem State.setPair_test (s : State) (lo hi x : Nat) : (s.setPair lo hi x).test = s.test := rfl
@[simp] theorem State.setPair_sig (s : State) (lo hi x : Nat) : (s.setPair lo hi x).sig = s.sig := rfl
@[simp] theorem State.setPair_snap (s : State) (lo hi x : Nat) : (s.setPair lo hi x).snap = s.snap := rfl
@[simp] theorem State.setPair_out (s : State) (lo hi x : Nat) : (s.setPair lo hi x).out = s.out := rfl
@[simp] theorem State.setPair_free (s : State) (lo hi x : Nat) : (s.setPair lo hi x).free = s.free := rfl
@[simp] theorem State.setPair_pending (s : State) (lo hi x : Nat) : (s.setPair lo hi x).pending = s.pending := rfl

/-! ### State.setBit -/

@[simp] theorem State.setBit_mirror (s : State) (a i : Nat) (b : Bool) : (s.setBit a i b).mirror = s.mirror := rfl
@[simp] theorem State.setBit_window (s : State) (a i : Nat) (b : Bool) : (s.setBit a i b).window = s.window := rfl
@[simp] theorem State.setBit_clk (s : State) (a i : Nat) (b : Bool) : (s.setBit a i b).clk = s.clk := rfl
@[simp] theorem State.setBit_link (s : State) (a i : Nat) (b : Bool) : (s.setBit a i b).link = s.link := rfl
@[simp] theorem State.setBit_col (s : State) (a i : Nat) (b : Bool) : (s.setBit a i b).col = s.col := rfl
@[simp] theorem State.setBit_host (s : State) (a i : Nat) (b : Bool) : (s.setBit a i b).host = s.host := rfl
@[simp] theorem State.setBit_stage (s : State) (a i : Nat) (b : Bool) : (s.setBit a i b).stage = s.stage := rfl
@[simp] theorem State.setBit_locks (s : State) (a i : Nat) (b : Bool) : (s.setBit a i b).locks = s.locks := rfl
@[simp] theorem State.setBit_err (s : State) (a i : Nat) (b : Bool) : (s.setBit a i b).err = s.err := rfl
@[simp] theorem State.setBit_power (s : State) (a i : Nat) (b : Bool) : (s.setBit a i b).power = s.power := rfl
@[simp] theorem State.setBit_flash (s : State) (a i : Nat) (b : Bool) : (s.setBit a i b).flash = s.flash := rfl
@[simp] theorem State.setBit_fe (s : State) (a i : Nat) (b : Bool) : (s.setBit a i b).fe = s.fe := rfl
@[simp] theorem State.setBit_sap (s : State) (a i : Nat) (b : Bool) : (s.setBit a i b).sap = s.sap := rfl
@[simp] theorem State.setBit_mp (s : State) (a i : Nat) (b : Bool) : (s.setBit a i b).mp = s.mp := rfl
@[simp] theorem State.setBit_outs (s : State) (a i : Nat) (b : Bool) : (s.setBit a i b).outs = s.outs := rfl
@[simp] theorem State.setBit_tth (s : State) (a i : Nat) (b : Bool) : (s.setBit a i b).tth = s.tth := rfl
@[simp] theorem State.setBit_lsn (s : State) (a i : Nat) (b : Bool) : (s.setBit a i b).lsn = s.lsn := rfl
@[simp] theorem State.setBit_sns (s : State) (a i : Nat) (b : Bool) : (s.setBit a i b).sns = s.sns := rfl
@[simp] theorem State.setBit_eng (s : State) (a i : Nat) (b : Bool) : (s.setBit a i b).eng = s.eng := rfl
@[simp] theorem State.setBit_net (s : State) (a i : Nat) (b : Bool) : (s.setBit a i b).net = s.net := rfl
@[simp] theorem State.setBit_metro (s : State) (a i : Nat) (b : Bool) : (s.setBit a i b).metro = s.metro := rfl
@[simp] theorem State.setBit_test (s : State) (a i : Nat) (b : Bool) : (s.setBit a i b).test = s.test := rfl
@[simp] theorem State.setBit_sig (s : State) (a i : Nat) (b : Bool) : (s.setBit a i b).sig = s.sig := rfl
@[simp] theorem State.setBit_snap (s : State) (a i : Nat) (b : Bool) : (s.setBit a i b).snap = s.snap := rfl
@[simp] theorem State.setBit_out (s : State) (a i : Nat) (b : Bool) : (s.setBit a i b).out = s.out := rfl
@[simp] theorem State.setBit_free (s : State) (a i : Nat) (b : Bool) : (s.setBit a i b).free = s.free := rfl
@[simp] theorem State.setBit_pending (s : State) (a i : Nat) (b : Bool) : (s.setBit a i b).pending = s.pending := rfl

/-! ### State.modRegs -/

@[simp] theorem State.modRegs_regs (s : State) (f : RegFile → RegFile) : (s.modRegs f).regs = f s.regs := rfl
@[simp] theorem State.modRegs_mirror (s : State) (f : RegFile → RegFile) : (s.modRegs f).mirror = s.mirror := rfl
@[simp] theorem State.modRegs_window (s : State) (f : RegFile → RegFile) : (s.modRegs f).window = s.window := rfl
@[simp] theorem State.modRegs_clk (s : State) (f : RegFile → RegFile) : (s.modRegs f).clk = s.clk := rfl
@[simp] theorem State.modRegs_link (s : State) (f : RegFile → RegFile) : (s.modRegs f).link = s.link := rfl
@[simp] theorem State.modRegs_col (s : State) (f : RegFile → RegFile) : (s.modRegs f).col = s.col := rfl
@[simp] theorem State.modRegs_host (s : State) (f : RegFile → RegFile) : (s.modRegs f).host = s.host := rfl
@[simp] theorem State.modRegs_stage (s : State) (f : RegFile → RegFile) : (s.modRegs f).stage = s.stage := rfl
@[simp] theorem State.modRegs_locks (s : State) (f : RegFile → RegFile) : (s.modRegs f).locks = s.locks := rfl
@[simp] theorem State.modRegs_err (s : State) (f : RegFile → RegFile) : (s.modRegs f).err = s.err := rfl
@[simp] theorem State.modRegs_power (s : State) (f : RegFile → RegFile) : (s.modRegs f).power = s.power := rfl
@[simp] theorem State.modRegs_flash (s : State) (f : RegFile → RegFile) : (s.modRegs f).flash = s.flash := rfl
@[simp] theorem State.modRegs_fe (s : State) (f : RegFile → RegFile) : (s.modRegs f).fe = s.fe := rfl
@[simp] theorem State.modRegs_sap (s : State) (f : RegFile → RegFile) : (s.modRegs f).sap = s.sap := rfl
@[simp] theorem State.modRegs_mp (s : State) (f : RegFile → RegFile) : (s.modRegs f).mp = s.mp := rfl
@[simp] theorem State.modRegs_outs (s : State) (f : RegFile → RegFile) : (s.modRegs f).outs = s.outs := rfl
@[simp] theorem State.modRegs_tth (s : State) (f : RegFile → RegFile) : (s.modRegs f).tth = s.tth := rfl
@[simp] theorem State.modRegs_lsn (s : State) (f : RegFile → RegFile) : (s.modRegs f).lsn = s.lsn := rfl
@[simp] theorem State.modRegs_sns (s : State) (f : RegFile → RegFile) : (s.modRegs f).sns = s.sns := rfl
@[simp] theorem State.modRegs_eng (s : State) (f : RegFile → RegFile) : (s.modRegs f).eng = s.eng := rfl
@[simp] theorem State.modRegs_net (s : State) (f : RegFile → RegFile) : (s.modRegs f).net = s.net := rfl
@[simp] theorem State.modRegs_metro (s : State) (f : RegFile → RegFile) : (s.modRegs f).metro = s.metro := rfl
@[simp] theorem State.modRegs_test (s : State) (f : RegFile → RegFile) : (s.modRegs f).test = s.test := rfl
@[simp] theorem State.modRegs_sig (s : State) (f : RegFile → RegFile) : (s.modRegs f).sig = s.sig := rfl
@[simp] theorem State.modRegs_snap (s : State) (f : RegFile → RegFile) : (s.modRegs f).snap = s.snap := rfl
@[simp] theorem State.modRegs_out (s : State) (f : RegFile → RegFile) : (s.modRegs f).out = s.out := rfl
@[simp] theorem State.modRegs_free (s : State) (f : RegFile → RegFile) : (s.modRegs f).free = s.free := rfl
@[simp] theorem State.modRegs_pending (s : State) (f : RegFile → RegFile) : (s.modRegs f).pending = s.pending := rfl

/-! ### State.modMirror -/

@[simp] theorem State.modMirror_rd (s : State) (f : RegFile → RegFile) (x : Nat) : (s.modMirror f).rd x = s.rd x := rfl
@[simp] theorem State.modMirror_fld (s : State) (f : RegFile → RegFile) (x : Nat) (g : Fld) : (s.modMirror f).fld x g = s.fld x g := rfl
@[simp] theorem State.modMirror_regs (s : State) (f : RegFile → RegFile) : (s.modMirror f).regs = s.regs := rfl
@[simp] theorem State.modMirror_mirror (s : State) (f : RegFile → RegFile) : (s.modMirror f).mirror = f s.mirror := rfl
@[simp] theorem State.modMirror_window (s : State) (f : RegFile → RegFile) : (s.modMirror f).window = s.window := rfl
@[simp] theorem State.modMirror_clk (s : State) (f : RegFile → RegFile) : (s.modMirror f).clk = s.clk := rfl
@[simp] theorem State.modMirror_link (s : State) (f : RegFile → RegFile) : (s.modMirror f).link = s.link := rfl
@[simp] theorem State.modMirror_col (s : State) (f : RegFile → RegFile) : (s.modMirror f).col = s.col := rfl
@[simp] theorem State.modMirror_host (s : State) (f : RegFile → RegFile) : (s.modMirror f).host = s.host := rfl
@[simp] theorem State.modMirror_stage (s : State) (f : RegFile → RegFile) : (s.modMirror f).stage = s.stage := rfl
@[simp] theorem State.modMirror_locks (s : State) (f : RegFile → RegFile) : (s.modMirror f).locks = s.locks := rfl
@[simp] theorem State.modMirror_err (s : State) (f : RegFile → RegFile) : (s.modMirror f).err = s.err := rfl
@[simp] theorem State.modMirror_power (s : State) (f : RegFile → RegFile) : (s.modMirror f).power = s.power := rfl
@[simp] theorem State.modMirror_flash (s : State) (f : RegFile → RegFile) : (s.modMirror f).flash = s.flash := rfl
@[simp] theorem State.modMirror_fe (s : State) (f : RegFile → RegFile) : (s.modMirror f).fe = s.fe := rfl
@[simp] theorem State.modMirror_sap (s : State) (f : RegFile → RegFile) : (s.modMirror f).sap = s.sap := rfl
@[simp] theorem State.modMirror_mp (s : State) (f : RegFile → RegFile) : (s.modMirror f).mp = s.mp := rfl
@[simp] theorem State.modMirror_outs (s : State) (f : RegFile → RegFile) : (s.modMirror f).outs = s.outs := rfl
@[simp] theorem State.modMirror_tth (s : State) (f : RegFile → RegFile) : (s.modMirror f).tth = s.tth := rfl
@[simp] theorem State.modMirror_lsn (s : State) (f : RegFile → RegFile) : (s.modMirror f).lsn = s.lsn := rfl
@[simp] theorem State.modMirror_sns (s : State) (f : RegFile → RegFile) : (s.modMirror f).sns = s.sns := rfl
@[simp] theorem State.modMirror_eng (s : State) (f : RegFile → RegFile) : (s.modMirror f).eng = s.eng := rfl
@[simp] theorem State.modMirror_net (s : State) (f : RegFile → RegFile) : (s.modMirror f).net = s.net := rfl
@[simp] theorem State.modMirror_metro (s : State) (f : RegFile → RegFile) : (s.modMirror f).metro = s.metro := rfl
@[simp] theorem State.modMirror_test (s : State) (f : RegFile → RegFile) : (s.modMirror f).test = s.test := rfl
@[simp] theorem State.modMirror_sig (s : State) (f : RegFile → RegFile) : (s.modMirror f).sig = s.sig := rfl
@[simp] theorem State.modMirror_snap (s : State) (f : RegFile → RegFile) : (s.modMirror f).snap = s.snap := rfl
@[simp] theorem State.modMirror_out (s : State) (f : RegFile → RegFile) : (s.modMirror f).out = s.out := rfl
@[simp] theorem State.modMirror_free (s : State) (f : RegFile → RegFile) : (s.modMirror f).free = s.free := rfl
@[simp] theorem State.modMirror_pending (s : State) (f : RegFile → RegFile) : (s.modMirror f).pending = s.pending := rfl

/-! ### State.modWindow -/

@[simp] theorem State.modWindow_rd (s : State) (f : Mem → Mem) (x : Nat) : (s.modWindow f).rd x = s.rd x := rfl
@[simp] theorem State.modWindow_fld (s : State) (f : Mem → Mem) (x : Nat) (g : Fld) : (s.modWindow f).fld x g = s.fld x g := rfl
@[simp] theorem State.modWindow_regs (s : State) (f : Mem → Mem) : (s.modWindow f).regs = s.regs := rfl
@[simp] theorem State.modWindow_mirror (s : State) (f : Mem → Mem) : (s.modWindow f).mirror = s.mirror := rfl
@[simp] theorem State.modWindow_window (s : State) (f : Mem → Mem) : (s.modWindow f).window = f s.window := rfl
@[simp] theorem State.modWindow_clk (s : State) (f : Mem → Mem) : (s.modWindow f).clk = s.clk := rfl
@[simp] theorem State.modWindow_link (s : State) (f : Mem → Mem) : (s.modWindow f).link = s.link := rfl
@[simp] theorem State.modWindow_col (s : State) (f : Mem → Mem) : (s.modWindow f).col = s.col := rfl
@[simp] theorem State.modWindow_host (s : State) (f : Mem → Mem) : (s.modWindow f).host = s.host := rfl
@[simp] theorem State.modWindow_stage (s : State) (f : Mem → Mem) : (s.modWindow f).stage = s.stage := rfl
@[simp] theorem State.modWindow_locks (s : State) (f : Mem → Mem) : (s.modWindow f).locks = s.locks := rfl
@[simp] theorem State.modWindow_err (s : State) (f : Mem → Mem) : (s.modWindow f).err = s.err := rfl
@[simp] theorem State.modWindow_power (s : State) (f : Mem → Mem) : (s.modWindow f).power = s.power := rfl
@[simp] theorem State.modWindow_flash (s : State) (f : Mem → Mem) : (s.modWindow f).flash = s.flash := rfl
@[simp] theorem State.modWindow_fe (s : State) (f : Mem → Mem) : (s.modWindow f).fe = s.fe := rfl
@[simp] theorem State.modWindow_sap (s : State) (f : Mem → Mem) : (s.modWindow f).sap = s.sap := rfl
@[simp] theorem State.modWindow_mp (s : State) (f : Mem → Mem) : (s.modWindow f).mp = s.mp := rfl
@[simp] theorem State.modWindow_outs (s : State) (f : Mem → Mem) : (s.modWindow f).outs = s.outs := rfl
@[simp] theorem State.modWindow_tth (s : State) (f : Mem → Mem) : (s.modWindow f).tth = s.tth := rfl
@[simp] theorem State.modWindow_lsn (s : State) (f : Mem → Mem) : (s.modWindow f).lsn = s.lsn := rfl
@[simp] theorem State.modWindow_sns (s : State) (f : Mem → Mem) : (s.modWindow f).sns = s.sns := rfl
@[simp] theorem State.modWindow_eng (s : State) (f : Mem → Mem) : (s.modWindow f).eng = s.eng := rfl
@[simp] theorem State.modWindow_net (s : State) (f : Mem → Mem) : (s.modWindow f).net = s.net := rfl
@[simp] theorem State.modWindow_metro (s : State) (f : Mem → Mem) : (s.modWindow f).metro = s.metro := rfl
@[simp] theorem State.modWindow_test (s : State) (f : Mem → Mem) : (s.modWindow f).test = s.test := rfl
@[simp] theorem State.modWindow_sig (s : State) (f : Mem → Mem) : (s.modWindow f).sig = s.sig := rfl
@[simp] theorem State.modWindow_snap (s : State) (f : Mem → Mem) : (s.modWindow f).snap = s.snap := rfl
@[simp] theorem State.modWindow_out (s : State) (f : Mem → Mem) : (s.modWindow f).out = s.out := rfl
@[simp] theorem State.modWindow_free (s : State) (f : Mem → Mem) : (s.modWindow f).free = s.free := rfl
@[simp] theorem State.modWindow_pending (s : State) (f : Mem → Mem) : (s.modWindow f).pending = s.pending := rfl

/-! ### State.modClk -/

@[simp] theorem State.modClk_rd (s : State) (f : Clock → Clock) (x : Nat) : (s.modClk f).rd x = s.rd x := rfl
@[simp] theorem State.modClk_fld (s : State) (f : Clock → Clock) (x : Nat) (g : Fld) : (s.modClk f).fld x g = s.fld x g := rfl
@[simp] theorem State.modClk_regs (s : State) (f : Clock → Clock) : (s.modClk f).regs = s.regs := rfl
@[simp] theorem State.modClk_mirror (s : State) (f : Clock → Clock) : (s.modClk f).mirror = s.mirror := rfl
@[simp] theorem State.modClk_window (s : State) (f : Clock → Clock) : (s.modClk f).window = s.window := rfl
@[simp] theorem State.modClk_clk (s : State) (f : Clock → Clock) : (s.modClk f).clk = f s.clk := rfl
@[simp] theorem State.modClk_link (s : State) (f : Clock → Clock) : (s.modClk f).link = s.link := rfl
@[simp] theorem State.modClk_col (s : State) (f : Clock → Clock) : (s.modClk f).col = s.col := rfl
@[simp] theorem State.modClk_host (s : State) (f : Clock → Clock) : (s.modClk f).host = s.host := rfl
@[simp] theorem State.modClk_stage (s : State) (f : Clock → Clock) : (s.modClk f).stage = s.stage := rfl
@[simp] theorem State.modClk_locks (s : State) (f : Clock → Clock) : (s.modClk f).locks = s.locks := rfl
@[simp] theorem State.modClk_err (s : State) (f : Clock → Clock) : (s.modClk f).err = s.err := rfl
@[simp] theorem State.modClk_power (s : State) (f : Clock → Clock) : (s.modClk f).power = s.power := rfl
@[simp] theorem State.modClk_flash (s : State) (f : Clock → Clock) : (s.modClk f).flash = s.flash := rfl
@[simp] theorem State.modClk_fe (s : State) (f : Clock → Clock) : (s.modClk f).fe = s.fe := rfl
@[simp] theorem State.modClk_sap (s : State) (f : Clock → Clock) : (s.modClk f).sap = s.sap := rfl
@[simp] theorem State.modClk_mp (s : State) (f : Clock → Clock) : (s.modClk f).mp = s.mp := rfl
@[simp] theorem State.modClk_outs (s : State) (f : Clock → Clock) : (s.modClk f).outs = s.outs := rfl
@[simp] theorem State.modClk_tth (s : State) (f : Clock → Clock) : (s.modClk f).tth = s.tth := rfl
@[simp] theorem State.modClk_lsn (s : State) (f : Clock → Clock) : (s.modClk f).lsn = s.lsn := rfl
@[simp] theorem State.modClk_sns (s : State) (f : Clock → Clock) : (s.modClk f).sns = s.sns := rfl
@[simp] theorem State.modClk_eng (s : State) (f : Clock → Clock) : (s.modClk f).eng = s.eng := rfl
@[simp] theorem State.modClk_net (s : State) (f : Clock → Clock) : (s.modClk f).net = s.net := rfl
@[simp] theorem State.modClk_metro (s : State) (f : Clock → Clock) : (s.modClk f).metro = s.metro := rfl
@[simp] theorem State.modClk_test (s : State) (f : Clock → Clock) : (s.modClk f).test = s.test := rfl
@[simp] theorem State.modClk_sig (s : State) (f : Clock → Clock) : (s.modClk f).sig = s.sig := rfl
@[simp] theorem State.modClk_snap (s : State) (f : Clock → Clock) : (s.modClk f).snap = s.snap := rfl
@[simp] theorem State.modClk_out (s : State) (f : Clock → Clock) : (s.modClk f).out = s.out := rfl
@[simp] theorem State.modClk_free (s : State) (f : Clock → Clock) : (s.modClk f).free = s.free := rfl
@[simp] theorem State.modClk_pending (s : State) (f : Clock → Clock) : (s.modClk f).pending = s.pending := rfl

/-! ### State.modLink -/

@[simp] theorem State.modLink_rd (s : State) (f : Link → Link) (x : Nat) : (s.modLink f).rd x = s.rd x := rfl
@[simp] theorem State.modLink_fld (s : State) (f : Link → Link) (x : Nat) (g : Fld) : (s.modLink f).fld x g = s.fld x g := rfl
@[simp] theorem State.modLink_regs (s : State) (f : Link → Link) : (s.modLink f).regs = s.regs := rfl
@[simp] theorem State.modLink_mirror (s : State) (f : Link → Link) : (s.modLink f).mirror = s.mirror := rfl
@[simp] theorem State.modLink_window (s : State) (f : Link → Link) : (s.modLink f).window = s.window := rfl
@[simp] theorem State.modLink_clk (s : State) (f : Link → Link) : (s.modLink f).clk = s.clk := rfl
@[simp] theorem State.modLink_link (s : State) (f : Link → Link) : (s.modLink f).link = f s.link := rfl
@[simp] theorem State.modLink_col (s : State) (f : Link → Link) : (s.modLink f).col = s.col := rfl
@[simp] theorem State.modLink_host (s : State) (f : Link → Link) : (s.modLink f).host = s.host := rfl
@[simp] theorem State.modLink_stage (s : State) (f : Link → Link) : (s.modLink f).stage = s.stage := rfl
@[simp] theorem State.modLink_locks (s : State) (f : Link → Link) : (s.modLink f).locks = s.locks := rfl
@[simp] theorem State.modLink_err (s : State) (f : Link → Link) : (s.modLink f).err = s.err := rfl
@[simp] theorem State.modLink_power (s : State) (f : Link → Link) : (s.modLink f).power = s.power := rfl
@[simp] theorem State.modLink_flash (s : State) (f : Link → Link) : (s.modLink f).flash = s.flash := rfl
@[simp] theorem State.modLink_fe (s : State) (f : Link → Link) : (s.modLink f).fe = s.fe := rfl
@[simp] theorem State.modLink_sap (s : State) (f : Link → Link) : (s.modLink f).sap = s.sap := rfl
@[simp] theorem State.modLink_mp (s : State) (f : Link → Link) : (s.modLink f).mp = s.mp := rfl
@[simp] theorem State.modLink_outs (s : State) (f : Link → Link) : (s.modLink f).outs = s.outs := rfl
@[simp] theorem State.modLink_tth (s : State) (f : Link → Link) : (s.modLink f).tth = s.tth := rfl
@[simp] theorem State.modLink_lsn (s : State) (f : Link → Link) : (s.modLink f).lsn = s.lsn := rfl
@[simp] theorem State.modLink_sns (s : State) (f : Link → Link) : (s.modLink f).sns = s.sns := rfl
@[simp] theorem State.modLink_eng (s : State) (f : Link → Link) : (s.modLink f).eng = s.eng := rfl
@[simp] theorem State.modLink_net (s : State) (f : Link → Link) : (s.modLink f).net = s.net := rfl
@[simp] theorem State.modLink_metro (s : State) (f : Link → Link) : (s.modLink f).metro = s.metro := rfl
@[simp] theorem State.modLink_test (s : State) (f : Link → Link) : (s.modLink f).test = s.test := rfl
@[simp] theorem State.modLink_sig (s : State) (f : Link → Link) : (s.modLink f).sig = s.sig := rfl
@[simp] theorem State.modLink_snap (s : State) (f : Link → Link) : (s.modLink f).snap = s.snap := rfl
@[simp] theorem State.modLink_out (s : State) (f : Link → Link) : (s.modLink f).out = s.out := rfl
@[simp] theorem State.modLink_free (s : State) (f : Link → Link) : (s.modLink f).free = s.free := rfl
@[simp] theorem State.modLink_pending (s : State) (f : Link → Link) : (s.modLink f).pending = s.pending := rfl

/-! ### State.modCol -/

@[simp] theorem State.modCol_rd (s : State) (f : Collector → Collector) (x : Nat) : (s.modCol f).rd x = s.rd x := rfl
@[simp] theorem State.modCol_fld (s : State) (f : Collector → Collector) (x : Nat) (g : Fld) : (s.modCol f).fld x g = s.fld x g := rfl
@[simp] theorem State.modCol_regs (s : State) (f : Collector → Collector) : (s.modCol f).regs = s.regs := rfl
@[simp] theorem State.modCol_mirror (s : State) (f : Collector → Collector) : (s.modCol f).mirror = s.mirror := rfl
@[simp] theorem State.modCol_window (s : State) (f : Collector → Collector) : (s.modCol f).window = s.window := rfl
@[simp] theorem State.modCol_clk (s : State) (f : Collector → Collector) : (s.modCol f).clk = s.clk := rfl
@[simp] theorem State.modCol_link (s : State) (f : Collector → Collector) : (s.modCol f).link = s.link := rfl
@[simp] theorem State.modCol_col (s : State) (f : Collector → Collector) : (s.modCol f).col = f s.col := rfl
@[simp] theorem State.modCol_host (s : State) (f : Collector → Collector) : (s.modCol f).host = s.host := rfl
@[simp] theorem State.modCol_stage (s : State) (f : Collector → Collector) : (s.modCol f).stage = s.stage := rfl
@[simp] theorem State.modCol_locks (s : State) (f : Collector → Collector) : (s.modCol f).locks = s.locks := rfl
@[simp] theorem State.modCol_err (s : State) (f : Collector → Collector) : (s.modCol f).err = s.err := rfl
@[simp] theorem State.modCol_power (s : State) (f : Collector → Collector) : (s.modCol f).power = s.power := rfl
@[simp] theorem State.modCol_flash (s : State) (f : Collector → Collector) : (s.modCol f).flash = s.flash := rfl
@[simp] theorem State.modCol_fe (s : State) (f : Collector → Collector) : (s.modCol f).fe = s.fe := rfl
@[simp] theorem State.modCol_sap (s : State) (f : Collector → Collector) : (s.modCol f).sap = s.sap := rfl
@[simp] theorem State.modCol_mp (s : State) (f : Collector → Collector) : (s.modCol f).mp = s.mp := rfl
@[simp] theorem State.modCol_outs (s : State) (f : Collector → Collector) : (s.modCol f).outs = s.outs := rfl
@[simp] theorem State.modCol_tth (s : State) (f : Collector → Collector) : (s.modCol f).tth = s.tth := rfl
@[simp] theorem State.modCol_lsn (s : State) (f : Collector → Collector) : (s.modCol f).lsn = s.lsn := rfl
@[simp] theorem State.modCol_sns (s : State) (f : Collector → Collector) : (s.modCol f).sns = s.sns := rfl
@[simp] theorem State.modCol_eng (s : State) (f : Collector → Collector) : (s.modCol f).eng = s.eng := rfl
@[simp] theorem State.modCol_net (s : State) (f : Collector → Collector) : (s.modCol f).net = s.net := rfl
@[simp] theorem State.modCol_metro (s : State) (f : Collector → Collector) : (s.modCol f).metro = s.metro := rfl
@[simp] theorem State.modCol_test (s : State) (f : Collector → Collector) : (s.modCol f).test = s.test := rfl
@[simp] theorem State.modCol_sig (s : State) (f : Collector → Collector) : (s.modCol f).sig = s.sig := rfl
@[simp] theorem State.modCol_snap (s : State) (f : Collector → Collector) : (s.modCol f).snap = s.snap := rfl
@[simp] theorem State.modCol_out (s : State) (f : Collector → Collector) : (s.modCol f).out = s.out := rfl
@[simp] theorem State.modCol_free (s : State) (f : Collector → Collector) : (s.modCol f).free = s.free := rfl
@[simp] theorem State.modCol_pending (s : State) (f : Collector → Collector) : (s.modCol f).pending = s.pending := rfl

/-! ### State.modHost -/

@[simp] theorem State.modHost_rd (s : State) (f : HostX → HostX) (x : Nat) : (s.modHost f).rd x = s.rd x := rfl
@[simp] theorem State.modHost_fld (s : State) (f : HostX → HostX) (x : Nat) (g : Fld) : (s.modHost f).fld x g = s.fld x g := rfl
@[simp] theorem State.modHost_regs (s : State) (f : HostX → HostX) : (s.modHost f).regs = s.regs := rfl
@[simp] theorem State.modHost_mirror (s : State) (f : HostX → HostX) : (s.modHost f).mirror = s.mirror := rfl
@[simp] theorem State.modHost_window (s : State) (f : HostX → HostX) : (s.modHost f).window = s.window := rfl
@[simp] theorem State.modHost_clk (s : State) (f : HostX → HostX) : (s.modHost f).clk = s.clk := rfl
@[simp] theorem State.modHost_link (s : State) (f : HostX → HostX) : (s.modHost f).link = s.link := rfl
@[simp] theorem State.modHost_col (s : State) (f : HostX → HostX) : (s.modHost f).col = s.col := rfl
@[simp] theorem State.modHost_host (s : State) (f : HostX → HostX) : (s.modHost f).host = f s.host := rfl
@[simp] theorem State.modHost_stage (s : State) (f : HostX → HostX) : (s.modHost f).stage = s.stage := rfl
@[simp] theorem State.modHost_locks (s : State) (f : HostX → HostX) : (s.modHost f).locks = s.locks := rfl
@[simp] theorem State.modHost_err (s : State) (f : HostX → HostX) : (s.modHost f).err = s.err := rfl
@[simp] theorem State.modHost_power (s : State) (f : HostX → HostX) : (s.modHost f).power = s.power := rfl
@[simp] theorem State.modHost_flash (s : State) (f : HostX → HostX) : (s.modHost f).flash = s.flash := rfl
@[simp] theorem State.modHost_fe (s : State) (f : HostX → HostX) : (s.modHost f).fe = s.fe := rfl
@[simp] theorem State.modHost_sap (s : State) (f : HostX → HostX) : (s.modHost f).sap = s.sap := rfl
@[simp] theorem State.modHost_mp (s : State) (f : HostX → HostX) : (s.modHost f).mp = s.mp := rfl
@[simp] theorem State.modHost_outs (s : State) (f : HostX → HostX) : (s.modHost f).outs = s.outs := rfl
@[simp] theorem State.modHost_tth (s : State) (f : HostX → HostX) : (s.modHost f).tth = s.tth := rfl
@[simp] theorem State.modHost_lsn (s : State) (f : HostX → HostX) : (s.modHost f).lsn = s.lsn := rfl
@[simp] theorem State.modHost_sns (s : State) (f : HostX → HostX) : (s.modHost f).sns = s.sns := rfl
@[simp] theorem State.modHost_eng (s : State) (f : HostX → HostX) : (s.modHost f).eng = s.eng := rfl
@[simp] theorem State.modHost_net (s : State) (f : HostX → HostX) : (s.modHost f).net = s.net := rfl
@[simp] theorem State.modHost_metro (s : State) (f : HostX → HostX) : (s.modHost f).metro = s.metro := rfl
@[simp] theorem State.modHost_test (s : State) (f : HostX → HostX) : (s.modHost f).test = s.test := rfl
@[simp] theorem State.modHost_sig (s : State) (f : HostX → HostX) : (s.modHost f).sig = s.sig := rfl
@[simp] theorem State.modHost_snap (s : State) (f : HostX → HostX) : (s.modHost f).snap = s.snap := rfl
@[simp] theorem State.modHost_out (s : State) (f : HostX → HostX) : (s.modHost f).out = s.out := rfl
@[simp] theorem State.modHost_free (s : State) (f : HostX → HostX) : (s.modHost f).free = s.free := rfl
@[simp] theorem State.modHost_pending (s : State) (f : HostX → HostX) : (s.modHost f).pending = s.pending := rfl

/-! ### State.modStage -/

@[simp] theorem State.modStage_rd (s : State) (f : Stage → Stage) (x : Nat) : (s.modStage f).rd x = s.rd x := rfl
@[simp] theorem State.modStage_fld (s : State) (f : Stage → Stage) (x : Nat) (g : Fld) : (s.modStage f).fld x g = s.fld x g := rfl
@[simp] theorem State.modStage_regs (s : State) (f : Stage → Stage) : (s.modStage f).regs = s.regs := rfl
@[simp] theorem State.modStage_mirror (s : State) (f : Stage → Stage) : (s.modStage f).mirror = s.mirror := rfl
@[simp] theorem State.modStage_window (s : State) (f : Stage → Stage) : (s.modStage f).window = s.window := rfl
@[simp] theorem State.modStage_clk (s : State) (f : Stage → Stage) : (s.modStage f).clk = s.clk := rfl
@[simp] theorem State.modStage_link (s : State) (f : Stage → Stage) : (s.modStage f).link = s.link := rfl
@[simp] theorem State.modStage_col (s : State) (f : Stage → Stage) : (s.modStage f).col = s.col := rfl
@[simp] theorem State.modStage_host (s : State) (f : Stage → Stage) : (s.modStage f).host = s.host := rfl
@[simp] theorem State.modStage_stage (s : State) (f : Stage → Stage) : (s.modStage f).stage = f s.stage := rfl
@[simp] theorem State.modStage_locks (s : State) (f : Stage → Stage) : (s.modStage f).locks = s.locks := rfl
@[simp] theorem State.modStage_err (s : State) (f : Stage → Stage) : (s.modStage f).err = s.err := rfl
@[simp] theorem State.modStage_power (s : State) (f : Stage → Stage) : (s.modStage f).power = s.power := rfl
@[simp] theorem State.modStage_flash (s : State) (f : Stage → Stage) : (s.modStage f).flash = s.flash := rfl
@[simp] theorem State.modStage_fe (s : State) (f : Stage → Stage) : (s.modStage f).fe = s.fe := rfl
@[simp] theorem State.modStage_sap (s : State) (f : Stage → Stage) : (s.modStage f).sap = s.sap := rfl
@[simp] theorem State.modStage_mp (s : State) (f : Stage → Stage) : (s.modStage f).mp = s.mp := rfl
@[simp] theorem State.modStage_outs (s : State) (f : Stage → Stage) : (s.modStage f).outs = s.outs := rfl
@[simp] theorem State.modStage_tth (s : State) (f : Stage → Stage) : (s.modStage f).tth = s.tth := rfl
@[simp] theorem State.modStage_lsn (s : State) (f : Stage → Stage) : (s.modStage f).lsn = s.lsn := rfl
@[simp] theorem State.modStage_sns (s : State) (f : Stage → Stage) : (s.modStage f).sns = s.sns := rfl
@[simp] theorem State.modStage_eng (s : State) (f : Stage → Stage) : (s.modStage f).eng = s.eng := rfl
@[simp] theorem State.modStage_net (s : State) (f : Stage → Stage) : (s.modStage f).net = s.net := rfl
@[simp] theorem State.modStage_metro (s : State) (f : Stage → Stage) : (s.modStage f).metro = s.metro := rfl
@[simp] theorem State.modStage_test (s : State) (f : Stage → Stage) : (s.modStage f).test = s.test := rfl
@[simp] theorem State.modStage_sig (s : State) (f : Stage → Stage) : (s.modStage f).sig = s.sig := rfl
@[simp] theorem State.modStage_snap (s : State) (f : Stage → Stage) : (s.modStage f).snap = s.snap := rfl
@[simp] theorem State.modStage_out (s : State) (f : Stage → Stage) : (s.modStage f).out = s.out := rfl
@[simp] theorem State.modStage_free (s : State) (f : Stage → Stage) : (s.modStage f).free = s.free := rfl
@[simp] theorem State.modStage_pending (s : State) (f : Stage → Stage) : (s.modStage f).pending = s.pending := rfl

/-! ### State.modLocks -/

@[simp] theorem State.modLocks_rd (s : State) (f : List Lock → List Lock) (x : Nat) : (s.modLocks f).rd x = s.rd x := rfl
@[simp] theorem State.modLocks_fld (s : State) (f : List Lock → List Lock) (x : Nat) (g : Fld) : (s.modLocks f).fld x g = s.fld x g := rfl
@[simp] theorem State.modLocks_regs (s : State) (f : List Lock → List Lock) : (s.modLocks f).regs = s.regs := rfl
@[simp] theorem State.modLocks_mirror (s : State) (f : List Lock → List Lock) : (s.modLocks f).mirror = s.mirror := rfl
@[simp] theorem State.modLocks_window (s : State) (f : List Lock → List Lock) : (s.modLocks f).window = s.window := rfl
@[simp] theorem State.modLocks_clk (s : State) (f : List Lock → List Lock) : (s.modLocks f).clk = s.clk := rfl
@[simp] theorem State.modLocks_link (s : State) (f : List Lock → List Lock) : (s.modLocks f).link = s.link := rfl
@[simp] theorem State.modLocks_col (s : State) (f : List Lock → List Lock) : (s.modLocks f).col = s.col := rfl
@[simp] theorem State.modLocks_host (s : State) (f : List Lock → List Lock) : (s.modLocks f).host = s.host := rfl
@[simp] theorem State.modLocks_stage (s : State) (f : List Lock → List Lock) : (s.modLocks f).stage = s.stage := rfl
@[simp] theorem State.modLocks_locks (s : State) (f : List Lock → List Lock) : (s.modLocks f).locks = f s.locks := rfl
@[simp] theorem State.modLocks_err (s : State) (f : List Lock → List Lock) : (s.modLocks f).err = s.err := rfl
@[simp] theorem State.modLocks_power (s : State) (f : List Lock → List Lock) : (s.modLocks f).power = s.power := rfl
@[simp] theorem State.modLocks_flash (s : State) (f : List Lock → List Lock) : (s.modLocks f).flash = s.flash := rfl
@[simp] theorem State.modLocks_fe (s : State) (f : List Lock → List Lock) : (s.modLocks f).fe = s.fe := rfl
@[simp] theorem State.modLocks_sap (s : State) (f : List Lock → List Lock) : (s.modLocks f).sap = s.sap := rfl
@[simp] theorem State.modLocks_mp (s : State) (f : List Lock → List Lock) : (s.modLocks f).mp = s.mp := rfl
@[simp] theorem State.modLocks_outs (s : State) (f : List Lock → List Lock) : (s.modLocks f).outs = s.outs := rfl
@[simp] theorem State.modLocks_tth (s : State) (f : List Lock → List Lock) : (s.modLocks f).tth = s.tth := rfl
@[simp] theorem State.modLocks_lsn (s : State) (f : List Lock → List Lock) : (s.modLocks f).lsn = s.lsn := rfl
@[simp] theorem State.modLocks_sns (s : State) (f : List Lock → List Lock) : (s.modLocks f).sns = s.sns := rfl
@[simp] theorem State.modLocks_eng (s : State) (f : List Lock → List Lock) : (s.modLocks f).eng = s.eng := rfl
@[simp] theorem State.modLocks_net (s : State) (f : List Lock → List Lock) : (s.modLocks f).net = s.net := rfl
@[simp] theorem State.modLocks_metro (s : State) (f : List Lock → List Lock) : (s.modLocks f).metro = s.metro := rfl
@[simp] theorem State.modLocks_test (s : State) (f : List Lock → List Lock) : (s.modLocks f).test = s.test := rfl
@[simp] theorem State.modLocks_sig (s : State) (f : List Lock → List Lock) : (s.modLocks f).sig = s.sig := rfl
@[simp] theorem State.modLocks_snap (s : State) (f : List Lock → List Lock) : (s.modLocks f).snap = s.snap := rfl
@[simp] theorem State.modLocks_out (s : State) (f : List Lock → List Lock) : (s.modLocks f).out = s.out := rfl
@[simp] theorem State.modLocks_free (s : State) (f : List Lock → List Lock) : (s.modLocks f).free = s.free := rfl
@[simp] theorem State.modLocks_pending (s : State) (f : List Lock → List Lock) : (s.modLocks f).pending = s.pending := rfl

/-! ### State.modErr -/

@[simp] theorem State.modErr_rd (s : State) (f : ErrX → ErrX) (x : Nat) : (s.modErr f).rd x = s.rd x := rfl
@[simp] theorem State.modErr_fld (s : State) (f : ErrX → ErrX) (x : Nat) (g : Fld) : (s.modErr f).fld x g = s.fld x g := rfl
@[simp] theorem State.modErr_regs (s : State) (f : ErrX → ErrX) : (s.modErr f).regs = s.regs := rfl
@[simp] theorem State.modErr_mirror (s : State) (f : ErrX → ErrX) : (s.modErr f).mirror = s.mirror := rfl
@[simp] theorem State.modErr_window (s : State) (f : ErrX → ErrX) : (s.modErr f).window = s.window := rfl
@[simp] theorem State.modErr_clk (s : State) (f : ErrX → ErrX) : (s.modErr f).clk = s.clk := rfl
@[simp] theorem State.modErr_link (s : State) (f : ErrX → ErrX) : (s.modErr f).link = s.link := rfl
@[simp] theorem State.modErr_col (s : State) (f : ErrX → ErrX) : (s.modErr f).col = s.col := rfl
@[simp] theorem State.modErr_host (s : State) (f : ErrX → ErrX) : (s.modErr f).host = s.host := rfl
@[simp] theorem State.modErr_stage (s : State) (f : ErrX → ErrX) : (s.modErr f).stage = s.stage := rfl
@[simp] theorem State.modErr_locks (s : State) (f : ErrX → ErrX) : (s.modErr f).locks = s.locks := rfl
@[simp] theorem State.modErr_err (s : State) (f : ErrX → ErrX) : (s.modErr f).err = f s.err := rfl
@[simp] theorem State.modErr_power (s : State) (f : ErrX → ErrX) : (s.modErr f).power = s.power := rfl
@[simp] theorem State.modErr_flash (s : State) (f : ErrX → ErrX) : (s.modErr f).flash = s.flash := rfl
@[simp] theorem State.modErr_fe (s : State) (f : ErrX → ErrX) : (s.modErr f).fe = s.fe := rfl
@[simp] theorem State.modErr_sap (s : State) (f : ErrX → ErrX) : (s.modErr f).sap = s.sap := rfl
@[simp] theorem State.modErr_mp (s : State) (f : ErrX → ErrX) : (s.modErr f).mp = s.mp := rfl
@[simp] theorem State.modErr_outs (s : State) (f : ErrX → ErrX) : (s.modErr f).outs = s.outs := rfl
@[simp] theorem State.modErr_tth (s : State) (f : ErrX → ErrX) : (s.modErr f).tth = s.tth := rfl
@[simp] theorem State.modErr_lsn (s : State) (f : ErrX → ErrX) : (s.modErr f).lsn = s.lsn := rfl
@[simp] theorem State.modErr_sns (s : State) (f : ErrX → ErrX) : (s.modErr f).sns = s.sns := rfl
@[simp] theorem State.modErr_eng (s : State) (f : ErrX → ErrX) : (s.modErr f).eng = s.eng := rfl
@[simp] theorem State.modErr_net (s : State) (f : ErrX → ErrX) : (s.modErr f).net = s.net := rfl
@[simp] theorem State.modErr_metro (s : State) (f : ErrX → ErrX) : (s.modErr f).metro = s.metro := rfl
@[simp] theorem State.modErr_test (s : State) (f : ErrX → ErrX) : (s.modErr f).test = s.test := rfl
@[simp] theorem State.modErr_sig (s : State) (f : ErrX → ErrX) : (s.modErr f).sig = s.sig := rfl
@[simp] theorem State.modErr_snap (s : State) (f : ErrX → ErrX) : (s.modErr f).snap = s.snap := rfl
@[simp] theorem State.modErr_out (s : State) (f : ErrX → ErrX) : (s.modErr f).out = s.out := rfl
@[simp] theorem State.modErr_free (s : State) (f : ErrX → ErrX) : (s.modErr f).free = s.free := rfl
@[simp] theorem State.modErr_pending (s : State) (f : ErrX → ErrX) : (s.modErr f).pending = s.pending := rfl

/-! ### State.modPower -/

@[simp] theorem State.modPower_rd (s : State) (f : PowerX → PowerX) (x : Nat) : (s.modPower f).rd x = s.rd x := rfl
@[simp] theorem State.modPower_fld (s : State) (f : PowerX → PowerX) (x : Nat) (g : Fld) : (s.modPower f).fld x g = s.fld x g := rfl
@[simp] theorem State.modPower_regs (s : State) (f : PowerX → PowerX) : (s.modPower f).regs = s.regs := rfl
@[simp] theorem State.modPower_mirror (s : State) (f : PowerX → PowerX) : (s.modPower f).mirror = s.mirror := rfl
@[simp] theorem State.modPower_window (s : State) (f : PowerX → PowerX) : (s.modPower f).window = s.window := rfl
@[simp] theorem State.modPower_clk (s : State) (f : PowerX → PowerX) : (s.modPower f).clk = s.clk := rfl
@[simp] theorem State.modPower_link (s : State) (f : PowerX → PowerX) : (s.modPower f).link = s.link := rfl
@[simp] theorem State.modPower_col (s : State) (f : PowerX → PowerX) : (s.modPower f).col = s.col := rfl
@[simp] theorem State.modPower_host (s : State) (f : PowerX → PowerX) : (s.modPower f).host = s.host := rfl
@[simp] theorem State.modPower_stage (s : State) (f : PowerX → PowerX) : (s.modPower f).stage = s.stage := rfl
@[simp] theorem State.modPower_locks (s : State) (f : PowerX → PowerX) : (s.modPower f).locks = s.locks := rfl
@[simp] theorem State.modPower_err (s : State) (f : PowerX → PowerX) : (s.modPower f).err = s.err := rfl
@[simp] theorem State.modPower_power (s : State) (f : PowerX → PowerX) : (s.modPower f).power = f s.power := rfl
@[simp] theorem State.modPower_flash (s : State) (f : PowerX → PowerX) : (s.modPower f).flash = s.flash := rfl
@[simp] theorem State.modPower_fe (s : State) (f : PowerX → PowerX) : (s.modPower f).fe = s.fe := rfl
@[simp] theorem State.modPower_sap (s : State) (f : PowerX → PowerX) : (s.modPower f).sap = s.sap := rfl
@[simp] theorem State.modPower_mp (s : State) (f : PowerX → PowerX) : (s.modPower f).mp = s.mp := rfl
@[simp] theorem State.modPower_outs (s : State) (f : PowerX → PowerX) : (s.modPower f).outs = s.outs := rfl
@[simp] theorem State.modPower_tth (s : State) (f : PowerX → PowerX) : (s.modPower f).tth = s.tth := rfl
@[simp] theorem State.modPower_lsn (s : State) (f : PowerX → PowerX) : (s.modPower f).lsn = s.lsn := rfl
@[simp] theorem State.modPower_sns (s : State) (f : PowerX → PowerX) : (s.modPower f).sns = s.sns := rfl
@[simp] theorem State.modPower_eng (s : State) (f : PowerX → PowerX) : (s.modPower f).eng = s.eng := rfl
@[simp] theorem State.modPower_net (s : State) (f : PowerX → PowerX) : (s.modPower f).net = s.net := rfl
@[simp] theorem State.modPower_metro (s : State) (f : PowerX → PowerX) : (s.modPower f).metro = s.metro := rfl
@[simp] theorem State.modPower_test (s : State) (f : PowerX → PowerX) : (s.modPower f).test = s.test := rfl
@[simp] theorem State.modPower_sig (s : State) (f : PowerX → PowerX) : (s.modPower f).sig = s.sig := rfl
@[simp] theorem State.modPower_snap (s : State) (f : PowerX → PowerX) : (s.modPower f).snap = s.snap := rfl
@[simp] theorem State.modPower_out (s : State) (f : PowerX → PowerX) : (s.modPower f).out = s.out := rfl
@[simp] theorem State.modPower_free (s : State) (f : PowerX → PowerX) : (s.modPower f).free = s.free := rfl
@[simp] theorem State.modPower_pending (s : State) (f : PowerX → PowerX) : (s.modPower f).pending = s.pending := rfl

/-! ### State.modFlash -/

@[simp] theorem State.modFlash_rd (s : State) (f : FlashX → FlashX) (x : Nat) : (s.modFlash f).rd x = s.rd x := rfl
@[simp] theorem State.modFlash_fld (s : State) (f : FlashX → FlashX) (x : Nat) (g : Fld) : (s.modFlash f).fld x g = s.fld x g := rfl
@[simp] theorem State.modFlash_regs (s : State) (f : FlashX → FlashX) : (s.modFlash f).regs = s.regs := rfl
@[simp] theorem State.modFlash_mirror (s : State) (f : FlashX → FlashX) : (s.modFlash f).mirror = s.mirror := rfl
@[simp] theorem State.modFlash_window (s : State) (f : FlashX → FlashX) : (s.modFlash f).window = s.window := rfl
@[simp] theorem State.modFlash_clk (s : State) (f : FlashX → FlashX) : (s.modFlash f).clk = s.clk := rfl
@[simp] theorem State.modFlash_link (s : State) (f : FlashX → FlashX) : (s.modFlash f).link = s.link := rfl
@[simp] theorem State.modFlash_col (s : State) (f : FlashX → FlashX) : (s.modFlash f).col = s.col := rfl
@[simp] theorem State.modFlash_host (s : State) (f : FlashX → FlashX) : (s.modFlash f).host = s.host := rfl
@[simp] theorem State.modFlash_stage (s : State) (f : FlashX → FlashX) : (s.modFlash f).stage = s.stage := rfl
@[simp] theorem State.modFlash_locks (s : State) (f : FlashX → FlashX) : (s.modFlash f).locks = s.locks := rfl
@[simp] theorem State.modFlash_err (s : State) (f : FlashX → FlashX) : (s.modFlash f).err = s.err := rfl
@[simp] theorem State.modFlash_power (s : State) (f : FlashX → FlashX) : (s.modFlash f).power = s.power := rfl
@[simp] theorem State.modFlash_flash (s : State) (f : FlashX → FlashX) : (s.modFlash f).flash = f s.flash := rfl
@[simp] theorem State.modFlash_fe (s : State) (f : FlashX → FlashX) : (s.modFlash f).fe = s.fe := rfl
@[simp] theorem State.modFlash_sap (s : State) (f : FlashX → FlashX) : (s.modFlash f).sap = s.sap := rfl
@[simp] theorem State.modFlash_mp (s : State) (f : FlashX → FlashX) : (s.modFlash f).mp = s.mp := rfl
@[simp] theorem State.modFlash_outs (s : State) (f : FlashX → FlashX) : (s.modFlash f).outs = s.outs := rfl
@[simp] theorem State.modFlash_tth (s : State) (f : FlashX → FlashX) : (s.modFlash f).tth = s.tth := rfl
@[simp] theorem State.modFlash_lsn (s : State) (f : FlashX → FlashX) : (s.modFlash f).lsn = s.lsn := rfl
@[simp] theorem State.modFlash_sns (s : State) (f : FlashX → FlashX) : (s.modFlash f).sns = s.sns := rfl
@[simp] theorem State.modFlash_eng (s : State) (f : FlashX → FlashX) : (s.modFlash f).eng = s.eng := rfl
@[simp] theorem State.modFlash_net (s : State) (f : FlashX → FlashX) : (s.modFlash f).net = s.net := rfl
@[simp] theorem State.modFlash_metro (s : State) (f : FlashX → FlashX) : (s.modFlash f).metro = s.metro := rfl
@[simp] theorem State.modFlash_test (s : State) (f : FlashX → FlashX) : (s.modFlash f).test = s.test := rfl
@[simp] theorem State.modFlash_sig (s : State) (f : FlashX → FlashX) : (s.modFlash f).sig = s.sig := rfl
@[simp] theorem State.modFlash_snap (s : State) (f : FlashX → FlashX) : (s.modFlash f).snap = s.snap := rfl
@[simp] theorem State.modFlash_out (s : State) (f : FlashX → FlashX) : (s.modFlash f).out = s.out := rfl
@[simp] theorem State.modFlash_free (s : State) (f : FlashX → FlashX) : (s.modFlash f).free = s.free := rfl
@[simp] theorem State.modFlash_pending (s : State) (f : FlashX → FlashX) : (s.modFlash f).pending = s.pending := rfl

/-! ### State.modFe -/

@[simp] theorem State.modFe_rd (s : State) (f : FrontX → FrontX) (x : Nat) : (s.modFe f).rd x = s.rd x := rfl
@[simp] theorem State.modFe_fld (s : State) (f : FrontX → FrontX) (x : Nat) (g : Fld) : (s.modFe f).fld x g = s.fld x g := rfl
@[simp] theorem State.modFe_regs (s : State) (f : FrontX → FrontX) : (s.modFe f).regs = s.regs := rfl
@[simp] theorem State.modFe_mirror (s : State) (f : FrontX → FrontX) : (s.modFe f).mirror = s.mirror := rfl
@[simp] theorem State.modFe_window (s : State) (f : FrontX → FrontX) : (s.modFe f).window = s.window := rfl
@[simp] theorem State.modFe_clk (s : State) (f : FrontX → FrontX) : (s.modFe f).clk = s.clk := rfl
@[simp] theorem State.modFe_link (s : State) (f : FrontX → FrontX) : (s.modFe f).link = s.link := rfl
@[simp] theorem State.modFe_col (s : State) (f : FrontX → FrontX) : (s.modFe f).col = s.col := rfl
@[simp] theorem State.modFe_host (s : State) (f : FrontX → FrontX) : (s.modFe f).host = s.host := rfl
@[simp] theorem State.modFe_stage (s : State) (f : FrontX → FrontX) : (s.modFe f).stage = s.stage := rfl
@[simp] theorem State.modFe_locks (s : State) (f : FrontX → FrontX) : (s.modFe f).locks = s.locks := rfl
@[simp] theorem State.modFe_err (s : State) (f : FrontX → FrontX) : (s.modFe f).err = s.err := rfl
@[simp] theorem State.modFe_power (s : State) (f : FrontX → FrontX) : (s.modFe f).power = s.power := rfl
@[simp] theorem State.modFe_flash (s : State) (f : FrontX → FrontX) : (s.modFe f).flash = s.flash := rfl
@[simp] theorem State.modFe_fe (s : State) (f : FrontX → FrontX) : (s.modFe f).fe = f s.fe := rfl
@[simp] theorem State.modFe_sap (s : State) (f : FrontX → FrontX) : (s.modFe f).sap = s.sap := rfl
@[simp] theorem State.modFe_mp (s : State) (f : FrontX → FrontX) : (s.modFe f).mp = s.mp := rfl
@[simp] theorem State.modFe_outs (s : State) (f : FrontX → FrontX) : (s.modFe f).outs = s.outs := rfl
@[simp] theorem State.modFe_tth (s : State) (f : FrontX → FrontX) : (s.modFe f).tth = s.tth := rfl
@[simp] theorem State.modFe_lsn (s : State) (f : FrontX → FrontX) : (s.modFe f).lsn = s.lsn := rfl
@[simp] theorem State.modFe_sns (s : State) (f : FrontX → FrontX) : (s.modFe f).sns = s.sns := rfl
@[simp] theorem State.modFe_eng (s : State) (f : FrontX → FrontX) : (s.modFe f).eng = s.eng := rfl
@[simp] theorem State.modFe_net (s : State) (f : FrontX → FrontX) : (s.modFe f).net = s.net := rfl
@[simp] theorem State.modFe_metro (s : State) (f : FrontX → FrontX) : (s.modFe f).metro = s.metro := rfl
@[simp] theorem State.modFe_test (s : State) (f : FrontX → FrontX) : (s.modFe f).test = s.test := rfl
@[simp] theorem State.modFe_sig (s : State) (f : FrontX → FrontX) : (s.modFe f).sig = s.sig := rfl
@[simp] theorem State.modFe_snap (s : State) (f : FrontX → FrontX) : (s.modFe f).snap = s.snap := rfl
@[simp] theorem State.modFe_out (s : State) (f : FrontX → FrontX) : (s.modFe f).out = s.out := rfl
@[simp] theorem State.modFe_free (s : State) (f : FrontX → FrontX) : (s.modFe f).free = s.free := rfl
@[simp] theorem State.modFe_pending (s : State) (f : FrontX → FrontX) : (s.modFe f).pending = s.pending := rfl

/-! ### State.modSap -/

@[simp] theorem State.modSap_rd (s : State) (f : SapX → SapX) (x : Nat) : (s.modSap f).rd x = s.rd x := rfl
@[simp] theorem State.modSap_fld (s : State) (f : SapX → SapX) (x : Nat) (g : Fld) : (s.modSap f).fld x g = s.fld x g := rfl
@[simp] theorem State.modSap_regs (s : State) (f : SapX → SapX) : (s.modSap f).regs = s.regs := rfl
@[simp] theorem State.modSap_mirror (s : State) (f : SapX → SapX) : (s.modSap f).mirror = s.mirror := rfl
@[simp] theorem State.modSap_window (s : State) (f : SapX → SapX) : (s.modSap f).window = s.window := rfl
@[simp] theorem State.modSap_clk (s : State) (f : SapX → SapX) : (s.modSap f).clk = s.clk := rfl
@[simp] theorem State.modSap_link (s : State) (f : SapX → SapX) : (s.modSap f).link = s.link := rfl
@[simp] theorem State.modSap_col (s : State) (f : SapX → SapX) : (s.modSap f).col = s.col := rfl
@[simp] theorem State.modSap_host (s : State) (f : SapX → SapX) : (s.modSap f).host = s.host := rfl
@[simp] theorem State.modSap_stage (s : State) (f : SapX → SapX) : (s.modSap f).stage = s.stage := rfl
@[simp] theorem State.modSap_locks (s : State) (f : SapX → SapX) : (s.modSap f).locks = s.locks := rfl
@[simp] theorem State.modSap_err (s : State) (f : SapX → SapX) : (s.modSap f).err = s.err := rfl
@[simp] theorem State.modSap_power (s : State) (f : SapX → SapX) : (s.modSap f).power = s.power := rfl
@[simp] theorem State.modSap_flash (s : State) (f : SapX → SapX) : (s.modSap f).flash = s.flash := rfl
@[simp] theorem State.modSap_fe (s : State) (f : SapX → SapX) : (s.modSap f).fe = s.fe := rfl
@[simp] theorem State.modSap_sap (s : State) (f : SapX → SapX) : (s.modSap f).sap = f s.sap := rfl
@[simp] theorem State.modSap_mp (s : State) (f : SapX → SapX) : (s.modSap f).mp = s.mp := rfl
@[simp] theorem State.modSap_outs (s : State) (f : SapX → SapX) : (s.modSap f).outs = s.outs := rfl
@[simp] theorem State.modSap_tth (s : State) (f : SapX → SapX) : (s.modSap f).tth = s.tth := rfl
@[simp] theorem State.modSap_lsn (s : State) (f : SapX → SapX) : (s.modSap f).lsn = s.lsn := rfl
@[simp] theorem State.modSap_sns (s : State) (f : SapX → SapX) : (s.modSap f).sns = s.sns := rfl
@[simp] theorem State.modSap_eng (s : State) (f : SapX → SapX) : (s.modSap f).eng = s.eng := rfl
@[simp] theorem State.modSap_net (s : State) (f : SapX → SapX) : (s.modSap f).net = s.net := rfl
@[simp] theorem State.modSap_metro (s : State) (f : SapX → SapX) : (s.modSap f).metro = s.metro := rfl
@[simp] theorem State.modSap_test (s : State) (f : SapX → SapX) : (s.modSap f).test = s.test := rfl
@[simp] theorem State.modSap_sig (s : State) (f : SapX → SapX) : (s.modSap f).sig = s.sig := rfl
@[simp] theorem State.modSap_snap (s : State) (f : SapX → SapX) : (s.modSap f).snap = s.snap := rfl
@[simp] theorem State.modSap_out (s : State) (f : SapX → SapX) : (s.modSap f).out = s.out := rfl
@[simp] theorem State.modSap_free (s : State) (f : SapX → SapX) : (s.modSap f).free = s.free := rfl
@[simp] theorem State.modSap_pending (s : State) (f : SapX → SapX) : (s.modSap f).pending = s.pending := rfl

/-! ### State.modMp -/

@[simp] theorem State.modMp_rd (s : State) (f : MpX → MpX) (x : Nat) : (s.modMp f).rd x = s.rd x := rfl
@[simp] theorem State.modMp_fld (s : State) (f : MpX → MpX) (x : Nat) (g : Fld) : (s.modMp f).fld x g = s.fld x g := rfl
@[simp] theorem State.modMp_regs (s : State) (f : MpX → MpX) : (s.modMp f).regs = s.regs := rfl
@[simp] theorem State.modMp_mirror (s : State) (f : MpX → MpX) : (s.modMp f).mirror = s.mirror := rfl
@[simp] theorem State.modMp_window (s : State) (f : MpX → MpX) : (s.modMp f).window = s.window := rfl
@[simp] theorem State.modMp_clk (s : State) (f : MpX → MpX) : (s.modMp f).clk = s.clk := rfl
@[simp] theorem State.modMp_link (s : State) (f : MpX → MpX) : (s.modMp f).link = s.link := rfl
@[simp] theorem State.modMp_col (s : State) (f : MpX → MpX) : (s.modMp f).col = s.col := rfl
@[simp] theorem State.modMp_host (s : State) (f : MpX → MpX) : (s.modMp f).host = s.host := rfl
@[simp] theorem State.modMp_stage (s : State) (f : MpX → MpX) : (s.modMp f).stage = s.stage := rfl
@[simp] theorem State.modMp_locks (s : State) (f : MpX → MpX) : (s.modMp f).locks = s.locks := rfl
@[simp] theorem State.modMp_err (s : State) (f : MpX → MpX) : (s.modMp f).err = s.err := rfl
@[simp] theorem State.modMp_power (s : State) (f : MpX → MpX) : (s.modMp f).power = s.power := rfl
@[simp] theorem State.modMp_flash (s : State) (f : MpX → MpX) : (s.modMp f).flash = s.flash := rfl
@[simp] theorem State.modMp_fe (s : State) (f : MpX → MpX) : (s.modMp f).fe = s.fe := rfl
@[simp] theorem State.modMp_sap (s : State) (f : MpX → MpX) : (s.modMp f).sap = s.sap := rfl
@[simp] theorem State.modMp_mp (s : State) (f : MpX → MpX) : (s.modMp f).mp = f s.mp := rfl
@[simp] theorem State.modMp_outs (s : State) (f : MpX → MpX) : (s.modMp f).outs = s.outs := rfl
@[simp] theorem State.modMp_tth (s : State) (f : MpX → MpX) : (s.modMp f).tth = s.tth := rfl
@[simp] theorem State.modMp_lsn (s : State) (f : MpX → MpX) : (s.modMp f).lsn = s.lsn := rfl
@[simp] theorem State.modMp_sns (s : State) (f : MpX → MpX) : (s.modMp f).sns = s.sns := rfl
@[simp] theorem State.modMp_eng (s : State) (f : MpX → MpX) : (s.modMp f).eng = s.eng := rfl
@[simp] theorem State.modMp_net (s : State) (f : MpX → MpX) : (s.modMp f).net = s.net := rfl
@[simp] theorem State.modMp_metro (s : State) (f : MpX → MpX) : (s.modMp f).metro = s.metro := rfl
@[simp] theorem State.modMp_test (s : State) (f : MpX → MpX) : (s.modMp f).test = s.test := rfl
@[simp] theorem State.modMp_sig (s : State) (f : MpX → MpX) : (s.modMp f).sig = s.sig := rfl
@[simp] theorem State.modMp_snap (s : State) (f : MpX → MpX) : (s.modMp f).snap = s.snap := rfl
@[simp] theorem State.modMp_out (s : State) (f : MpX → MpX) : (s.modMp f).out = s.out := rfl
@[simp] theorem State.modMp_free (s : State) (f : MpX → MpX) : (s.modMp f).free = s.free := rfl
@[simp] theorem State.modMp_pending (s : State) (f : MpX → MpX) : (s.modMp f).pending = s.pending := rfl

/-! ### State.modOutputs -/

@[simp] theorem State.modOutputs_rd (s : State) (f : OutputsX → OutputsX) (x : Nat) : (s.modOutputs f).rd x = s.rd x := rfl
@[simp] theorem State.modOutputs_fld (s : State) (f : OutputsX → OutputsX) (x : Nat) (g : Fld) : (s.modOutputs f).fld x g = s.fld x g := rfl
@[simp] theorem State.modOutputs_regs (s : State) (f : OutputsX → OutputsX) : (s.modOutputs f).regs = s.regs := rfl
@[simp] theorem State.modOutputs_mirror (s : State) (f : OutputsX → OutputsX) : (s.modOutputs f).mirror = s.mirror := rfl
@[simp] theorem State.modOutputs_window (s : State) (f : OutputsX → OutputsX) : (s.modOutputs f).window = s.window := rfl
@[simp] theorem State.modOutputs_clk (s : State) (f : OutputsX → OutputsX) : (s.modOutputs f).clk = s.clk := rfl
@[simp] theorem State.modOutputs_link (s : State) (f : OutputsX → OutputsX) : (s.modOutputs f).link = s.link := rfl
@[simp] theorem State.modOutputs_col (s : State) (f : OutputsX → OutputsX) : (s.modOutputs f).col = s.col := rfl
@[simp] theorem State.modOutputs_host (s : State) (f : OutputsX → OutputsX) : (s.modOutputs f).host = s.host := rfl
@[simp] theorem State.modOutputs_stage (s : State) (f : OutputsX → OutputsX) : (s.modOutputs f).stage = s.stage := rfl
@[simp] theorem State.modOutputs_locks (s : State) (f : OutputsX → OutputsX) : (s.modOutputs f).locks = s.locks := rfl
@[simp] theorem State.modOutputs_err (s : State) (f : OutputsX → OutputsX) : (s.modOutputs f).err = s.err := rfl
@[simp] theorem State.modOutputs_power (s : State) (f : OutputsX → OutputsX) : (s.modOutputs f).power = s.power := rfl
@[simp] theorem State.modOutputs_flash (s : State) (f : OutputsX → OutputsX) : (s.modOutputs f).flash = s.flash := rfl
@[simp] theorem State.modOutputs_fe (s : State) (f : OutputsX → OutputsX) : (s.modOutputs f).fe = s.fe := rfl
@[simp] theorem State.modOutputs_sap (s : State) (f : OutputsX → OutputsX) : (s.modOutputs f).sap = s.sap := rfl
@[simp] theorem State.modOutputs_mp (s : State) (f : OutputsX → OutputsX) : (s.modOutputs f).mp = s.mp := rfl
@[simp] theorem State.modOutputs_outs (s : State) (f : OutputsX → OutputsX) : (s.modOutputs f).outs = f s.outs := rfl
@[simp] theorem State.modOutputs_tth (s : State) (f : OutputsX → OutputsX) : (s.modOutputs f).tth = s.tth := rfl
@[simp] theorem State.modOutputs_lsn (s : State) (f : OutputsX → OutputsX) : (s.modOutputs f).lsn = s.lsn := rfl
@[simp] theorem State.modOutputs_sns (s : State) (f : OutputsX → OutputsX) : (s.modOutputs f).sns = s.sns := rfl
@[simp] theorem State.modOutputs_eng (s : State) (f : OutputsX → OutputsX) : (s.modOutputs f).eng = s.eng := rfl
@[simp] theorem State.modOutputs_net (s : State) (f : OutputsX → OutputsX) : (s.modOutputs f).net = s.net := rfl
@[simp] theorem State.modOutputs_metro (s : State) (f : OutputsX → OutputsX) : (s.modOutputs f).metro = s.metro := rfl
@[simp] theorem State.modOutputs_test (s : State) (f : OutputsX → OutputsX) : (s.modOutputs f).test = s.test := rfl
@[simp] theorem State.modOutputs_sig (s : State) (f : OutputsX → OutputsX) : (s.modOutputs f).sig = s.sig := rfl
@[simp] theorem State.modOutputs_snap (s : State) (f : OutputsX → OutputsX) : (s.modOutputs f).snap = s.snap := rfl
@[simp] theorem State.modOutputs_out (s : State) (f : OutputsX → OutputsX) : (s.modOutputs f).out = s.out := rfl
@[simp] theorem State.modOutputs_free (s : State) (f : OutputsX → OutputsX) : (s.modOutputs f).free = s.free := rfl
@[simp] theorem State.modOutputs_pending (s : State) (f : OutputsX → OutputsX) : (s.modOutputs f).pending = s.pending := rfl

/-! ### State.modTth -/

@[simp] theorem State.modTth_rd (s : State) (f : TthX → TthX) (x : Nat) : (s.modTth f).rd x = s.rd x := rfl
@[simp] theorem State.modTth_fld (s : State) (f : TthX → TthX) (x : Nat) (g : Fld) : (s.modTth f).fld x g = s.fld x g := rfl
@[simp] theorem State.modTth_regs (s : State) (f : TthX → TthX) : (s.modTth f).regs = s.regs := rfl
@[simp] theorem State.modTth_mirror (s : State) (f : TthX → TthX) : (s.modTth f).mirror = s.mirror := rfl
@[simp] theorem State.modTth_window (s : State) (f : TthX → TthX) : (s.modTth f).window = s.window := rfl
@[simp] theorem State.modTth_clk (s : State) (f : TthX → TthX) : (s.modTth f).clk = s.clk := rfl
@[simp] theorem State.modTth_link (s : State) (f : TthX → TthX) : (s.modTth f).link = s.link := rfl
@[simp] theorem State.modTth_col (s : State) (f : TthX → TthX) : (s.modTth f).col = s.col := rfl
@[simp] theorem State.modTth_host (s : State) (f : TthX → TthX) : (s.modTth f).host = s.host := rfl
@[simp] theorem State.modTth_stage (s : State) (f : TthX → TthX) : (s.modTth f).stage = s.stage := rfl
@[simp] theorem State.modTth_locks (s : State) (f : TthX → TthX) : (s.modTth f).locks = s.locks := rfl
@[simp] theorem State.modTth_err (s : State) (f : TthX → TthX) : (s.modTth f).err = s.err := rfl
@[simp] theorem State.modTth_power (s : State) (f : TthX → TthX) : (s.modTth f).power = s.power := rfl
@[simp] theorem State.modTth_flash (s : State) (f : TthX → TthX) : (s.modTth f).flash = s.flash := rfl
@[simp] theorem State.modTth_fe (s : State) (f : TthX → TthX) : (s.modTth f).fe = s.fe := rfl
@[simp] theorem State.modTth_sap (s : State) (f : TthX → TthX) : (s.modTth f).sap = s.sap := rfl
@[simp] theorem State.modTth_mp (s : State) (f : TthX → TthX) : (s.modTth f).mp = s.mp := rfl
@[simp] theorem State.modTth_outs (s : State) (f : TthX → TthX) : (s.modTth f).outs = s.outs := rfl
@[simp] theorem State.modTth_tth (s : State) (f : TthX → TthX) : (s.modTth f).tth = f s.tth := rfl
@[simp] theorem State.modTth_lsn (s : State) (f : TthX → TthX) : (s.modTth f).lsn = s.lsn := rfl
@[simp] theorem State.modTth_sns (s : State) (f : TthX → TthX) : (s.modTth f).sns = s.sns := rfl
@[simp] theorem State.modTth_eng (s : State) (f : TthX → TthX) : (s.modTth f).eng = s.eng := rfl
@[simp] theorem State.modTth_net (s : State) (f : TthX → TthX) : (s.modTth f).net = s.net := rfl
@[simp] theorem State.modTth_metro (s : State) (f : TthX → TthX) : (s.modTth f).metro = s.metro := rfl
@[simp] theorem State.modTth_test (s : State) (f : TthX → TthX) : (s.modTth f).test = s.test := rfl
@[simp] theorem State.modTth_sig (s : State) (f : TthX → TthX) : (s.modTth f).sig = s.sig := rfl
@[simp] theorem State.modTth_snap (s : State) (f : TthX → TthX) : (s.modTth f).snap = s.snap := rfl
@[simp] theorem State.modTth_out (s : State) (f : TthX → TthX) : (s.modTth f).out = s.out := rfl
@[simp] theorem State.modTth_free (s : State) (f : TthX → TthX) : (s.modTth f).free = s.free := rfl
@[simp] theorem State.modTth_pending (s : State) (f : TthX → TthX) : (s.modTth f).pending = s.pending := rfl

/-! ### State.modLsn -/

@[simp] theorem State.modLsn_rd (s : State) (f : LsnX → LsnX) (x : Nat) : (s.modLsn f).rd x = s.rd x := rfl
@[simp] theorem State.modLsn_fld (s : State) (f : LsnX → LsnX) (x : Nat) (g : Fld) : (s.modLsn f).fld x g = s.fld x g := rfl
@[simp] theorem State.modLsn_regs (s : State) (f : LsnX → LsnX) : (s.modLsn f).regs = s.regs := rfl
@[simp] theorem State.modLsn_mirror (s : State) (f : LsnX → LsnX) : (s.modLsn f).mirror = s.mirror := rfl
@[simp] theorem State.modLsn_window (s : State) (f : LsnX → LsnX) : (s.modLsn f).window = s.window := rfl
@[simp] theorem State.modLsn_clk (s : State) (f : LsnX → LsnX) : (s.modLsn f).clk = s.clk := rfl
@[simp] theorem State.modLsn_link (s : State) (f : LsnX → LsnX) : (s.modLsn f).link = s.link := rfl
@[simp] theorem State.modLsn_col (s : State) (f : LsnX → LsnX) : (s.modLsn f).col = s.col := rfl
@[simp] theorem State.modLsn_host (s : State) (f : LsnX → LsnX) : (s.modLsn f).host = s.host := rfl
@[simp] theorem State.modLsn_stage (s : State) (f : LsnX → LsnX) : (s.modLsn f).stage = s.stage := rfl
@[simp] theorem State.modLsn_locks (s : State) (f : LsnX → LsnX) : (s.modLsn f).locks = s.locks := rfl
@[simp] theorem State.modLsn_err (s : State) (f : LsnX → LsnX) : (s.modLsn f).err = s.err := rfl
@[simp] theorem State.modLsn_power (s : State) (f : LsnX → LsnX) : (s.modLsn f).power = s.power := rfl
@[simp] theorem State.modLsn_flash (s : State) (f : LsnX → LsnX) : (s.modLsn f).flash = s.flash := rfl
@[simp] theorem State.modLsn_fe (s : State) (f : LsnX → LsnX) : (s.modLsn f).fe = s.fe := rfl
@[simp] theorem State.modLsn_sap (s : State) (f : LsnX → LsnX) : (s.modLsn f).sap = s.sap := rfl
@[simp] theorem State.modLsn_mp (s : State) (f : LsnX → LsnX) : (s.modLsn f).mp = s.mp := rfl
@[simp] theorem State.modLsn_outs (s : State) (f : LsnX → LsnX) : (s.modLsn f).outs = s.outs := rfl
@[simp] theorem State.modLsn_tth (s : State) (f : LsnX → LsnX) : (s.modLsn f).tth = s.tth := rfl
@[simp] theorem State.modLsn_lsn (s : State) (f : LsnX → LsnX) : (s.modLsn f).lsn = f s.lsn := rfl
@[simp] theorem State.modLsn_sns (s : State) (f : LsnX → LsnX) : (s.modLsn f).sns = s.sns := rfl
@[simp] theorem State.modLsn_eng (s : State) (f : LsnX → LsnX) : (s.modLsn f).eng = s.eng := rfl
@[simp] theorem State.modLsn_net (s : State) (f : LsnX → LsnX) : (s.modLsn f).net = s.net := rfl
@[simp] theorem State.modLsn_metro (s : State) (f : LsnX → LsnX) : (s.modLsn f).metro = s.metro := rfl
@[simp] theorem State.modLsn_test (s : State) (f : LsnX → LsnX) : (s.modLsn f).test = s.test := rfl
@[simp] theorem State.modLsn_sig (s : State) (f : LsnX → LsnX) : (s.modLsn f).sig = s.sig := rfl
@[simp] theorem State.modLsn_snap (s : State) (f : LsnX → LsnX) : (s.modLsn f).snap = s.snap := rfl
@[simp] theorem State.modLsn_out (s : State) (f : LsnX → LsnX) : (s.modLsn f).out = s.out := rfl
@[simp] theorem State.modLsn_free (s : State) (f : LsnX → LsnX) : (s.modLsn f).free = s.free := rfl
@[simp] theorem State.modLsn_pending (s : State) (f : LsnX → LsnX) : (s.modLsn f).pending = s.pending := rfl

/-! ### State.modSense -/

@[simp] theorem State.modSense_rd (s : State) (f : SenseX → SenseX) (x : Nat) : (s.modSense f).rd x = s.rd x := rfl
@[simp] theorem State.modSense_fld (s : State) (f : SenseX → SenseX) (x : Nat) (g : Fld) : (s.modSense f).fld x g = s.fld x g := rfl
@[simp] theorem State.modSense_regs (s : State) (f : SenseX → SenseX) : (s.modSense f).regs = s.regs := rfl
@[simp] theorem State.modSense_mirror (s : State) (f : SenseX → SenseX) : (s.modSense f).mirror = s.mirror := rfl
@[simp] theorem State.modSense_window (s : State) (f : SenseX → SenseX) : (s.modSense f).window = s.window := rfl
@[simp] theorem State.modSense_clk (s : State) (f : SenseX → SenseX) : (s.modSense f).clk = s.clk := rfl
@[simp] theorem State.modSense_link (s : State) (f : SenseX → SenseX) : (s.modSense f).link = s.link := rfl
@[simp] theorem State.modSense_col (s : State) (f : SenseX → SenseX) : (s.modSense f).col = s.col := rfl
@[simp] theorem State.modSense_host (s : State) (f : SenseX → SenseX) : (s.modSense f).host = s.host := rfl
@[simp] theorem State.modSense_stage (s : State) (f : SenseX → SenseX) : (s.modSense f).stage = s.stage := rfl
@[simp] theorem State.modSense_locks (s : State) (f : SenseX → SenseX) : (s.modSense f).locks = s.locks := rfl
@[simp] theorem State.modSense_err (s : State) (f : SenseX → SenseX) : (s.modSense f).err = s.err := rfl
@[simp] theorem State.modSense_power (s : State) (f : SenseX → SenseX) : (s.modSense f).power = s.power := rfl
@[simp] theorem State.modSense_flash (s : State) (f : SenseX → SenseX) : (s.modSense f).flash = s.flash := rfl
@[simp] theorem State.modSense_fe (s : State) (f : SenseX → SenseX) : (s.modSense f).fe = s.fe := rfl
@[simp] theorem State.modSense_sap (s : State) (f : SenseX → SenseX) : (s.modSense f).sap = s.sap := rfl
@[simp] theorem State.modSense_mp (s : State) (f : SenseX → SenseX) : (s.modSense f).mp = s.mp := rfl
@[simp] theorem State.modSense_outs (s : State) (f : SenseX → SenseX) : (s.modSense f).outs = s.outs := rfl
@[simp] theorem State.modSense_tth (s : State) (f : SenseX → SenseX) : (s.modSense f).tth = s.tth := rfl
@[simp] theorem State.modSense_lsn (s : State) (f : SenseX → SenseX) : (s.modSense f).lsn = s.lsn := rfl
@[simp] theorem State.modSense_sns (s : State) (f : SenseX → SenseX) : (s.modSense f).sns = f s.sns := rfl
@[simp] theorem State.modSense_eng (s : State) (f : SenseX → SenseX) : (s.modSense f).eng = s.eng := rfl
@[simp] theorem State.modSense_net (s : State) (f : SenseX → SenseX) : (s.modSense f).net = s.net := rfl
@[simp] theorem State.modSense_metro (s : State) (f : SenseX → SenseX) : (s.modSense f).metro = s.metro := rfl
@[simp] theorem State.modSense_test (s : State) (f : SenseX → SenseX) : (s.modSense f).test = s.test := rfl
@[simp] theorem State.modSense_sig (s : State) (f : SenseX → SenseX) : (s.modSense f).sig = s.sig := rfl
@[simp] theorem State.modSense_snap (s : State) (f : SenseX → SenseX) : (s.modSense f).snap = s.snap := rfl
@[simp] theorem State.modSense_out (s : State) (f : SenseX → SenseX) : (s.modSense f).out = s.out := rfl
@[simp] theorem State.modSense_free (s : State) (f : SenseX → SenseX) : (s.modSense f).free = s.free := rfl
@[simp] theorem State.modSense_pending (s : State) (f : SenseX → SenseX) : (s.modSense f).pending = s.pending := rfl

/-! ### State.modEngines -/

@[simp] theorem State.modEngines_rd (s : State) (f : EnginesX → EnginesX) (x : Nat) : (s.modEngines f).rd x = s.rd x := rfl
@[simp] theorem State.modEngines_fld (s : State) (f : EnginesX → EnginesX) (x : Nat) (g : Fld) : (s.modEngines f).fld x g = s.fld x g := rfl
@[simp] theorem State.modEngines_regs (s : State) (f : EnginesX → EnginesX) : (s.modEngines f).regs = s.regs := rfl
@[simp] theorem State.modEngines_mirror (s : State) (f : EnginesX → EnginesX) : (s.modEngines f).mirror = s.mirror := rfl
@[simp] theorem State.modEngines_window (s : State) (f : EnginesX → EnginesX) : (s.modEngines f).window = s.window := rfl
@[simp] theorem State.modEngines_clk (s : State) (f : EnginesX → EnginesX) : (s.modEngines f).clk = s.clk := rfl
@[simp] theorem State.modEngines_link (s : State) (f : EnginesX → EnginesX) : (s.modEngines f).link = s.link := rfl
@[simp] theorem State.modEngines_col (s : State) (f : EnginesX → EnginesX) : (s.modEngines f).col = s.col := rfl
@[simp] theorem State.modEngines_host (s : State) (f : EnginesX → EnginesX) : (s.modEngines f).host = s.host := rfl
@[simp] theorem State.modEngines_stage (s : State) (f : EnginesX → EnginesX) : (s.modEngines f).stage = s.stage := rfl
@[simp] theorem State.modEngines_locks (s : State) (f : EnginesX → EnginesX) : (s.modEngines f).locks = s.locks := rfl
@[simp] theorem State.modEngines_err (s : State) (f : EnginesX → EnginesX) : (s.modEngines f).err = s.err := rfl
@[simp] theorem State.modEngines_power (s : State) (f : EnginesX → EnginesX) : (s.modEngines f).power = s.power := rfl
@[simp] theorem State.modEngines_flash (s : State) (f : EnginesX → EnginesX) : (s.modEngines f).flash = s.flash := rfl
@[simp] theorem State.modEngines_fe (s : State) (f : EnginesX → EnginesX) : (s.modEngines f).fe = s.fe := rfl
@[simp] theorem State.modEngines_sap (s : State) (f : EnginesX → EnginesX) : (s.modEngines f).sap = s.sap := rfl
@[simp] theorem State.modEngines_mp (s : State) (f : EnginesX → EnginesX) : (s.modEngines f).mp = s.mp := rfl
@[simp] theorem State.modEngines_outs (s : State) (f : EnginesX → EnginesX) : (s.modEngines f).outs = s.outs := rfl
@[simp] theorem State.modEngines_tth (s : State) (f : EnginesX → EnginesX) : (s.modEngines f).tth = s.tth := rfl
@[simp] theorem State.modEngines_lsn (s : State) (f : EnginesX → EnginesX) : (s.modEngines f).lsn = s.lsn := rfl
@[simp] theorem State.modEngines_sns (s : State) (f : EnginesX → EnginesX) : (s.modEngines f).sns = s.sns := rfl
@[simp] theorem State.modEngines_eng (s : State) (f : EnginesX → EnginesX) : (s.modEngines f).eng = f s.eng := rfl
@[simp] theorem State.modEngines_net (s : State) (f : EnginesX → EnginesX) : (s.modEngines f).net = s.net := rfl
@[simp] theorem State.modEngines_metro (s : State) (f : EnginesX → EnginesX) : (s.modEngines f).metro = s.metro := rfl
@[simp] theorem State.modEngines_test (s : State) (f : EnginesX → EnginesX) : (s.modEngines f).test = s.test := rfl
@[simp] theorem State.modEngines_sig (s : State) (f : EnginesX → EnginesX) : (s.modEngines f).sig = s.sig := rfl
@[simp] theorem State.modEngines_snap (s : State) (f : EnginesX → EnginesX) : (s.modEngines f).snap = s.snap := rfl
@[simp] theorem State.modEngines_out (s : State) (f : EnginesX → EnginesX) : (s.modEngines f).out = s.out := rfl
@[simp] theorem State.modEngines_free (s : State) (f : EnginesX → EnginesX) : (s.modEngines f).free = s.free := rfl
@[simp] theorem State.modEngines_pending (s : State) (f : EnginesX → EnginesX) : (s.modEngines f).pending = s.pending := rfl

/-! ### State.modNet -/

@[simp] theorem State.modNet_rd (s : State) (f : NetX → NetX) (x : Nat) : (s.modNet f).rd x = s.rd x := rfl
@[simp] theorem State.modNet_fld (s : State) (f : NetX → NetX) (x : Nat) (g : Fld) : (s.modNet f).fld x g = s.fld x g := rfl
@[simp] theorem State.modNet_regs (s : State) (f : NetX → NetX) : (s.modNet f).regs = s.regs := rfl
@[simp] theorem State.modNet_mirror (s : State) (f : NetX → NetX) : (s.modNet f).mirror = s.mirror := rfl
@[simp] theorem State.modNet_window (s : State) (f : NetX → NetX) : (s.modNet f).window = s.window := rfl
@[simp] theorem State.modNet_clk (s : State) (f : NetX → NetX) : (s.modNet f).clk = s.clk := rfl
@[simp] theorem State.modNet_link (s : State) (f : NetX → NetX) : (s.modNet f).link = s.link := rfl
@[simp] theorem State.modNet_col (s : State) (f : NetX → NetX) : (s.modNet f).col = s.col := rfl
@[simp] theorem State.modNet_host (s : State) (f : NetX → NetX) : (s.modNet f).host = s.host := rfl
@[simp] theorem State.modNet_stage (s : State) (f : NetX → NetX) : (s.modNet f).stage = s.stage := rfl
@[simp] theorem State.modNet_locks (s : State) (f : NetX → NetX) : (s.modNet f).locks = s.locks := rfl
@[simp] theorem State.modNet_err (s : State) (f : NetX → NetX) : (s.modNet f).err = s.err := rfl
@[simp] theorem State.modNet_power (s : State) (f : NetX → NetX) : (s.modNet f).power = s.power := rfl
@[simp] theorem State.modNet_flash (s : State) (f : NetX → NetX) : (s.modNet f).flash = s.flash := rfl
@[simp] theorem State.modNet_fe (s : State) (f : NetX → NetX) : (s.modNet f).fe = s.fe := rfl
@[simp] theorem State.modNet_sap (s : State) (f : NetX → NetX) : (s.modNet f).sap = s.sap := rfl
@[simp] theorem State.modNet_mp (s : State) (f : NetX → NetX) : (s.modNet f).mp = s.mp := rfl
@[simp] theorem State.modNet_outs (s : State) (f : NetX → NetX) : (s.modNet f).outs = s.outs := rfl
@[simp] theorem State.modNet_tth (s : State) (f : NetX → NetX) : (s.modNet f).tth = s.tth := rfl
@[simp] theorem State.modNet_lsn (s : State) (f : NetX → NetX) : (s.modNet f).lsn = s.lsn := rfl
@[simp] theorem State.modNet_sns (s : State) (f : NetX → NetX) : (s.modNet f).sns = s.sns := rfl
@[simp] theorem State.modNet_eng (s : State) (f : NetX → NetX) : (s.modNet f).eng = s.eng := rfl
@[simp] theorem State.modNet_net (s : State) (f : NetX → NetX) : (s.modNet f).net = f s.net := rfl
@[simp] theorem State.modNet_metro (s : State) (f : NetX → NetX) : (s.modNet f).metro = s.metro := rfl
@[simp] theorem State.modNet_test (s : State) (f : NetX → NetX) : (s.modNet f).test = s.test := rfl
@[simp] theorem State.modNet_sig (s : State) (f : NetX → NetX) : (s.modNet f).sig = s.sig := rfl
@[simp] theorem State.modNet_snap (s : State) (f : NetX → NetX) : (s.modNet f).snap = s.snap := rfl
@[simp] theorem State.modNet_out (s : State) (f : NetX → NetX) : (s.modNet f).out = s.out := rfl
@[simp] theorem State.modNet_free (s : State) (f : NetX → NetX) : (s.modNet f).free = s.free := rfl
@[simp] theorem State.modNet_pending (s : State) (f : NetX → NetX) : (s.modNet f).pending = s.pending := rfl

/-! ### State.modMetro -/

@[simp] theorem State.modMetro_rd (s : State) (f : MetroX → MetroX) (x : Nat) : (s.modMetro f).rd x = s.rd x := rfl
@[simp] theorem State.modMetro_fld (s : State) (f : MetroX → MetroX) (x : Nat) (g : Fld) : (s.modMetro f).fld x g = s.fld x g := rfl
@[simp] theorem State.modMetro_regs (s : State) (f : MetroX → MetroX) : (s.modMetro f).regs = s.regs := rfl
@[simp] theorem State.modMetro_mirror (s : State) (f : MetroX → MetroX) : (s.modMetro f).mirror = s.mirror := rfl
@[simp] theorem State.modMetro_window (s : State) (f : MetroX → MetroX) : (s.modMetro f).window = s.window := rfl
@[simp] theorem State.modMetro_clk (s : State) (f : MetroX → MetroX) : (s.modMetro f).clk = s.clk := rfl
@[simp] theorem State.modMetro_link (s : State) (f : MetroX → MetroX) : (s.modMetro f).link = s.link := rfl
@[simp] theorem State.modMetro_col (s : State) (f : MetroX → MetroX) : (s.modMetro f).col = s.col := rfl
@[simp] theorem State.modMetro_host (s : State) (f : MetroX → MetroX) : (s.modMetro f).host = s.host := rfl
@[simp] theorem State.modMetro_stage (s : State) (f : MetroX → MetroX) : (s.modMetro f).stage = s.stage := rfl
@[simp] theorem State.modMetro_locks (s : State) (f : MetroX → MetroX) : (s.modMetro f).locks = s.locks := rfl
@[simp] theorem State.modMetro_err (s : State) (f : MetroX → MetroX) : (s.modMetro f).err = s.err := rfl
@[simp] theorem State.modMetro_power (s : State) (f : MetroX → MetroX) : (s.modMetro f).power = s.power := rfl
@[simp] theorem State.modMetro_flash (s : State) (f : MetroX → MetroX) : (s.modMetro f).flash = s.flash := rfl
@[simp] theorem State.modMetro_fe (s : State) (f : MetroX → MetroX) : (s.modMetro f).fe = s.fe := rfl
@[simp] theorem State.modMetro_sap (s : State) (f : MetroX → MetroX) : (s.modMetro f).sap = s.sap := rfl
@[simp] theorem State.modMetro_mp (s : State) (f : MetroX → MetroX) : (s.modMetro f).mp = s.mp := rfl
@[simp] theorem State.modMetro_outs (s : State) (f : MetroX → MetroX) : (s.modMetro f).outs = s.outs := rfl
@[simp] theorem State.modMetro_tth (s : State) (f : MetroX → MetroX) : (s.modMetro f).tth = s.tth := rfl
@[simp] theorem State.modMetro_lsn (s : State) (f : MetroX → MetroX) : (s.modMetro f).lsn = s.lsn := rfl
@[simp] theorem State.modMetro_sns (s : State) (f : MetroX → MetroX) : (s.modMetro f).sns = s.sns := rfl
@[simp] theorem State.modMetro_eng (s : State) (f : MetroX → MetroX) : (s.modMetro f).eng = s.eng := rfl
@[simp] theorem State.modMetro_net (s : State) (f : MetroX → MetroX) : (s.modMetro f).net = s.net := rfl
@[simp] theorem State.modMetro_metro (s : State) (f : MetroX → MetroX) : (s.modMetro f).metro = f s.metro := rfl
@[simp] theorem State.modMetro_test (s : State) (f : MetroX → MetroX) : (s.modMetro f).test = s.test := rfl
@[simp] theorem State.modMetro_sig (s : State) (f : MetroX → MetroX) : (s.modMetro f).sig = s.sig := rfl
@[simp] theorem State.modMetro_snap (s : State) (f : MetroX → MetroX) : (s.modMetro f).snap = s.snap := rfl
@[simp] theorem State.modMetro_out (s : State) (f : MetroX → MetroX) : (s.modMetro f).out = s.out := rfl
@[simp] theorem State.modMetro_free (s : State) (f : MetroX → MetroX) : (s.modMetro f).free = s.free := rfl
@[simp] theorem State.modMetro_pending (s : State) (f : MetroX → MetroX) : (s.modMetro f).pending = s.pending := rfl

/-! ### State.modTest -/

@[simp] theorem State.modTest_rd (s : State) (f : TestX → TestX) (x : Nat) : (s.modTest f).rd x = s.rd x := rfl
@[simp] theorem State.modTest_fld (s : State) (f : TestX → TestX) (x : Nat) (g : Fld) : (s.modTest f).fld x g = s.fld x g := rfl
@[simp] theorem State.modTest_regs (s : State) (f : TestX → TestX) : (s.modTest f).regs = s.regs := rfl
@[simp] theorem State.modTest_mirror (s : State) (f : TestX → TestX) : (s.modTest f).mirror = s.mirror := rfl
@[simp] theorem State.modTest_window (s : State) (f : TestX → TestX) : (s.modTest f).window = s.window := rfl
@[simp] theorem State.modTest_clk (s : State) (f : TestX → TestX) : (s.modTest f).clk = s.clk := rfl
@[simp] theorem State.modTest_link (s : State) (f : TestX → TestX) : (s.modTest f).link = s.link := rfl
@[simp] theorem State.modTest_col (s : State) (f : TestX → TestX) : (s.modTest f).col = s.col := rfl
@[simp] theorem State.modTest_host (s : State) (f : TestX → TestX) : (s.modTest f).host = s.host := rfl
@[simp] theorem State.modTest_stage (s : State) (f : TestX → TestX) : (s.modTest f).stage = s.stage := rfl
@[simp] theorem State.modTest_locks (s : State) (f : TestX → TestX) : (s.modTest f).locks = s.locks := rfl
@[simp] theorem State.modTest_err (s : State) (f : TestX → TestX) : (s.modTest f).err = s.err := rfl
@[simp] theorem State.modTest_power (s : State) (f : TestX → TestX) : (s.modTest f).power = s.power := rfl
@[simp] theorem State.modTest_flash (s : State) (f : TestX → TestX) : (s.modTest f).flash = s.flash := rfl
@[simp] theorem State.modTest_fe (s : State) (f : TestX → TestX) : (s.modTest f).fe = s.fe := rfl
@[simp] theorem State.modTest_sap (s : State) (f : TestX → TestX) : (s.modTest f).sap = s.sap := rfl
@[simp] theorem State.modTest_mp (s : State) (f : TestX → TestX) : (s.modTest f).mp = s.mp := rfl
@[simp] theorem State.modTest_outs (s : State) (f : TestX → TestX) : (s.modTest f).outs = s.outs := rfl
@[simp] theorem State.modTest_tth (s : State) (f : TestX → TestX) : (s.modTest f).tth = s.tth := rfl
@[simp] theorem State.modTest_lsn (s : State) (f : TestX → TestX) : (s.modTest f).lsn = s.lsn := rfl
@[simp] theorem State.modTest_sns (s : State) (f : TestX → TestX) : (s.modTest f).sns = s.sns := rfl
@[simp] theorem State.modTest_eng (s : State) (f : TestX → TestX) : (s.modTest f).eng = s.eng := rfl
@[simp] theorem State.modTest_net (s : State) (f : TestX → TestX) : (s.modTest f).net = s.net := rfl
@[simp] theorem State.modTest_metro (s : State) (f : TestX → TestX) : (s.modTest f).metro = s.metro := rfl
@[simp] theorem State.modTest_test (s : State) (f : TestX → TestX) : (s.modTest f).test = f s.test := rfl
@[simp] theorem State.modTest_sig (s : State) (f : TestX → TestX) : (s.modTest f).sig = s.sig := rfl
@[simp] theorem State.modTest_snap (s : State) (f : TestX → TestX) : (s.modTest f).snap = s.snap := rfl
@[simp] theorem State.modTest_out (s : State) (f : TestX → TestX) : (s.modTest f).out = s.out := rfl
@[simp] theorem State.modTest_free (s : State) (f : TestX → TestX) : (s.modTest f).free = s.free := rfl
@[simp] theorem State.modTest_pending (s : State) (f : TestX → TestX) : (s.modTest f).pending = s.pending := rfl

/-! ### State.modSig -/

@[simp] theorem State.modSig_rd (s : State) (f : SigX → SigX) (x : Nat) : (s.modSig f).rd x = s.rd x := rfl
@[simp] theorem State.modSig_fld (s : State) (f : SigX → SigX) (x : Nat) (g : Fld) : (s.modSig f).fld x g = s.fld x g := rfl
@[simp] theorem State.modSig_regs (s : State) (f : SigX → SigX) : (s.modSig f).regs = s.regs := rfl
@[simp] theorem State.modSig_mirror (s : State) (f : SigX → SigX) : (s.modSig f).mirror = s.mirror := rfl
@[simp] theorem State.modSig_window (s : State) (f : SigX → SigX) : (s.modSig f).window = s.window := rfl
@[simp] theorem State.modSig_clk (s : State) (f : SigX → SigX) : (s.modSig f).clk = s.clk := rfl
@[simp] theorem State.modSig_link (s : State) (f : SigX → SigX) : (s.modSig f).link = s.link := rfl
@[simp] theorem State.modSig_col (s : State) (f : SigX → SigX) : (s.modSig f).col = s.col := rfl
@[simp] theorem State.modSig_host (s : State) (f : SigX → SigX) : (s.modSig f).host = s.host := rfl
@[simp] theorem State.modSig_stage (s : State) (f : SigX → SigX) : (s.modSig f).stage = s.stage := rfl
@[simp] theorem State.modSig_locks (s : State) (f : SigX → SigX) : (s.modSig f).locks = s.locks := rfl
@[simp] theorem State.modSig_err (s : State) (f : SigX → SigX) : (s.modSig f).err = s.err := rfl
@[simp] theorem State.modSig_power (s : State) (f : SigX → SigX) : (s.modSig f).power = s.power := rfl
@[simp] theorem State.modSig_flash (s : State) (f : SigX → SigX) : (s.modSig f).flash = s.flash := rfl
@[simp] theorem State.modSig_fe (s : State) (f : SigX → SigX) : (s.modSig f).fe = s.fe := rfl
@[simp] theorem State.modSig_sap (s : State) (f : SigX → SigX) : (s.modSig f).sap = s.sap := rfl
@[simp] theorem State.modSig_mp (s : State) (f : SigX → SigX) : (s.modSig f).mp = s.mp := rfl
@[simp] theorem State.modSig_outs (s : State) (f : SigX → SigX) : (s.modSig f).outs = s.outs := rfl
@[simp] theorem State.modSig_tth (s : State) (f : SigX → SigX) : (s.modSig f).tth = s.tth := rfl
@[simp] theorem State.modSig_lsn (s : State) (f : SigX → SigX) : (s.modSig f).lsn = s.lsn := rfl
@[simp] theorem State.modSig_sns (s : State) (f : SigX → SigX) : (s.modSig f).sns = s.sns := rfl
@[simp] theorem State.modSig_eng (s : State) (f : SigX → SigX) : (s.modSig f).eng = s.eng := rfl
@[simp] theorem State.modSig_net (s : State) (f : SigX → SigX) : (s.modSig f).net = s.net := rfl
@[simp] theorem State.modSig_metro (s : State) (f : SigX → SigX) : (s.modSig f).metro = s.metro := rfl
@[simp] theorem State.modSig_test (s : State) (f : SigX → SigX) : (s.modSig f).test = s.test := rfl
@[simp] theorem State.modSig_sig (s : State) (f : SigX → SigX) : (s.modSig f).sig = f s.sig := rfl
@[simp] theorem State.modSig_snap (s : State) (f : SigX → SigX) : (s.modSig f).snap = s.snap := rfl
@[simp] theorem State.modSig_out (s : State) (f : SigX → SigX) : (s.modSig f).out = s.out := rfl
@[simp] theorem State.modSig_free (s : State) (f : SigX → SigX) : (s.modSig f).free = s.free := rfl
@[simp] theorem State.modSig_pending (s : State) (f : SigX → SigX) : (s.modSig f).pending = s.pending := rfl

/-! ### State.modSnap -/

@[simp] theorem State.modSnap_rd (s : State) (f : Option (Nat × RegFile) → Option (Nat × RegFile)) (x : Nat) : (s.modSnap f).rd x = s.rd x := rfl
@[simp] theorem State.modSnap_fld (s : State) (f : Option (Nat × RegFile) → Option (Nat × RegFile)) (x : Nat) (g : Fld) : (s.modSnap f).fld x g = s.fld x g := rfl
@[simp] theorem State.modSnap_regs (s : State) (f : Option (Nat × RegFile) → Option (Nat × RegFile)) : (s.modSnap f).regs = s.regs := rfl
@[simp] theorem State.modSnap_mirror (s : State) (f : Option (Nat × RegFile) → Option (Nat × RegFile)) : (s.modSnap f).mirror = s.mirror := rfl
@[simp] theorem State.modSnap_window (s : State) (f : Option (Nat × RegFile) → Option (Nat × RegFile)) : (s.modSnap f).window = s.window := rfl
@[simp] theorem State.modSnap_clk (s : State) (f : Option (Nat × RegFile) → Option (Nat × RegFile)) : (s.modSnap f).clk = s.clk := rfl
@[simp] theorem State.modSnap_link (s : State) (f : Option (Nat × RegFile) → Option (Nat × RegFile)) : (s.modSnap f).link = s.link := rfl
@[simp] theorem State.modSnap_col (s : State) (f : Option (Nat × RegFile) → Option (Nat × RegFile)) : (s.modSnap f).col = s.col := rfl
@[simp] theorem State.modSnap_host (s : State) (f : Option (Nat × RegFile) → Option (Nat × RegFile)) : (s.modSnap f).host = s.host := rfl
@[simp] theorem State.modSnap_stage (s : State) (f : Option (Nat × RegFile) → Option (Nat × RegFile)) : (s.modSnap f).stage = s.stage := rfl
@[simp] theorem State.modSnap_locks (s : State) (f : Option (Nat × RegFile) → Option (Nat × RegFile)) : (s.modSnap f).locks = s.locks := rfl
@[simp] theorem State.modSnap_err (s : State) (f : Option (Nat × RegFile) → Option (Nat × RegFile)) : (s.modSnap f).err = s.err := rfl
@[simp] theorem State.modSnap_power (s : State) (f : Option (Nat × RegFile) → Option (Nat × RegFile)) : (s.modSnap f).power = s.power := rfl
@[simp] theorem State.modSnap_flash (s : State) (f : Option (Nat × RegFile) → Option (Nat × RegFile)) : (s.modSnap f).flash = s.flash := rfl
@[simp] theorem State.modSnap_fe (s : State) (f : Option (Nat × RegFile) → Option (Nat × RegFile)) : (s.modSnap f).fe = s.fe := rfl
@[simp] theorem State.modSnap_sap (s : State) (f : Option (Nat × RegFile) → Option (Nat × RegFile)) : (s.modSnap f).sap = s.sap := rfl
@[simp] theorem State.modSnap_mp (s : State) (f : Option (Nat × RegFile) → Option (Nat × RegFile)) : (s.modSnap f).mp = s.mp := rfl
@[simp] theorem State.modSnap_outs (s : State) (f : Option (Nat × RegFile) → Option (Nat × RegFile)) : (s.modSnap f).outs = s.outs := rfl
@[simp] theorem State.modSnap_tth (s : State) (f : Option (Nat × RegFile) → Option (Nat × RegFile)) : (s.modSnap f).tth = s.tth := rfl
@[simp] theorem State.modSnap_lsn (s : State) (f : Option (Nat × RegFile) → Option (Nat × RegFile)) : (s.modSnap f).lsn = s.lsn := rfl
@[simp] theorem State.modSnap_sns (s : State) (f : Option (Nat × RegFile) → Option (Nat × RegFile)) : (s.modSnap f).sns = s.sns := rfl
@[simp] theorem State.modSnap_eng (s : State) (f : Option (Nat × RegFile) → Option (Nat × RegFile)) : (s.modSnap f).eng = s.eng := rfl
@[simp] theorem State.modSnap_net (s : State) (f : Option (Nat × RegFile) → Option (Nat × RegFile)) : (s.modSnap f).net = s.net := rfl
@[simp] theorem State.modSnap_metro (s : State) (f : Option (Nat × RegFile) → Option (Nat × RegFile)) : (s.modSnap f).metro = s.metro := rfl
@[simp] theorem State.modSnap_test (s : State) (f : Option (Nat × RegFile) → Option (Nat × RegFile)) : (s.modSnap f).test = s.test := rfl
@[simp] theorem State.modSnap_sig (s : State) (f : Option (Nat × RegFile) → Option (Nat × RegFile)) : (s.modSnap f).sig = s.sig := rfl
@[simp] theorem State.modSnap_snap (s : State) (f : Option (Nat × RegFile) → Option (Nat × RegFile)) : (s.modSnap f).snap = f s.snap := rfl
@[simp] theorem State.modSnap_out (s : State) (f : Option (Nat × RegFile) → Option (Nat × RegFile)) : (s.modSnap f).out = s.out := rfl
@[simp] theorem State.modSnap_free (s : State) (f : Option (Nat × RegFile) → Option (Nat × RegFile)) : (s.modSnap f).free = s.free := rfl
@[simp] theorem State.modSnap_pending (s : State) (f : Option (Nat × RegFile) → Option (Nat × RegFile)) : (s.modSnap f).pending = s.pending := rfl

/-! ### State.emit -/

@[simp] theorem State.emit_rd (s : State) (o : Output) (x : Nat) : (s.emit o).rd x = s.rd x := rfl
@[simp] theorem State.emit_fld (s : State) (o : Output) (x : Nat) (g : Fld) : (s.emit o).fld x g = s.fld x g := rfl
@[simp] theorem State.emit_regs (s : State) (o : Output) : (s.emit o).regs = s.regs := rfl
@[simp] theorem State.emit_mirror (s : State) (o : Output) : (s.emit o).mirror = s.mirror := rfl
@[simp] theorem State.emit_window (s : State) (o : Output) : (s.emit o).window = s.window := rfl
@[simp] theorem State.emit_clk (s : State) (o : Output) : (s.emit o).clk = s.clk := rfl
@[simp] theorem State.emit_link (s : State) (o : Output) : (s.emit o).link = s.link := rfl
@[simp] theorem State.emit_col (s : State) (o : Output) : (s.emit o).col = s.col := rfl
@[simp] theorem State.emit_host (s : State) (o : Output) : (s.emit o).host = s.host := rfl
@[simp] theorem State.emit_stage (s : State) (o : Output) : (s.emit o).stage = s.stage := rfl
@[simp] theorem State.emit_locks (s : State) (o : Output) : (s.emit o).locks = s.locks := rfl
@[simp] theorem State.emit_err (s : State) (o : Output) : (s.emit o).err = s.err := rfl
@[simp] theorem State.emit_power (s : State) (o : Output) : (s.emit o).power = s.power := rfl
@[simp] theorem State.emit_flash (s : State) (o : Output) : (s.emit o).flash = s.flash := rfl
@[simp] theorem State.emit_fe (s : State) (o : Output) : (s.emit o).fe = s.fe := rfl
@[simp] theorem State.emit_sap (s : State) (o : Output) : (s.emit o).sap = s.sap := rfl
@[simp] theorem State.emit_mp (s : State) (o : Output) : (s.emit o).mp = s.mp := rfl
@[simp] theorem State.emit_outs (s : State) (o : Output) : (s.emit o).outs = s.outs := rfl
@[simp] theorem State.emit_tth (s : State) (o : Output) : (s.emit o).tth = s.tth := rfl
@[simp] theorem State.emit_lsn (s : State) (o : Output) : (s.emit o).lsn = s.lsn := rfl
@[simp] theorem State.emit_sns (s : State) (o : Output) : (s.emit o).sns = s.sns := rfl
@[simp] theorem State.emit_eng (s : State) (o : Output) : (s.emit o).eng = s.eng := rfl
@[simp] theorem State.emit_net (s : State) (o : Output) : (s.emit o).net = s.net := rfl
@[simp] theorem State.emit_metro (s : State) (o : Output) : (s.emit o).metro = s.metro := rfl
@[simp] theorem State.emit_test (s : State) (o : Output) : (s.emit o).test = s.test := rfl
@[simp] theorem State.emit_sig (s : State) (o : Output) : (s.emit o).sig = s.sig := rfl
@[simp] theorem State.emit_snap (s : State) (o : Output) : (s.emit o).snap = s.snap := rfl
@[simp] theorem State.emit_out (s : State) (o : Output) : (s.emit o).out = o :: s.out := rfl
@[simp] theorem State.emit_free (s : State) (o : Output) : (s.emit o).free = s.free := rfl
@[simp] theorem State.emit_pending (s : State) (o : Output) : (s.emit o).pending = s.pending := rfl

/-! ### State.withRest -/

@[simp] theorem State.withRest_regs (s : State) (q : List Instr) : (s.withRest q).regs = s.regs := rfl
@[simp] theorem State.withRest_mirror (s : State) (q : List Instr) : (s.withRest q).mirror = s.mirror := rfl
@[simp] theorem State.withRest_window (s : State) (q : List Instr) : (s.withRest q).window = s.window := rfl
@[simp] theorem State.withRest_clk (s : State) (q : List Instr) : (s.withRest q).clk = s.clk := rfl
@[simp] theorem State.withRest_link (s : State) (q : List Instr) : (s.withRest q).link = s.link := rfl
@[simp] theorem State.withRest_col (s : State) (q : List Instr) : (s.withRest q).col = s.col := rfl
@[simp] theorem State.withRest_host (s : State) (q : List Instr) : (s.withRest q).host = s.host := rfl
@[simp] theorem State.withRest_stage (s : State) (q : List Instr) : (s.withRest q).stage = s.stage := rfl
@[simp] theorem State.withRest_locks (s : State) (q : List Instr) : (s.withRest q).locks = s.locks := rfl
@[simp] theorem State.withRest_err (s : State) (q : List Instr) : (s.withRest q).err = s.err := rfl
@[simp] theorem State.withRest_power (s : State) (q : List Instr) : (s.withRest q).power = s.power := rfl
@[simp] theorem State.withRest_flash (s : State) (q : List Instr) : (s.withRest q).flash = s.flash := rfl
@[simp] theorem State.withRest_fe (s : State) (q : List Instr) : (s.withRest q).fe = s.fe := rfl
@[simp] theorem State.withRest_sap (s : State) (q : List Instr) : (s.withRest q).sap = s.sap := rfl
@[simp] theorem State.withRest_mp (s : State) (q : List Instr) : (s.withRest q).mp = s.mp := rfl
@[simp] theorem State.withRest_outs (s : State) (q : List Instr) : (s.withRest q).outs = s.outs := rfl
@[simp] theorem State.withRest_tth (s : State) (q : List Instr) : (s.withRest q).tth = s.tth := rfl
@[simp] theorem State.withRest_lsn (s : State) (q : List Instr) : (s.withRest q).lsn = s.lsn := rfl
@[simp] theorem State.withRest_sns (s : State) (q : List Instr) : (s.withRest q).sns = s.sns := rfl
@[simp] theorem State.withRest_eng (s : State) (q : List Instr) : (s.withRest q).eng = s.eng := rfl
@[simp] theorem State.withRest_net (s : State) (q : List Instr) : (s.withRest q).net = s.net := rfl
@[simp] theorem State.withRest_metro (s : State) (q : List Instr) : (s.withRest q).metro = s.metro := rfl
@[simp] theorem State.withRest_test (s : State) (q : List Instr) : (s.withRest q).test = s.test := rfl
@[simp] theorem State.withRest_sig (s : State) (q : List Instr) : (s.withRest q).sig = s.sig := rfl
@[simp] theorem State.withRest_snap (s : State) (q : List Instr) : (s.withRest q).snap = s.snap := rfl
@[simp] theorem State.withRest_out (s : State) (q : List Instr) : (s.withRest q).out = s.out := rfl
@[simp] theorem State.withRest_free (s : State) (q : List Instr) : (s.withRest q).free = s.free := rfl
@[simp] theorem State.withRest_pending (s : State) (q : List Instr) : (s.withRest q).pending = q := rfl

end Sys2Proof.Machine
end

