-- ==== Sys2Proof/Laws/Ops.lean ====
section
/-!
SUPPORT. What the shared operations do: register reads after writes, and the frame of the operations that go to the host
interface alone (events, ring entries, completions).
-/
namespace Sys2Proof.Machine

/-! ### Registers -/

theorem State.on_eq (s : State) (a : Nat) (f : Fld) : s.on a f = (s.fld a f == 1) := rfl

theorem State.fld_eq (s : State) (a : Nat) (f : Fld) : s.fld a f = (s.rd a).fld f := rfl

@[simp] theorem State.rd_wr_same (s : State) (a : Nat) (v : Word) : (s.wr a v).rd a = v := RegFile.get_set_same _ _ _

theorem State.rd_wr_ne (s : State) (a b : Nat) (v : Word) (h : a ≠ b) : (s.wr a v).rd b = s.rd b :=
  RegFile.get_set_ne _ _ _ _ h

@[simp] theorem State.fld_wr_same (s : State) (a : Nat) (v : Word) (f : Fld) : (s.wr a v).fld a f = v.fld f := by
  rw [State.fld_eq, State.rd_wr_same]

theorem State.fld_wr_ne (s : State) (a b : Nat) (v : Word) (f : Fld) (h : a ≠ b) : (s.wr a v).fld b f = s.fld b f := by
  rw [State.fld_eq, State.rd_wr_ne _ _ _ _ h, State.fld_eq]

@[simp] theorem State.rd_setF_same (s : State) (a : Nat) (f : Fld) (x : Nat) :
    (s.setF a f x).rd a = (s.rd a).setFld f x := RegFile.get_set_same _ _ _

theorem State.rd_setF_ne (s : State) (a b : Nat) (f : Fld) (x : Nat) (h : a ≠ b) : (s.setF a f x).rd b = s.rd b :=
  RegFile.get_set_ne _ _ _ _ h

theorem State.fld_setF_same (s : State) (a : Nat) (f : Fld) (x : Nat) (h : f.lo + f.w ≤ 32) :
    (s.setF a f x).fld a f = x % 2 ^ f.w := by
  rw [State.fld_eq, State.rd_setF_same, Word.fld_setFld _ _ _ h]

theorem State.fld_setF_ne (s : State) (a b : Nat) (f g : Fld) (x : Nat) (h : a ≠ b) :
    (s.setF a f x).fld b g = s.fld b g := by
  rw [State.fld_eq, State.rd_setF_ne _ _ _ _ _ h, State.fld_eq]

/-- A field of the same register that does not overlap the one written keeps its value. -/
theorem State.fld_setF_apart (s : State) (a : Nat) (f g : Fld) (x : Nat) (hf : f.lo + f.w ≤ 32)
    (h : g.lo + g.w ≤ f.lo ∨ f.lo + f.w ≤ g.lo) : (s.setF a f x).fld a g = s.fld a g := by
  rw [State.fld_eq, State.rd_setF_same, Word.fld_setFld_ne _ _ _ _ hf h, State.fld_eq]

/-- A saturating count: one more, at most the largest value of its field. -/
theorem State.fld_addSat_same (s : State) (a : Nat) (f : Fld) (n : Nat) (h : f.lo + f.w ≤ 32) :
    (s.addSat a f n).fld a f = min (s.fld a f + n) (2 ^ f.w - 1) := by
  unfold State.addSat
  rw [State.fld_setF_same _ _ _ _ h, Nat.mod_eq_of_lt]
  have : 0 < 2 ^ f.w := Nat.two_pow_pos _
  omega

theorem State.fld_incSat_same (s : State) (a : Nat) (f : Fld) (h : f.lo + f.w ≤ 32) :
    (s.incSat a f).fld a f = min (s.fld a f + 1) (2 ^ f.w - 1) := State.fld_addSat_same s a f 1 h

theorem State.fld_incWrap_same (s : State) (a : Nat) (f : Fld) (h : f.lo + f.w ≤ 32) :
    (s.incWrap a f).fld a f = (s.fld a f + 1) % 2 ^ f.w := by
  unfold State.incWrap
  rw [State.fld_setF_same _ _ _ _ h, Nat.mod_mod]

theorem State.fld_addSat_ne (s : State) (a b : Nat) (f g : Fld) (n : Nat) (h : a ≠ b) :
    (s.addSat a f n).fld b g = s.fld b g := State.fld_setF_ne _ _ _ _ _ _ h

theorem State.fld_incSat_ne (s : State) (a b : Nat) (f g : Fld) (h : a ≠ b) :
    (s.incSat a f).fld b g = s.fld b g := State.fld_setF_ne _ _ _ _ _ _ h

theorem State.fld_incWrap_ne (s : State) (a b : Nat) (f g : Fld) (h : a ≠ b) :
    (s.incWrap a f).fld b g = s.fld b g := State.fld_setF_ne _ _ _ _ _ _ h

theorem State.fld_addSat_apart (s : State) (a : Nat) (f g : Fld) (n : Nat) (hf : f.lo + f.w ≤ 32)
    (h : g.lo + g.w ≤ f.lo ∨ f.lo + f.w ≤ g.lo) : (s.addSat a f n).fld a g = s.fld a g :=
  State.fld_setF_apart _ _ _ _ _ hf h

theorem State.fld_incSat_apart (s : State) (a : Nat) (f g : Fld) (hf : f.lo + f.w ≤ 32)
    (h : g.lo + g.w ≤ f.lo ∨ f.lo + f.w ≤ g.lo) : (s.incSat a f).fld a g = s.fld a g :=
  State.fld_setF_apart _ _ _ _ _ hf h

theorem State.fld_incWrap_apart (s : State) (a : Nat) (f g : Fld) (hf : f.lo + f.w ≤ 32)
    (h : g.lo + g.w ≤ f.lo ∨ f.lo + f.w ≤ g.lo) : (s.incWrap a f).fld a g = s.fld a g :=
  State.fld_setF_apart _ _ _ _ _ hf h

theorem State.rd_addSat_ne (s : State) (a b : Nat) (f : Fld) (n : Nat) (h : a ≠ b) : (s.addSat a f n).rd b = s.rd b :=
  State.rd_setF_ne _ _ _ _ _ h

theorem State.rd_incSat_ne (s : State) (a b : Nat) (f : Fld) (h : a ≠ b) : (s.incSat a f).rd b = s.rd b :=
  State.rd_setF_ne _ _ _ _ _ h

theorem State.rd_incWrap_ne (s : State) (a b : Nat) (f : Fld) (h : a ≠ b) : (s.incWrap a f).rd b = s.rd b :=
  State.rd_setF_ne _ _ _ _ _ h

theorem State.fld_lt (s : State) (a : Nat) (f : Fld) : s.fld a f < 2 ^ f.w := by
  rw [State.fld_eq]
  exact BitVec.isLt _

/-- A field written in every register of a list leaves the registers outside it. -/
theorem State.rd_setAll (f : Fld) (x a : Nat) : ∀ (l : List Nat) (s : State), (∀ b, b ∈ l → b ≠ a) →
    (State.setAll f x l s).rd a = s.rd a
  | [], _, _ => rfl
  | b :: l, s, h => by
    unfold State.setAll
    rw [State.rd_setAll f x a l _ (fun c hc => h c (List.mem_cons_of_mem _ hc)),
      State.rd_setF_ne _ _ _ _ _ (h b List.mem_cons_self)]

/-- A register of a list of zeroed registers reads 0, and every other one as before. -/
theorem State.rd_zeroAll (a : Nat) : ∀ (l : List Nat) (s : State),
    (State.zeroAll l s).rd a = if a ∈ l then 0 else s.rd a
  | [], s => by simp [State.zeroAll]
  | b :: l, s => by
    unfold State.zeroAll
    rw [State.rd_zeroAll a l]
    by_cases h : a ∈ l
    · simp [h]
    · by_cases e : b = a
      · subst e
        simp [h]
      · rw [if_neg h, State.rd_wr_ne _ _ _ _ e, if_neg]
        simp only [List.mem_cons, not_or]
        exact ⟨fun k => e k.symm, h⟩

theorem mem_addrs (f : Nat → Nat) (n b : Nat) (h : b ∈ addrs f n) : ∃ i, i < n ∧ f i = b := by
  simpa [addrs] using h

/-! ### What goes to the host interface alone -/

/-- The second state differs from the first in registers of the HIF_ page, the local window, the host interface, the event
collector and what was sent, and in nothing else. -/
def State.HostOnly (s t : State) : Prop :=
  t = { s with regs := t.regs, window := t.window, host := t.host, col := t.col, out := t.out }
    ∧ ∀ a, a < 0x2000 ∨ 0x3000 ≤ a → t.rd a = s.rd a

theorem State.HostOnly.refl (s : State) : s.HostOnly s := ⟨rfl, fun _ _ => rfl⟩

theorem State.HostOnly.trans {s t u : State} (h : s.HostOnly t) (k : t.HostOnly u) : s.HostOnly u := by
  obtain ⟨e1, r1⟩ := h
  obtain ⟨e2, r2⟩ := k
  refine ⟨?_, fun a ha => (r2 a ha).trans (r1 a ha)⟩
  rw [e2, e1]

theorem State.HostOnly.ofCol {s t : State} (h : s.HostOnly t) (c : Collector) : s.HostOnly { t with col := c } :=
  h.trans ⟨rfl, fun _ _ => rfl⟩

theorem State.HostOnly.touch {s t : State} (h : s.HostOnly t) (key : Nat) : s.HostOnly (t.touch key) :=
  State.HostOnly.ofCol h _

/-- A write of a register of the HIF_ page. -/
theorem State.HostOnly.wr {s t : State} (h : s.HostOnly t) (a : Nat) (v : Word) (lo : 0x2000 ≤ a) (hi : a < 0x3000) :
    s.HostOnly (t.wr a v) := by
  refine h.trans ⟨rfl, fun b hb => State.rd_wr_ne _ _ _ _ (by omega)⟩

theorem State.HostOnly.setF {s t : State} (h : s.HostOnly t) (a : Nat) (f : Fld) (x : Nat) (lo : 0x2000 ≤ a) (hi : a < 0x3000) :
    s.HostOnly (t.setF a f x) := by
  refine h.trans ⟨rfl, fun b hb => State.rd_setF_ne _ _ _ _ _ (by omega)⟩

theorem State.HostOnly.putBytes {s t : State} (h : s.HostOnly t) (l : Bool) (a : Nat) (bs : List Byte) :
    s.HostOnly (t.putBytes l a bs) := by
  refine h.trans ?_
  unfold State.putBytes
  split
  · exact ⟨rfl, fun _ _ => rfl⟩
  · split
    · exact ⟨rfl, fun _ _ => rfl⟩
    · exact State.HostOnly.refl _

theorem State.HostOnly.feedVector {s t : State} (h : s.HostOnly t) (r : Nat) : s.HostOnly (t.feedVector r) := by
  have hv := t.fld_lt (R.HIF_RING_CFG r) F.HIF_RING_CFG_VEC
  simp only [F.HIF_RING_CFG_VEC] at hv
  have h1 : t.HostOnly ((t.incSat (R.HIF_VEC_STS (t.fld (R.HIF_RING_CFG r) F.HIF_RING_CFG_VEC)) F.HIF_VEC_STS_COUNT).setF
      (R.HIF_VEC_STS (t.fld (R.HIF_RING_CFG r) F.HIF_RING_CFG_VEC)) F.HIF_VEC_STS_PENDING 1) := by
    refine State.HostOnly.setF (State.HostOnly.setF (State.HostOnly.refl _) _ _ _ ?_ ?_) _ _ _ ?_ ?_ <;>
      simp only [R.HIF_VEC_STS, F.HIF_RING_CFG_VEC] <;> omega
  exact (h.trans h1).trans ⟨rfl, fun _ _ => rfl⟩

/-- An entry posted to one of the 16 rings. -/
theorem State.HostOnly.ringPost {s t : State} (h : s.HostOnly t) (r : Nat) (bs : List Byte) (hr : r < 16) :
    s.HostOnly (t.ringPost r bs) := by
  unfold State.ringPost State.ringFull State.setBit
  refine State.HostOnly.feedVector (State.HostOnly.setF (State.HostOnly.setF (State.HostOnly.putBytes h _ _ _)
    _ _ _ ?_ ?_) _ _ _ ?_ ?_) _ <;> simp only [R.HIF_RING_IDX, R.HIF_RING_STS] <;> omega

theorem State.HostOnly.traceEvent {s t : State} (h : s.HostOnly t) (e : Event) : s.HostOnly (t.traceEvent e) := by
  unfold State.traceEvent
  split
  · split
    · exact State.HostOnly.ringPost h 14 _ (by decide)
    · exact State.HostOnly.setF h _ _ _ (by decide) (by decide)
  · exact h

theorem State.HostOnly.pump {s : State} : ∀ (n : Nat) {t : State}, s.HostOnly t → s.HostOnly (t.pump n)
  | 0, _, h => h
  | n + 1, t, h => by
    unfold State.pump
    split
    · exact h
    · split
      · refine State.HostOnly.pump n (State.HostOnly.traceEvent (State.HostOnly.ringPost ?_ 2 _ (by decide)) _)
        exact State.HostOnly.ofCol h _
      · exact h

/-- An event raised on H. -/
theorem State.HostOnly.raiseAt {s t : State} (h : s.HostOnly t) (code src ts : Nat) (d : List Nat) :
    s.HostOnly (t.raiseAt code src ts d) :=
  State.HostOnly.pump _ (State.HostOnly.ofCol h _)

theorem State.HostOnly.raise {s t : State} (h : s.HostOnly t) (code src : Nat) (d : List Nat) :
    s.HostOnly (t.raise code src d) := State.HostOnly.raiseAt h _ _ _ _

/-- An event raised on F. -/
theorem State.HostOnly.raiseFAt {s t : State} (h : s.HostOnly t) (code src ts : Nat) (d : List Nat) :
    s.HostOnly (t.raiseFAt code src ts d) := by
  unfold State.raiseFAt
  split
  · exact State.HostOnly.pump _ (State.HostOnly.ofCol h _)
  · exact h.trans ⟨rfl, fun _ _ => rfl⟩

theorem State.HostOnly.raiseF {s t : State} (h : s.HostOnly t) (code src : Nat) (d : List Nat) :
    s.HostOnly (t.raiseF code src d) := State.HostOnly.raiseFAt h _ _ _ _

theorem State.HostOnly.raiseLimited {s t : State} (h : s.HostOnly t) (p code src : Nat) (d : List Nat) :
    s.HostOnly (t.raiseLimited p code src d) := by
  unfold State.raiseLimited
  split
  · exact State.HostOnly.raise (State.HostOnly.touch h _) _ _ _
  · exact h

theorem State.HostOnly.raiseFLimited {s t : State} (h : s.HostOnly t) (p code src : Nat) (d : List Nat) :
    s.HostOnly (t.raiseFLimited p code src d) := by
  unfold State.raiseFLimited
  split
  · exact State.HostOnly.raiseF (State.HostOnly.touch h _) _ _ _
  · exact h

/-- A descriptor completes. -/
theorem State.HostOnly.finish {s t : State} (h : s.HostOnly t) (id : DescId) (c : Completion) :
    s.HostOnly (t.finish id c) := by
  unfold State.finish
  dsimp only
  split
  · refine State.HostOnly.setF ?_ _ _ _ ?_ ?_
    · exact h.trans ⟨rfl, fun _ _ => rfl⟩
    · decide
    · decide
  · exact h.trans ⟨rfl, fun _ _ => rfl⟩

theorem State.HostOnly.finishOpt {s t : State} (h : s.HostOnly t) (id : Option DescId) (c : Completion) :
    s.HostOnly (t.finishOpt id c) := by
  unfold State.finishOpt
  split
  · exact State.HostOnly.finish h _ _
  · exact h

end Sys2Proof.Machine
end

