-- ==== Sys2Proof/Laws/HostOnly.lean ====
section
/-!
SUPPORT. The frame of the operations that go to the host interface alone, field by field.
-/
namespace Sys2Proof.Machine

theorem State.HostOnly.mirror {s t : State} (h : s.HostOnly t) : t.mirror = s.mirror := by rw [h.1]
theorem State.HostOnly.clk {s t : State} (h : s.HostOnly t) : t.clk = s.clk := by rw [h.1]
theorem State.HostOnly.link {s t : State} (h : s.HostOnly t) : t.link = s.link := by rw [h.1]
theorem State.HostOnly.stage {s t : State} (h : s.HostOnly t) : t.stage = s.stage := by rw [h.1]
theorem State.HostOnly.locks {s t : State} (h : s.HostOnly t) : t.locks = s.locks := by rw [h.1]
theorem State.HostOnly.err {s t : State} (h : s.HostOnly t) : t.err = s.err := by rw [h.1]
theorem State.HostOnly.power {s t : State} (h : s.HostOnly t) : t.power = s.power := by rw [h.1]
theorem State.HostOnly.flash {s t : State} (h : s.HostOnly t) : t.flash = s.flash := by rw [h.1]
theorem State.HostOnly.fe {s t : State} (h : s.HostOnly t) : t.fe = s.fe := by rw [h.1]
theorem State.HostOnly.sap {s t : State} (h : s.HostOnly t) : t.sap = s.sap := by rw [h.1]
theorem State.HostOnly.mp {s t : State} (h : s.HostOnly t) : t.mp = s.mp := by rw [h.1]
theorem State.HostOnly.outs {s t : State} (h : s.HostOnly t) : t.outs = s.outs := by rw [h.1]
theorem State.HostOnly.tth {s t : State} (h : s.HostOnly t) : t.tth = s.tth := by rw [h.1]
theorem State.HostOnly.lsn {s t : State} (h : s.HostOnly t) : t.lsn = s.lsn := by rw [h.1]
theorem State.HostOnly.sns {s t : State} (h : s.HostOnly t) : t.sns = s.sns := by rw [h.1]
theorem State.HostOnly.eng {s t : State} (h : s.HostOnly t) : t.eng = s.eng := by rw [h.1]
theorem State.HostOnly.net {s t : State} (h : s.HostOnly t) : t.net = s.net := by rw [h.1]
theorem State.HostOnly.metro {s t : State} (h : s.HostOnly t) : t.metro = s.metro := by rw [h.1]
theorem State.HostOnly.test {s t : State} (h : s.HostOnly t) : t.test = s.test := by rw [h.1]
theorem State.HostOnly.snap {s t : State} (h : s.HostOnly t) : t.snap = s.snap := by rw [h.1]
theorem State.HostOnly.free {s t : State} (h : s.HostOnly t) : t.free = s.free := by rw [h.1]
theorem State.HostOnly.pending {s t : State} (h : s.HostOnly t) : t.pending = s.pending := by rw [h.1]

theorem State.HostOnly.rd {s t : State} (h : s.HostOnly t) (a : Nat) (ha : a < 0x2000 ∨ 0x3000 ≤ a) : t.rd a = s.rd a :=
  h.2 a ha
theorem State.HostOnly.fld {s t : State} (h : s.HostOnly t) (a : Nat) (f : Fld) (ha : a < 0x2000 ∨ 0x3000 ≤ a) :
    t.fld a f = s.fld a f := by rw [State.fld_eq, h.2 a ha, State.fld_eq]

/-! ### State.ringPost -/

theorem State.ringPost_mirror (s : State) (r : Nat) (bs : List Byte) (hr : r < 16) : (s.ringPost r bs).mirror = s.mirror :=
  (State.HostOnly.ringPost (State.HostOnly.refl s) _ _ hr).mirror
theorem State.ringPost_clk (s : State) (r : Nat) (bs : List Byte) (hr : r < 16) : (s.ringPost r bs).clk = s.clk :=
  (State.HostOnly.ringPost (State.HostOnly.refl s) _ _ hr).clk
theorem State.ringPost_link (s : State) (r : Nat) (bs : List Byte) (hr : r < 16) : (s.ringPost r bs).link = s.link :=
  (State.HostOnly.ringPost (State.HostOnly.refl s) _ _ hr).link
theorem State.ringPost_stage (s : State) (r : Nat) (bs : List Byte) (hr : r < 16) : (s.ringPost r bs).stage = s.stage :=
  (State.HostOnly.ringPost (State.HostOnly.refl s) _ _ hr).stage
theorem State.ringPost_locks (s : State) (r : Nat) (bs : List Byte) (hr : r < 16) : (s.ringPost r bs).locks = s.locks :=
  (State.HostOnly.ringPost (State.HostOnly.refl s) _ _ hr).locks
theorem State.ringPost_err (s : State) (r : Nat) (bs : List Byte) (hr : r < 16) : (s.ringPost r bs).err = s.err :=
  (State.HostOnly.ringPost (State.HostOnly.refl s) _ _ hr).err
theorem State.ringPost_power (s : State) (r : Nat) (bs : List Byte) (hr : r < 16) : (s.ringPost r bs).power = s.power :=
  (State.HostOnly.ringPost (State.HostOnly.refl s) _ _ hr).power
theorem State.ringPost_flash (s : State) (r : Nat) (bs : List Byte) (hr : r < 16) : (s.ringPost r bs).flash = s.flash :=
  (State.HostOnly.ringPost (State.HostOnly.refl s) _ _ hr).flash
theorem State.ringPost_fe (s : State) (r : Nat) (bs : List Byte) (hr : r < 16) : (s.ringPost r bs).fe = s.fe :=
  (State.HostOnly.ringPost (State.HostOnly.refl s) _ _ hr).fe
theorem State.ringPost_sap (s : State) (r : Nat) (bs : List Byte) (hr : r < 16) : (s.ringPost r bs).sap = s.sap :=
  (State.HostOnly.ringPost (State.HostOnly.refl s) _ _ hr).sap
theorem State.ringPost_mp (s : State) (r : Nat) (bs : List Byte) (hr : r < 16) : (s.ringPost r bs).mp = s.mp :=
  (State.HostOnly.ringPost (State.HostOnly.refl s) _ _ hr).mp
theorem State.ringPost_outs (s : State) (r : Nat) (bs : List Byte) (hr : r < 16) : (s.ringPost r bs).outs = s.outs :=
  (State.HostOnly.ringPost (State.HostOnly.refl s) _ _ hr).outs
theorem State.ringPost_tth (s : State) (r : Nat) (bs : List Byte) (hr : r < 16) : (s.ringPost r bs).tth = s.tth :=
  (State.HostOnly.ringPost (State.HostOnly.refl s) _ _ hr).tth
theorem State.ringPost_lsn (s : State) (r : Nat) (bs : List Byte) (hr : r < 16) : (s.ringPost r bs).lsn = s.lsn :=
  (State.HostOnly.ringPost (State.HostOnly.refl s) _ _ hr).lsn
theorem State.ringPost_sns (s : State) (r : Nat) (bs : List Byte) (hr : r < 16) : (s.ringPost r bs).sns = s.sns :=
  (State.HostOnly.ringPost (State.HostOnly.refl s) _ _ hr).sns
theorem State.ringPost_eng (s : State) (r : Nat) (bs : List Byte) (hr : r < 16) : (s.ringPost r bs).eng = s.eng :=
  (State.HostOnly.ringPost (State.HostOnly.refl s) _ _ hr).eng
theorem State.ringPost_net (s : State) (r : Nat) (bs : List Byte) (hr : r < 16) : (s.ringPost r bs).net = s.net :=
  (State.HostOnly.ringPost (State.HostOnly.refl s) _ _ hr).net
theorem State.ringPost_metro (s : State) (r : Nat) (bs : List Byte) (hr : r < 16) : (s.ringPost r bs).metro = s.metro :=
  (State.HostOnly.ringPost (State.HostOnly.refl s) _ _ hr).metro
theorem State.ringPost_test (s : State) (r : Nat) (bs : List Byte) (hr : r < 16) : (s.ringPost r bs).test = s.test :=
  (State.HostOnly.ringPost (State.HostOnly.refl s) _ _ hr).test
theorem State.ringPost_snap (s : State) (r : Nat) (bs : List Byte) (hr : r < 16) : (s.ringPost r bs).snap = s.snap :=
  (State.HostOnly.ringPost (State.HostOnly.refl s) _ _ hr).snap
theorem State.ringPost_free (s : State) (r : Nat) (bs : List Byte) (hr : r < 16) : (s.ringPost r bs).free = s.free :=
  (State.HostOnly.ringPost (State.HostOnly.refl s) _ _ hr).free
theorem State.ringPost_pending (s : State) (r : Nat) (bs : List Byte) (hr : r < 16) : (s.ringPost r bs).pending = s.pending :=
  (State.HostOnly.ringPost (State.HostOnly.refl s) _ _ hr).pending
theorem State.ringPost_rd (s : State) (r : Nat) (bs : List Byte) (hr : r < 16) (x : Nat) (hx : x < 0x2000 ∨ 0x3000 ≤ x) : (s.ringPost r bs).rd x = s.rd x :=
  (State.HostOnly.ringPost (State.HostOnly.refl s) _ _ hr).rd x hx
theorem State.ringPost_fld (s : State) (r : Nat) (bs : List Byte) (hr : r < 16) (x : Nat) (g : Fld) (hx : x < 0x2000 ∨ 0x3000 ≤ x) :
    (s.ringPost r bs).fld x g = s.fld x g :=
  (State.HostOnly.ringPost (State.HostOnly.refl s) _ _ hr).fld x g hx

/-! ### State.pumpAll -/

@[simp] theorem State.pumpAll_mirror (s : State) : (s.pumpAll).mirror = s.mirror :=
  (State.HostOnly.pump _ (State.HostOnly.refl s)).mirror
@[simp] theorem State.pumpAll_clk (s : State) : (s.pumpAll).clk = s.clk :=
  (State.HostOnly.pump _ (State.HostOnly.refl s)).clk
@[simp] theorem State.pumpAll_link (s : State) : (s.pumpAll).link = s.link :=
  (State.HostOnly.pump _ (State.HostOnly.refl s)).link
@[simp] theorem State.pumpAll_stage (s : State) : (s.pumpAll).stage = s.stage :=
  (State.HostOnly.pump _ (State.HostOnly.refl s)).stage
@[simp] theorem State.pumpAll_locks (s : State) : (s.pumpAll).locks = s.locks :=
  (State.HostOnly.pump _ (State.HostOnly.refl s)).locks
@[simp] theorem State.pumpAll_err (s : State) : (s.pumpAll).err = s.err :=
  (State.HostOnly.pump _ (State.HostOnly.refl s)).err
@[simp] theorem State.pumpAll_power (s : State) : (s.pumpAll).power = s.power :=
  (State.HostOnly.pump _ (State.HostOnly.refl s)).power
@[simp] theorem State.pumpAll_flash (s : State) : (s.pumpAll).flash = s.flash :=
  (State.HostOnly.pump _ (State.HostOnly.refl s)).flash
@[simp] theorem State.pumpAll_fe (s : State) : (s.pumpAll).fe = s.fe :=
  (State.HostOnly.pump _ (State.HostOnly.refl s)).fe
@[simp] theorem State.pumpAll_sap (s : State) : (s.pumpAll).sap = s.sap :=
  (State.HostOnly.pump _ (State.HostOnly.refl s)).sap
@[simp] theorem State.pumpAll_mp (s : State) : (s.pumpAll).mp = s.mp :=
  (State.HostOnly.pump _ (State.HostOnly.refl s)).mp
@[simp] theorem State.pumpAll_outs (s : State) : (s.pumpAll).outs = s.outs :=
  (State.HostOnly.pump _ (State.HostOnly.refl s)).outs
@[simp] theorem State.pumpAll_tth (s : State) : (s.pumpAll).tth = s.tth :=
  (State.HostOnly.pump _ (State.HostOnly.refl s)).tth
@[simp] theorem State.pumpAll_lsn (s : State) : (s.pumpAll).lsn = s.lsn :=
  (State.HostOnly.pump _ (State.HostOnly.refl s)).lsn
@[simp] theorem State.pumpAll_sns (s : State) : (s.pumpAll).sns = s.sns :=
  (State.HostOnly.pump _ (State.HostOnly.refl s)).sns
@[simp] theorem State.pumpAll_eng (s : State) : (s.pumpAll).eng = s.eng :=
  (State.HostOnly.pump _ (State.HostOnly.refl s)).eng
@[simp] theorem State.pumpAll_net (s : State) : (s.pumpAll).net = s.net :=
  (State.HostOnly.pump _ (State.HostOnly.refl s)).net
@[simp] theorem State.pumpAll_metro (s : State) : (s.pumpAll).metro = s.metro :=
  (State.HostOnly.pump _ (State.HostOnly.refl s)).metro
@[simp] theorem State.pumpAll_test (s : State) : (s.pumpAll).test = s.test :=
  (State.HostOnly.pump _ (State.HostOnly.refl s)).test
@[simp] theorem State.pumpAll_snap (s : State) : (s.pumpAll).snap = s.snap :=
  (State.HostOnly.pump _ (State.HostOnly.refl s)).snap
@[simp] theorem State.pumpAll_free (s : State) : (s.pumpAll).free = s.free :=
  (State.HostOnly.pump _ (State.HostOnly.refl s)).free
@[simp] theorem State.pumpAll_pending (s : State) : (s.pumpAll).pending = s.pending :=
  (State.HostOnly.pump _ (State.HostOnly.refl s)).pending
theorem State.pumpAll_rd (s : State)  (x : Nat) (hx : x < 0x2000 ∨ 0x3000 ≤ x) : (s.pumpAll).rd x = s.rd x :=
  (State.HostOnly.pump _ (State.HostOnly.refl s)).rd x hx
theorem State.pumpAll_fld (s : State)  (x : Nat) (g : Fld) (hx : x < 0x2000 ∨ 0x3000 ≤ x) :
    (s.pumpAll).fld x g = s.fld x g :=
  (State.HostOnly.pump _ (State.HostOnly.refl s)).fld x g hx

/-! ### State.raiseAt -/

@[simp] theorem State.raiseAt_mirror (s : State) (code src ts : Nat) (d : List Nat) : (s.raiseAt code src ts d).mirror = s.mirror :=
  (State.HostOnly.raiseAt (State.HostOnly.refl s) _ _ _ _).mirror
@[simp] theorem State.raiseAt_clk (s : State) (code src ts : Nat) (d : List Nat) : (s.raiseAt code src ts d).clk = s.clk :=
  (State.HostOnly.raiseAt (State.HostOnly.refl s) _ _ _ _).clk
@[simp] theorem State.raiseAt_link (s : State) (code src ts : Nat) (d : List Nat) : (s.raiseAt code src ts d).link = s.link :=
  (State.HostOnly.raiseAt (State.HostOnly.refl s) _ _ _ _).link
@[simp] theorem State.raiseAt_stage (s : State) (code src ts : Nat) (d : List Nat) : (s.raiseAt code src ts d).stage = s.stage :=
  (State.HostOnly.raiseAt (State.HostOnly.refl s) _ _ _ _).stage
@[simp] theorem State.raiseAt_locks (s : State) (code src ts : Nat) (d : List Nat) : (s.raiseAt code src ts d).locks = s.locks :=
  (State.HostOnly.raiseAt (State.HostOnly.refl s) _ _ _ _).locks
@[simp] theorem State.raiseAt_err (s : State) (code src ts : Nat) (d : List Nat) : (s.raiseAt code src ts d).err = s.err :=
  (State.HostOnly.raiseAt (State.HostOnly.refl s) _ _ _ _).err
@[simp] theorem State.raiseAt_power (s : State) (code src ts : Nat) (d : List Nat) : (s.raiseAt code src ts d).power = s.power :=
  (State.HostOnly.raiseAt (State.HostOnly.refl s) _ _ _ _).power
@[simp] theorem State.raiseAt_flash (s : State) (code src ts : Nat) (d : List Nat) : (s.raiseAt code src ts d).flash = s.flash :=
  (State.HostOnly.raiseAt (State.HostOnly.refl s) _ _ _ _).flash
@[simp] theorem State.raiseAt_fe (s : State) (code src ts : Nat) (d : List Nat) : (s.raiseAt code src ts d).fe = s.fe :=
  (State.HostOnly.raiseAt (State.HostOnly.refl s) _ _ _ _).fe
@[simp] theorem State.raiseAt_sap (s : State) (code src ts : Nat) (d : List Nat) : (s.raiseAt code src ts d).sap = s.sap :=
  (State.HostOnly.raiseAt (State.HostOnly.refl s) _ _ _ _).sap
@[simp] theorem State.raiseAt_mp (s : State) (code src ts : Nat) (d : List Nat) : (s.raiseAt code src ts d).mp = s.mp :=
  (State.HostOnly.raiseAt (State.HostOnly.refl s) _ _ _ _).mp
@[simp] theorem State.raiseAt_outs (s : State) (code src ts : Nat) (d : List Nat) : (s.raiseAt code src ts d).outs = s.outs :=
  (State.HostOnly.raiseAt (State.HostOnly.refl s) _ _ _ _).outs
@[simp] theorem State.raiseAt_tth (s : State) (code src ts : Nat) (d : List Nat) : (s.raiseAt code src ts d).tth = s.tth :=
  (State.HostOnly.raiseAt (State.HostOnly.refl s) _ _ _ _).tth
@[simp] theorem State.raiseAt_lsn (s : State) (code src ts : Nat) (d : List Nat) : (s.raiseAt code src ts d).lsn = s.lsn :=
  (State.HostOnly.raiseAt (State.HostOnly.refl s) _ _ _ _).lsn
@[simp] theorem State.raiseAt_sns (s : State) (code src ts : Nat) (d : List Nat) : (s.raiseAt code src ts d).sns = s.sns :=
  (State.HostOnly.raiseAt (State.HostOnly.refl s) _ _ _ _).sns
@[simp] theorem State.raiseAt_eng (s : State) (code src ts : Nat) (d : List Nat) : (s.raiseAt code src ts d).eng = s.eng :=
  (State.HostOnly.raiseAt (State.HostOnly.refl s) _ _ _ _).eng
@[simp] theorem State.raiseAt_net (s : State) (code src ts : Nat) (d : List Nat) : (s.raiseAt code src ts d).net = s.net :=
  (State.HostOnly.raiseAt (State.HostOnly.refl s) _ _ _ _).net
@[simp] theorem State.raiseAt_metro (s : State) (code src ts : Nat) (d : List Nat) : (s.raiseAt code src ts d).metro = s.metro :=
  (State.HostOnly.raiseAt (State.HostOnly.refl s) _ _ _ _).metro
@[simp] theorem State.raiseAt_test (s : State) (code src ts : Nat) (d : List Nat) : (s.raiseAt code src ts d).test = s.test :=
  (State.HostOnly.raiseAt (State.HostOnly.refl s) _ _ _ _).test
@[simp] theorem State.raiseAt_snap (s : State) (code src ts : Nat) (d : List Nat) : (s.raiseAt code src ts d).snap = s.snap :=
  (State.HostOnly.raiseAt (State.HostOnly.refl s) _ _ _ _).snap
@[simp] theorem State.raiseAt_free (s : State) (code src ts : Nat) (d : List Nat) : (s.raiseAt code src ts d).free = s.free :=
  (State.HostOnly.raiseAt (State.HostOnly.refl s) _ _ _ _).free
@[simp] theorem State.raiseAt_pending (s : State) (code src ts : Nat) (d : List Nat) : (s.raiseAt code src ts d).pending = s.pending :=
  (State.HostOnly.raiseAt (State.HostOnly.refl s) _ _ _ _).pending
theorem State.raiseAt_rd (s : State) (code src ts : Nat) (d : List Nat) (x : Nat) (hx : x < 0x2000 ∨ 0x3000 ≤ x) : (s.raiseAt code src ts d).rd x = s.rd x :=
  (State.HostOnly.raiseAt (State.HostOnly.refl s) _ _ _ _).rd x hx
theorem State.raiseAt_fld (s : State) (code src ts : Nat) (d : List Nat) (x : Nat) (g : Fld) (hx : x < 0x2000 ∨ 0x3000 ≤ x) :
    (s.raiseAt code src ts d).fld x g = s.fld x g :=
  (State.HostOnly.raiseAt (State.HostOnly.refl s) _ _ _ _).fld x g hx

/-! ### State.raise -/

@[simp] theorem State.raise_mirror (s : State) (code src : Nat) (d : List Nat) : (s.raise code src d).mirror = s.mirror :=
  (State.HostOnly.raise (State.HostOnly.refl s) _ _ _).mirror
@[simp] theorem State.raise_clk (s : State) (code src : Nat) (d : List Nat) : (s.raise code src d).clk = s.clk :=
  (State.HostOnly.raise (State.HostOnly.refl s) _ _ _).clk
@[simp] theorem State.raise_link (s : State) (code src : Nat) (d : List Nat) : (s.raise code src d).link = s.link :=
  (State.HostOnly.raise (State.HostOnly.refl s) _ _ _).link
@[simp] theorem State.raise_stage (s : State) (code src : Nat) (d : List Nat) : (s.raise code src d).stage = s.stage :=
  (State.HostOnly.raise (State.HostOnly.refl s) _ _ _).stage
@[simp] theorem State.raise_locks (s : State) (code src : Nat) (d : List Nat) : (s.raise code src d).locks = s.locks :=
  (State.HostOnly.raise (State.HostOnly.refl s) _ _ _).locks
@[simp] theorem State.raise_err (s : State) (code src : Nat) (d : List Nat) : (s.raise code src d).err = s.err :=
  (State.HostOnly.raise (State.HostOnly.refl s) _ _ _).err
@[simp] theorem State.raise_power (s : State) (code src : Nat) (d : List Nat) : (s.raise code src d).power = s.power :=
  (State.HostOnly.raise (State.HostOnly.refl s) _ _ _).power
@[simp] theorem State.raise_flash (s : State) (code src : Nat) (d : List Nat) : (s.raise code src d).flash = s.flash :=
  (State.HostOnly.raise (State.HostOnly.refl s) _ _ _).flash
@[simp] theorem State.raise_fe (s : State) (code src : Nat) (d : List Nat) : (s.raise code src d).fe = s.fe :=
  (State.HostOnly.raise (State.HostOnly.refl s) _ _ _).fe
@[simp] theorem State.raise_sap (s : State) (code src : Nat) (d : List Nat) : (s.raise code src d).sap = s.sap :=
  (State.HostOnly.raise (State.HostOnly.refl s) _ _ _).sap
@[simp] theorem State.raise_mp (s : State) (code src : Nat) (d : List Nat) : (s.raise code src d).mp = s.mp :=
  (State.HostOnly.raise (State.HostOnly.refl s) _ _ _).mp
@[simp] theorem State.raise_outs (s : State) (code src : Nat) (d : List Nat) : (s.raise code src d).outs = s.outs :=
  (State.HostOnly.raise (State.HostOnly.refl s) _ _ _).outs
@[simp] theorem State.raise_tth (s : State) (code src : Nat) (d : List Nat) : (s.raise code src d).tth = s.tth :=
  (State.HostOnly.raise (State.HostOnly.refl s) _ _ _).tth
@[simp] theorem State.raise_lsn (s : State) (code src : Nat) (d : List Nat) : (s.raise code src d).lsn = s.lsn :=
  (State.HostOnly.raise (State.HostOnly.refl s) _ _ _).lsn
@[simp] theorem State.raise_sns (s : State) (code src : Nat) (d : List Nat) : (s.raise code src d).sns = s.sns :=
  (State.HostOnly.raise (State.HostOnly.refl s) _ _ _).sns
@[simp] theorem State.raise_eng (s : State) (code src : Nat) (d : List Nat) : (s.raise code src d).eng = s.eng :=
  (State.HostOnly.raise (State.HostOnly.refl s) _ _ _).eng
@[simp] theorem State.raise_net (s : State) (code src : Nat) (d : List Nat) : (s.raise code src d).net = s.net :=
  (State.HostOnly.raise (State.HostOnly.refl s) _ _ _).net
@[simp] theorem State.raise_metro (s : State) (code src : Nat) (d : List Nat) : (s.raise code src d).metro = s.metro :=
  (State.HostOnly.raise (State.HostOnly.refl s) _ _ _).metro
@[simp] theorem State.raise_test (s : State) (code src : Nat) (d : List Nat) : (s.raise code src d).test = s.test :=
  (State.HostOnly.raise (State.HostOnly.refl s) _ _ _).test
@[simp] theorem State.raise_snap (s : State) (code src : Nat) (d : List Nat) : (s.raise code src d).snap = s.snap :=
  (State.HostOnly.raise (State.HostOnly.refl s) _ _ _).snap
@[simp] theorem State.raise_free (s : State) (code src : Nat) (d : List Nat) : (s.raise code src d).free = s.free :=
  (State.HostOnly.raise (State.HostOnly.refl s) _ _ _).free
@[simp] theorem State.raise_pending (s : State) (code src : Nat) (d : List Nat) : (s.raise code src d).pending = s.pending :=
  (State.HostOnly.raise (State.HostOnly.refl s) _ _ _).pending
theorem State.raise_rd (s : State) (code src : Nat) (d : List Nat) (x : Nat) (hx : x < 0x2000 ∨ 0x3000 ≤ x) : (s.raise code src d).rd x = s.rd x :=
  (State.HostOnly.raise (State.HostOnly.refl s) _ _ _).rd x hx
theorem State.raise_fld (s : State) (code src : Nat) (d : List Nat) (x : Nat) (g : Fld) (hx : x < 0x2000 ∨ 0x3000 ≤ x) :
    (s.raise code src d).fld x g = s.fld x g :=
  (State.HostOnly.raise (State.HostOnly.refl s) _ _ _).fld x g hx

/-! ### State.raiseFAt -/

@[simp] theorem State.raiseFAt_mirror (s : State) (code src ts : Nat) (d : List Nat) : (s.raiseFAt code src ts d).mirror = s.mirror :=
  (State.HostOnly.raiseFAt (State.HostOnly.refl s) _ _ _ _).mirror
@[simp] theorem State.raiseFAt_clk (s : State) (code src ts : Nat) (d : List Nat) : (s.raiseFAt code src ts d).clk = s.clk :=
  (State.HostOnly.raiseFAt (State.HostOnly.refl s) _ _ _ _).clk
@[simp] theorem State.raiseFAt_link (s : State) (code src ts : Nat) (d : List Nat) : (s.raiseFAt code src ts d).link = s.link :=
  (State.HostOnly.raiseFAt (State.HostOnly.refl s) _ _ _ _).link
@[simp] theorem State.raiseFAt_stage (s : State) (code src ts : Nat) (d : List Nat) : (s.raiseFAt code src ts d).stage = s.stage :=
  (State.HostOnly.raiseFAt (State.HostOnly.refl s) _ _ _ _).stage
@[simp] theorem State.raiseFAt_locks (s : State) (code src ts : Nat) (d : List Nat) : (s.raiseFAt code src ts d).locks = s.locks :=
  (State.HostOnly.raiseFAt (State.HostOnly.refl s) _ _ _ _).locks
@[simp] theorem State.raiseFAt_err (s : State) (code src ts : Nat) (d : List Nat) : (s.raiseFAt code src ts d).err = s.err :=
  (State.HostOnly.raiseFAt (State.HostOnly.refl s) _ _ _ _).err
@[simp] theorem State.raiseFAt_power (s : State) (code src ts : Nat) (d : List Nat) : (s.raiseFAt code src ts d).power = s.power :=
  (State.HostOnly.raiseFAt (State.HostOnly.refl s) _ _ _ _).power
@[simp] theorem State.raiseFAt_flash (s : State) (code src ts : Nat) (d : List Nat) : (s.raiseFAt code src ts d).flash = s.flash :=
  (State.HostOnly.raiseFAt (State.HostOnly.refl s) _ _ _ _).flash
@[simp] theorem State.raiseFAt_fe (s : State) (code src ts : Nat) (d : List Nat) : (s.raiseFAt code src ts d).fe = s.fe :=
  (State.HostOnly.raiseFAt (State.HostOnly.refl s) _ _ _ _).fe
@[simp] theorem State.raiseFAt_sap (s : State) (code src ts : Nat) (d : List Nat) : (s.raiseFAt code src ts d).sap = s.sap :=
  (State.HostOnly.raiseFAt (State.HostOnly.refl s) _ _ _ _).sap
@[simp] theorem State.raiseFAt_mp (s : State) (code src ts : Nat) (d : List Nat) : (s.raiseFAt code src ts d).mp = s.mp :=
  (State.HostOnly.raiseFAt (State.HostOnly.refl s) _ _ _ _).mp
@[simp] theorem State.raiseFAt_outs (s : State) (code src ts : Nat) (d : List Nat) : (s.raiseFAt code src ts d).outs = s.outs :=
  (State.HostOnly.raiseFAt (State.HostOnly.refl s) _ _ _ _).outs
@[simp] theorem State.raiseFAt_tth (s : State) (code src ts : Nat) (d : List Nat) : (s.raiseFAt code src ts d).tth = s.tth :=
  (State.HostOnly.raiseFAt (State.HostOnly.refl s) _ _ _ _).tth
@[simp] theorem State.raiseFAt_lsn (s : State) (code src ts : Nat) (d : List Nat) : (s.raiseFAt code src ts d).lsn = s.lsn :=
  (State.HostOnly.raiseFAt (State.HostOnly.refl s) _ _ _ _).lsn
@[simp] theorem State.raiseFAt_sns (s : State) (code src ts : Nat) (d : List Nat) : (s.raiseFAt code src ts d).sns = s.sns :=
  (State.HostOnly.raiseFAt (State.HostOnly.refl s) _ _ _ _).sns
@[simp] theorem State.raiseFAt_eng (s : State) (code src ts : Nat) (d : List Nat) : (s.raiseFAt code src ts d).eng = s.eng :=
  (State.HostOnly.raiseFAt (State.HostOnly.refl s) _ _ _ _).eng
@[simp] theorem State.raiseFAt_net (s : State) (code src ts : Nat) (d : List Nat) : (s.raiseFAt code src ts d).net = s.net :=
  (State.HostOnly.raiseFAt (State.HostOnly.refl s) _ _ _ _).net
@[simp] theorem State.raiseFAt_metro (s : State) (code src ts : Nat) (d : List Nat) : (s.raiseFAt code src ts d).metro = s.metro :=
  (State.HostOnly.raiseFAt (State.HostOnly.refl s) _ _ _ _).metro
@[simp] theorem State.raiseFAt_test (s : State) (code src ts : Nat) (d : List Nat) : (s.raiseFAt code src ts d).test = s.test :=
  (State.HostOnly.raiseFAt (State.HostOnly.refl s) _ _ _ _).test
@[simp] theorem State.raiseFAt_snap (s : State) (code src ts : Nat) (d : List Nat) : (s.raiseFAt code src ts d).snap = s.snap :=
  (State.HostOnly.raiseFAt (State.HostOnly.refl s) _ _ _ _).snap
@[simp] theorem State.raiseFAt_free (s : State) (code src ts : Nat) (d : List Nat) : (s.raiseFAt code src ts d).free = s.free :=
  (State.HostOnly.raiseFAt (State.HostOnly.refl s) _ _ _ _).free
@[simp] theorem State.raiseFAt_pending (s : State) (code src ts : Nat) (d : List Nat) : (s.raiseFAt code src ts d).pending = s.pending :=
  (State.HostOnly.raiseFAt (State.HostOnly.refl s) _ _ _ _).pending
theorem State.raiseFAt_rd (s : State) (code src ts : Nat) (d : List Nat) (x : Nat) (hx : x < 0x2000 ∨ 0x3000 ≤ x) : (s.raiseFAt code src ts d).rd x = s.rd x :=
  (State.HostOnly.raiseFAt (State.HostOnly.refl s) _ _ _ _).rd x hx
theorem State.raiseFAt_fld (s : State) (code src ts : Nat) (d : List Nat) (x : Nat) (g : Fld) (hx : x < 0x2000 ∨ 0x3000 ≤ x) :
    (s.raiseFAt code src ts d).fld x g = s.fld x g :=
  (State.HostOnly.raiseFAt (State.HostOnly.refl s) _ _ _ _).fld x g hx

/-! ### State.raiseF -/

@[simp] theorem State.raiseF_mirror (s : State) (code src : Nat) (d : List Nat) : (s.raiseF code src d).mirror = s.mirror :=
  (State.HostOnly.raiseF (State.HostOnly.refl s) _ _ _).mirror
@[simp] theorem State.raiseF_clk (s : State) (code src : Nat) (d : List Nat) : (s.raiseF code src d).clk = s.clk :=
  (State.HostOnly.raiseF (State.HostOnly.refl s) _ _ _).clk
@[simp] theorem State.raiseF_link (s : State) (code src : Nat) (d : List Nat) : (s.raiseF code src d).link = s.link :=
  (State.HostOnly.raiseF (State.HostOnly.refl s) _ _ _).link
@[simp] theorem State.raiseF_stage (s : State) (code src : Nat) (d : List Nat) : (s.raiseF code src d).stage = s.stage :=
  (State.HostOnly.raiseF (State.HostOnly.refl s) _ _ _).stage
@[simp] theorem State.raiseF_locks (s : State) (code src : Nat) (d : List Nat) : (s.raiseF code src d).locks = s.locks :=
  (State.HostOnly.raiseF (State.HostOnly.refl s) _ _ _).locks
@[simp] theorem State.raiseF_err (s : State) (code src : Nat) (d : List Nat) : (s.raiseF code src d).err = s.err :=
  (State.HostOnly.raiseF (State.HostOnly.refl s) _ _ _).err
@[simp] theorem State.raiseF_power (s : State) (code src : Nat) (d : List Nat) : (s.raiseF code src d).power = s.power :=
  (State.HostOnly.raiseF (State.HostOnly.refl s) _ _ _).power
@[simp] theorem State.raiseF_flash (s : State) (code src : Nat) (d : List Nat) : (s.raiseF code src d).flash = s.flash :=
  (State.HostOnly.raiseF (State.HostOnly.refl s) _ _ _).flash
@[simp] theorem State.raiseF_fe (s : State) (code src : Nat) (d : List Nat) : (s.raiseF code src d).fe = s.fe :=
  (State.HostOnly.raiseF (State.HostOnly.refl s) _ _ _).fe
@[simp] theorem State.raiseF_sap (s : State) (code src : Nat) (d : List Nat) : (s.raiseF code src d).sap = s.sap :=
  (State.HostOnly.raiseF (State.HostOnly.refl s) _ _ _).sap
@[simp] theorem State.raiseF_mp (s : State) (code src : Nat) (d : List Nat) : (s.raiseF code src d).mp = s.mp :=
  (State.HostOnly.raiseF (State.HostOnly.refl s) _ _ _).mp
@[simp] theorem State.raiseF_outs (s : State) (code src : Nat) (d : List Nat) : (s.raiseF code src d).outs = s.outs :=
  (State.HostOnly.raiseF (State.HostOnly.refl s) _ _ _).outs
@[simp] theorem State.raiseF_tth (s : State) (code src : Nat) (d : List Nat) : (s.raiseF code src d).tth = s.tth :=
  (State.HostOnly.raiseF (State.HostOnly.refl s) _ _ _).tth
@[simp] theorem State.raiseF_lsn (s : State) (code src : Nat) (d : List Nat) : (s.raiseF code src d).lsn = s.lsn :=
  (State.HostOnly.raiseF (State.HostOnly.refl s) _ _ _).lsn
@[simp] theorem State.raiseF_sns (s : State) (code src : Nat) (d : List Nat) : (s.raiseF code src d).sns = s.sns :=
  (State.HostOnly.raiseF (State.HostOnly.refl s) _ _ _).sns
@[simp] theorem State.raiseF_eng (s : State) (code src : Nat) (d : List Nat) : (s.raiseF code src d).eng = s.eng :=
  (State.HostOnly.raiseF (State.HostOnly.refl s) _ _ _).eng
@[simp] theorem State.raiseF_net (s : State) (code src : Nat) (d : List Nat) : (s.raiseF code src d).net = s.net :=
  (State.HostOnly.raiseF (State.HostOnly.refl s) _ _ _).net
@[simp] theorem State.raiseF_metro (s : State) (code src : Nat) (d : List Nat) : (s.raiseF code src d).metro = s.metro :=
  (State.HostOnly.raiseF (State.HostOnly.refl s) _ _ _).metro
@[simp] theorem State.raiseF_test (s : State) (code src : Nat) (d : List Nat) : (s.raiseF code src d).test = s.test :=
  (State.HostOnly.raiseF (State.HostOnly.refl s) _ _ _).test
@[simp] theorem State.raiseF_snap (s : State) (code src : Nat) (d : List Nat) : (s.raiseF code src d).snap = s.snap :=
  (State.HostOnly.raiseF (State.HostOnly.refl s) _ _ _).snap
@[simp] theorem State.raiseF_free (s : State) (code src : Nat) (d : List Nat) : (s.raiseF code src d).free = s.free :=
  (State.HostOnly.raiseF (State.HostOnly.refl s) _ _ _).free
@[simp] theorem State.raiseF_pending (s : State) (code src : Nat) (d : List Nat) : (s.raiseF code src d).pending = s.pending :=
  (State.HostOnly.raiseF (State.HostOnly.refl s) _ _ _).pending
theorem State.raiseF_rd (s : State) (code src : Nat) (d : List Nat) (x : Nat) (hx : x < 0x2000 ∨ 0x3000 ≤ x) : (s.raiseF code src d).rd x = s.rd x :=
  (State.HostOnly.raiseF (State.HostOnly.refl s) _ _ _).rd x hx
theorem State.raiseF_fld (s : State) (code src : Nat) (d : List Nat) (x : Nat) (g : Fld) (hx : x < 0x2000 ∨ 0x3000 ≤ x) :
    (s.raiseF code src d).fld x g = s.fld x g :=
  (State.HostOnly.raiseF (State.HostOnly.refl s) _ _ _).fld x g hx

/-! ### State.raiseLimited -/

@[simp] theorem State.raiseLimited_mirror (s : State) (p code src : Nat) (d : List Nat) : (s.raiseLimited p code src d).mirror = s.mirror :=
  (State.HostOnly.raiseLimited (State.HostOnly.refl s) _ _ _ _).mirror
@[simp] theorem State.raiseLimited_clk (s : State) (p code src : Nat) (d : List Nat) : (s.raiseLimited p code src d).clk = s.clk :=
  (State.HostOnly.raiseLimited (State.HostOnly.refl s) _ _ _ _).clk
@[simp] theorem State.raiseLimited_link (s : State) (p code src : Nat) (d : List Nat) : (s.raiseLimited p code src d).link = s.link :=
  (State.HostOnly.raiseLimited (State.HostOnly.refl s) _ _ _ _).link
@[simp] theorem State.raiseLimited_stage (s : State) (p code src : Nat) (d : List Nat) : (s.raiseLimited p code src d).stage = s.stage :=
  (State.HostOnly.raiseLimited (State.HostOnly.refl s) _ _ _ _).stage
@[simp] theorem State.raiseLimited_locks (s : State) (p code src : Nat) (d : List Nat) : (s.raiseLimited p code src d).locks = s.locks :=
  (State.HostOnly.raiseLimited (State.HostOnly.refl s) _ _ _ _).locks
@[simp] theorem State.raiseLimited_err (s : State) (p code src : Nat) (d : List Nat) : (s.raiseLimited p code src d).err = s.err :=
  (State.HostOnly.raiseLimited (State.HostOnly.refl s) _ _ _ _).err
@[simp] theorem State.raiseLimited_power (s : State) (p code src : Nat) (d : List Nat) : (s.raiseLimited p code src d).power = s.power :=
  (State.HostOnly.raiseLimited (State.HostOnly.refl s) _ _ _ _).power
@[simp] theorem State.raiseLimited_flash (s : State) (p code src : Nat) (d : List Nat) : (s.raiseLimited p code src d).flash = s.flash :=
  (State.HostOnly.raiseLimited (State.HostOnly.refl s) _ _ _ _).flash
@[simp] theorem State.raiseLimited_fe (s : State) (p code src : Nat) (d : List Nat) : (s.raiseLimited p code src d).fe = s.fe :=
  (State.HostOnly.raiseLimited (State.HostOnly.refl s) _ _ _ _).fe
@[simp] theorem State.raiseLimited_sap (s : State) (p code src : Nat) (d : List Nat) : (s.raiseLimited p code src d).sap = s.sap :=
  (State.HostOnly.raiseLimited (State.HostOnly.refl s) _ _ _ _).sap
@[simp] theorem State.raiseLimited_mp (s : State) (p code src : Nat) (d : List Nat) : (s.raiseLimited p code src d).mp = s.mp :=
  (State.HostOnly.raiseLimited (State.HostOnly.refl s) _ _ _ _).mp
@[simp] theorem State.raiseLimited_outs (s : State) (p code src : Nat) (d : List Nat) : (s.raiseLimited p code src d).outs = s.outs :=
  (State.HostOnly.raiseLimited (State.HostOnly.refl s) _ _ _ _).outs
@[simp] theorem State.raiseLimited_tth (s : State) (p code src : Nat) (d : List Nat) : (s.raiseLimited p code src d).tth = s.tth :=
  (State.HostOnly.raiseLimited (State.HostOnly.refl s) _ _ _ _).tth
@[simp] theorem State.raiseLimited_lsn (s : State) (p code src : Nat) (d : List Nat) : (s.raiseLimited p code src d).lsn = s.lsn :=
  (State.HostOnly.raiseLimited (State.HostOnly.refl s) _ _ _ _).lsn
@[simp] theorem State.raiseLimited_sns (s : State) (p code src : Nat) (d : List Nat) : (s.raiseLimited p code src d).sns = s.sns :=
  (State.HostOnly.raiseLimited (State.HostOnly.refl s) _ _ _ _).sns
@[simp] theorem State.raiseLimited_eng (s : State) (p code src : Nat) (d : List Nat) : (s.raiseLimited p code src d).eng = s.eng :=
  (State.HostOnly.raiseLimited (State.HostOnly.refl s) _ _ _ _).eng
@[simp] theorem State.raiseLimited_net (s : State) (p code src : Nat) (d : List Nat) : (s.raiseLimited p code src d).net = s.net :=
  (State.HostOnly.raiseLimited (State.HostOnly.refl s) _ _ _ _).net
@[simp] theorem State.raiseLimited_metro (s : State) (p code src : Nat) (d : List Nat) : (s.raiseLimited p code src d).metro = s.metro :=
  (State.HostOnly.raiseLimited (State.HostOnly.refl s) _ _ _ _).metro
@[simp] theorem State.raiseLimited_test (s : State) (p code src : Nat) (d : List Nat) : (s.raiseLimited p code src d).test = s.test :=
  (State.HostOnly.raiseLimited (State.HostOnly.refl s) _ _ _ _).test
@[simp] theorem State.raiseLimited_snap (s : State) (p code src : Nat) (d : List Nat) : (s.raiseLimited p code src d).snap = s.snap :=
  (State.HostOnly.raiseLimited (State.HostOnly.refl s) _ _ _ _).snap
@[simp] theorem State.raiseLimited_free (s : State) (p code src : Nat) (d : List Nat) : (s.raiseLimited p code src d).free = s.free :=
  (State.HostOnly.raiseLimited (State.HostOnly.refl s) _ _ _ _).free
@[simp] theorem State.raiseLimited_pending (s : State) (p code src : Nat) (d : List Nat) : (s.raiseLimited p code src d).pending = s.pending :=
  (State.HostOnly.raiseLimited (State.HostOnly.refl s) _ _ _ _).pending
theorem State.raiseLimited_rd (s : State) (p code src : Nat) (d : List Nat) (x : Nat) (hx : x < 0x2000 ∨ 0x3000 ≤ x) : (s.raiseLimited p code src d).rd x = s.rd x :=
  (State.HostOnly.raiseLimited (State.HostOnly.refl s) _ _ _ _).rd x hx
theorem State.raiseLimited_fld (s : State) (p code src : Nat) (d : List Nat) (x : Nat) (g : Fld) (hx : x < 0x2000 ∨ 0x3000 ≤ x) :
    (s.raiseLimited p code src d).fld x g = s.fld x g :=
  (State.HostOnly.raiseLimited (State.HostOnly.refl s) _ _ _ _).fld x g hx

/-! ### State.raiseFLimited -/

@[simp] theorem State.raiseFLimited_mirror (s : State) (p code src : Nat) (d : List Nat) : (s.raiseFLimited p code src d).mirror = s.mirror :=
  (State.HostOnly.raiseFLimited (State.HostOnly.refl s) _ _ _ _).mirror
@[simp] theorem State.raiseFLimited_clk (s : State) (p code src : Nat) (d : List Nat) : (s.raiseFLimited p code src d).clk = s.clk :=
  (State.HostOnly.raiseFLimited (State.HostOnly.refl s) _ _ _ _).clk
@[simp] theorem State.raiseFLimited_link (s : State) (p code src : Nat) (d : List Nat) : (s.raiseFLimited p code src d).link = s.link :=
  (State.HostOnly.raiseFLimited (State.HostOnly.refl s) _ _ _ _).link
@[simp] theorem State.raiseFLimited_stage (s : State) (p code src : Nat) (d : List Nat) : (s.raiseFLimited p code src d).stage = s.stage :=
  (State.HostOnly.raiseFLimited (State.HostOnly.refl s) _ _ _ _).stage
@[simp] theorem State.raiseFLimited_locks (s : State) (p code src : Nat) (d : List Nat) : (s.raiseFLimited p code src d).locks = s.locks :=
  (State.HostOnly.raiseFLimited (State.HostOnly.refl s) _ _ _ _).locks
@[simp] theorem State.raiseFLimited_err (s : State) (p code src : Nat) (d : List Nat) : (s.raiseFLimited p code src d).err = s.err :=
  (State.HostOnly.raiseFLimited (State.HostOnly.refl s) _ _ _ _).err
@[simp] theorem State.raiseFLimited_power (s : State) (p code src : Nat) (d : List Nat) : (s.raiseFLimited p code src d).power = s.power :=
  (State.HostOnly.raiseFLimited (State.HostOnly.refl s) _ _ _ _).power
@[simp] theorem State.raiseFLimited_flash (s : State) (p code src : Nat) (d : List Nat) : (s.raiseFLimited p code src d).flash = s.flash :=
  (State.HostOnly.raiseFLimited (State.HostOnly.refl s) _ _ _ _).flash
@[simp] theorem State.raiseFLimited_fe (s : State) (p code src : Nat) (d : List Nat) : (s.raiseFLimited p code src d).fe = s.fe :=
  (State.HostOnly.raiseFLimited (State.HostOnly.refl s) _ _ _ _).fe
@[simp] theorem State.raiseFLimited_sap (s : State) (p code src : Nat) (d : List Nat) : (s.raiseFLimited p code src d).sap = s.sap :=
  (State.HostOnly.raiseFLimited (State.HostOnly.refl s) _ _ _ _).sap
@[simp] theorem State.raiseFLimited_mp (s : State) (p code src : Nat) (d : List Nat) : (s.raiseFLimited p code src d).mp = s.mp :=
  (State.HostOnly.raiseFLimited (State.HostOnly.refl s) _ _ _ _).mp
@[simp] theorem State.raiseFLimited_outs (s : State) (p code src : Nat) (d : List Nat) : (s.raiseFLimited p code src d).outs = s.outs :=
  (State.HostOnly.raiseFLimited (State.HostOnly.refl s) _ _ _ _).outs
@[simp] theorem State.raiseFLimited_tth (s : State) (p code src : Nat) (d : List Nat) : (s.raiseFLimited p code src d).tth = s.tth :=
  (State.HostOnly.raiseFLimited (State.HostOnly.refl s) _ _ _ _).tth
@[simp] theorem State.raiseFLimited_lsn (s : State) (p code src : Nat) (d : List Nat) : (s.raiseFLimited p code src d).lsn = s.lsn :=
  (State.HostOnly.raiseFLimited (State.HostOnly.refl s) _ _ _ _).lsn
@[simp] theorem State.raiseFLimited_sns (s : State) (p code src : Nat) (d : List Nat) : (s.raiseFLimited p code src d).sns = s.sns :=
  (State.HostOnly.raiseFLimited (State.HostOnly.refl s) _ _ _ _).sns
@[simp] theorem State.raiseFLimited_eng (s : State) (p code src : Nat) (d : List Nat) : (s.raiseFLimited p code src d).eng = s.eng :=
  (State.HostOnly.raiseFLimited (State.HostOnly.refl s) _ _ _ _).eng
@[simp] theorem State.raiseFLimited_net (s : State) (p code src : Nat) (d : List Nat) : (s.raiseFLimited p code src d).net = s.net :=
  (State.HostOnly.raiseFLimited (State.HostOnly.refl s) _ _ _ _).net
@[simp] theorem State.raiseFLimited_metro (s : State) (p code src : Nat) (d : List Nat) : (s.raiseFLimited p code src d).metro = s.metro :=
  (State.HostOnly.raiseFLimited (State.HostOnly.refl s) _ _ _ _).metro
@[simp] theorem State.raiseFLimited_test (s : State) (p code src : Nat) (d : List Nat) : (s.raiseFLimited p code src d).test = s.test :=
  (State.HostOnly.raiseFLimited (State.HostOnly.refl s) _ _ _ _).test
@[simp] theorem State.raiseFLimited_snap (s : State) (p code src : Nat) (d : List Nat) : (s.raiseFLimited p code src d).snap = s.snap :=
  (State.HostOnly.raiseFLimited (State.HostOnly.refl s) _ _ _ _).snap
@[simp] theorem State.raiseFLimited_free (s : State) (p code src : Nat) (d : List Nat) : (s.raiseFLimited p code src d).free = s.free :=
  (State.HostOnly.raiseFLimited (State.HostOnly.refl s) _ _ _ _).free
@[simp] theorem State.raiseFLimited_pending (s : State) (p code src : Nat) (d : List Nat) : (s.raiseFLimited p code src d).pending = s.pending :=
  (State.HostOnly.raiseFLimited (State.HostOnly.refl s) _ _ _ _).pending
theorem State.raiseFLimited_rd (s : State) (p code src : Nat) (d : List Nat) (x : Nat) (hx : x < 0x2000 ∨ 0x3000 ≤ x) : (s.raiseFLimited p code src d).rd x = s.rd x :=
  (State.HostOnly.raiseFLimited (State.HostOnly.refl s) _ _ _ _).rd x hx
theorem State.raiseFLimited_fld (s : State) (p code src : Nat) (d : List Nat) (x : Nat) (g : Fld) (hx : x < 0x2000 ∨ 0x3000 ≤ x) :
    (s.raiseFLimited p code src d).fld x g = s.fld x g :=
  (State.HostOnly.raiseFLimited (State.HostOnly.refl s) _ _ _ _).fld x g hx

/-! ### State.finish -/

@[simp] theorem State.finish_mirror (s : State) (id : DescId) (c : Completion) : (s.finish id c).mirror = s.mirror :=
  (State.HostOnly.finish (State.HostOnly.refl s) _ _).mirror
@[simp] theorem State.finish_clk (s : State) (id : DescId) (c : Completion) : (s.finish id c).clk = s.clk :=
  (State.HostOnly.finish (State.HostOnly.refl s) _ _).clk
@[simp] theorem State.finish_link (s : State) (id : DescId) (c : Completion) : (s.finish id c).link = s.link :=
  (State.HostOnly.finish (State.HostOnly.refl s) _ _).link
@[simp] theorem State.finish_stage (s : State) (id : DescId) (c : Completion) : (s.finish id c).stage = s.stage :=
  (State.HostOnly.finish (State.HostOnly.refl s) _ _).stage
@[simp] theorem State.finish_locks (s : State) (id : DescId) (c : Completion) : (s.finish id c).locks = s.locks :=
  (State.HostOnly.finish (State.HostOnly.refl s) _ _).locks
@[simp] theorem State.finish_err (s : State) (id : DescId) (c : Completion) : (s.finish id c).err = s.err :=
  (State.HostOnly.finish (State.HostOnly.refl s) _ _).err
@[simp] theorem State.finish_power (s : State) (id : DescId) (c : Completion) : (s.finish id c).power = s.power :=
  (State.HostOnly.finish (State.HostOnly.refl s) _ _).power
@[simp] theorem State.finish_flash (s : State) (id : DescId) (c : Completion) : (s.finish id c).flash = s.flash :=
  (State.HostOnly.finish (State.HostOnly.refl s) _ _).flash
@[simp] theorem State.finish_fe (s : State) (id : DescId) (c : Completion) : (s.finish id c).fe = s.fe :=
  (State.HostOnly.finish (State.HostOnly.refl s) _ _).fe
@[simp] theorem State.finish_sap (s : State) (id : DescId) (c : Completion) : (s.finish id c).sap = s.sap :=
  (State.HostOnly.finish (State.HostOnly.refl s) _ _).sap
@[simp] theorem State.finish_mp (s : State) (id : DescId) (c : Completion) : (s.finish id c).mp = s.mp :=
  (State.HostOnly.finish (State.HostOnly.refl s) _ _).mp
@[simp] theorem State.finish_outs (s : State) (id : DescId) (c : Completion) : (s.finish id c).outs = s.outs :=
  (State.HostOnly.finish (State.HostOnly.refl s) _ _).outs
@[simp] theorem State.finish_tth (s : State) (id : DescId) (c : Completion) : (s.finish id c).tth = s.tth :=
  (State.HostOnly.finish (State.HostOnly.refl s) _ _).tth
@[simp] theorem State.finish_lsn (s : State) (id : DescId) (c : Completion) : (s.finish id c).lsn = s.lsn :=
  (State.HostOnly.finish (State.HostOnly.refl s) _ _).lsn
@[simp] theorem State.finish_sns (s : State) (id : DescId) (c : Completion) : (s.finish id c).sns = s.sns :=
  (State.HostOnly.finish (State.HostOnly.refl s) _ _).sns
@[simp] theorem State.finish_eng (s : State) (id : DescId) (c : Completion) : (s.finish id c).eng = s.eng :=
  (State.HostOnly.finish (State.HostOnly.refl s) _ _).eng
@[simp] theorem State.finish_net (s : State) (id : DescId) (c : Completion) : (s.finish id c).net = s.net :=
  (State.HostOnly.finish (State.HostOnly.refl s) _ _).net
@[simp] theorem State.finish_metro (s : State) (id : DescId) (c : Completion) : (s.finish id c).metro = s.metro :=
  (State.HostOnly.finish (State.HostOnly.refl s) _ _).metro
@[simp] theorem State.finish_test (s : State) (id : DescId) (c : Completion) : (s.finish id c).test = s.test :=
  (State.HostOnly.finish (State.HostOnly.refl s) _ _).test
@[simp] theorem State.finish_snap (s : State) (id : DescId) (c : Completion) : (s.finish id c).snap = s.snap :=
  (State.HostOnly.finish (State.HostOnly.refl s) _ _).snap
@[simp] theorem State.finish_free (s : State) (id : DescId) (c : Completion) : (s.finish id c).free = s.free :=
  (State.HostOnly.finish (State.HostOnly.refl s) _ _).free
@[simp] theorem State.finish_pending (s : State) (id : DescId) (c : Completion) : (s.finish id c).pending = s.pending :=
  (State.HostOnly.finish (State.HostOnly.refl s) _ _).pending
theorem State.finish_rd (s : State) (id : DescId) (c : Completion) (x : Nat) (hx : x < 0x2000 ∨ 0x3000 ≤ x) : (s.finish id c).rd x = s.rd x :=
  (State.HostOnly.finish (State.HostOnly.refl s) _ _).rd x hx
theorem State.finish_fld (s : State) (id : DescId) (c : Completion) (x : Nat) (g : Fld) (hx : x < 0x2000 ∨ 0x3000 ≤ x) :
    (s.finish id c).fld x g = s.fld x g :=
  (State.HostOnly.finish (State.HostOnly.refl s) _ _).fld x g hx

/-! ### State.finishBad -/

@[simp] theorem State.finishBad_mirror (s : State) (id : DescId) (st : Status) : (s.finishBad id st).mirror = s.mirror :=
  (State.HostOnly.finish (State.HostOnly.refl s) _ _).mirror
@[simp] theorem State.finishBad_clk (s : State) (id : DescId) (st : Status) : (s.finishBad id st).clk = s.clk :=
  (State.HostOnly.finish (State.HostOnly.refl s) _ _).clk
@[simp] theorem State.finishBad_link (s : State) (id : DescId) (st : Status) : (s.finishBad id st).link = s.link :=
  (State.HostOnly.finish (State.HostOnly.refl s) _ _).link
@[simp] theorem State.finishBad_stage (s : State) (id : DescId) (st : Status) : (s.finishBad id st).stage = s.stage :=
  (State.HostOnly.finish (State.HostOnly.refl s) _ _).stage
@[simp] theorem State.finishBad_locks (s : State) (id : DescId) (st : Status) : (s.finishBad id st).locks = s.locks :=
  (State.HostOnly.finish (State.HostOnly.refl s) _ _).locks
@[simp] theorem State.finishBad_err (s : State) (id : DescId) (st : Status) : (s.finishBad id st).err = s.err :=
  (State.HostOnly.finish (State.HostOnly.refl s) _ _).err
@[simp] theorem State.finishBad_power (s : State) (id : DescId) (st : Status) : (s.finishBad id st).power = s.power :=
  (State.HostOnly.finish (State.HostOnly.refl s) _ _).power
@[simp] theorem State.finishBad_flash (s : State) (id : DescId) (st : Status) : (s.finishBad id st).flash = s.flash :=
  (State.HostOnly.finish (State.HostOnly.refl s) _ _).flash
@[simp] theorem State.finishBad_fe (s : State) (id : DescId) (st : Status) : (s.finishBad id st).fe = s.fe :=
  (State.HostOnly.finish (State.HostOnly.refl s) _ _).fe
@[simp] theorem State.finishBad_sap (s : State) (id : DescId) (st : Status) : (s.finishBad id st).sap = s.sap :=
  (State.HostOnly.finish (State.HostOnly.refl s) _ _).sap
@[simp] theorem State.finishBad_mp (s : State) (id : DescId) (st : Status) : (s.finishBad id st).mp = s.mp :=
  (State.HostOnly.finish (State.HostOnly.refl s) _ _).mp
@[simp] theorem State.finishBad_outs (s : State) (id : DescId) (st : Status) : (s.finishBad id st).outs = s.outs :=
  (State.HostOnly.finish (State.HostOnly.refl s) _ _).outs
@[simp] theorem State.finishBad_tth (s : State) (id : DescId) (st : Status) : (s.finishBad id st).tth = s.tth :=
  (State.HostOnly.finish (State.HostOnly.refl s) _ _).tth
@[simp] theorem State.finishBad_lsn (s : State) (id : DescId) (st : Status) : (s.finishBad id st).lsn = s.lsn :=
  (State.HostOnly.finish (State.HostOnly.refl s) _ _).lsn
@[simp] theorem State.finishBad_sns (s : State) (id : DescId) (st : Status) : (s.finishBad id st).sns = s.sns :=
  (State.HostOnly.finish (State.HostOnly.refl s) _ _).sns
@[simp] theorem State.finishBad_eng (s : State) (id : DescId) (st : Status) : (s.finishBad id st).eng = s.eng :=
  (State.HostOnly.finish (State.HostOnly.refl s) _ _).eng
@[simp] theorem State.finishBad_net (s : State) (id : DescId) (st : Status) : (s.finishBad id st).net = s.net :=
  (State.HostOnly.finish (State.HostOnly.refl s) _ _).net
@[simp] theorem State.finishBad_metro (s : State) (id : DescId) (st : Status) : (s.finishBad id st).metro = s.metro :=
  (State.HostOnly.finish (State.HostOnly.refl s) _ _).metro
@[simp] theorem State.finishBad_test (s : State) (id : DescId) (st : Status) : (s.finishBad id st).test = s.test :=
  (State.HostOnly.finish (State.HostOnly.refl s) _ _).test
@[simp] theorem State.finishBad_snap (s : State) (id : DescId) (st : Status) : (s.finishBad id st).snap = s.snap :=
  (State.HostOnly.finish (State.HostOnly.refl s) _ _).snap
@[simp] theorem State.finishBad_free (s : State) (id : DescId) (st : Status) : (s.finishBad id st).free = s.free :=
  (State.HostOnly.finish (State.HostOnly.refl s) _ _).free
@[simp] theorem State.finishBad_pending (s : State) (id : DescId) (st : Status) : (s.finishBad id st).pending = s.pending :=
  (State.HostOnly.finish (State.HostOnly.refl s) _ _).pending
theorem State.finishBad_rd (s : State) (id : DescId) (st : Status) (x : Nat) (hx : x < 0x2000 ∨ 0x3000 ≤ x) : (s.finishBad id st).rd x = s.rd x :=
  (State.HostOnly.finish (State.HostOnly.refl s) _ _).rd x hx
theorem State.finishBad_fld (s : State) (id : DescId) (st : Status) (x : Nat) (g : Fld) (hx : x < 0x2000 ∨ 0x3000 ≤ x) :
    (s.finishBad id st).fld x g = s.fld x g :=
  (State.HostOnly.finish (State.HostOnly.refl s) _ _).fld x g hx

/-! ### State.finishDone -/

@[simp] theorem State.finishDone_mirror (s : State) (id : DescId) : (s.finishDone id).mirror = s.mirror :=
  (State.HostOnly.finish (State.HostOnly.refl s) _ _).mirror
@[simp] theorem State.finishDone_clk (s : State) (id : DescId) : (s.finishDone id).clk = s.clk :=
  (State.HostOnly.finish (State.HostOnly.refl s) _ _).clk
@[simp] theorem State.finishDone_link (s : State) (id : DescId) : (s.finishDone id).link = s.link :=
  (State.HostOnly.finish (State.HostOnly.refl s) _ _).link
@[simp] theorem State.finishDone_stage (s : State) (id : DescId) : (s.finishDone id).stage = s.stage :=
  (State.HostOnly.finish (State.HostOnly.refl s) _ _).stage
@[simp] theorem State.finishDone_locks (s : State) (id : DescId) : (s.finishDone id).locks = s.locks :=
  (State.HostOnly.finish (State.HostOnly.refl s) _ _).locks
@[simp] theorem State.finishDone_err (s : State) (id : DescId) : (s.finishDone id).err = s.err :=
  (State.HostOnly.finish (State.HostOnly.refl s) _ _).err
@[simp] theorem State.finishDone_power (s : State) (id : DescId) : (s.finishDone id).power = s.power :=
  (State.HostOnly.finish (State.HostOnly.refl s) _ _).power
@[simp] theorem State.finishDone_flash (s : State) (id : DescId) : (s.finishDone id).flash = s.flash :=
  (State.HostOnly.finish (State.HostOnly.refl s) _ _).flash
@[simp] theorem State.finishDone_fe (s : State) (id : DescId) : (s.finishDone id).fe = s.fe :=
  (State.HostOnly.finish (State.HostOnly.refl s) _ _).fe
@[simp] theorem State.finishDone_sap (s : State) (id : DescId) : (s.finishDone id).sap = s.sap :=
  (State.HostOnly.finish (State.HostOnly.refl s) _ _).sap
@[simp] theorem State.finishDone_mp (s : State) (id : DescId) : (s.finishDone id).mp = s.mp :=
  (State.HostOnly.finish (State.HostOnly.refl s) _ _).mp
@[simp] theorem State.finishDone_outs (s : State) (id : DescId) : (s.finishDone id).outs = s.outs :=
  (State.HostOnly.finish (State.HostOnly.refl s) _ _).outs
@[simp] theorem State.finishDone_tth (s : State) (id : DescId) : (s.finishDone id).tth = s.tth :=
  (State.HostOnly.finish (State.HostOnly.refl s) _ _).tth
@[simp] theorem State.finishDone_lsn (s : State) (id : DescId) : (s.finishDone id).lsn = s.lsn :=
  (State.HostOnly.finish (State.HostOnly.refl s) _ _).lsn
@[simp] theorem State.finishDone_sns (s : State) (id : DescId) : (s.finishDone id).sns = s.sns :=
  (State.HostOnly.finish (State.HostOnly.refl s) _ _).sns
@[simp] theorem State.finishDone_eng (s : State) (id : DescId) : (s.finishDone id).eng = s.eng :=
  (State.HostOnly.finish (State.HostOnly.refl s) _ _).eng
@[simp] theorem State.finishDone_net (s : State) (id : DescId) : (s.finishDone id).net = s.net :=
  (State.HostOnly.finish (State.HostOnly.refl s) _ _).net
@[simp] theorem State.finishDone_metro (s : State) (id : DescId) : (s.finishDone id).metro = s.metro :=
  (State.HostOnly.finish (State.HostOnly.refl s) _ _).metro
@[simp] theorem State.finishDone_test (s : State) (id : DescId) : (s.finishDone id).test = s.test :=
  (State.HostOnly.finish (State.HostOnly.refl s) _ _).test
@[simp] theorem State.finishDone_snap (s : State) (id : DescId) : (s.finishDone id).snap = s.snap :=
  (State.HostOnly.finish (State.HostOnly.refl s) _ _).snap
@[simp] theorem State.finishDone_free (s : State) (id : DescId) : (s.finishDone id).free = s.free :=
  (State.HostOnly.finish (State.HostOnly.refl s) _ _).free
@[simp] theorem State.finishDone_pending (s : State) (id : DescId) : (s.finishDone id).pending = s.pending :=
  (State.HostOnly.finish (State.HostOnly.refl s) _ _).pending
theorem State.finishDone_rd (s : State) (id : DescId) (x : Nat) (hx : x < 0x2000 ∨ 0x3000 ≤ x) : (s.finishDone id).rd x = s.rd x :=
  (State.HostOnly.finish (State.HostOnly.refl s) _ _).rd x hx
theorem State.finishDone_fld (s : State) (id : DescId) (x : Nat) (g : Fld) (hx : x < 0x2000 ∨ 0x3000 ≤ x) :
    (s.finishDone id).fld x g = s.fld x g :=
  (State.HostOnly.finish (State.HostOnly.refl s) _ _).fld x g hx

/-! ### State.finishOpt -/

@[simp] theorem State.finishOpt_mirror (s : State) (id : Option DescId) (c : Completion) : (s.finishOpt id c).mirror = s.mirror :=
  (State.HostOnly.finishOpt (State.HostOnly.refl s) _ _).mirror
@[simp] theorem State.finishOpt_clk (s : State) (id : Option DescId) (c : Completion) : (s.finishOpt id c).clk = s.clk :=
  (State.HostOnly.finishOpt (State.HostOnly.refl s) _ _).clk
@[simp] theorem State.finishOpt_link (s : State) (id : Option DescId) (c : Completion) : (s.finishOpt id c).link = s.link :=
  (State.HostOnly.finishOpt (State.HostOnly.refl s) _ _).link
@[simp] theorem State.finishOpt_stage (s : State) (id : Option DescId) (c : Completion) : (s.finishOpt id c).stage = s.stage :=
  (State.HostOnly.finishOpt (State.HostOnly.refl s) _ _).stage
@[simp] theorem State.finishOpt_locks (s : State) (id : Option DescId) (c : Completion) : (s.finishOpt id c).locks = s.locks :=
  (State.HostOnly.finishOpt (State.HostOnly.refl s) _ _).locks
@[simp] theorem State.finishOpt_err (s : State) (id : Option DescId) (c : Completion) : (s.finishOpt id c).err = s.err :=
  (State.HostOnly.finishOpt (State.HostOnly.refl s) _ _).err
@[simp] theorem State.finishOpt_power (s : State) (id : Option DescId) (c : Completion) : (s.finishOpt id c).power = s.power :=
  (State.HostOnly.finishOpt (State.HostOnly.refl s) _ _).power
@[simp] theorem State.finishOpt_flash (s : State) (id : Option DescId) (c : Completion) : (s.finishOpt id c).flash = s.flash :=
  (State.HostOnly.finishOpt (State.HostOnly.refl s) _ _).flash
@[simp] theorem State.finishOpt_fe (s : State) (id : Option DescId) (c : Completion) : (s.finishOpt id c).fe = s.fe :=
  (State.HostOnly.finishOpt (State.HostOnly.refl s) _ _).fe
@[simp] theorem State.finishOpt_sap (s : State) (id : Option DescId) (c : Completion) : (s.finishOpt id c).sap = s.sap :=
  (State.HostOnly.finishOpt (State.HostOnly.refl s) _ _).sap
@[simp] theorem State.finishOpt_mp (s : State) (id : Option DescId) (c : Completion) : (s.finishOpt id c).mp = s.mp :=
  (State.HostOnly.finishOpt (State.HostOnly.refl s) _ _).mp
@[simp] theorem State.finishOpt_outs (s : State) (id : Option DescId) (c : Completion) : (s.finishOpt id c).outs = s.outs :=
  (State.HostOnly.finishOpt (State.HostOnly.refl s) _ _).outs
@[simp] theorem State.finishOpt_tth (s : State) (id : Option DescId) (c : Completion) : (s.finishOpt id c).tth = s.tth :=
  (State.HostOnly.finishOpt (State.HostOnly.refl s) _ _).tth
@[simp] theorem State.finishOpt_lsn (s : State) (id : Option DescId) (c : Completion) : (s.finishOpt id c).lsn = s.lsn :=
  (State.HostOnly.finishOpt (State.HostOnly.refl s) _ _).lsn
@[simp] theorem State.finishOpt_sns (s : State) (id : Option DescId) (c : Completion) : (s.finishOpt id c).sns = s.sns :=
  (State.HostOnly.finishOpt (State.HostOnly.refl s) _ _).sns
@[simp] theorem State.finishOpt_eng (s : State) (id : Option DescId) (c : Completion) : (s.finishOpt id c).eng = s.eng :=
  (State.HostOnly.finishOpt (State.HostOnly.refl s) _ _).eng
@[simp] theorem State.finishOpt_net (s : State) (id : Option DescId) (c : Completion) : (s.finishOpt id c).net = s.net :=
  (State.HostOnly.finishOpt (State.HostOnly.refl s) _ _).net
@[simp] theorem State.finishOpt_metro (s : State) (id : Option DescId) (c : Completion) : (s.finishOpt id c).metro = s.metro :=
  (State.HostOnly.finishOpt (State.HostOnly.refl s) _ _).metro
@[simp] theorem State.finishOpt_test (s : State) (id : Option DescId) (c : Completion) : (s.finishOpt id c).test = s.test :=
  (State.HostOnly.finishOpt (State.HostOnly.refl s) _ _).test
@[simp] theorem State.finishOpt_snap (s : State) (id : Option DescId) (c : Completion) : (s.finishOpt id c).snap = s.snap :=
  (State.HostOnly.finishOpt (State.HostOnly.refl s) _ _).snap
@[simp] theorem State.finishOpt_free (s : State) (id : Option DescId) (c : Completion) : (s.finishOpt id c).free = s.free :=
  (State.HostOnly.finishOpt (State.HostOnly.refl s) _ _).free
@[simp] theorem State.finishOpt_pending (s : State) (id : Option DescId) (c : Completion) : (s.finishOpt id c).pending = s.pending :=
  (State.HostOnly.finishOpt (State.HostOnly.refl s) _ _).pending
theorem State.finishOpt_rd (s : State) (id : Option DescId) (c : Completion) (x : Nat) (hx : x < 0x2000 ∨ 0x3000 ≤ x) : (s.finishOpt id c).rd x = s.rd x :=
  (State.HostOnly.finishOpt (State.HostOnly.refl s) _ _).rd x hx
theorem State.finishOpt_fld (s : State) (id : Option DescId) (c : Completion) (x : Nat) (g : Fld) (hx : x < 0x2000 ∨ 0x3000 ≤ x) :
    (s.finishOpt id c).fld x g = s.fld x g :=
  (State.HostOnly.finishOpt (State.HostOnly.refl s) _ _).fld x g hx


end Sys2Proof.Machine
end

