-- ==== Sys2Proof/Laws/Frames.lean ====
section
/-!
SUPPORT. Fields that the operations of the machine leave as they are.
-/
namespace Sys2Proof.Machine

theorem State.foldl_clk {α : Type} (f : State → α → State) (h : ∀ s a, (f s a).clk = s.clk) :
    ∀ (l : List α) (s : State), (l.foldl f s).clk = s.clk
  | [], _ => rfl
  | a :: l, s => (State.foldl_clk f h l (f s a)).trans (h s a)

theorem State.foldl_err {α : Type} (f : State → α → State) (h : ∀ s a, (f s a).err = s.err) :
    ∀ (l : List α) (s : State), (l.foldl f s).err = s.err
  | [], _ => rfl
  | a :: l, s => (State.foldl_err f h l (f s a)).trans (h s a)

theorem State.foldl_link {α : Type} (f : State → α → State) (h : ∀ s a, (f s a).link = s.link) :
    ∀ (l : List α) (s : State), (l.foldl f s).link = s.link
  | [], _ => rfl
  | a :: l, s => (State.foldl_link f h l (f s a)).trans (h s a)

theorem State.foldl_outs {α : Type} (f : State → α → State) (h : ∀ s a, (f s a).outs = s.outs) :
    ∀ (l : List α) (s : State), (l.foldl f s).outs = s.outs
  | [], _ => rfl
  | a :: l, s => (State.foldl_outs f h l (f s a)).trans (h s a)

theorem State.foldl_power {α : Type} (f : State → α → State) (h : ∀ s a, (f s a).power = s.power) :
    ∀ (l : List α) (s : State), (l.foldl f s).power = s.power
  | [], _ => rfl
  | a :: l, s => (State.foldl_power f h l (f s a)).trans (h s a)

theorem State.foldl_rd {α : Type} (a : Nat) (f : State → α → State) (h : ∀ s x, (f s x).rd a = s.rd a) :
    ∀ (l : List α) (s : State), (l.foldl f s).rd a = s.rd a
  | [], _ => rfl
  | x :: l, s => (State.foldl_rd a f h l (f s x)).trans (h s x)

theorem State.foldl_stage {α : Type} (f : State → α → State) (h : ∀ s a, (f s a).stage = s.stage) :
    ∀ (l : List α) (s : State), (l.foldl f s).stage = s.stage
  | [], _ => rfl
  | a :: l, s => (State.foldl_stage f h l (f s a)).trans (h s a)

@[simp] theorem State.setAll_link (f : Fld) (x : Nat) (x0 : List Nat) (x1 : State) : (State.setAll f x x0 x1).link = x1.link := by
  fun_induction State.setAll f x x0 x1 <;> simp_all [State.setF_link]
  all_goals (repeat' first | rfl | assumption | split | (simp_all [State.setF_link]; done))

@[simp] theorem State.setAll_stage (f : Fld) (x : Nat) (x0 : List Nat) (x1 : State) : (State.setAll f x x0 x1).stage = x1.stage := by
  fun_induction State.setAll f x x0 x1 <;> simp_all [State.setF_stage]
  all_goals (repeat' first | rfl | assumption | split | (simp_all [State.setF_stage]; done))

@[simp] theorem State.zeroAll_stage (x0 : List Nat) (x1 : State) : (State.zeroAll x0 x1).stage = x1.stage := by
  fun_induction State.zeroAll x0 x1 <;> simp_all [State.wr_stage]
  all_goals (repeat' first | rfl | assumption | split | (simp_all [State.wr_stage]; done))

@[simp] theorem State.ringFull_stage (s : State) (r : Nat) : (State.ringFull s r).stage = s.stage := by
  unfold State.ringFull
  repeat' first | (simp only [State.setBit_stage]; done) | (simp [State.setBit_stage]; done) | split | dsimp only | with_reducible rfl

@[simp] theorem State.modQueue_stage (s : State) (o : Origin) (f : CmdQueue → CmdQueue) : (State.modQueue s o f).stage = s.stage := by
  unfold State.modQueue
  repeat' first | (simp only [State.modHost_stage]; done) | (simp [State.modHost_stage]; done) | split | dsimp only | with_reducible rfl

@[simp] theorem State.tthLinkBack_link (s : State) : (State.tthLinkBack s).link = s.link := by
  unfold State.tthLinkBack
  repeat' first | (simp only [State.setAll_link, State.setF_link]; done) | (simp [State.setAll_link, State.setF_link]; done) | split | dsimp only | with_reducible rfl

@[simp] theorem State.lckCntClr_stage (s : State) : (State.lckCntClr s).stage = s.stage := by
  unfold State.lckCntClr
  repeat' first | (simp only [State.zeroAll_stage]; done) | (simp [State.zeroAll_stage]; done) | split | dsimp only | with_reducible rfl

@[simp] theorem State.modRing_stage (s : State) (r : Nat) (f : RingX → RingX) : (State.modRing s r f).stage = s.stage := by
  unfold State.modRing
  repeat' first | (simp only [State.modHost_stage]; done) | (simp [State.modHost_stage]; done) | split | dsimp only | with_reducible rfl

@[simp] theorem State.ringErr_stage (s : State) (r : Nat) : (State.ringErr s r).stage = s.stage := by
  unfold State.ringErr
  repeat' first | (simp only [State.setF_stage]; done) | (simp [State.setF_stage]; done) | split | dsimp only | with_reducible rfl

@[simp] theorem State.ringTo_stage (s : State) (r : Nat) (st : Nat) : (State.ringTo s r st).stage = s.stage := by
  unfold State.ringTo
  repeat' first | (simp only [State.setF_stage]; done) | (simp [State.setF_stage]; done) | split | dsimp only | with_reducible rfl

@[simp] theorem State.ringEnable_stage (s : State) (r : Nat) : (State.ringEnable s r).stage = s.stage := by
  unfold State.ringEnable
  repeat' first | (simp only [State.ringFull_stage, State.modQueue_stage, State.modRing_stage, State.ringErr_stage, State.ringTo_stage, State.pumpAll_stage, State.setF_stage, State.wr_stage]; done) | (simp [State.ringFull_stage, State.modQueue_stage, State.modRing_stage, State.ringErr_stage, State.ringTo_stage, State.pumpAll_stage, State.setF_stage, State.wr_stage]; done) | split | dsimp only | with_reducible rfl

@[simp] theorem State.hifCntClr_stage (s : State) : (State.hifCntClr s).stage = s.stage := by
  unfold State.hifCntClr
  repeat' first | (simp only [State.zeroAll_stage]; done) | (simp [State.zeroAll_stage]; done) | split | dsimp only | with_reducible rfl

@[simp] theorem State.jnlRegion_stage (s : State) (j : Nat) : (State.jnlRegion s j).stage = s.stage := by
  unfold State.jnlRegion
  repeat' first | (simp only [State.wr_stage]; done) | (simp [State.wr_stage]; done) | split | dsimp only | with_reducible rfl

@[simp] theorem State.jnlShow_stage (s : State) : (State.jnlShow s).stage = s.stage := by
  unfold State.jnlShow
  repeat' first | (simp only [State.jnlRegion_stage, State.foldl_stage, State.setF_stage, State.wr_stage]; done) | (simp [State.jnlRegion_stage, State.foldl_stage, State.setF_stage, State.wr_stage]; done) | split | dsimp only | with_reducible rfl

@[simp] theorem State.compactGo_stage (s : State) : (State.compactGo s).stage = s.stage := by
  unfold State.compactGo
  repeat' first | (simp only [State.modFlash_stage]; done) | (simp [State.modFlash_stage]; done) | split | dsimp only | with_reducible rfl

@[simp] theorem State.jnlCntClr_stage (s : State) : (State.jnlCntClr s).stage = s.stage := by
  unfold State.jnlCntClr
  repeat' first | (simp only [State.zeroAll_stage, State.setF_stage]; done) | (simp [State.zeroAll_stage, State.setF_stage]; done) | split | dsimp only | with_reducible rfl

@[simp] theorem State.flashBegin_stage (s : State) (id : Option DescId) (job : FlashJob) : (State.flashBegin s id job).stage = s.stage := by
  unfold State.flashBegin
  repeat' first | (simp only [State.jnlShow_stage, State.modFlash_stage]; done) | (simp [State.jnlShow_stage, State.modFlash_stage]; done) | split | dsimp only | with_reducible rfl

@[simp] theorem State.arbCopy_stage (x0 : List Nat) (x1 : State) : (State.arbCopy x0 x1).stage = x1.stage := by
  fun_induction State.arbCopy x0 x1 <;> simp_all [State.wr_stage]
  all_goals (repeat' first | rfl | assumption | split | (simp_all [State.wr_stage]; done))

@[simp] theorem State.arbSnap_stage (s : State) (clr : Bool) : (State.arbSnap s clr).stage = s.stage := by
  unfold State.arbSnap
  repeat' first | (simp only [State.arbCopy_stage, State.modEngines_stage, State.setF_stage, State.setPair_stage]; done) | (simp [State.arbCopy_stage, State.modEngines_stage, State.setF_stage, State.setPair_stage]; done) | split | dsimp only | with_reducible rfl

@[simp] theorem State.engCntClr_stage (s : State) : (State.engCntClr s).stage = s.stage := by
  unfold State.engCntClr
  repeat' first | (simp only [State.setAll_stage, State.zeroAll_stage]; done) | (simp [State.setAll_stage, State.zeroAll_stage]; done) | split | dsimp only | with_reducible rfl

@[simp] theorem State.mdioGo_stage (s : State) : (State.mdioGo s).stage = s.stage := by
  unfold State.mdioGo
  repeat' first | (simp only [State.emit_stage, State.setF_stage]; done) | (simp [State.emit_stage, State.setF_stage]; done) | split | dsimp only | with_reducible rfl

@[simp] theorem State.alignShow_clk (s : State) : (State.alignShow s).clk = s.clk := by
  unfold State.alignShow
  repeat' first | (simp only [State.raise_clk, State.setF_clk]; done) | (simp [State.raise_clk, State.setF_clk]; done) | split | dsimp only | with_reducible rfl

@[simp] theorem State.alignShow_link (s : State) : (State.alignShow s).link = s.link := by
  unfold State.alignShow
  repeat' first | (simp only [State.raise_link, State.setF_link]; done) | (simp [State.raise_link, State.setF_link]; done) | split | dsimp only | with_reducible rfl

@[simp] theorem State.alignShow_power (s : State) : (State.alignShow s).power = s.power := by
  unfold State.alignShow
  repeat' first | (simp only [State.raise_power, State.setF_power]; done) | (simp [State.raise_power, State.setF_power]; done) | split | dsimp only | with_reducible rfl

@[simp] theorem State.alignShow_stage (s : State) : (State.alignShow s).stage = s.stage := by
  unfold State.alignShow
  repeat' first | (simp only [State.raise_stage, State.setF_stage]; done) | (simp [State.raise_stage, State.setF_stage]; done) | split | dsimp only | with_reducible rfl

theorem State.alignShow_rd (s : State) (a : Nat) (ha : a < 0x2000 ∨ 0x3000 ≤ a) (hARR_BRIDLE_STS : R.ARR_BRIDLE_STS ≠ a) (hARR_PTP_STS : R.ARR_PTP_STS ≠ a) : (State.alignShow s).rd a = s.rd a := by
  unfold State.alignShow
  repeat' first | rfl | (simp (disch := first | assumption | (intros; assumption) | (first | exact hARR_BRIDLE_STS .. | exact hARR_PTP_STS ..)) [State.raise_rd, State.rd_setF_ne, State.rd_wr_ne, State.rd_incSat_ne, State.rd_incWrap_ne, State.rd_addSat_ne, State.setPair, State.setBit]; done) | split | dsimp only

theorem State.alignShow_fld (s : State) (a : Nat) (g : Fld) (ha : a < 0x2000 ∨ 0x3000 ≤ a) (hARR_BRIDLE_STS : R.ARR_BRIDLE_STS ≠ a) (hARR_PTP_STS : R.ARR_PTP_STS ≠ a) : (State.alignShow s).fld a g = s.fld a g := by
  rw [State.fld_eq, State.alignShow_rd (ha := ha) (hARR_BRIDLE_STS := hARR_BRIDLE_STS) (hARR_PTP_STS := hARR_PTP_STS), State.fld_eq]

@[simp] theorem State.netCntClr_stage (s : State) : (State.netCntClr s).stage = s.stage := by
  unfold State.netCntClr
  repeat' first | (simp only [State.zeroAll_stage]; done) | (simp [State.zeroAll_stage]; done) | split | dsimp only | with_reducible rfl

@[simp] theorem State.worst_clk (s : State) (level : Nat) : (State.worst s level).clk = s.clk := by
  unfold State.worst
  repeat' first | (simp only [State.modNet_clk, State.setF_clk]; done) | (simp [State.modNet_clk, State.setF_clk]; done) | split | dsimp only | with_reducible rfl

@[simp] theorem State.worst_link (s : State) (level : Nat) : (State.worst s level).link = s.link := by
  unfold State.worst
  repeat' first | (simp only [State.modNet_link, State.setF_link]; done) | (simp [State.modNet_link, State.setF_link]; done) | split | dsimp only | with_reducible rfl

@[simp] theorem State.worst_power (s : State) (level : Nat) : (State.worst s level).power = s.power := by
  unfold State.worst
  repeat' first | (simp only [State.modNet_power, State.setF_power]; done) | (simp [State.modNet_power, State.setF_power]; done) | split | dsimp only | with_reducible rfl

@[simp] theorem State.worst_stage (s : State) (level : Nat) : (State.worst s level).stage = s.stage := by
  unfold State.worst
  repeat' first | (simp only [State.modNet_stage, State.setF_stage]; done) | (simp [State.modNet_stage, State.setF_stage]; done) | split | dsimp only | with_reducible rfl

@[simp] theorem State.worst_err (s : State) (level : Nat) : (State.worst s level).err = s.err := by
  unfold State.worst
  repeat' first | (simp only [State.modNet_err, State.setF_err]; done) | (simp [State.modNet_err, State.setF_err]; done) | split | dsimp only | with_reducible rfl

@[simp] theorem State.worst_outs (s : State) (level : Nat) : (State.worst s level).outs = s.outs := by
  unfold State.worst
  repeat' first | (simp only [State.modNet_outs, State.setF_outs]; done) | (simp [State.modNet_outs, State.setF_outs]; done) | split | dsimp only | with_reducible rfl

theorem State.worst_rd (s : State) (level : Nat) (a : Nat) (ha : a < 0x2000 ∨ 0x3000 ≤ a) (hMEM_STS : R.MEM_STS ≠ a) : (State.worst s level).rd a = s.rd a := by
  unfold State.worst
  repeat' first | rfl | (simp (disch := first | assumption | (intros; assumption) | (first | exact hMEM_STS ..)) [State.rd_setF_ne, State.rd_wr_ne, State.rd_incSat_ne, State.rd_incWrap_ne, State.rd_addSat_ne, State.setPair, State.setBit]; done) | split | dsimp only

theorem State.worst_fld (s : State) (level : Nat) (a : Nat) (g : Fld) (ha : a < 0x2000 ∨ 0x3000 ≤ a) (hMEM_STS : R.MEM_STS ≠ a) : (State.worst s level).fld a g = s.fld a g := by
  rw [State.fld_eq, State.worst_rd (ha := ha) (hMEM_STS := hMEM_STS), State.fld_eq]

@[simp] theorem State.degradedCount_clk (s : State) : (State.degradedCount s).clk = s.clk := by
  unfold State.degradedCount
  repeat' first | (simp only [State.worst_clk, State.incSat_clk]; done) | (simp [State.worst_clk, State.incSat_clk]; done) | split | dsimp only | with_reducible rfl

@[simp] theorem State.degradedCount_link (s : State) : (State.degradedCount s).link = s.link := by
  unfold State.degradedCount
  repeat' first | (simp only [State.worst_link, State.incSat_link]; done) | (simp [State.worst_link, State.incSat_link]; done) | split | dsimp only | with_reducible rfl

@[simp] theorem State.degradedCount_power (s : State) : (State.degradedCount s).power = s.power := by
  unfold State.degradedCount
  repeat' first | (simp only [State.worst_power, State.incSat_power]; done) | (simp [State.worst_power, State.incSat_power]; done) | split | dsimp only | with_reducible rfl

@[simp] theorem State.degradedCount_stage (s : State) : (State.degradedCount s).stage = s.stage := by
  unfold State.degradedCount
  repeat' first | (simp only [State.worst_stage, State.incSat_stage]; done) | (simp [State.worst_stage, State.incSat_stage]; done) | split | dsimp only | with_reducible rfl

@[simp] theorem State.degradedCount_err (s : State) : (State.degradedCount s).err = s.err := by
  unfold State.degradedCount
  repeat' first | (simp only [State.worst_err, State.incSat_err]; done) | (simp [State.worst_err, State.incSat_err]; done) | split | dsimp only | with_reducible rfl

theorem State.degradedCount_rd (s : State) (a : Nat) (ha : a < 0x2000 ∨ 0x3000 ≤ a) (hMEM_LEVEL_CNT : R.MEM_LEVEL_CNT ≠ a) (hMEM_STS : R.MEM_STS ≠ a) : (State.degradedCount s).rd a = s.rd a := by
  unfold State.degradedCount
  repeat' first | rfl | (simp (disch := first | assumption | (intros; assumption) | (first | exact hMEM_LEVEL_CNT .. | exact hMEM_STS ..)) [State.worst_rd, State.worst_fld, State.rd_setF_ne, State.rd_wr_ne, State.rd_incSat_ne, State.rd_incWrap_ne, State.rd_addSat_ne, State.setPair, State.setBit]; done) | split | dsimp only

theorem State.degradedCount_fld (s : State) (a : Nat) (g : Fld) (ha : a < 0x2000 ∨ 0x3000 ≤ a) (hMEM_LEVEL_CNT : R.MEM_LEVEL_CNT ≠ a) (hMEM_STS : R.MEM_STS ≠ a) : (State.degradedCount s).fld a g = s.fld a g := by
  rw [State.fld_eq, State.degradedCount_rd (ha := ha) (hMEM_LEVEL_CNT := hMEM_LEVEL_CNT) (hMEM_STS := hMEM_STS), State.fld_eq]

@[simp] theorem State.memCntClr_stage (s : State) : (State.memCntClr s).stage = s.stage := by
  unfold State.memCntClr
  repeat' first | (simp only [State.zeroAll_stage, State.setF_stage]; done) | (simp [State.zeroAll_stage, State.setF_stage]; done) | split | dsimp only | with_reducible rfl

@[simp] theorem State.spaceReturn_link (s : State) : (State.spaceReturn s).link = s.link := by
  unfold State.spaceReturn
  repeat' first | (simp only [State.modCol_link, State.pumpAll_link]; done) | (simp [State.modCol_link, State.pumpAll_link]; done) | split | dsimp only | with_reducible rfl

theorem State.spaceReturn_rd (s : State) (a : Nat) (ha : a < 0x2000 ∨ 0x3000 ≤ a) : (State.spaceReturn s).rd a = s.rd a := by
  unfold State.spaceReturn
  repeat' first | rfl | (simp (disch := first | assumption) [State.pumpAll_rd]; done) | split | dsimp only

theorem State.spaceReturn_fld (s : State) (a : Nat) (g : Fld) (ha : a < 0x2000 ∨ 0x3000 ≤ a) : (State.spaceReturn s).fld a g = s.fld a g := by
  rw [State.fld_eq, State.spaceReturn_rd (ha := ha), State.fld_eq]

@[simp] theorem State.divergentEvents_link (x0 : List Nat) (x1 : State) : (State.divergentEvents x0 x1).link = x1.link := by
  fun_induction State.divergentEvents x0 x1 <;> simp_all [State.raise_link]
  all_goals (repeat' first | rfl | assumption | split | (simp_all [State.raise_link]; done))

theorem State.divergentEvents_rd (x0 : List Nat) (x1 : State) (a : Nat) (ha : a < 0x2000 ∨ 0x3000 ≤ a) : (State.divergentEvents x0 x1).rd a = x1.rd a := by
  fun_induction State.divergentEvents x0 x1 <;> simp_all
  all_goals (repeat' first | rfl | assumption | (simp (disch := first | assumption) [*, State.raise_rd]; done) | split)

theorem State.divergentEvents_fld (x0 : List Nat) (x1 : State) (a : Nat) (g : Fld) (ha : a < 0x2000 ∨ 0x3000 ≤ a) : (State.divergentEvents x0 x1).fld a g = x1.fld a g := by
  rw [State.fld_eq, State.divergentEvents_rd (ha := ha), State.fld_eq]

@[simp] theorem State.bootEvents_link (s : State) : (State.bootEvents s).link = s.link := by
  unfold State.bootEvents
  repeat' first | (simp only [State.divergentEvents_link, State.modFlash_link, State.modPower_link, State.raise_link]; done) | (simp [State.divergentEvents_link, State.modFlash_link, State.modPower_link, State.raise_link]; done) | split | dsimp only | with_reducible rfl

theorem State.bootEvents_rd (s : State) (a : Nat) (ha : a < 0x2000 ∨ 0x3000 ≤ a) : (State.bootEvents s).rd a = s.rd a := by
  unfold State.bootEvents
  repeat' first | rfl | (simp (disch := first | assumption) [State.divergentEvents_rd, State.divergentEvents_fld, State.raise_rd]; done) | split | dsimp only

theorem State.bootEvents_fld (s : State) (a : Nat) (g : Fld) (ha : a < 0x2000 ∨ 0x3000 ≤ a) : (State.bootEvents s).fld a g = s.fld a g := by
  rw [State.fld_eq, State.bootEvents_rd (ha := ha), State.fld_eq]

@[simp] theorem State.tstWritten_stage (s : State) (k : Nat) : (State.tstWritten s k).stage = s.stage := by
  unfold State.tstWritten
  repeat' first | (simp only [State.incSat_stage, State.setBit_stage]; done) | (simp [State.incSat_stage, State.setBit_stage]; done) | split | dsimp only | with_reducible rfl

@[simp] theorem State.recoveryStart_stage (s : State) : (State.recoveryStart s).stage = s.stage := by
  unfold State.recoveryStart
  repeat' first | (simp only [State.flashBegin_stage, State.setF_stage]; done) | (simp [State.flashBegin_stage, State.setF_stage]; done) | split | dsimp only | with_reducible rfl

@[simp] theorem State.recovery_stage (s : State) : (State.recovery s).stage = s.stage := by
  unfold State.recovery
  repeat' first | (simp only [State.setF_stage, State.wr_stage]; done) | (simp [State.setF_stage, State.wr_stage]; done) | split | dsimp only | with_reducible rfl

theorem State.tthLinkBack_rd (s : State) (a : Nat) (ha : a < 0xC000 ∨ 0xD000 ≤ a) : s.tthLinkBack.rd a = s.rd a := by
  unfold State.tthLinkBack
  rw [State.rd_setAll]
  · exact State.rd_setF_ne _ _ _ _ _ (by simp only [R.TTH_TKO_CAUSE]; omega)
  · intro b hb
    obtain ⟨i, hi, rfl⟩ := mem_addrs _ _ _ hb
    simp only [R.TTH_OUT_STS]
    omega

theorem State.tthLinkBack_fld (s : State) (a : Nat) (g : Fld) (ha : a < 0xC000 ∨ 0xD000 ≤ a) :
    s.tthLinkBack.fld a g = s.fld a g := by
  rw [State.fld_eq, State.tthLinkBack_rd _ _ ha, State.fld_eq]

end Sys2Proof.Machine
end

