-- ==== Sys2Proof/Laws/Keeps.lean ====
section
/-!
SUPPORT. What the record updates of a state keep: the queue of commands, the canonical forms and the shape.
-/
namespace Sys2Proof.Machine

/-- The state's data keep their forms, and its queue is the given one. -/
def State.Keeps (q : List Instr) (s : State) : Prop :=
  s.pending = q ∧ (s.regs.wf = true ∧ s.mirror.wf = true ∧ (∀ p, s.snap = some p → RegFile.wf p.2 = true)
    ∧ Mem.wf 0 s.window = true ∧ Mem.wf 0xFF s.tth.part = true ∧ Mem.wf 0xFF s.flash.bootA = true
    ∧ Mem.wf 0xFF s.flash.bootB = true)
    ∧ s.locks.length = 32 ∧ s.host.rings.length = 16 ∧ s.host.queues.length = 19 ∧ s.eng.engs.length = 8
    ∧ s.fe.chans.length = 16 ∧ s.sap.dirs.length = 8 ∧ s.outs.chans.length = 16 ∧ s.tth.outs.length = 24
    ∧ s.net.ls.length = 16 ∧ s.net.zv.seen.length = 8

/-- The state that a record update begins from keeps them. -/
def State.Base (q : List Instr) (s : State) : Prop := s.Keeps q

theorem State.Base.of {q : List Instr} {s : State} (h : s.Keeps q) : s.Base q := h

/-- The outcome of a command keeps them, where it is a next state. -/
def OutKeeps (q : List Instr) (o : Out) : Prop := ∀ t, o = .next t → t.Keeps q

variable {q : List Instr}

theorem OutKeeps.next {s : State} (h : s.Keeps q) : OutKeeps q (.next s) := by
  intro t e
  injection e with e
  exact e ▸ h

theorem OutKeeps.ite {c : Prop} [Decidable c] {a b : Out} (ha : OutKeeps q a) (hb : OutKeeps q b) :
    OutKeeps q (if c then a else b) := by
  split <;> assumption

theorem State.Keeps.ite {c : Prop} [Decidable c] {a b : State} (ha : a.Keeps q) (hb : b.Keeps q) :
    (if c then a else b).Keeps q := by
  split <;> assumption

theorem State.Keeps.ite_snd {α : Type} {c : Prop} [Decidable c] {a b : α × State} (ha : a.2.Keeps q) (hb : b.2.Keeps q) :
    (if c then a else b).2.Keeps q := by
  split <;> assumption

/-- A state that is named on the way. -/
theorem State.Keeps.cut {p : Prop} (s : State) (h : s.Keeps q) (k : s.Keeps q → p) : p := k h

theorem State.Keeps.cut_snd {α : Type} {p : Prop} (x : α × State) (h : x.2.Keeps q) (k : x.2.Keeps q → p) : p := k h

theorem State.Keeps.cut_fun {p : Prop} (f : State → State) (h : ∀ s, s.Keeps q → (f s).Keeps q)
    (k : (∀ s, s.Keeps q → (f s).Keeps q) → p) : p := k h

/-- The state of a pair that is known. -/
theorem State.Keeps.of_eq {α : Type} {p : α × State} {a : α} {s : State} (e : p = (a, s)) (h : p.2.Keeps q) : s.Keeps q := by
  subst e
  exact h

theorem State.Keeps.foldl {α : Type} {f : State → α → State} (hf : ∀ s a, s.Keeps q → (f s a).Keeps q) :
    ∀ (l : List α) {s : State}, s.Keeps q → (l.foldl f s).Keeps q
  | [], _, h => h
  | a :: l, s, h => State.Keeps.foldl hf l (hf s a h)

/-- A record update that touches none of the data, and keeps the lengths of the lists it changes. -/
theorem State.Keeps.mk {t : State} {clk : Clock} {link : Link} {col : Collector} {host : HostX} {stage : Stage}
    {locks : List Lock} {err : ErrX} {power : PowerX} {flash : FlashX} {fe : FrontX} {sap : SapX} {mp : MpX}
    {outs : OutputsX} {tth : TthX} {lsn : LsnX} {sns : SenseX} {eng : EnginesX} {net : NetX} {metro : MetroX} {test : TestX}
    {sig : SigX} {out : List Output} {free : Nat} (h : t.Base q) (h1 : tth.part = t.tth.part) (h2 : flash.bootA = t.flash.bootA)
    (h3 : flash.bootB = t.flash.bootB) (h4 : locks.length = t.locks.length) (h5 : host.rings.length = t.host.rings.length)
    (h6 : host.queues.length = t.host.queues.length) (h7 : eng.engs.length = t.eng.engs.length)
    (h8 : fe.chans.length = t.fe.chans.length) (h9 : sap.dirs.length = t.sap.dirs.length)
    (h10 : outs.chans.length = t.outs.chans.length) (h11 : tth.outs.length = t.tth.outs.length)
    (h12 : net.ls.length = t.net.ls.length) (h13 : net.zv.seen.length = t.net.zv.seen.length) :
    State.Keeps q (State.mk t.regs t.mirror t.window clk link col host stage locks err power flash fe sap mp outs tth lsn sns
      eng net metro test sig t.snap out free t.pending) := by
  obtain ⟨hq, ⟨r, m, sn, w, p, a, b⟩, l1, l2, l3, l4, l5, l6, l7, l8, l9, l10⟩ := h
  exact ⟨hq, ⟨r, m, sn, w, h1 ▸ p, h2 ▸ a, h3 ▸ b⟩, h4.trans l1, h5.trans l2, h6.trans l3, h7.trans l4, h8.trans l5,
    h9.trans l6, h10.trans l7, h11.trans l8, h12.trans l9, h13.trans l10⟩

theorem State.Keeps.inv {s : State} (h : s.Keeps q) : s.Inv := by
  obtain ⟨-, ⟨r, m, sn, w, p, a, b⟩, l1, l2, l3, l4, l5, l6, l7, l8, l9, l10⟩ := h
  constructor
  · have e : (match s.snap with | some p => RegFile.wf p.2 | none => true) = true := by
      split
      · rename_i x hx
        exact sn x hx
      · rfl
    simp only [State.canonical, Bool.and_eq_true]
    exact ⟨⟨⟨⟨⟨⟨r, m⟩, e⟩, w⟩, p⟩, a⟩, b⟩
  · simp [State.shaped, l1, l2, l3, l4, l5, l6, l7, l8, l9, l10]

theorem State.Keeps.of_inv {s : State} (h : s.Inv) : s.Keeps s.pending := by
  obtain ⟨hc, hs⟩ := h
  simp only [State.canonical, Bool.and_eq_true] at hc
  simp only [State.shaped, Bool.and_eq_true, beq_iff_eq] at hs
  obtain ⟨⟨⟨⟨⟨⟨r, m⟩, sn⟩, w⟩, p⟩, a⟩, b⟩ := hc
  obtain ⟨⟨⟨⟨⟨⟨⟨⟨⟨l1, l2⟩, l3⟩, l4⟩, l5⟩, l6⟩, l7⟩, l8⟩, l9⟩, l10⟩ := hs
  refine ⟨rfl, ⟨r, m, ?_, w, p, a, b⟩, l1, l2, l3, l4, l5, l6, l7, l8, l9, l10⟩
  intro x hx
  simpa [hx] using sn

end Sys2Proof.Machine
end

