-- ==== Sys2Proof/Laws/KeepsOps.lean ====
section
/-!
SUPPORT. What the definitions of Machine/Ops.lean keep.
-/
namespace Sys2Proof.Machine

theorem State.modRegs_keeps {qz : List Instr} (s : State) (f : RegFile → RegFile) (hs : s.Keeps qz)
    (h1 : (f s.regs).wf = true) : State.Keeps qz (s.modRegs f) := by
  obtain ⟨h0, ⟨r, rest⟩, l⟩ := hs
  exact ⟨h0, ⟨h1, rest⟩, l⟩

theorem State.modMirror_keeps {qz : List Instr} (s : State) (f : RegFile → RegFile) (hs : s.Keeps qz) (h0 : RegFile.wf (f s.mirror) = true) :
    State.Keeps qz (s.modMirror f) := by
  obtain ⟨h, ⟨r, m, rest⟩, l⟩ := hs
  exact ⟨h, ⟨r, h0, rest⟩, l⟩

theorem State.modWindow_keeps {qz : List Instr} (s : State) (f : Mem → Mem) (hs : s.Keeps qz) (h0 : Mem.wf 0 s.window = true → Mem.wf 0 (f s.window) = true) :
    State.Keeps qz (s.modWindow f) := by
  obtain ⟨h, ⟨r, m, sn, w, rest⟩, l⟩ := hs
  exact ⟨h, ⟨r, m, sn, h0 w, rest⟩, l⟩

theorem State.modClk_keeps {qz : List Instr} (s : State) (f : Clock → Clock) (hs : s.Keeps qz) :
    State.Keeps qz (State.modClk s f) := by
  unfold State.modClk
  repeat' first
    | (with_reducible refine State.Keeps.mk (State.Base.of (by with_reducible assumption)) ?_ ?_ ?_ ?_ ?_ ?_ ?_ ?_ ?_ ?_ ?_ ?_ ?_ )
    | with_reducible rfl

theorem State.modLink_keeps {qz : List Instr} (s : State) (f : Link → Link) (hs : s.Keeps qz) :
    State.Keeps qz (State.modLink s f) := by
  unfold State.modLink
  repeat' first
    | (with_reducible refine State.Keeps.mk (State.Base.of (by with_reducible assumption)) ?_ ?_ ?_ ?_ ?_ ?_ ?_ ?_ ?_ ?_ ?_ ?_ ?_ )
    | with_reducible rfl

theorem State.modCol_keeps {qz : List Instr} (s : State) (f : Collector → Collector) (hs : s.Keeps qz) :
    State.Keeps qz (State.modCol s f) := by
  unfold State.modCol
  repeat' first
    | (with_reducible refine State.Keeps.mk (State.Base.of (by with_reducible assumption)) ?_ ?_ ?_ ?_ ?_ ?_ ?_ ?_ ?_ ?_ ?_ ?_ ?_ )
    | with_reducible rfl

theorem State.modHost_keeps {qz : List Instr} (s : State) (f : HostX → HostX) (hs : s.Keeps qz)
    (h1 : (f s.host).rings.length = s.host.rings.length) (h2 : (f s.host).queues.length = s.host.queues.length) :
    State.Keeps qz (s.modHost f) :=
  State.Keeps.mk hs rfl rfl rfl rfl h1 h2 rfl rfl rfl rfl rfl rfl rfl

theorem State.modStage_keeps {qz : List Instr} (s : State) (f : Stage → Stage) (hs : s.Keeps qz) :
    State.Keeps qz (State.modStage s f) := by
  unfold State.modStage
  repeat' first
    | (with_reducible refine State.Keeps.mk (State.Base.of (by with_reducible assumption)) ?_ ?_ ?_ ?_ ?_ ?_ ?_ ?_ ?_ ?_ ?_ ?_ ?_ )
    | with_reducible rfl

theorem State.modLocks_keeps {qz : List Instr} (s : State) (f : List Lock → List Lock) (hs : s.Keeps qz) (h0 : (f s.locks).length = s.locks.length) :
    State.Keeps qz (s.modLocks f) :=  State.Keeps.mk hs rfl rfl rfl h0 rfl rfl rfl rfl rfl rfl rfl rfl rfl

theorem State.modErr_keeps {qz : List Instr} (s : State) (f : ErrX → ErrX) (hs : s.Keeps qz) :
    State.Keeps qz (State.modErr s f) := by
  unfold State.modErr
  repeat' first
    | (with_reducible refine State.Keeps.mk (State.Base.of (by with_reducible assumption)) ?_ ?_ ?_ ?_ ?_ ?_ ?_ ?_ ?_ ?_ ?_ ?_ ?_ )
    | with_reducible rfl

theorem State.modPower_keeps {qz : List Instr} (s : State) (f : PowerX → PowerX) (hs : s.Keeps qz) :
    State.Keeps qz (State.modPower s f) := by
  unfold State.modPower
  repeat' first
    | (with_reducible refine State.Keeps.mk (State.Base.of (by with_reducible assumption)) ?_ ?_ ?_ ?_ ?_ ?_ ?_ ?_ ?_ ?_ ?_ ?_ ?_ )
    | with_reducible rfl

/-- The boot images keep their canonical form. -/
def FlashX.Ok (f : FlashX) : Prop := Mem.wf 0xFF f.bootA = true ∧ Mem.wf 0xFF f.bootB = true

theorem FlashX.ok_setImage (f : FlashX) (i : Nat) (m : Mem) (h : f.Ok) (hm : Mem.wf 0xFF m = true) : (f.setImage i m).Ok := by
  unfold FlashX.setImage
  split
  · exact ⟨hm, h.2⟩
  · exact ⟨h.1, hm⟩

theorem FlashX.wf_image (f : FlashX) (i : Nat) (h : f.Ok) : Mem.wf 0xFF (f.image i) = true := by
  unfold FlashX.image
  split
  · exact h.1
  · exact h.2

theorem FlashX.ok_setRegion (f : FlashX) (j : Nat) (x : JRegion) (h : f.Ok) : (f.setRegion j x).Ok := by
  unfold FlashX.setRegion
  split <;> exact h

theorem FlashX.ok_append (f : FlashX) (j : Nat) (r : JRec) (h : f.Ok) : (f.append j r).Ok :=
  FlashX.ok_setRegion _ _ _ h

theorem State.modFlash_keeps {qz : List Instr} (s : State) (f : FlashX → FlashX) (hs : s.Keeps qz)
    (hf : s.flash.Ok → (f s.flash).Ok) : State.Keeps qz (s.modFlash f) := by
  obtain ⟨h0, ⟨r, m, sn, w, p, a, b⟩, l⟩ := hs
  obtain ⟨ha, hb⟩ := hf ⟨a, b⟩
  exact ⟨h0, ⟨r, m, sn, w, p, ha, hb⟩, l⟩

theorem State.modFe_keeps {qz : List Instr} (s : State) (f : FrontX → FrontX) (hs : s.Keeps qz) (h0 : (f s.fe).chans.length = s.fe.chans.length) :
    State.Keeps qz (s.modFe f) :=  State.Keeps.mk hs rfl rfl rfl rfl rfl rfl rfl h0 rfl rfl rfl rfl rfl

theorem State.modSap_keeps {qz : List Instr} (s : State) (f : SapX → SapX) (hs : s.Keeps qz) (h0 : (f s.sap).dirs.length = s.sap.dirs.length) :
    State.Keeps qz (s.modSap f) :=  State.Keeps.mk hs rfl rfl rfl rfl rfl rfl rfl rfl h0 rfl rfl rfl rfl

theorem State.modMp_keeps {qz : List Instr} (s : State) (f : MpX → MpX) (hs : s.Keeps qz) :
    State.Keeps qz (State.modMp s f) := by
  unfold State.modMp
  repeat' first
    | (with_reducible refine State.Keeps.mk (State.Base.of (by with_reducible assumption)) ?_ ?_ ?_ ?_ ?_ ?_ ?_ ?_ ?_ ?_ ?_ ?_ ?_ )
    | with_reducible rfl

theorem State.modOutputs_keeps {qz : List Instr} (s : State) (f : OutputsX → OutputsX) (hs : s.Keeps qz)
    (h1 : (f s.outs).chans.length = s.outs.chans.length) : State.Keeps qz (s.modOutputs f) :=
  State.Keeps.mk hs rfl rfl rfl rfl rfl rfl rfl rfl rfl h1 rfl rfl rfl

theorem State.modTth_keeps {qz : List Instr} (s : State) (f : TthX → TthX) (hs : s.Keeps qz)
    (h1 : (f s.tth).part = s.tth.part) (h2 : (f s.tth).outs.length = s.tth.outs.length) :
    State.Keeps qz (s.modTth f) :=
  State.Keeps.mk hs h1 rfl rfl rfl rfl rfl rfl rfl rfl rfl h2 rfl rfl

theorem State.modLsn_keeps {qz : List Instr} (s : State) (f : LsnX → LsnX) (hs : s.Keeps qz) :
    State.Keeps qz (State.modLsn s f) := by
  unfold State.modLsn
  repeat' first
    | (with_reducible refine State.Keeps.mk (State.Base.of (by with_reducible assumption)) ?_ ?_ ?_ ?_ ?_ ?_ ?_ ?_ ?_ ?_ ?_ ?_ ?_ )
    | with_reducible rfl

theorem State.modSense_keeps {qz : List Instr} (s : State) (f : SenseX → SenseX) (hs : s.Keeps qz) :
    State.Keeps qz (State.modSense s f) := by
  unfold State.modSense
  repeat' first
    | (with_reducible refine State.Keeps.mk (State.Base.of (by with_reducible assumption)) ?_ ?_ ?_ ?_ ?_ ?_ ?_ ?_ ?_ ?_ ?_ ?_ ?_ )
    | with_reducible rfl

theorem State.modEngines_keeps {qz : List Instr} (s : State) (f : EnginesX → EnginesX) (hs : s.Keeps qz) (h0 : (f s.eng).engs.length = s.eng.engs.length) :
    State.Keeps qz (s.modEngines f) :=  State.Keeps.mk hs rfl rfl rfl rfl rfl rfl h0 rfl rfl rfl rfl rfl rfl

theorem State.modNet_keeps {qz : List Instr} (s : State) (f : NetX → NetX) (hs : s.Keeps qz) (h0 : (f s.net).ls.length = s.net.ls.length) (h1 : (f s.net).zv.seen.length = s.net.zv.seen.length) :
    State.Keeps qz (s.modNet f) :=  State.Keeps.mk hs rfl rfl rfl rfl rfl rfl rfl rfl rfl rfl rfl h0 h1

theorem State.modMetro_keeps {qz : List Instr} (s : State) (f : MetroX → MetroX) (hs : s.Keeps qz) :
    State.Keeps qz (State.modMetro s f) := by
  unfold State.modMetro
  repeat' first
    | (with_reducible refine State.Keeps.mk (State.Base.of (by with_reducible assumption)) ?_ ?_ ?_ ?_ ?_ ?_ ?_ ?_ ?_ ?_ ?_ ?_ ?_ )
    | with_reducible rfl

theorem State.modTest_keeps {qz : List Instr} (s : State) (f : TestX → TestX) (hs : s.Keeps qz) :
    State.Keeps qz (State.modTest s f) := by
  unfold State.modTest
  repeat' first
    | (with_reducible refine State.Keeps.mk (State.Base.of (by with_reducible assumption)) ?_ ?_ ?_ ?_ ?_ ?_ ?_ ?_ ?_ ?_ ?_ ?_ ?_ )
    | with_reducible rfl

theorem State.modSig_keeps {qz : List Instr} (s : State) (f : SigX → SigX) (hs : s.Keeps qz) :
    State.Keeps qz (State.modSig s f) := by
  unfold State.modSig
  repeat' first
    | (with_reducible refine State.Keeps.mk (State.Base.of (by with_reducible assumption)) ?_ ?_ ?_ ?_ ?_ ?_ ?_ ?_ ?_ ?_ ?_ ?_ ?_ )
    | with_reducible rfl

theorem State.modSnap_keeps {qz : List Instr} (s : State) (f : Option (Nat × RegFile) → Option (Nat × RegFile)) (hs : s.Keeps qz) (h0 : ∀ p, f s.snap = some p → RegFile.wf p.2 = true) :
    State.Keeps qz (s.modSnap f) := by
  obtain ⟨h, ⟨r, m, sn, rest⟩, l⟩ := hs
  exact ⟨h, ⟨r, m, h0, rest⟩, l⟩

theorem State.emit_keeps {qz : List Instr} (s : State) (o : Output) (hs : s.Keeps qz) :
    State.Keeps qz (State.emit s o) := by
  unfold State.emit
  repeat' first
    | (with_reducible refine State.Keeps.mk (State.Base.of (by with_reducible assumption)) ?_ ?_ ?_ ?_ ?_ ?_ ?_ ?_ ?_ ?_ ?_ ?_ ?_ )
    | with_reducible rfl

theorem State.wr_keeps {qz : List Instr} (s : State) (a : Nat) (v : Word) (hs : s.Keeps qz) : State.Keeps qz (s.wr a v) := by
  obtain ⟨h0, ⟨r, rest⟩, l⟩ := hs
  exact ⟨h0, ⟨RegFile.wf_set _ _ _ r, rest⟩, l⟩

theorem State.setF_keeps {qz : List Instr} (s : State) (a : Nat) (f : Fld) (x : Nat) (hs : s.Keeps qz) :
    State.Keeps qz (s.setF a f x) := by
  obtain ⟨h0, ⟨r, rest⟩, l⟩ := hs
  exact ⟨h0, ⟨RegFile.wf_setFld _ _ _ _ r, rest⟩, l⟩

theorem State.addSat_keeps {qz : List Instr} (s : State) (a : Nat) (f : Fld) (n : Nat) (hs : s.Keeps qz) :
    State.Keeps qz (State.addSat s a f n) := by
  unfold State.addSat
  repeat' first
    | with_reducible assumption
    | with_reducible apply State.setF_keeps

theorem State.incSat_keeps {qz : List Instr} (s : State) (a : Nat) (f : Fld) (hs : s.Keeps qz) :
    State.Keeps qz (State.incSat s a f) := by
  unfold State.incSat
  repeat' first
    | with_reducible assumption
    | with_reducible apply State.addSat_keeps

theorem State.incWrap_keeps {qz : List Instr} (s : State) (a : Nat) (f : Fld) (hs : s.Keeps qz) :
    State.Keeps qz (State.incWrap s a f) := by
  unfold State.incWrap
  repeat' first
    | with_reducible assumption
    | with_reducible apply State.setF_keeps

theorem State.setAll_keeps {qz : List Instr} (f : Fld) (x : Nat)  : ∀ (x0 : List Nat) (x1 : State),
    x1.Keeps qz → State.Keeps qz (State.setAll f x x0 x1) := by
  intro x0 x1
  fun_induction State.setAll f x x0 x1
  all_goals repeat' first
    | intro _
    | with_reducible assumption
    | with_reducible apply State.setF_keeps
    | with_reducible apply_assumption

theorem State.zeroAll_keeps {qz : List Instr}   : ∀ (x0 : List Nat) (x1 : State),
    x1.Keeps qz → State.Keeps qz (State.zeroAll x0 x1) := by
  intro x0 x1
  fun_induction State.zeroAll x0 x1
  all_goals repeat' first
    | intro _
    | with_reducible assumption
    | with_reducible apply State.wr_keeps
    | with_reducible apply_assumption

theorem State.setPair_keeps {qz : List Instr} (s : State) (lo : Nat) (hi : Nat) (x : Nat) (hs : s.Keeps qz) :
    State.Keeps qz (State.setPair s lo hi x) := by
  unfold State.setPair
  repeat' first
    | with_reducible assumption
    | with_reducible apply State.wr_keeps

theorem State.setBit_keeps {qz : List Instr} (s : State) (a : Nat) (i : Nat) (b : Bool) (hs : s.Keeps qz) :
    State.Keeps qz (State.setBit s a i b) := by
  unfold State.setBit
  repeat' first
    | with_reducible assumption
    | with_reducible apply State.setF_keeps

theorem State.tick_keeps {qz : List Instr} (s : State) (hs : s.Keeps qz) :
    State.Keeps qz (State.tick s) := by
  unfold State.tick
  repeat' first
    | with_reducible assumption
    | with_reducible apply State.modClk_keeps
    | with_reducible apply State.Keeps.ite

theorem State.ringFull_keeps {qz : List Instr} (s : State) (r : Nat) (hs : s.Keeps qz) :
    State.Keeps qz (State.ringFull s r) := by
  unfold State.ringFull
  repeat' first
    | with_reducible assumption
    | with_reducible apply State.setBit_keeps

theorem State.putBytes_keeps {qz : List Instr} (s : State) (isLocal : Bool) (a : Nat) (bs : List Byte) (hs : s.Keeps qz) :
    State.Keeps qz (State.putBytes s isLocal a bs) := by
  unfold State.putBytes
  repeat' first
    | intro _
    | with_reducible assumption
    | with_reducible apply State.emit_keeps
    | with_reducible apply State.modWindow_keeps
    | with_reducible apply State.Keeps.ite
    | (with_reducible apply Mem.wf_setMany)

theorem State.feedVector_keeps {qz : List Instr} (s : State) (r : Nat) (hs : s.Keeps qz) :
    State.Keeps qz (State.feedVector s r) := by
  unfold State.feedVector
  repeat' first
    | with_reducible assumption
    | with_reducible apply State.incSat_keeps
    | with_reducible apply State.modHost_keeps
    | with_reducible apply State.setF_keeps
    | with_reducible rfl

theorem State.ringPost_keeps {qz : List Instr} (s : State) (r : Nat) (bs : List Byte) (hs : s.Keeps qz) :
    State.Keeps qz (State.ringPost s r bs) := by
  unfold State.ringPost
  repeat' first
    | with_reducible assumption
    | with_reducible apply State.feedVector_keeps
    | with_reducible apply State.putBytes_keeps
    | with_reducible apply State.ringFull_keeps
    | with_reducible apply State.setF_keeps

theorem State.traceEvent_keeps {qz : List Instr} (s : State) (e : Event) (hs : s.Keeps qz) :
    State.Keeps qz (State.traceEvent s e) := by
  unfold State.traceEvent
  repeat' first
    | with_reducible assumption
    | with_reducible apply State.incSat_keeps
    | with_reducible apply State.ringPost_keeps
    | with_reducible apply State.Keeps.ite

theorem State.pump_keeps {qz : List Instr}   : ∀ (x0 : Nat) (x1 : State),
    x1.Keeps qz → State.Keeps qz (State.pump x0 x1) := by
  intro x0 x1
  fun_induction State.pump x0 x1
  all_goals repeat' first
    | intro _
    | with_reducible assumption
    | with_reducible apply State.modCol_keeps
    | with_reducible apply State.ringPost_keeps
    | with_reducible apply State.traceEvent_keeps
    | with_reducible apply_assumption

theorem State.pumpAll_keeps {qz : List Instr} (s : State) (hs : s.Keeps qz) :
    State.Keeps qz (State.pumpAll s) := by
  unfold State.pumpAll
  repeat' first
    | with_reducible assumption
    | with_reducible apply State.pump_keeps

theorem State.raiseAt_keeps {qz : List Instr} (s : State) (code : Nat) (src : Nat) (ts : Nat) (detail : List Nat) (hs : s.Keeps qz) :
    State.Keeps qz (State.raiseAt s code src ts detail) := by
  unfold State.raiseAt
  repeat' first
    | with_reducible assumption
    | with_reducible apply State.modCol_keeps
    | with_reducible apply State.pumpAll_keeps

theorem State.raise_keeps {qz : List Instr} (s : State) (code : Nat) (src : Nat) (detail : List Nat := []) (hs : s.Keeps qz) :
    State.Keeps qz (State.raise s code src detail) := by
  unfold State.raise
  repeat' first
    | with_reducible assumption
    | with_reducible apply State.raiseAt_keeps

theorem State.raiseFAt_keeps {qz : List Instr} (s : State) (code : Nat) (src : Nat) (ts : Nat) (detail : List Nat) (hs : s.Keeps qz) :
    State.Keeps qz (State.raiseFAt s code src ts detail) := by
  unfold State.raiseFAt
  repeat' first
    | with_reducible assumption
    | with_reducible apply State.modCol_keeps
    | with_reducible apply State.pumpAll_keeps
    | with_reducible apply State.Keeps.ite

theorem State.raiseF_keeps {qz : List Instr} (s : State) (code : Nat) (src : Nat) (detail : List Nat := []) (hs : s.Keeps qz) :
    State.Keeps qz (State.raiseF s code src detail) := by
  unfold State.raiseF
  repeat' first
    | with_reducible assumption
    | with_reducible apply State.raiseFAt_keeps

theorem State.touch_keeps {qz : List Instr} (s : State) (key : Nat) (hs : s.Keeps qz) :
    State.Keeps qz (State.touch s key) := by
  unfold State.touch
  repeat' first
    | with_reducible assumption
    | with_reducible apply State.modCol_keeps

theorem State.raiseLimited_keeps {qz : List Instr} (s : State) (period3 : Nat) (code : Nat) (src : Nat) (detail : List Nat := []) (hs : s.Keeps qz) :
    State.Keeps qz (State.raiseLimited s period3 code src detail) := by
  unfold State.raiseLimited
  repeat' first
    | with_reducible assumption
    | with_reducible apply State.raise_keeps
    | with_reducible apply State.touch_keeps
    | with_reducible apply State.Keeps.ite

theorem State.raiseFLimited_keeps {qz : List Instr} (s : State) (period3 : Nat) (code : Nat) (src : Nat) (detail : List Nat := []) (hs : s.Keeps qz) :
    State.Keeps qz (State.raiseFLimited s period3 code src detail) := by
  unfold State.raiseFLimited
  repeat' first
    | with_reducible assumption
    | with_reducible apply State.raiseF_keeps
    | with_reducible apply State.touch_keeps
    | with_reducible apply State.Keeps.ite

theorem State.fresh_keeps {qz : List Instr} (s : State) (w : Nat) (hs : s.Keeps qz) :
    State.Keeps qz (State.fresh s w).2 := by
  unfold State.fresh
  repeat' first
    | (with_reducible refine State.Keeps.mk (State.Base.of (by with_reducible assumption)) ?_ ?_ ?_ ?_ ?_ ?_ ?_ ?_ ?_ ?_ ?_ ?_ ?_ )
    | with_reducible rfl

theorem State.freshBytes_keeps {qz : List Instr}   : ∀ (x0 : Nat) (x1 : State),
    x1.Keeps qz → State.Keeps qz (State.freshBytes x0 x1).2 := by
  intro x0 x1
  fun_induction State.freshBytes x0 x1
  all_goals repeat' first
    | intro _
    | with_reducible assumption
    | with_reducible apply State.fresh_keeps
    | with_reducible apply_assumption
    | (refine State.Keeps.of_eq (by with_reducible assumption) ?_)

theorem State.modQueue_keeps {qz : List Instr} (s : State) (o : Origin) (f : CmdQueue → CmdQueue) (hs : s.Keeps qz) :
    State.Keeps qz (State.modQueue s o f) := by
  unfold State.modQueue
  repeat' first
    | with_reducible assumption
    | with_reducible apply State.modHost_keeps
    | with_reducible rfl
    | (first | exact List.length_modify .. | exact List.length_set .. | exact List.length_map ..)

theorem State.finish_keeps {qz : List Instr} (s : State) (id : DescId) (c : Completion) (hs : s.Keeps qz) :
    State.Keeps qz (State.finish s id c) := by
  unfold State.finish
  repeat' first
    | with_reducible assumption
    | with_reducible apply State.incSat_keeps
    | with_reducible apply State.modQueue_keeps
    | with_reducible apply State.Keeps.ite

theorem State.finishBad_keeps {qz : List Instr} (s : State) (id : DescId) (st : Status) (hs : s.Keeps qz) :
    State.Keeps qz (State.finishBad s id st) := by
  unfold State.finishBad
  repeat' first
    | with_reducible assumption
    | with_reducible apply State.finish_keeps

theorem State.finishDone_keeps {qz : List Instr} (s : State) (id : DescId) (hs : s.Keeps qz) :
    State.Keeps qz (State.finishDone s id) := by
  unfold State.finishDone
  repeat' first
    | with_reducible assumption
    | with_reducible apply State.finish_keeps

theorem State.finishOpt_keeps {qz : List Instr} (s : State) (id : Option DescId) (c : Completion) (hs : s.Keeps qz) :
    State.Keeps qz (State.finishOpt s id c) := by
  unfold State.finishOpt
  repeat' first
    | with_reducible assumption
    | with_reducible apply State.finish_keeps
    | split

theorem State.stageAt_keeps {qz : List Instr} (s : State) (c : Staged) (hs : s.Keeps qz) :
    State.Keeps qz (State.stageAt s c) := by
  unfold State.stageAt
  repeat' first
    | with_reducible assumption
    | with_reducible apply State.modStage_keeps

end Sys2Proof.Machine
end

