-- ==== Sys2Proof/Laws/KeepsStage.lean ====
section
/-!
SUPPORT. What the definitions of Machine/Stage.lean keep.
-/
namespace Sys2Proof.Machine

theorem State.modEng_keeps {qz : List Instr} (s : State) (n : Nat) (f : EngX → EngX) (hs : s.Keeps qz) :
    State.Keeps qz (State.modEng s n f) := by
  unfold State.modEng
  repeat' first
    | with_reducible assumption
    | with_reducible apply State.modEngines_keeps
    | (first | exact List.length_modify .. | exact List.length_set .. | exact List.length_map ..)

theorem State.squash_keeps {qz : List Instr} (s : State) (n : Nat) (k0 : Nat) (hs : s.Keeps qz) :
    State.Keeps qz (State.squash s n k0) := by
  unfold State.squash
  repeat' first
    | with_reducible assumption
    | with_reducible apply State.fresh_keeps
    | with_reducible apply State.modEng_keeps
    | with_reducible apply State.Keeps.ite_snd
    | dsimp only
    | split

theorem State.squashAll_keeps {qz : List Instr} (k0 : Nat)  : ∀ (x0 : List Nat) (x1 : State),
    x1.Keeps qz → State.Keeps qz (State.squashAll k0 x0 x1) := by
  intro x0 x1
  fun_induction State.squashAll k0 x0 x1
  all_goals repeat' first
    | intro _
    | with_reducible assumption
    | with_reducible apply State.squash_keeps
    | with_reducible apply_assumption

theorem State.stageAct_keeps {qz : List Instr} (s : State) (c : Staged) (hs : s.Keeps qz) :
    State.Keeps qz (State.stageAct s c) := by
  unfold State.stageAct
  repeat' first
    | with_reducible assumption
    | with_reducible apply State.squashAll_keeps
    | with_reducible apply State.stageAt_keeps

theorem State.stageNext_keeps {qz : List Instr} (s : State) (rank : Nat) (act : Act) (hs : s.Keeps qz) :
    State.Keeps qz (State.stageNext s rank act) := by
  unfold State.stageNext
  repeat' first
    | with_reducible assumption
    | with_reducible apply State.stageAct_keeps

end Sys2Proof.Machine
end

