-- ==== Sys2Proof/Laws/KeepsFrontEnd.lean ====
section
/-!
SUPPORT. What the definitions of Machine/FrontEnd.lean keep.
-/
namespace Sys2Proof.Machine

theorem State.modChan_keeps {qz : List Instr} (s : State) (c : Nat) (f : FeChan → FeChan) (hs : s.Keeps qz) :
    State.Keeps qz (State.modChan s c f) := by
  unfold State.modChan
  repeat' first
    | with_reducible assumption
    | with_reducible apply State.modFe_keeps
    | (first | exact List.length_modify .. | exact List.length_set .. | exact List.length_map ..)

theorem State.chainReset_keeps {qz : List Instr} (s : State) (c : Nat) (hs : s.Keeps qz) :
    State.Keeps qz (State.chainReset s c) := by
  unfold State.chainReset
  repeat' first
    | with_reducible assumption
    | with_reducible apply State.modChan_keeps
    | with_reducible apply State.setF_keeps

theorem State.feMark_keeps {qz : List Instr} (s : State) (c t : Nat) (hs : s.Keeps qz) :
    State.Keeps qz (State.feMark s c t) := State.modChan_keeps _ _ _ hs

theorem State.setDelay_keeps {qz : List Instr} (s : State) (c : Nat) (hs : s.Keeps qz) :
    State.Keeps qz (State.setDelay s c) := by
  unfold State.setDelay
  repeat' first
    | with_reducible assumption
    | with_reducible apply State.setF_keeps

theorem State.setCoef_keeps {qz : List Instr} (s : State) (c : Nat) (bank : Bool) (i : Nat) (v : Word) (hs : s.Keeps qz) :
    State.Keeps qz (State.setCoef s c bank i v) := by
  unfold State.setCoef
  repeat' first
    | with_reducible assumption
    | with_reducible apply State.modChan_keeps

theorem State.setCoefs_keeps {qz : List Instr} (c : Nat) (bank : Bool)  : ∀ (x0 : Nat) (x1 : List Word) (x2 : State),
    x2.Keeps qz → State.Keeps qz (State.setCoefs c bank x0 x1 x2) := by
  intro x0 x1 x2
  fun_induction State.setCoefs c bank x0 x1 x2
  all_goals repeat' first
    | intro _
    | with_reducible assumption
    | with_reducible apply State.setCoef_keeps
    | with_reducible apply_assumption

theorem State.activate_keeps {qz : List Instr} (s : State) (c : Nat) (bank : Bool) (k : Nat) (hs : s.Keeps qz) :
    State.Keeps qz (State.activate s c bank k) := by
  unfold State.activate
  repeat' first
    | with_reducible assumption
    | with_reducible apply State.modChan_keeps
    | with_reducible apply State.setF_keeps
    | with_reducible apply State.setPair_keeps

theorem State.beginFade_keeps {qz : List Instr} (s : State) (c : Nat) (bank : Bool) (code : Nat) (k : Nat) (hs : s.Keeps qz) :
    State.Keeps qz (State.beginFade s c bank code k) := by
  unfold State.beginFade
  repeat' first
    | with_reducible assumption
    | with_reducible apply State.activate_keeps
    | with_reducible apply State.modChan_keeps
    | with_reducible apply State.setF_keeps
    | with_reducible apply State.Keeps.ite

theorem State.dropFade_keeps {qz : List Instr} (s : State) (c : Nat) (hs : s.Keeps qz) :
    State.Keeps qz (State.dropFade s c) := by
  unfold State.dropFade
  repeat' first
    | with_reducible assumption
    | with_reducible apply State.setF_keeps

theorem State.clearQueued_keeps {qz : List Instr} (s : State) (c : Nat) (hs : s.Keeps qz) :
    State.Keeps qz (State.clearQueued s c) := by
  unfold State.clearQueued
  repeat' first
    | with_reducible assumption
    | with_reducible apply State.modChan_keeps
    | with_reducible apply State.setF_keeps

theorem State.fadeEnd_keeps {qz : List Instr} (s : State) (c : Nat) (k : Nat) (hs : s.Keeps qz) :
    State.Keeps qz (State.fadeEnd s c k) := by
  unfold State.fadeEnd
  repeat' first
    | with_reducible assumption
    | with_reducible apply State.beginFade_keeps
    | with_reducible apply State.clearQueued_keeps
    | with_reducible apply State.dropFade_keeps
    | with_reducible apply State.finishOpt_keeps
    | with_reducible apply State.Keeps.ite
    | dsimp only
    | split

theorem State.fadeDue_keeps {qz : List Instr} (s : State) (c : Nat) (k : Nat) (hs : s.Keeps qz) :
    State.Keeps qz (State.fadeDue s c k) := by
  unfold State.fadeDue
  repeat' first
    | with_reducible assumption
    | with_reducible apply State.fadeEnd_keeps
    | with_reducible apply State.Keeps.ite

theorem State.swapEvaluate_keeps {qz : List Instr} (s : State) (id : Option DescId) (c : Nat) (bank : Bool) (code : Nat) (k : Nat) (hs : s.Keeps qz) :
    State.Keeps qz (State.swapEvaluate s id c bank code k) := by
  unfold State.swapEvaluate
  repeat' first
    | with_reducible assumption
    | with_reducible apply State.feMark_keeps
    | with_reducible apply State.activate_keeps
    | with_reducible apply State.beginFade_keeps
    | with_reducible apply State.chainReset_keeps
    | with_reducible apply State.fadeDue_keeps
    | with_reducible apply State.finishOpt_keeps
    | with_reducible apply State.incSat_keeps
    | with_reducible apply State.modChan_keeps
    | with_reducible apply State.setF_keeps
    | with_reducible apply State.Keeps.ite
    | split

theorem State.coefBankFail_keeps {qz : List Instr} (s : State) (c : Nat) (bank : Bool) (hs : s.Keeps qz) :
    State.Keeps qz (State.coefBankFail s c bank) := by
  unfold State.coefBankFail
  repeat' first
    | with_reducible assumption
    | with_reducible apply State.feMark_keeps
    | with_reducible apply State.activate_keeps
    | with_reducible apply State.clearQueued_keeps
    | with_reducible apply State.dropFade_keeps
    | with_reducible apply State.finishOpt_keeps
    | with_reducible apply State.incSat_keeps
    | with_reducible apply State.modChan_keeps
    | with_reducible apply State.setF_keeps
    | with_reducible apply State.Keeps.ite
    | split

theorem State.chanDisable_keeps {qz : List Instr} (s : State) (c : Nat) (k : Nat) (hs : s.Keeps qz) :
    State.Keeps qz (State.chanDisable s c k) := by
  unfold State.chanDisable
  repeat' first
    | with_reducible assumption
    | with_reducible apply State.activate_keeps
    | with_reducible apply State.clearQueued_keeps
    | with_reducible apply State.dropFade_keeps
    | with_reducible apply State.fadeDue_keeps
    | with_reducible apply State.finishOpt_keeps
    | with_reducible apply State.modChan_keeps
    | with_reducible apply State.setF_keeps
    | with_reducible apply State.setPair_keeps
    | with_reducible apply State.Keeps.ite
    | split

theorem State.chanEnable_keeps {qz : List Instr} (s : State) (c : Nat) (k : Nat) (hs : s.Keeps qz) :
    State.Keeps qz (State.chanEnable s c k) := by
  unfold State.chanEnable
  repeat' first
    | with_reducible assumption
    | with_reducible apply State.modChan_keeps
    | with_reducible apply State.setF_keeps

theorem State.syncChans_keeps {qz : List Instr} (mask : Nat)  : ∀ (x0 : Nat) (x1 : State),
    x1.Keeps qz → State.Keeps qz (State.syncChans mask x0 x1) := by
  intro x0 x1
  fun_induction State.syncChans mask x0 x1
  all_goals repeat' first
    | intro _
    | with_reducible assumption
    | with_reducible apply State.chainReset_keeps
    | with_reducible apply_assumption

theorem State.syncApply_keeps {qz : List Instr} (s : State) (mask : Option Nat) (src : SyncSrc) (k : Nat) (hs : s.Keeps qz) :
    State.Keeps qz (State.syncApply s mask src k) := by
  unfold State.syncApply
  repeat' first
    | with_reducible assumption
    | with_reducible apply State.incWrap_keeps
    | with_reducible apply State.raiseFAt_keeps
    | with_reducible apply State.setF_keeps
    | with_reducible apply State.setPair_keeps
    | with_reducible apply State.syncChans_keeps
    | dsimp only
    | split

theorem State.armSync_keeps {qz : List Instr} (s : State) (hs : s.Keeps qz) :
    State.Keeps qz (State.armSync s) := by
  unfold State.armSync
  repeat' first
    | with_reducible assumption
    | with_reducible apply State.modStage_keeps
    | with_reducible apply State.stageAt_keeps
    | with_reducible apply State.Keeps.ite

theorem State.gainSearch_keeps {qz : List Instr} (s : State) (n : Nat) (hs : s.Keeps qz) :
    State.Keeps qz (State.gainSearch s n) := by
  unfold State.gainSearch
  repeat' first
    | with_reducible assumption
    | with_reducible apply State.modChan_keeps
    | with_reducible apply State.setF_keeps
    | with_reducible apply State.Keeps.ite

theorem State.gainWritten_keeps {qz : List Instr} (s : State) (n : Nat) (hs : s.Keeps qz) :
    State.Keeps qz (State.gainWritten s n) := by
  unfold State.gainWritten
  repeat' first
    | with_reducible assumption
    | with_reducible apply State.gainSearch_keeps
    | with_reducible apply State.setF_keeps
    | with_reducible apply State.Keeps.ite

theorem State.gainStep_keeps {qz : List Instr} (s : State) (n : Nat) (hs : s.Keeps qz) :
    State.Keeps qz (State.gainStep s n) := by
  unfold State.gainStep
  repeat' first
    | with_reducible assumption
    | with_reducible apply State.gainSearch_keeps
    | with_reducible apply State.setF_keeps

theorem State.modeChanged_keeps {qz : List Instr} (s : State) (n : Nat) (hs : s.Keeps qz) :
    State.Keeps qz (State.modeChanged s n) := by
  unfold State.modeChanged
  repeat' first
    | with_reducible assumption
    | with_reducible apply State.chainReset_keeps
    | with_reducible apply State.gainSearch_keeps
    | with_reducible apply State.Keeps.ite

theorem execGainStep_keeps {qz : List Instr} (n : Fin 8) (s : State) (hs : s.Keeps qz) :
    OutKeeps qz (execGainStep n s) := by
  unfold execGainStep
  repeat' first
    | with_reducible apply OutKeeps.next
    | with_reducible assumption
    | with_reducible apply State.gainStep_keeps
    | with_reducible apply State.Keeps.ite

theorem execAfeZcTimeout_keeps {qz : List Instr} (n : Fin 8) (s : State) (hs : s.Keeps qz) :
    OutKeeps qz (execAfeZcTimeout n s) := by
  unfold execAfeZcTimeout
  repeat' first
    | with_reducible apply OutKeeps.next
    | with_reducible assumption
    | with_reducible apply State.gainStep_keeps
    | with_reducible apply State.setF_keeps
    | with_reducible apply State.Keeps.ite

theorem execMicbiasOvercurrent_keeps {qz : List Instr} (j : Fin 2) (s : State) (hs : s.Keeps qz) :
    OutKeeps qz (execMicbiasOvercurrent j s) := by
  unfold execMicbiasOvercurrent
  repeat' first
    | with_reducible apply OutKeeps.next
    | with_reducible assumption
    | with_reducible apply State.raiseF_keeps
    | with_reducible apply State.setBit_keeps
    | with_reducible apply State.Keeps.ite

theorem State.setStuck_keeps {qz : List Instr} (s : State) (k : Nat) (b : Bool) (hs : s.Keeps qz) :
    State.Keeps qz (State.setStuck s k b) := by
  unfold State.setStuck
  repeat' first
    | with_reducible assumption
    | with_reducible apply State.feMark_keeps
    | with_reducible apply State.modFe_keeps
    | with_reducible rfl
    | dsimp only

theorem execPdmStuck_keeps {qz : List Instr} (k : Fin 4) (s : State) (hs : s.Keeps qz) :
    OutKeeps qz (execPdmStuck k s) := by
  unfold execPdmStuck
  repeat' first
    | with_reducible apply OutKeeps.next
    | with_reducible assumption
    | with_reducible apply State.setStuck_keeps
    | with_reducible apply State.modFe_keeps
    | with_reducible apply State.raiseF_keeps
    | with_reducible apply State.setAll_keeps
    | with_reducible apply State.setBit_keeps
    | with_reducible apply State.Keeps.ite
    | with_reducible rfl

theorem execPdmWireToggle_keeps {qz : List Instr} (k : Fin 4) (s : State) (hs : s.Keeps qz) :
    OutKeeps qz (execPdmWireToggle k s) := by
  unfold execPdmWireToggle
  repeat' first
    | with_reducible apply OutKeeps.next
    | with_reducible assumption
    | with_reducible apply State.setStuck_keeps
    | with_reducible apply State.chainReset_keeps
    | with_reducible apply State.modFe_keeps
    | with_reducible apply State.setAll_keeps
    | with_reducible apply State.Keeps.ite
    | with_reducible rfl

theorem State.stagePreset_keeps {qz : List Instr} (s : State) (p : Nat) (hs : s.Keeps qz) :
    State.Keeps qz (State.stagePreset s p) := by
  unfold State.stagePreset
  repeat' first
    | with_reducible assumption
    | with_reducible apply State.stageNext_keeps

theorem State.jackChange_keeps {qz : List Instr} (s : State) (j : Nat) (present : Bool) (ts : Nat) (hs : s.Keeps qz) :
    State.Keeps qz (State.jackChange s j present ts) := by
  unfold State.jackChange
  repeat' first
    | with_reducible assumption
    | with_reducible apply State.modeChanged_keeps
    | with_reducible apply State.raiseFAt_keeps
    | with_reducible apply State.setBit_keeps
    | with_reducible apply State.setF_keeps
    | with_reducible apply State.stagePreset_keeps
    | with_reducible apply State.Keeps.ite

theorem execJackInserted_keeps {qz : List Instr} (j : Fin 2) (ts : Nat) (s : State) (hs : s.Keeps qz) :
    OutKeeps qz (execJackInserted j ts s) := by
  unfold execJackInserted
  repeat' first
    | with_reducible apply OutKeeps.next
    | with_reducible assumption
    | with_reducible apply State.jackChange_keeps
    | with_reducible apply State.Keeps.ite

theorem execJackRemoved_keeps {qz : List Instr} (j : Fin 2) (ts : Nat) (s : State) (hs : s.Keeps qz) :
    OutKeeps qz (execJackRemoved j ts s) := by
  unfold execJackRemoved
  repeat' first
    | with_reducible apply OutKeeps.next
    | with_reducible assumption
    | with_reducible apply State.jackChange_keeps
    | with_reducible apply State.Keeps.ite

theorem execModulatorRelease_keeps {qz : List Instr} (c : Fin 16) (s : State) (hs : s.Keeps qz) :
    OutKeeps qz (execModulatorRelease c s) := by
  unfold execModulatorRelease
  repeat' first
    | with_reducible apply OutKeeps.next
    | with_reducible assumption
    | with_reducible apply State.chainReset_keeps
    | with_reducible apply State.modChan_keeps
    | with_reducible apply State.setF_keeps
    | with_reducible apply State.Keeps.ite

theorem execChainSettled_keeps {qz : List Instr} (c : Fin 16) (s : State) (hs : s.Keeps qz) :
    OutKeeps qz (execChainSettled c s) := by
  unfold execChainSettled
  repeat' first
    | with_reducible apply OutKeeps.next
    | with_reducible assumption
    | with_reducible apply State.modChan_keeps
    | with_reducible apply State.setF_keeps
    | with_reducible apply State.Keeps.ite

theorem execBankFadeEnd_keeps {qz : List Instr} (c : Fin 16) (s : State) (hs : s.Keeps qz) :
    OutKeeps qz (execBankFadeEnd c s) := by
  unfold execBankFadeEnd
  repeat' first
    | with_reducible apply OutKeeps.next
    | with_reducible assumption
    | with_reducible apply State.fadeDue_keeps

theorem execSyncBallEdge_keeps {qz : List Instr} (s : State) (hs : s.Keeps qz) :
    OutKeeps qz (execSyncBallEdge s) := by
  unfold execSyncBallEdge
  repeat' first
    | with_reducible apply OutKeeps.next
    | with_reducible assumption
    | with_reducible apply State.setF_keeps
    | with_reducible apply State.stageAt_keeps
    | with_reducible apply State.Keeps.ite

theorem execInputOverRange_keeps {qz : List Instr} (c : Fin 16) (k : Nat) (smp : Fin 16) (s : State) (hs : s.Keeps qz) :
    OutKeeps qz (execInputOverRange c k smp s) := by
  unfold execInputOverRange
  repeat' first
    | with_reducible apply OutKeeps.next
    | with_reducible assumption
    | with_reducible apply State.incSat_keeps
    | with_reducible apply State.modChan_keeps
    | with_reducible apply State.raiseFAt_keeps
    | with_reducible apply State.setF_keeps
    | with_reducible apply State.Keeps.ite

theorem State.overloadReset_keeps {qz : List Instr} (s : State) (n : Nat) (hs : s.Keeps qz) :
    State.Keeps qz (State.overloadReset s n) := by
  unfold State.overloadReset
  repeat' first
    | with_reducible assumption
    | with_reducible apply State.modChan_keeps
    | with_reducible apply State.incSat_keeps
    | with_reducible apply State.setF_keeps

theorem execModulatorOverload_keeps {qz : List Instr} (n : Fin 8) (s : State) (hs : s.Keeps qz) :
    OutKeeps qz (execModulatorOverload n s) := by
  unfold execModulatorOverload
  repeat' first
    | with_reducible apply OutKeeps.next
    | with_reducible assumption
    | with_reducible apply State.overloadReset_keeps
    | with_reducible apply State.Keeps.ite

theorem execModulatorResetEnd_keeps {qz : List Instr} (n : Fin 8) (persists : Bool) (s : State) (hs : s.Keeps qz) :
    OutKeeps qz (execModulatorResetEnd n persists s) := by
  unfold execModulatorResetEnd
  repeat' first
    | with_reducible apply OutKeeps.next
    | with_reducible assumption
    | with_reducible apply State.chainReset_keeps
    | with_reducible apply State.overloadReset_keeps
    | with_reducible apply State.setF_keeps
    | with_reducible apply State.Keeps.ite

theorem execInputThresholdUp_keeps {qz : List Instr} (c : Fin 16) (m : Fin 2) (k : Nat) (smp : Fin 16) (s : State) (hs : s.Keeps qz) :
    OutKeeps qz (execInputThresholdUp c m k smp s) := by
  unfold execInputThresholdUp
  repeat' first
    | with_reducible apply OutKeeps.next
    | with_reducible assumption
    | with_reducible apply State.raiseFAt_keeps
    | with_reducible apply State.setBit_keeps
    | with_reducible apply State.Keeps.ite

theorem execInputThresholdDown_keeps {qz : List Instr} (c : Fin 16) (m : Fin 2) (k : Nat) (smp : Fin 16) (s : State) (hs : s.Keeps qz) :
    OutKeeps qz (execInputThresholdDown c m k smp s) := by
  unfold execInputThresholdDown
  repeat' first
    | with_reducible apply OutKeeps.next
    | with_reducible assumption
    | with_reducible apply State.raiseFAt_keeps
    | with_reducible apply State.setBit_keeps
    | with_reducible apply State.Keeps.ite

theorem State.coefWinWrite_keeps {qz : List Instr} (s : State) (i : Nat) (v : Word) (hs : s.Keeps qz) :
    State.Keeps qz (State.coefWinWrite s i v) := by
  unfold State.coefWinWrite
  repeat' first
    | with_reducible assumption
    | with_reducible apply State.setCoef_keeps
    | with_reducible apply State.setF_keeps
    | with_reducible apply State.Keeps.ite

theorem State.fltCntClr_keeps {qz : List Instr} (s : State) (hs : s.Keeps qz) :
    State.Keeps qz (State.fltCntClr s) := by
  unfold State.fltCntClr
  repeat' first
    | with_reducible assumption
    | with_reducible apply State.zeroAll_keeps

theorem State.swSync_keeps {qz : List Instr} (s : State) (hs : s.Keeps qz) :
    State.Keeps qz (State.swSync s) := by
  unfold State.swSync
  repeat' first
    | with_reducible assumption
    | with_reducible apply State.stageAt_keeps

theorem State.swapGo_keeps {qz : List Instr} (s : State) (c : Nat) (v : Word) (hs : s.Keeps qz) :
    State.Keeps qz (State.swapGo s c v) := by
  unfold State.swapGo
  repeat' first
    | with_reducible assumption
    | with_reducible apply State.stageAt_keeps

theorem State.feBlock_keeps {qz : List Instr}   : ∀ (x0 : Nat) (x1 : State),
    x1.Keeps qz → State.Keeps qz (State.feBlock x0 x1) := by
  intro x0 x1
  fun_induction State.feBlock x0 x1
  all_goals repeat' first
    | intro _
    | with_reducible assumption
    | with_reducible apply State.setF_keeps
    | with_reducible apply State.Keeps.ite
    | with_reducible apply_assumption

end Sys2Proof.Machine
end

