-- ==== Sys2Proof/Laws/KeepsSap.lean ====
section
/-!
SUPPORT. What the definitions of Machine/Sap.lean keep.
-/
namespace Sys2Proof.Machine

theorem State.modDir_keeps {qz : List Instr} (s : State) (d : Nat) (f : SapDir → SapDir) (hs : s.Keeps qz) :
    State.Keeps qz (State.modDir s d f) := by
  unfold State.modDir
  repeat' first
    | with_reducible assumption
    | with_reducible apply State.modSap_keeps
    | (first | exact List.length_modify .. | exact List.length_set .. | exact List.length_map ..)

theorem State.startSlots_keeps {qz : List Instr} (s : State) (d : Nat) (hs : s.Keeps qz) :
    State.Keeps qz (State.startSlots s d) := by
  unfold State.startSlots
  repeat' first
    | with_reducible assumption
    | with_reducible apply State.modDir_keeps

theorem State.sapLock_keeps {qz : List Instr} (s : State) (d : Nat) (hs : s.Keeps qz) :
    State.Keeps qz (State.sapLock s d) := by
  unfold State.sapLock
  repeat' first
    | with_reducible assumption
    | with_reducible apply State.modDir_keeps
    | with_reducible apply State.setF_keeps
    | with_reducible apply State.startSlots_keeps

theorem State.beginUse_keeps {qz : List Instr} (s : State) (d : Nat) (u : SapUse) (hs : s.Keeps qz) :
    State.Keeps qz (State.beginUse s d u) := by
  unfold State.beginUse
  repeat' first
    | with_reducible assumption
    | with_reducible apply State.modDir_keeps
    | with_reducible apply State.setF_keeps

theorem State.firstFrame_keeps {qz : List Instr} (s : State) (d : Nat) (rate : Nat) (hs : s.Keeps qz) :
    State.Keeps qz (State.firstFrame s d rate) := by
  unfold State.firstFrame
  repeat' first
    | with_reducible assumption
    | with_reducible apply State.beginUse_keeps
    | with_reducible apply State.modDir_keeps
    | with_reducible apply State.setF_keeps
    | with_reducible apply State.wr_keeps

theorem State.sapStart_keeps {qz : List Instr} (s : State) (d : Nat) (hs : s.Keeps qz) :
    State.Keeps qz (State.sapStart s d) := by
  unfold State.sapStart
  repeat' first
    | with_reducible assumption
    | with_reducible apply State.modDir_keeps
    | with_reducible apply State.setF_keeps
    | with_reducible apply State.startSlots_keeps
    | with_reducible apply State.Keeps.ite
    | split

theorem State.sapStop_keeps {qz : List Instr} (s : State) (d : Nat) (hs : s.Keeps qz) :
    State.Keeps qz (State.sapStop s d) := by
  unfold State.sapStop
  repeat' first
    | with_reducible assumption
    | with_reducible apply State.modDir_keeps
    | dsimp only
    | split

theorem State.sapShadow_keeps {qz : List Instr} (s : State) (d : Nat) (i : Nat) (v : Word) (hs : s.Keeps qz) :
    State.Keeps qz (State.sapShadow s d i v) := by
  unfold State.sapShadow
  repeat' first
    | with_reducible assumption
    | with_reducible apply State.modDir_keeps
    | with_reducible apply State.setF_keeps
    | with_reducible apply State.Keeps.ite

theorem State.sapRelease_keeps {qz : List Instr} (s : State) (d : Nat) (hs : s.Keeps qz) :
    State.Keeps qz (State.sapRelease s d) := by
  unfold State.sapRelease
  repeat' first
    | with_reducible assumption
    | with_reducible apply State.modDir_keeps
    | with_reducible apply State.setF_keeps

theorem State.sapApply_keeps {qz : List Instr} (s : State) (d : Nat) (ws : List (Nat × Word)) (frame : Nat) (hs : s.Keeps qz) :
    State.Keeps qz (State.sapApply s d ws frame) := by
  unfold State.sapApply
  repeat' first
    | intro _
    | with_reducible assumption
    | with_reducible apply State.modDir_keeps
    | with_reducible apply State.raiseF_keeps
    | with_reducible apply State.setF_keeps
    | with_reducible apply State.wr_keeps
    | with_reducible apply State.Keeps.ite
    | with_reducible apply State.Keeps.foldl

theorem State.sapUnlock_keeps {qz : List Instr} (s : State) (d : Nat) (hs : s.Keeps qz) :
    State.Keeps qz (State.sapUnlock s d) := by
  unfold State.sapUnlock
  repeat' first
    | with_reducible assumption
    | with_reducible apply State.modDir_keeps
    | with_reducible apply State.setF_keeps

theorem State.sapNewUse_keeps {qz : List Instr} (s : State) (d : Nat) (hs : s.Keeps qz) :
    State.Keeps qz (State.sapNewUse s d) := by
  unfold State.sapNewUse
  repeat' first
    | with_reducible assumption
    | with_reducible apply State.beginUse_keeps
    | with_reducible apply State.modDir_keeps
    | split

theorem State.srcModeWritten_keeps {qz : List Instr} (s : State) (d : Nat) (old : Nat) (hs : s.Keeps qz) :
    State.Keeps qz (State.srcModeWritten s d old) := by
  unfold State.srcModeWritten
  repeat' first
    | with_reducible assumption
    | with_reducible apply State.modDir_keeps
    | with_reducible apply State.setF_keeps
    | with_reducible apply State.Keeps.ite

theorem State.sapCfgWritten_keeps {qz : List Instr} (s : State) (d : Nat) (old : Word) (hs : s.Keeps qz) :
    State.Keeps qz (State.sapCfgWritten s d old) := by
  unfold State.sapCfgWritten
  repeat' first
    | with_reducible assumption
    | with_reducible apply State.sapRelease_keeps
    | with_reducible apply State.sapStart_keeps
    | with_reducible apply State.sapStop_keeps
    | with_reducible apply State.srcModeWritten_keeps
    | with_reducible apply State.Keeps.ite

theorem State.sapBoundary_keeps {qz : List Instr} (s : State) (d : Nat) (hs : s.Keeps qz) :
    State.Keeps qz (State.sapBoundary s d) := by
  unfold State.sapBoundary
  repeat' first
    | with_reducible assumption
    | with_reducible apply State.sapLock_keeps
    | with_reducible apply State.sapNewUse_keeps
    | with_reducible apply State.Keeps.ite

theorem execSapFirstFrame_keeps {qz : List Instr} (d : Fin 8) (rate : Nat) (s : State) (hs : s.Keeps qz) :
    OutKeeps qz (execSapFirstFrame d rate s) := by
  unfold execSapFirstFrame
  repeat' first
    | with_reducible apply OutKeeps.next
    | with_reducible assumption
    | with_reducible apply State.firstFrame_keeps
    | with_reducible apply State.Keeps.ite

theorem execSapSlotStart_keeps {qz : List Instr} (d : Fin 8) (i : Fin 16) (timeout : Bool) (s : State) (hs : s.Keeps qz) :
    OutKeeps qz (execSapSlotStart d i timeout s) := by
  unfold execSapSlotStart
  repeat' first
    | with_reducible apply OutKeeps.next
    | with_reducible assumption
    | with_reducible apply State.modDir_keeps
    | with_reducible apply State.Keeps.ite
    | split

theorem execSapStopped_keeps {qz : List Instr} (d : Fin 8) (s : State) (hs : s.Keeps qz) :
    OutKeeps qz (execSapStopped d s) := by
  unfold execSapStopped
  repeat' first
    | with_reducible apply OutKeeps.next
    | with_reducible assumption
    | with_reducible apply State.modDir_keeps
    | with_reducible apply State.setF_keeps
    | with_reducible apply State.Keeps.ite

theorem execSapShadowApply_keeps {qz : List Instr} (d : Fin 8) (n : Nat) (frame : Nat) (s : State) (hs : s.Keeps qz) :
    OutKeeps qz (execSapShadowApply d n frame s) := by
  unfold execSapShadowApply
  repeat' first
    | with_reducible apply OutKeeps.next
    | with_reducible apply OutKeeps.ite
    | with_reducible assumption
    | with_reducible apply State.modDir_keeps
    | with_reducible apply State.sapApply_keeps
    | with_reducible apply State.setF_keeps
    | with_reducible apply State.Keeps.ite

theorem execSapClockLost_keeps {qz : List Instr} (d : Fin 8) (s : State) (hs : s.Keeps qz) :
    OutKeeps qz (execSapClockLost d s) := by
  unfold execSapClockLost
  repeat' first
    | with_reducible apply OutKeeps.next
    | with_reducible assumption
    | with_reducible apply State.raiseF_keeps
    | with_reducible apply State.sapUnlock_keeps
    | with_reducible apply State.setF_keeps
    | with_reducible apply State.Keeps.ite

theorem execSapClockRestored_keeps {qz : List Instr} (d : Fin 8) (rate : Nat) (s : State) (hs : s.Keeps qz) :
    OutKeeps qz (execSapClockRestored d rate s) := by
  unfold execSapClockRestored
  repeat' first
    | with_reducible apply OutKeeps.next
    | with_reducible assumption
    | with_reducible apply State.firstFrame_keeps
    | with_reducible apply State.raiseF_keeps
    | with_reducible apply State.Keeps.ite

theorem execSapFrameError_keeps {qz : List Instr} (d : Fin 8) (s : State) (hs : s.Keeps qz) :
    OutKeeps qz (execSapFrameError d s) := by
  unfold execSapFrameError
  repeat' first
    | with_reducible apply OutKeeps.next
    | with_reducible assumption
    | with_reducible apply State.incSat_keeps
    | with_reducible apply State.raiseFLimited_keeps
    | with_reducible apply State.setF_keeps
    | with_reducible apply State.Keeps.ite

theorem execSapSlip_keeps {qz : List Instr} (d : Fin 8) (s : State) (hs : s.Keeps qz) :
    OutKeeps qz (execSapSlip d s) := by
  unfold execSapSlip
  repeat' first
    | with_reducible apply OutKeeps.next
    | with_reducible assumption
    | with_reducible apply State.incSat_keeps
    | with_reducible apply State.raiseFLimited_keeps
    | with_reducible apply State.setF_keeps
    | with_reducible apply State.Keeps.ite

theorem State.sapTracked_keeps {qz : List Instr} (s : State) (d : Nat) (rate : Nat) (hs : s.Keeps qz) :
    State.Keeps qz (State.sapTracked s d rate) := by
  unfold State.sapTracked
  repeat' first
    | with_reducible assumption
    | with_reducible apply State.raiseF_keeps
    | with_reducible apply State.sapLock_keeps
    | with_reducible apply State.setF_keeps
    | with_reducible apply State.Keeps.ite

theorem State.sapTrackLost_keeps {qz : List Instr} (s : State) (d : Nat) (hs : s.Keeps qz) :
    State.Keeps qz (State.sapTrackLost s d) := by
  unfold State.sapTrackLost
  repeat' first
    | with_reducible assumption
    | with_reducible apply State.raiseF_keeps
    | with_reducible apply State.sapUnlock_keeps
    | with_reducible apply State.Keeps.ite

end Sys2Proof.Machine
end

