-- ==== Sys2Proof/Laws/KeepsMainPath.lean ====
section
/-!
SUPPORT. What the definitions of Machine/MainPath.lean keep.
-/
namespace Sys2Proof.Machine

theorem State.setRoute_keeps {qz : List Instr} (s : State) (m : Mux) (x : RouteX) (hs : s.Keeps qz) :
    State.Keeps qz (State.setRoute s m x) := by
  unfold State.setRoute
  repeat' first
    | with_reducible assumption
    | with_reducible apply State.modMp_keeps

theorem State.setSink_keeps {qz : List Instr} (s : State) (id : Nat) (x : SinkX) (hs : s.Keeps qz) :
    State.Keeps qz (State.setSink s id x) := by
  unfold State.setSink
  repeat' first
    | with_reducible assumption
    | with_reducible apply State.modMp_keeps

theorem State.laneSilent_keeps {qz : List Instr} (s : State) (l : Nat) (k : Nat) (smp : Nat) (hs : s.Keeps qz) :
    State.Keeps qz (State.laneSilent s l k smp) := by
  unfold State.laneSilent
  repeat' first
    | with_reducible assumption
    | with_reducible apply State.raiseAt_keeps
    | with_reducible apply State.setF_keeps
    | with_reducible apply State.Keeps.ite

theorem State.laneActive_keeps {qz : List Instr} (s : State) (l : Nat) (k : Nat) (smp : Nat) (hs : s.Keeps qz) :
    State.Keeps qz (State.laneActive s l k smp) := by
  unfold State.laneActive
  repeat' first
    | with_reducible assumption
    | with_reducible apply State.raiseAt_keeps
    | with_reducible apply State.setF_keeps
    | with_reducible apply State.Keeps.ite

theorem State.routeShow_keeps {qz : List Instr} (s : State) (m : Mux) (hs : s.Keeps qz) :
    State.Keeps qz (State.routeShow s m) := by
  unfold State.routeShow
  repeat' first
    | with_reducible assumption
    | with_reducible apply State.setF_keeps
    | dsimp only
    | split

theorem State.beginRoute_keeps {qz : List Instr} (s : State) (m : Mux) (r : Route) (code : Nat) (k : Nat) (hs : s.Keeps qz) :
    State.Keeps qz (State.beginRoute s m r code k) := by
  unfold State.beginRoute
  repeat' first
    | with_reducible assumption
    | with_reducible apply State.laneSilent_keeps
    | with_reducible apply State.routeShow_keeps
    | with_reducible apply State.setRoute_keeps
    | with_reducible apply State.Keeps.ite
    | dsimp only
    | split

theorem State.endRoute_keeps {qz : List Instr} (s : State) (m : Mux) (k : Nat) (hs : s.Keeps qz) :
    State.Keeps qz (State.endRoute s m k) := by
  unfold State.endRoute
  repeat' first
    | with_reducible assumption
    | with_reducible apply State.beginRoute_keeps
    | with_reducible apply State.finishOpt_keeps
    | with_reducible apply State.laneSilent_keeps
    | with_reducible apply State.routeShow_keeps
    | with_reducible apply State.setRoute_keeps
    | with_reducible apply State.Keeps.ite
    | dsimp only
    | split

theorem State.splitLocked_keeps {qz : List Instr} (s : State) (p : Nat → Bool) (k : Nat) (hs : s.Keeps qz) : ∀ (x0 : List (Mux × RouteX)),
    State.Keeps qz (State.splitLocked s p k x0) := by
  intro x0
  fun_induction State.splitLocked s p k x0
  all_goals repeat' first
    | with_reducible assumption
    | with_reducible apply State.routeShow_keeps
    | with_reducible apply State.setRoute_keeps

theorem State.requestRoute_keeps {qz : List Instr} (s : State) (id : Option DescId) (m : Mux) (r : Route) (code : Nat) (k : Nat) (hs : s.Keeps qz) :
    State.Keeps qz (State.requestRoute s id m r code k) := by
  unfold State.requestRoute
  repeat' first
    | with_reducible assumption
    | with_reducible apply State.beginRoute_keeps
    | with_reducible apply State.endRoute_keeps
    | with_reducible apply State.finishOpt_keeps
    | with_reducible apply State.incSat_keeps
    | with_reducible apply State.routeShow_keeps
    | with_reducible apply State.setRoute_keeps
    | with_reducible apply State.Keeps.ite
    | split

theorem State.hardRoute_keeps {qz : List Instr} (s : State) (id : Option DescId) (m : Mux) (r : Route) (k : Nat) (hs : s.Keeps qz) :
    State.Keeps qz (State.hardRoute s id m r k) := by
  unfold State.hardRoute
  repeat' first
    | with_reducible assumption
    | with_reducible apply State.finishOpt_keeps
    | with_reducible apply State.incSat_keeps
    | with_reducible apply State.setRoute_keeps
    | split

theorem State.setRunning_keeps {qz : List Instr} (s : State) (id : Nat) (b : Bool) (hs : s.Keeps qz) :
    State.Keeps qz (State.setRunning s id b) := by
  unfold State.setRunning
  repeat' first
    | with_reducible assumption
    | with_reducible apply State.setBit_keeps
    | with_reducible apply State.Keeps.ite

theorem State.zcTimeout_keeps {qz : List Instr} (s : State) (id : Nat) (hs : s.Keeps qz) :
    State.Keeps qz (State.zcTimeout s id) := by
  unfold State.zcTimeout
  repeat' first
    | with_reducible assumption
    | with_reducible apply State.setF_keeps
    | with_reducible apply State.Keeps.ite

theorem State.searchStart_keeps {qz : List Instr} (s : State) (id : Nat) (t : Nat) (hs : s.Keeps qz) :
    State.Keeps qz (State.searchStart s id t) := by
  unfold State.searchStart
  repeat' first
    | with_reducible assumption
    | with_reducible apply State.setSink_keeps

theorem State.sinkStopped_keeps {qz : List Instr} (s : State) (id : Nat) (t : Nat) (hs : s.Keeps qz) :
    State.Keeps qz (State.sinkStopped s id t) := by
  unfold State.sinkStopped
  repeat' first
    | with_reducible assumption
    | with_reducible apply State.hardRoute_keeps
    | with_reducible apply State.raiseAt_keeps
    | with_reducible apply State.setRunning_keeps
    | with_reducible apply State.setSink_keeps
    | dsimp only
    | split

theorem State.sinkStart_keeps {qz : List Instr} (s : State) (id : Nat) (k : Nat) (hs : s.Keeps qz) :
    State.Keeps qz (State.sinkStart s id k) := by
  unfold State.sinkStart
  repeat' first
    | with_reducible assumption
    | with_reducible apply State.searchStart_keeps
    | with_reducible apply State.setSink_keeps
    | with_reducible apply State.Keeps.ite
    | dsimp only
    | split

theorem State.sinkStop_keeps {qz : List Instr} (s : State) (id : Nat) (k : Nat) (hs : s.Keeps qz) :
    State.Keeps qz (State.sinkStop s id k) := by
  unfold State.sinkStop
  repeat' first
    | with_reducible assumption
    | with_reducible apply State.setSink_keeps
    | with_reducible apply State.sinkStopped_keeps
    | dsimp only
    | split

theorem State.sinksReady_keeps {qz : List Instr}   : ∀ (x0 : List Nat) (x1 : State),
    x1.Keeps qz → State.Keeps qz (State.sinksReady x0 x1) := by
  intro x0 x1
  fun_induction State.sinksReady x0 x1
  all_goals repeat' first
    | intro _
    | with_reducible assumption
    | with_reducible apply State.searchStart_keeps
    | with_reducible apply State.Keeps.ite
    | with_reducible apply_assumption

theorem State.requestSink_keeps {qz : List Instr} (s : State) (rid : Option DescId) (id : Nat) (k : Nat) (hs : s.Keeps qz) :
    State.Keeps qz (State.requestSink s rid id k) := by
  unfold State.requestSink
  repeat' first
    | with_reducible assumption
    | with_reducible apply State.finishOpt_keeps
    | with_reducible apply State.hardRoute_keeps
    | with_reducible apply State.incSat_keeps
    | with_reducible apply State.requestRoute_keeps
    | with_reducible apply State.setSink_keeps
    | dsimp only
    | split

theorem State.setGainX_keeps {qz : List Instr} (s : State) (b : Nat) (i : Nat) (x : GainX) (hs : s.Keeps qz) :
    State.Keeps qz (State.setGainX s b i x) := by
  unfold State.setGainX
  repeat' first
    | with_reducible assumption
    | with_reducible apply State.modMp_keeps

theorem State.gainRamped_keeps {qz : List Instr} (s : State) (b : Nat) (i : Nat) (code : Nat) (k : Nat) (hs : s.Keeps qz) :
    State.Keeps qz (State.gainRamped s b i code k) := by
  unfold State.gainRamped
  repeat' first
    | with_reducible assumption
    | with_reducible apply State.setGainX_keeps
    | with_reducible apply State.Keeps.ite

theorem State.scaleShow_keeps {qz : List Instr} (s : State) (b : Nat) (k : Nat) (hs : s.Keeps qz) :
    State.Keeps qz (State.scaleShow s b k) := by
  unfold State.scaleShow
  repeat' first
    | with_reducible assumption
    | with_reducible apply State.setF_keeps

theorem State.ballastTo_keeps {qz : List Instr} (s : State) (b : Nat) (target : Nat) (k : Nat) (hs : s.Keeps qz) :
    State.Keeps qz (State.ballastTo s b target k) := by
  unfold State.ballastTo
  repeat' first
    | with_reducible assumption
    | with_reducible apply State.modMp_keeps
    | with_reducible apply State.scaleShow_keeps

theorem State.ballastEval_keeps {qz : List Instr} (s : State) (b : Nat) (k : Nat) (hs : s.Keeps qz) :
    State.Keeps qz (State.ballastEval s b k) := by
  unfold State.ballastEval
  repeat' first
    | with_reducible assumption
    | with_reducible apply State.ballastTo_keeps
    | with_reducible apply State.scaleShow_keeps
    | with_reducible apply State.setF_keeps
    | with_reducible apply State.Keeps.ite

theorem State.ballastAll_keeps {qz : List Instr} (k : Nat)  : ∀ (x0 : Nat) (x1 : State),
    x1.Keeps qz → State.Keeps qz (State.ballastAll k x0 x1) := by
  intro x0 x1
  fun_induction State.ballastAll k x0 x1
  all_goals repeat' first
    | intro _
    | with_reducible assumption
    | with_reducible apply State.ballastEval_keeps
    | with_reducible apply_assumption

theorem State.routeWritten_keeps {qz : List Instr} (s : State) (id : Option DescId) (m : Mux) (routeChanged : Bool) (gainChanged : Bool) (k : Nat) (hs : s.Keeps qz) :
    State.Keeps qz (State.routeWritten s id m routeChanged gainChanged k) := by
  unfold State.routeWritten
  repeat' first
    | with_reducible assumption
    | with_reducible apply State.endRoute_keeps
    | with_reducible apply State.incSat_keeps
    | with_reducible apply State.finishOpt_keeps
    | with_reducible apply State.requestRoute_keeps
    | with_reducible apply State.requestSink_keeps
    | with_reducible apply State.Keeps.ite
    | split

theorem State.laneSrcCommit_keeps {qz : List Instr} (s : State) (id : Option DescId) (l : Nat) (old : Word) (k : Nat) (hs : s.Keeps qz) :
    State.Keeps qz (State.laneSrcCommit s id l old k) := by
  unfold State.laneSrcCommit
  repeat' first
    | with_reducible assumption
    | with_reducible apply State.routeWritten_keeps
    | with_reducible apply State.setF_keeps
    | with_reducible apply State.Keeps.ite

theorem State.laneTrimCommit_keeps {qz : List Instr} (s : State) (id : Option DescId) (l : Nat) (old : Word) (k : Nat) (hs : s.Keeps qz) :
    State.Keeps qz (State.laneTrimCommit s id l old k) := by
  unfold State.laneTrimCommit
  repeat' first
    | with_reducible assumption
    | with_reducible apply State.routeWritten_keeps

theorem State.mixRouteCommit_keeps {qz : List Instr} (s : State) (id : Option DescId) (b : Nat) (i : Nat) (old : Word) (k : Nat) (hs : s.Keeps qz) :
    State.Keeps qz (State.mixRouteCommit s id b i old k) := by
  unfold State.mixRouteCommit
  repeat' first
    | with_reducible assumption
    | with_reducible apply State.routeWritten_keeps

theorem State.mixGainCommit_keeps {qz : List Instr} (s : State) (b : Nat) (i : Nat) (old : Word) (k : Nat) (hs : s.Keeps qz) :
    State.Keeps qz (State.mixGainCommit s b i old k) := by
  unfold State.mixGainCommit
  repeat' first
    | with_reducible assumption
    | with_reducible apply State.gainRamped_keeps
    | with_reducible apply State.Keeps.ite

theorem State.sinkRouteCommit_keeps {qz : List Instr} (s : State) (rid : Option DescId) (id : Nat) (old : Word) (k : Nat) (hs : s.Keeps qz) :
    State.Keeps qz (State.sinkRouteCommit s rid id old k) := by
  unfold State.sinkRouteCommit
  repeat' first
    | with_reducible assumption
    | with_reducible apply State.routeWritten_keeps
    | with_reducible apply State.setF_keeps
    | with_reducible apply State.Keeps.ite

theorem State.sinkEnCommit_keeps {qz : List Instr} (s : State) (id : Nat) (old : Word) (k : Nat) (hs : s.Keeps qz) :
    State.Keeps qz (State.sinkEnCommit s id old k) := by
  unfold State.sinkEnCommit
  repeat' first
    | with_reducible assumption
    | with_reducible apply State.sinkStart_keeps
    | with_reducible apply State.sinkStop_keeps
    | with_reducible apply State.Keeps.ite

theorem State.busCfgCommit_keeps {qz : List Instr} (s : State) (b : Nat) (old : Word) (k : Nat) (hs : s.Keeps qz) :
    State.Keeps qz (State.busCfgCommit s b old k) := by
  unfold State.busCfgCommit
  repeat' first
    | with_reducible assumption
    | with_reducible apply State.ballastTo_keeps
    | with_reducible apply State.Keeps.ite

theorem State.setGen_keeps {qz : List Instr} (s : State) (g : Nat) (x : GenX) (hs : s.Keeps qz) :
    State.Keeps qz (State.setGen s g x) := by
  unfold State.setGen
  repeat' first
    | with_reducible assumption
    | with_reducible apply State.modMp_keeps

theorem State.genSet_keeps {qz : List Instr} (s : State) (g : Nat) (c : GenSet) (k : Nat) (hs : s.Keeps qz) :
    State.Keeps qz (State.genSet s g c k) := by
  unfold State.genSet
  repeat' first
    | with_reducible assumption
    | with_reducible apply State.setGen_keeps
    | with_reducible apply State.Keeps.ite

theorem State.genBoundary_keeps {qz : List Instr} (k : Nat)  : ∀ (x0 : List (Nat × GenX)) (x1 : State),
    x1.Keeps qz → State.Keeps qz (State.genBoundary k x0 x1) := by
  intro x0 x1
  fun_induction State.genBoundary k x0 x1
  all_goals repeat' first
    | intro _
    | with_reducible assumption
    | with_reducible apply State.genSet_keeps
    | with_reducible apply State.setGen_keeps
    | with_reducible apply_assumption

theorem execLaneSilent_keeps {qz : List Instr} (l : Fin 128) (k : Nat) (smp : Fin 16) (s : State) (hs : s.Keeps qz) :
    OutKeeps qz (execLaneSilent l k smp s) := by
  unfold execLaneSilent
  repeat' first
    | with_reducible apply OutKeeps.next
    | with_reducible assumption
    | with_reducible apply State.laneSilent_keeps

theorem execLaneActive_keeps {qz : List Instr} (l : Fin 128) (k : Nat) (smp : Fin 16) (s : State) (hs : s.Keeps qz) :
    OutKeeps qz (execLaneActive l k smp s) := by
  unfold execLaneActive
  repeat' first
    | with_reducible apply OutKeeps.next
    | with_reducible assumption
    | with_reducible apply State.laneActive_keeps

theorem execLanePeak_keeps {qz : List Instr} (l : Fin 128) (k : Nat) (smp : Fin 16) (s : State) (hs : s.Keeps qz) :
    OutKeeps qz (execLanePeak l k smp s) := by
  unfold execLanePeak
  repeat' first
    | with_reducible apply OutKeeps.next
    | with_reducible assumption
    | with_reducible apply State.modMp_keeps
    | with_reducible apply State.raiseAt_keeps
    | with_reducible apply State.setF_keeps
    | with_reducible apply State.Keeps.ite

theorem execRouteFadeEnd_keeps {qz : List Instr} (m : MuxId) (s : State) (hs : s.Keeps qz) :
    OutKeeps qz (execRouteFadeEnd m s) := by
  unfold execRouteFadeEnd
  repeat' first
    | with_reducible apply OutKeeps.next
    | with_reducible assumption
    | with_reducible apply State.endRoute_keeps
    | with_reducible apply State.Keeps.ite

theorem execSplitFillEnd_keeps {qz : List Instr} (l : Fin 128) (s : State) (hs : s.Keeps qz) :
    OutKeeps qz (execSplitFillEnd l s) := by
  unfold execSplitFillEnd
  repeat' first
    | with_reducible apply OutKeeps.next
    | with_reducible assumption
    | with_reducible apply State.endRoute_keeps
    | with_reducible apply State.Keeps.ite

theorem execSinkStartCrossing_keeps {qz : List Instr} (id : SinkId) (k : Nat) (smp : Fin 16) (s : State) (hs : s.Keeps qz) :
    OutKeeps qz (execSinkStartCrossing id k smp s) := by
  unfold execSinkStartCrossing
  repeat' first
    | with_reducible apply OutKeeps.next
    | with_reducible assumption
    | with_reducible apply State.raiseAt_keeps
    | with_reducible apply State.setRunning_keeps
    | with_reducible apply State.setSink_keeps
    | with_reducible apply State.Keeps.ite
    | dsimp only
    | split

theorem execSinkStartTimeout_keeps {qz : List Instr} (id : SinkId) (s : State) (hs : s.Keeps qz) :
    OutKeeps qz (execSinkStartTimeout id s) := by
  unfold execSinkStartTimeout
  repeat' first
    | with_reducible apply OutKeeps.next
    | with_reducible assumption
    | with_reducible apply State.raiseAt_keeps
    | with_reducible apply State.setRunning_keeps
    | with_reducible apply State.setSink_keeps
    | with_reducible apply State.zcTimeout_keeps
    | with_reducible apply State.Keeps.ite
    | dsimp only
    | split

theorem execSinkStopCrossing_keeps {qz : List Instr} (id : SinkId) (k : Nat) (smp : Fin 16) (s : State) (hs : s.Keeps qz) :
    OutKeeps qz (execSinkStopCrossing id k smp s) := by
  unfold execSinkStopCrossing
  repeat' first
    | with_reducible apply OutKeeps.next
    | with_reducible assumption
    | with_reducible apply State.sinkStopped_keeps
    | with_reducible apply State.Keeps.ite
    | split

theorem State.stopTimeout_keeps {qz : List Instr} (s : State) (id : Nat) (b : Nat) (hs : s.Keeps qz) :
    State.Keeps qz (State.stopTimeout s id b) := by
  unfold State.stopTimeout
  repeat' first
    | with_reducible assumption
    | with_reducible apply State.setSink_keeps
    | with_reducible apply State.zcTimeout_keeps

theorem execSinkStopTimeout_keeps {qz : List Instr} (id : SinkId) (s : State) (hs : s.Keeps qz) :
    OutKeeps qz (execSinkStopTimeout id s) := by
  unfold execSinkStopTimeout
  repeat' first
    | with_reducible apply OutKeeps.next
    | with_reducible assumption
    | with_reducible apply State.stopTimeout_keeps
    | with_reducible apply State.Keeps.ite
    | split

theorem execSinkStopFadeEnd_keeps {qz : List Instr} (id : SinkId) (s : State) (hs : s.Keeps qz) :
    OutKeeps qz (execSinkStopFadeEnd id s) := by
  unfold execSinkStopFadeEnd
  repeat' first
    | with_reducible apply OutKeeps.next
    | with_reducible assumption
    | with_reducible apply State.searchStart_keeps
    | with_reducible apply State.setSink_keeps
    | with_reducible apply State.sinkStopped_keeps
    | with_reducible apply State.Keeps.ite
    | dsimp only
    | split

theorem execConcealedOut_keeps {qz : List Instr} (id : Fin 22) (s : State) (hs : s.Keeps qz) :
    OutKeeps qz (execConcealedOut id s) := by
  unfold execConcealedOut
  repeat' first
    | with_reducible apply OutKeeps.next
    | with_reducible assumption
    | with_reducible apply State.raiseLimited_keeps
    | with_reducible apply State.setF_keeps

theorem State.mpCntClr_keeps {qz : List Instr} (s : State) (hs : s.Keeps qz) :
    State.Keeps qz (State.mpCntClr s) := by
  unfold State.mpCntClr
  repeat' first
    | with_reducible assumption
    | with_reducible apply State.setF_keeps
    | with_reducible apply State.wr_keeps

theorem State.renumber_keeps {qz : List Instr} (s : State) (old new : Nat) (hs : s.Keeps qz) :
    State.Keeps qz (State.renumber s old new) := by
  unfold State.renumber
  repeat' first
    | with_reducible assumption
    | with_reducible apply State.modSig_keeps
    | with_reducible apply State.modMp_keeps
    | with_reducible apply State.modFe_keeps
    | exact List.length_map ..
    | dsimp only

end Sys2Proof.Machine
end

