-- ==== Sys2Proof/Laws/KeepsSense.lean ====
section
/-!
SUPPORT. What the definitions of Machine/Sense.lean keep.
-/
namespace Sys2Proof.Machine

theorem State.modSns_keeps {qz : List Instr} (s : State) (c : Nat) (f : SnsX → SnsX) (hs : s.Keeps qz) :
    State.Keeps qz (State.modSns s c f) := by
  unfold State.modSns
  repeat' first
    | with_reducible assumption
    | with_reducible apply State.modSense_keeps

theorem State.snsShow_keeps {qz : List Instr} (s : State) (c : Nat) (hs : s.Keeps qz) :
    State.Keeps qz (State.snsShow s c) := by
  unfold State.snsShow
  repeat' first
    | with_reducible assumption
    | with_reducible apply State.setF_keeps

theorem State.startConv_keeps {qz : List Instr} (s : State) (c : Nat) (what : ConvFor) (n : Nat) (win3 : Nat) (hs : s.Keeps qz) :
    State.Keeps qz (State.startConv s c what n win3) := by
  unfold State.startConv
  repeat' first
    | with_reducible assumption
    | with_reducible apply State.modSns_keeps

theorem State.setCalPair_keeps {qz : List Instr} (s : State) (i : Nat) (p : Word × Word) (hs : s.Keeps qz) :
    State.Keeps qz (State.setCalPair s i p) := by
  unfold State.setCalPair
  repeat' first
    | with_reducible assumption
    | with_reducible apply State.modSense_keeps

theorem State.calOfsWritten_keeps {qz : List Instr} (s : State) (v : Word) (hs : s.Keeps qz) :
    State.Keeps qz (State.calOfsWritten s v) := by
  unfold State.calOfsWritten
  repeat' first
    | with_reducible assumption
    | with_reducible apply State.setCalPair_keeps

theorem State.calAdvance_keeps {qz : List Instr} (s : State) (hs : s.Keeps qz) :
    State.Keeps qz (State.calAdvance s) := by
  unfold State.calAdvance
  repeat' first
    | with_reducible assumption
    | with_reducible apply State.incWrap_keeps
    | with_reducible apply State.Keeps.ite

theorem State.calGainWritten_keeps {qz : List Instr} (s : State) (v : Word) (hs : s.Keeps qz) :
    State.Keeps qz (State.calGainWritten s v) := by
  unfold State.calGainWritten
  repeat' first
    | with_reducible assumption
    | with_reducible apply State.calAdvance_keeps
    | with_reducible apply State.setCalPair_keeps

theorem State.calStepEnd_keeps {qz : List Instr} (s : State) (c : Nat) (t : CalStep) (st : Status) (k : Nat) (hs : s.Keeps qz) :
    State.Keeps qz (State.calStepEnd s c t st k) := by
  unfold State.calStepEnd
  repeat' first
    | with_reducible assumption
    | with_reducible apply State.finish_keeps
    | with_reducible apply State.setF_keeps
    | with_reducible apply State.Keeps.ite
    | split

theorem State.calApply_keeps {qz : List Instr} (s : State) (c : Nat) (t : CalStep) (raw : Int) (k : Nat) (hs : s.Keeps qz) :
    State.Keeps qz (State.calApply s c t raw k) := by
  unfold State.calApply
  repeat' first
    | with_reducible assumption
    | with_reducible apply State.calStepEnd_keeps
    | with_reducible apply State.setCalPair_keeps
    | with_reducible apply State.Keeps.ite
    | dsimp only
    | split

theorem State.passEnd_keeps {qz : List Instr} (s : State) (c : Nat) (hs : s.Keeps qz) :
    State.Keeps qz (State.passEnd s c) := by
  unfold State.passEnd
  repeat' first
    | with_reducible assumption
    | with_reducible apply State.modSns_keeps
    | with_reducible apply State.raiseF_keeps
    | with_reducible apply State.setF_keeps
    | with_reducible apply State.Keeps.ite

theorem State.startEntry_keeps {qz : List Instr} (s : State) (c : Nat) (hs : s.Keeps qz) :
    State.Keeps qz (State.startEntry s c) := by
  unfold State.startEntry
  repeat' first
    | with_reducible assumption
    | with_reducible apply State.modSns_keeps
    | with_reducible apply State.passEnd_keeps
    | with_reducible apply State.setF_keeps
    | with_reducible apply State.startConv_keeps
    | with_reducible apply State.Keeps.ite
    | dsimp only
    | split

theorem State.snsNext_keeps {qz : List Instr} (s : State) (c : Nat) (hs : s.Keeps qz) :
    State.Keeps qz (State.snsNext s c) := by
  unfold State.snsNext
  repeat' first
    | with_reducible assumption
    | with_reducible apply State.calApply_keeps
    | with_reducible apply State.modSns_keeps
    | with_reducible apply State.snsShow_keeps
    | with_reducible apply State.startConv_keeps
    | with_reducible apply State.startEntry_keeps
    | with_reducible apply State.Keeps.ite
    | dsimp only
    | split

theorem State.abortEntry_keeps {qz : List Instr} (s : State) (c : Nat) (hs : s.Keeps qz) :
    State.Keeps qz (State.abortEntry s c) := by
  unfold State.abortEntry
  repeat' first
    | with_reducible assumption
    | with_reducible apply State.incSat_keeps
    | with_reducible apply State.modSns_keeps
    | with_reducible apply State.Keeps.ite

theorem State.inject_keeps {qz : List Instr} (s : State) (c : Nat) (r : InjReq) (hs : s.Keeps qz) :
    State.Keeps qz (State.inject s c r) := by
  unfold State.inject
  repeat' first
    | with_reducible assumption
    | with_reducible apply State.abortEntry_keeps
    | with_reducible apply State.modSns_keeps
    | with_reducible apply State.snsNext_keeps

theorem State.injectLoad_keeps {qz : List Instr} (s : State) (m : Nat) (hs : s.Keeps qz) :
    State.Keeps qz (State.injectLoad s m) := by
  unfold State.injectLoad
  repeat' first
    | with_reducible assumption
    | with_reducible apply State.inject_keeps

theorem State.calRequest_keeps {qz : List Instr} (s : State) (c : Nat) (t : CalStep) (hs : s.Keeps qz) :
    State.Keeps qz (State.calRequest s c t) := by
  unfold State.calRequest
  repeat' first
    | with_reducible assumption
    | with_reducible apply State.abortEntry_keeps
    | with_reducible apply State.calStepEnd_keeps
    | with_reducible apply State.modSns_keeps
    | with_reducible apply State.snsNext_keeps
    | with_reducible apply State.Keeps.ite
    | dsimp only
    | split

theorem State.trigDrop_keeps {qz : List Instr} (s : State) (c : Nat) (hs : s.Keeps qz) :
    State.Keeps qz (State.trigDrop s c) := by
  unfold State.trigDrop
  repeat' first
    | with_reducible assumption
    | with_reducible apply State.incSat_keeps
    | with_reducible apply State.raiseFLimited_keeps
    | with_reducible apply State.setF_keeps

theorem State.snsTrigger_keeps {qz : List Instr} (s : State) (c : Nat) (hs : s.Keeps qz) :
    State.Keeps qz (State.snsTrigger s c) := by
  unfold State.snsTrigger
  repeat' first
    | with_reducible assumption
    | with_reducible apply State.modSns_keeps
    | with_reducible apply State.setF_keeps
    | with_reducible apply State.snsNext_keeps
    | with_reducible apply State.trigDrop_keeps
    | with_reducible apply State.Keeps.ite
    | dsimp only
    | split

theorem State.snsTriggerAll_keeps {qz : List Instr} (src : Nat) (ok : Nat → Bool)  : ∀ (x0 : List Nat) (x1 : State),
    x1.Keeps qz → State.Keeps qz (State.snsTriggerAll src ok x0 x1) := by
  intro x0 x1
  fun_induction State.snsTriggerAll src ok x0 x1
  all_goals repeat' first
    | intro _
    | with_reducible assumption
    | with_reducible apply State.snsTrigger_keeps
    | with_reducible apply State.Keeps.ite
    | with_reducible apply_assumption

theorem State.snsSoftware_keeps {qz : List Instr} (s : State) (c : Nat) (hs : s.Keeps qz) :
    State.Keeps qz (State.snsSoftware s c) := by
  unfold State.snsSoftware
  repeat' first
    | with_reducible assumption
    | with_reducible apply State.snsTrigger_keeps
    | with_reducible apply State.Keeps.ite

theorem State.snsPwm_keeps {qz : List Instr} (s : State) (c : Nat) (hs : s.Keeps qz) :
    State.Keeps qz (State.snsPwm s c) := by
  unfold State.snsPwm
  repeat' first
    | with_reducible assumption
    | with_reducible apply State.modSns_keeps
    | with_reducible apply State.snsNext_keeps
    | with_reducible apply State.snsTrigger_keeps
    | with_reducible apply State.Keeps.ite

theorem State.snsPwmAll_keeps {qz : List Instr} (m : Nat) (centre : Bool)  : ∀ (x0 : List Nat) (x1 : State),
    x1.Keeps qz → State.Keeps qz (State.snsPwmAll m centre x0 x1) := by
  intro x0 x1
  fun_induction State.snsPwmAll m centre x0 x1
  all_goals repeat' first
    | intro _
    | with_reducible assumption
    | with_reducible apply State.snsPwm_keeps
    | with_reducible apply State.Keeps.ite
    | with_reducible apply_assumption

theorem State.snsPauseNow_keeps {qz : List Instr} (s : State) (c : Nat) (hs : s.Keeps qz) :
    State.Keeps qz (State.snsPauseNow s c) := by
  unfold State.snsPauseNow
  repeat' first
    | with_reducible assumption
    | with_reducible apply State.setF_keeps
    | with_reducible apply State.Keeps.ite

theorem State.snsDisable_keeps {qz : List Instr} (s : State) (c : Nat) (hs : s.Keeps qz) :
    State.Keeps qz (State.snsDisable s c) := by
  unfold State.snsDisable
  repeat' first
    | with_reducible assumption
    | with_reducible apply State.modSns_keeps
    | with_reducible apply State.setF_keeps
    | with_reducible apply State.Keeps.ite

theorem State.snsCfgWritten_keeps {qz : List Instr} (s : State) (c : Nat) (old : Word) (hs : s.Keeps qz) :
    State.Keeps qz (State.snsCfgWritten s c old) := by
  unfold State.snsCfgWritten
  repeat' first
    | with_reducible assumption
    | with_reducible apply State.setF_keeps
    | with_reducible apply State.snsDisable_keeps
    | with_reducible apply State.snsNext_keeps
    | with_reducible apply State.snsPauseNow_keeps
    | with_reducible apply State.Keeps.ite

theorem State.refShow_keeps {qz : List Instr} (s : State) (hs : s.Keeps qz) :
    State.Keeps qz (State.refShow s) := by
  unfold State.refShow
  repeat' first
    | with_reducible assumption
    | with_reducible apply State.modSense_keeps

theorem State.refWritten_keeps {qz : List Instr} (s : State) (old : Word) (hs : s.Keeps qz) :
    State.Keeps qz (State.refWritten s old) := by
  unfold State.refWritten
  repeat' first
    | with_reducible assumption
    | with_reducible apply State.modSense_keeps
    | with_reducible apply State.refShow_keeps
    | with_reducible apply State.setF_keeps
    | with_reducible apply State.Keeps.ite

theorem State.injGo_keeps {qz : List Instr} (s : State) (c : Nat) (hs : s.Keeps qz) :
    State.Keeps qz (State.injGo s c) := by
  unfold State.injGo
  repeat' first
    | with_reducible assumption
    | with_reducible apply State.inject_keeps
    | with_reducible apply State.setF_keeps
    | with_reducible apply State.Keeps.ite

theorem State.calGo_keeps {qz : List Instr} (s : State) (c : Nat) (hs : s.Keeps qz) :
    State.Keeps qz (State.calGo s c) := by
  unfold State.calGo
  repeat' first
    | with_reducible assumption
    | with_reducible apply State.calRequest_keeps

theorem State.snsCntClr_keeps {qz : List Instr} (s : State) (hs : s.Keeps qz) :
    State.Keeps qz (State.snsCntClr s) := by
  unfold State.snsCntClr
  repeat' first
    | with_reducible assumption
    | with_reducible apply State.zeroAll_keeps

theorem State.snsOff_keeps {qz : List Instr} (s : State) (hs : s.Keeps qz) :
    State.Keeps qz (State.snsOff s) := by
  unfold State.snsOff
  repeat' first
    | with_reducible assumption
    | with_reducible apply State.modSns_keeps
    | with_reducible apply State.setF_keeps
    | with_reducible apply State.snsShow_keeps

theorem execSenseTimerTick_keeps {qz : List Instr} (t : Fin 4) (s : State) (hs : s.Keeps qz) :
    OutKeeps qz (execSenseTimerTick t s) := by
  unfold execSenseTimerTick
  repeat' first
    | with_reducible apply OutKeeps.next
    | with_reducible assumption
    | with_reducible apply State.snsTriggerAll_keeps
    | with_reducible apply State.Keeps.ite

theorem execSensePwmEvent_keeps {qz : List Instr} (m : Fin 8) (centre : Bool) (s : State) (hs : s.Keeps qz) :
    OutKeeps qz (execSensePwmEvent m centre s) := by
  unfold execSensePwmEvent
  repeat' first
    | with_reducible apply OutKeeps.next
    | with_reducible assumption
    | with_reducible apply State.snsPwmAll_keeps
    | with_reducible apply State.Keeps.ite

theorem execSenseGpioEdge_keeps {qz : List Instr} (g : Fin 16) (rising : Bool) (s : State) (hs : s.Keeps qz) :
    OutKeeps qz (execSenseGpioEdge g rising s) := by
  unfold execSenseGpioEdge
  repeat' first
    | with_reducible apply OutKeeps.next
    | with_reducible assumption
    | with_reducible apply State.snsTriggerAll_keeps

theorem State.limCheck_keeps {qz : List Instr} (s : State) (c : Nat) (e : Nat) (w : Word) (hs : s.Keeps qz) :
    State.Keeps qz (State.limCheck s c e w).2 := by
  unfold State.limCheck
  repeat' first
    | with_reducible assumption
    | with_reducible apply State.modSns_keeps
    | with_reducible apply State.raiseF_keeps
    | with_reducible apply State.touch_keeps
    | with_reducible apply State.Keeps.ite
    | with_reducible apply State.Keeps.ite_snd

theorem State.setLast_keeps {qz : List Instr} (s : State) (c : Nat) (input : Nat) (gain : Nat) (w : Word) (hs : s.Keeps qz) :
    State.Keeps qz (State.setLast s c input gain w) := by
  unfold State.setLast
  repeat' first
    | with_reducible assumption
    | with_reducible apply State.modSns_keeps
    | with_reducible apply State.wr_keeps

theorem State.plausCheck_keeps {qz : List Instr} (s : State) (c : Nat) (input : Nat) (gain : Nat) (hs : s.Keeps qz) :
    State.Keeps qz (State.plausCheck s c input gain) := by
  unfold State.plausCheck
  repeat' first
    | with_reducible assumption
    | with_reducible apply State.fresh_keeps
    | with_reducible apply State.incSat_keeps
    | with_reducible apply State.raiseFLimited_keeps
    | with_reducible apply State.setF_keeps
    | with_reducible apply State.Keeps.ite
    | with_reducible apply State.Keeps.ite_snd
    | dsimp only
    | split

theorem State.putPayload_keeps {qz : List Instr} (s : State) (o : Origin) (a : Nat) (bs : List Byte) (hs : s.Keeps qz) :
    State.Keeps qz (State.putPayload s o a bs) := by
  unfold State.putPayload
  repeat' first
    | with_reducible assumption
    | with_reducible apply State.putBytes_keeps
    | split

theorem State.injDone_keeps {qz : List Instr} (s : State) (c : Nat) (r : InjReq) (w : Word) (k : Nat) (hs : s.Keeps qz) :
    State.Keeps qz (State.injDone s c r w k) := by
  unfold State.injDone
  repeat' first
    | with_reducible assumption
    | with_reducible apply State.finish_keeps
    | with_reducible apply State.plausCheck_keeps
    | with_reducible apply State.putPayload_keeps
    | with_reducible apply State.setLast_keeps
    | with_reducible apply State.wr_keeps
    | with_reducible apply State.Keeps.ite
    | dsimp only
    | split

theorem State.entryDone_keeps {qz : List Instr} (s : State) (c : Nat) (e : Nat) (hs : s.Keeps qz) :
    State.Keeps qz (State.entryDone s c e) := by
  unfold State.entryDone
  repeat' first
    | with_reducible assumption
    | with_reducible apply State.modSns_keeps
    | with_reducible apply State.passEnd_keeps
    | with_reducible apply State.setF_keeps
    | with_reducible apply State.snsPauseNow_keeps
    | split

theorem State.entryResult_keeps {qz : List Instr} (s : State) (c : Nat) (e : Nat) (cfg : Word) (re : Bool) (w : Word) (hs : s.Keeps qz) :
    State.Keeps qz (State.entryResult s c e cfg re w) := by
  unfold State.entryResult
  repeat' first
    | with_reducible assumption
    | with_reducible apply State.entryDone_keeps
    | with_reducible apply State.limCheck_keeps
    | with_reducible apply State.plausCheck_keeps
    | with_reducible apply State.setLast_keeps
    | with_reducible apply State.wr_keeps
    | with_reducible apply State.Keeps.ite_snd

theorem execSenseConversionDone_keeps {qz : List Instr} (c : Fin 2) (raw : Int) (s : State) (hs : s.Keeps qz) :
    OutKeeps qz (execSenseConversionDone c raw s) := by
  unfold execSenseConversionDone
  repeat' first
    | with_reducible apply OutKeeps.next
    | with_reducible assumption
    | with_reducible apply State.calApply_keeps
    | with_reducible apply State.entryResult_keeps
    | with_reducible apply State.injDone_keeps
    | with_reducible apply State.modSns_keeps
    | with_reducible apply State.snsNext_keeps
    | with_reducible apply State.Keeps.ite
    | dsimp only
    | split

theorem execRefReady_keeps {qz : List Instr} (s : State) (hs : s.Keeps qz) :
    OutKeeps qz (execRefReady s) := by
  unfold execRefReady
  repeat' first
    | with_reducible apply OutKeeps.next
    | with_reducible assumption
    | with_reducible apply State.refShow_keeps
    | with_reducible apply State.setF_keeps
    | with_reducible apply State.Keeps.ite

end Sys2Proof.Machine
end

