-- ==== Sys2Proof/Laws/KeepsOutputs.lean ====
section
/-!
SUPPORT. What the definitions of Machine/Outputs.lean keep.
-/
namespace Sys2Proof.Machine

theorem State.modOut_keeps {qz : List Instr} (s : State) (c : Nat) (f : OutX → OutX) (hs : s.Keeps qz) :
    State.Keeps qz (State.modOut s c f) := by
  unfold State.modOut
  repeat' first
    | with_reducible assumption
    | with_reducible apply State.modOutputs_keeps
    | (first | exact List.length_modify .. | exact List.length_set .. | exact List.length_map ..)

theorem State.setCh_keeps {qz : List Instr} (s : State) (c : Nat) (st : Nat) (hs : s.Keeps qz) :
    State.Keeps qz (State.setCh s c st) := by
  unfold State.setCh
  repeat' first
    | with_reducible assumption
    | with_reducible apply State.modOut_keeps
    | with_reducible apply State.setF_keeps
    | with_reducible apply State.Keeps.ite

theorem State.setRetryCnt_keeps {qz : List Instr} (s : State) (c : Nat) (n : Nat) (hs : s.Keeps qz) :
    State.Keeps qz (State.setRetryCnt s c n) := by
  unfold State.setRetryCnt
  repeat' first
    | with_reducible assumption
    | with_reducible apply State.setF_keeps
    | with_reducible apply State.Keeps.ite

theorem State.servoShow_keeps {qz : List Instr} (s : State) (m : Nat) (hs : s.Keeps qz) :
    State.Keeps qz (State.servoShow s m) := by
  unfold State.servoShow
  repeat' first
    | with_reducible assumption
    | with_reducible apply State.setF_keeps
    | with_reducible apply State.Keeps.ite

theorem State.calEnd_keeps {qz : List Instr} (s : State) (m : Nat) (st : Status) (hs : s.Keeps qz) :
    State.Keeps qz (State.calEnd s m st) := by
  unfold State.calEnd
  repeat' first
    | with_reducible assumption
    | with_reducible apply State.finish_keeps
    | with_reducible apply State.modOut_keeps
    | split

theorem State.calAbort_keeps {qz : List Instr} (s : State) (m : Nat) (hs : s.Keeps qz) :
    State.Keeps qz (State.calAbort s m) := by
  unfold State.calAbort
  repeat' first
    | with_reducible assumption
    | with_reducible apply State.calEnd_keeps
    | with_reducible apply State.setCh_keeps
    | with_reducible apply State.sinksReady_keeps
    | with_reducible apply State.Keeps.ite

theorem State.softstart_keeps {qz : List Instr} (s : State) (c : Nat) (hs : s.Keeps qz) :
    State.Keeps qz (State.softstart s c) := by
  unfold State.softstart
  repeat' first
    | with_reducible assumption
    | with_reducible apply State.setCh_keeps

theorem State.startStep2_keeps {qz : List Instr} (s : State) (c : Nat) (hs : s.Keeps qz) :
    State.Keeps qz (State.startStep2 s c) := by
  unfold State.startStep2
  repeat' first
    | with_reducible assumption
    | with_reducible apply State.injectLoad_keeps
    | with_reducible apply State.modOut_keeps
    | with_reducible apply State.setCh_keeps
    | with_reducible apply State.softstart_keeps
    | with_reducible apply State.Keeps.ite

theorem State.startStep1_keeps {qz : List Instr} (s : State) (c : Nat) (hs : s.Keeps qz) :
    State.Keeps qz (State.startStep1 s c) := by
  unfold State.startStep1
  repeat' first
    | with_reducible assumption
    | with_reducible apply State.setCh_keeps
    | with_reducible apply State.startStep2_keeps
    | with_reducible apply State.Keeps.ite

theorem State.resume_keeps {qz : List Instr} (s : State) (c : Nat) (hs : s.Keeps qz) :
    State.Keeps qz (State.resume s c) := by
  unfold State.resume
  repeat' first
    | with_reducible assumption
    | with_reducible apply State.setCh_keeps
    | with_reducible apply State.startStep2_keeps
    | with_reducible apply State.Keeps.ite

theorem State.resumeAll_keeps {qz : List Instr}   : ∀ (x0 : List Nat) (x1 : State),
    x1.Keeps qz → State.Keeps qz (State.resumeAll x0 x1) := by
  intro x0 x1
  fun_induction State.resumeAll x0 x1
  all_goals repeat' first
    | intro _
    | with_reducible assumption
    | with_reducible apply State.resume_keeps
    | with_reducible apply_assumption

theorem State.enterReady_keeps {qz : List Instr} (s : State) (c : Nat) (hs : s.Keeps qz) :
    State.Keeps qz (State.enterReady s c) := by
  unfold State.enterReady
  repeat' first
    | with_reducible assumption
    | with_reducible apply State.modOut_keeps
    | with_reducible apply State.servoShow_keeps
    | with_reducible apply State.setCh_keeps
    | with_reducible apply State.sinksReady_keeps

theorem State.dropOut_keeps {qz : List Instr} (s : State) (c : Nat) (st : Nat) (hs : s.Keeps qz) :
    State.Keeps qz (State.dropOut s c st) := by
  unfold State.dropOut
  repeat' first
    | with_reducible assumption
    | with_reducible apply State.modOut_keeps
    | with_reducible apply State.servoShow_keeps
    | with_reducible apply State.setCh_keeps

theorem State.chStart_keeps {qz : List Instr} (s : State) (c : Nat) (hs : s.Keeps qz) :
    State.Keeps qz (State.chStart s c) := by
  unfold State.chStart
  repeat' first
    | with_reducible assumption
    | with_reducible apply State.modOut_keeps
    | with_reducible apply State.servoShow_keeps
    | with_reducible apply State.setCh_keeps
    | with_reducible apply State.startStep1_keeps
    | with_reducible apply State.Keeps.ite

theorem State.chStop_keeps {qz : List Instr} (s : State) (c : Nat) (hs : s.Keeps qz) :
    State.Keeps qz (State.chStop s c) := by
  unfold State.chStop
  repeat' first
    | with_reducible assumption
    | with_reducible apply State.calEnd_keeps
    | with_reducible apply State.dropOut_keeps
    | with_reducible apply State.modOut_keeps
    | with_reducible apply State.servoShow_keeps
    | with_reducible apply State.setCh_keeps
    | with_reducible apply State.setRetryCnt_keeps
    | with_reducible apply State.Keeps.ite

theorem State.chStopped_keeps {qz : List Instr} (s : State) (c : Nat) (hs : s.Keeps qz) :
    State.Keeps qz (State.chStopped s c) := by
  unfold State.chStopped
  repeat' first
    | with_reducible assumption
    | with_reducible apply State.dropOut_keeps
    | with_reducible apply State.raiseF_keeps

theorem State.chEnCommit_keeps {qz : List Instr} (s : State) (c : Nat) (old : Bool) (hs : s.Keeps qz) :
    State.Keeps qz (State.chEnCommit s c old) := by
  unfold State.chEnCommit
  repeat' first
    | with_reducible assumption
    | with_reducible apply State.chStart_keeps
    | with_reducible apply State.chStop_keeps
    | with_reducible apply State.Keeps.ite

theorem State.attemptFail_keeps {qz : List Instr} (s : State) (c : Nat) (hs : s.Keeps qz) :
    State.Keeps qz (State.attemptFail s c) := by
  unfold State.attemptFail
  repeat' first
    | with_reducible assumption
    | with_reducible apply State.dropOut_keeps
    | with_reducible apply State.modOut_keeps
    | with_reducible apply State.raiseF_keeps
    | with_reducible apply State.setRetryCnt_keeps
    | with_reducible apply State.Keeps.ite

theorem State.trip_keeps {qz : List Instr} (s : State) (c : Nat) (hs : s.Keeps qz) :
    State.Keeps qz (State.trip s c) := by
  unfold State.trip
  repeat' first
    | with_reducible assumption
    | with_reducible apply State.attemptFail_keeps
    | with_reducible apply State.calEnd_keeps
    | with_reducible apply State.dropOut_keeps
    | with_reducible apply State.modOut_keeps
    | with_reducible apply State.raiseF_keeps
    | with_reducible apply State.Keeps.ite

theorem State.putTrace_keeps {qz : List Instr} (m : Nat)  : ∀ (x0 : Nat) (x1 : List Word) (x2 : State),
    x2.Keeps qz → State.Keeps qz (State.putTrace m x0 x1 x2) := by
  intro x0 x1 x2
  fun_induction State.putTrace m x0 x1 x2
  all_goals repeat' first
    | intro _
    | with_reducible assumption
    | with_reducible apply State.wr_keeps
    | with_reducible apply_assumption

theorem State.pwrTrip_keeps {qz : List Instr} (s : State) (m : Nat) (kind : Nat) (trace : List Word) (hs : s.Keeps qz) :
    State.Keeps qz (State.pwrTrip s m kind trace) := by
  unfold State.pwrTrip
  repeat' first
    | with_reducible assumption
    | with_reducible apply State.incSat_keeps
    | with_reducible apply State.putTrace_keeps
    | with_reducible apply State.raiseF_keeps
    | with_reducible apply State.setF_keeps
    | with_reducible apply State.trip_keeps
    | with_reducible apply State.Keeps.ite

theorem State.pwrTrips_keeps {qz : List Instr} (kind : Nat)  : ∀ (x0 : List Nat) (x1 : State),
    x1.Keeps qz → State.Keeps qz (State.pwrTrips kind x0 x1) := by
  intro x0 x1
  fun_induction State.pwrTrips kind x0 x1
  all_goals repeat' first
    | intro _
    | with_reducible assumption
    | with_reducible apply State.pwrTrip_keeps
    | with_reducible apply_assumption

theorem State.clearFault_keeps {qz : List Instr} (s : State) (c : Nat) (hs : s.Keeps qz) :
    State.Keeps qz (State.clearFault s c) := by
  unfold State.clearFault
  repeat' first
    | with_reducible assumption
    | with_reducible apply State.dropOut_keeps
    | with_reducible apply State.modOut_keeps
    | with_reducible apply State.setF_keeps
    | with_reducible apply State.setRetryCnt_keeps
    | with_reducible apply State.startStep2_keeps
    | with_reducible apply State.zeroAll_keeps
    | with_reducible apply State.Keeps.ite

theorem execLoadTestDone_keeps {qz : List Instr} (m : Fin 8) (r : Nat) (s : State) (hs : s.Keeps qz) :
    OutKeeps qz (execLoadTestDone m r s) := by
  unfold execLoadTestDone
  repeat' first
    | with_reducible apply OutKeeps.next
    | with_reducible assumption
    | with_reducible apply State.attemptFail_keeps
    | with_reducible apply State.dropOut_keeps
    | with_reducible apply State.raiseF_keeps
    | with_reducible apply State.setF_keeps
    | with_reducible apply State.softstart_keeps
    | with_reducible apply State.Keeps.ite
    | dsimp only
    | split

theorem execSoftstartEnd_keeps {qz : List Instr} (m : Fin 8) (s : State) (hs : s.Keeps qz) :
    OutKeeps qz (execSoftstartEnd m s) := by
  unfold execSoftstartEnd
  repeat' first
    | with_reducible apply OutKeeps.next
    | with_reducible assumption
    | with_reducible apply State.enterReady_keeps
    | with_reducible apply State.raiseF_keeps
    | with_reducible apply State.Keeps.ite

theorem execPwrStopGainZero_keeps {qz : List Instr} (c : Fin 16) (s : State) (hs : s.Keeps qz) :
    OutKeeps qz (execPwrStopGainZero c s) := by
  unfold execPwrStopGainZero
  repeat' first
    | with_reducible apply OutKeeps.next
    | with_reducible assumption
    | with_reducible apply State.chStopped_keeps
    | with_reducible apply State.modOut_keeps
    | with_reducible apply State.Keeps.ite
    | split

theorem execPwrStopped_keeps {qz : List Instr} (m : Fin 8) (s : State) (hs : s.Keeps qz) :
    OutKeeps qz (execPwrStopped m s) := by
  unfold execPwrStopped
  repeat' first
    | with_reducible apply OutKeeps.next
    | with_reducible assumption
    | with_reducible apply State.chStopped_keeps
    | with_reducible apply State.Keeps.ite

theorem execRestartRampStart_keeps {qz : List Instr} (c : Fin 16) (crossing : Bool) (s : State) (hs : s.Keeps qz) :
    OutKeeps qz (execRestartRampStart c crossing s) := by
  unfold execRestartRampStart
  repeat' first
    | with_reducible apply OutKeeps.next
    | with_reducible assumption
    | with_reducible apply State.modOut_keeps
    | with_reducible apply State.Keeps.ite
    | split

theorem execRestartRampEnd_keeps {qz : List Instr} (c : Fin 16) (s : State) (hs : s.Keeps qz) :
    OutKeeps qz (execRestartRampEnd c s) := by
  unfold execRestartRampEnd
  repeat' first
    | with_reducible apply OutKeeps.next
    | with_reducible assumption
    | with_reducible apply State.modOut_keeps
    | with_reducible apply State.servoShow_keeps
    | with_reducible apply State.Keeps.ite
    | split

theorem execPwrCurrentLimit_keeps {qz : List Instr} (m : Fin 8) (s : State) (hs : s.Keeps qz) :
    OutKeeps qz (execPwrCurrentLimit m s) := by
  unfold execPwrCurrentLimit
  repeat' first
    | with_reducible apply OutKeeps.next
    | with_reducible assumption
    | with_reducible apply State.incSat_keeps
    | with_reducible apply State.modOut_keeps
    | with_reducible apply State.raiseFLimited_keeps
    | with_reducible apply State.setF_keeps
    | with_reducible apply State.Keeps.ite

theorem execPwrSustainedTrip_keeps {qz : List Instr} (m : Fin 8) (trace : List Word) (s : State) (hs : s.Keeps qz) :
    OutKeeps qz (execPwrSustainedTrip m trace s) := by
  unfold execPwrSustainedTrip
  repeat' first
    | with_reducible apply OutKeeps.next
    | with_reducible assumption
    | with_reducible apply State.pwrTrip_keeps

theorem execPwrShortTrip_keeps {qz : List Instr} (m : Fin 8) (trace : List Word) (s : State) (hs : s.Keeps qz) :
    OutKeeps qz (execPwrShortTrip m trace s) := by
  unfold execPwrShortTrip
  repeat' first
    | with_reducible apply OutKeeps.next
    | with_reducible assumption
    | with_reducible apply State.pwrTrip_keeps

theorem execRetryAttempt_keeps {qz : List Instr} (c : Fin 16) (s : State) (hs : s.Keeps qz) :
    OutKeeps qz (execRetryAttempt c s) := by
  unfold execRetryAttempt
  repeat' first
    | with_reducible apply OutKeeps.next
    | with_reducible assumption
    | with_reducible apply State.attemptFail_keeps
    | with_reducible apply State.injectLoad_keeps
    | with_reducible apply State.modOut_keeps
    | with_reducible apply State.setCh_keeps
    | with_reducible apply State.softstart_keeps
    | with_reducible apply State.Keeps.ite

theorem execRetryCountReset_keeps {qz : List Instr} (c : Fin 16) (s : State) (hs : s.Keeps qz) :
    OutKeeps qz (execRetryCountReset c s) := by
  unfold execRetryCountReset
  repeat' first
    | with_reducible apply OutKeeps.next
    | with_reducible assumption
    | with_reducible apply State.modOut_keeps
    | with_reducible apply State.setRetryCnt_keeps
    | with_reducible apply State.Keeps.ite

theorem execPwrDcFault_keeps {qz : List Instr} (m : Fin 8) (s : State) (hs : s.Keeps qz) :
    OutKeeps qz (execPwrDcFault m s) := by
  unfold execPwrDcFault
  repeat' first
    | with_reducible apply OutKeeps.next
    | with_reducible assumption
    | with_reducible apply State.dropOut_keeps
    | with_reducible apply State.raiseF_keeps
    | with_reducible apply State.setF_keeps
    | with_reducible apply State.Keeps.ite

theorem State.hiZ_keeps {qz : List Instr} (s : State) (st : Nat) (c : Nat) (hs : s.Keeps qz) :
    State.Keeps qz (State.hiZ s st c) := by
  unfold State.hiZ
  repeat' first
    | with_reducible assumption
    | with_reducible apply State.calEnd_keeps
    | with_reducible apply State.dropOut_keeps
    | with_reducible apply State.modOut_keeps
    | with_reducible apply State.Keeps.ite

theorem State.hiZAll_keeps {qz : List Instr} (st : Nat) (f : Fld)  : ∀ (x0 : List Nat) (x1 : State),
    x1.Keeps qz → State.Keeps qz (State.hiZAll st f x0 x1) := by
  intro x0 x1
  fun_induction State.hiZAll st f x0 x1
  all_goals repeat' first
    | intro _
    | with_reducible assumption
    | with_reducible apply State.hiZ_keeps
    | with_reducible apply State.setF_keeps
    | with_reducible apply_assumption

theorem execPdieThermalWarn_keeps {qz : List Instr} (d : Fin 2) (s : State) (hs : s.Keeps qz) :
    OutKeeps qz (execPdieThermalWarn d s) := by
  unfold execPdieThermalWarn
  repeat' first
    | with_reducible apply OutKeeps.next
    | with_reducible assumption
    | with_reducible apply State.raiseF_keeps
    | with_reducible apply State.setF_keeps
    | with_reducible apply State.Keeps.ite

theorem execPdieFoldback_keeps {qz : List Instr} (d : Fin 2) (s : State) (hs : s.Keeps qz) :
    OutKeeps qz (execPdieFoldback d s) := by
  unfold execPdieFoldback
  repeat' first
    | with_reducible apply OutKeeps.next
    | with_reducible assumption
    | with_reducible apply State.raiseF_keeps
    | with_reducible apply State.setF_keeps
    | with_reducible apply State.Keeps.ite

theorem execPdieShutdown_keeps {qz : List Instr} (d : Fin 2) (s : State) (hs : s.Keeps qz) :
    OutKeeps qz (execPdieShutdown d s) := by
  unfold execPdieShutdown
  repeat' first
    | with_reducible apply OutKeeps.next
    | with_reducible assumption
    | with_reducible apply State.hiZAll_keeps
    | with_reducible apply State.raiseF_keeps
    | with_reducible apply State.setF_keeps
    | with_reducible apply State.Keeps.ite

theorem execPdieThermalRecover_keeps {qz : List Instr} (d : Fin 2) (s : State) (hs : s.Keeps qz) :
    OutKeeps qz (execPdieThermalRecover d s) := by
  unfold execPdieThermalRecover
  repeat' first
    | with_reducible apply OutKeeps.next
    | with_reducible assumption
    | with_reducible apply State.resumeAll_keeps
    | with_reducible apply State.setF_keeps
    | with_reducible apply State.Keeps.ite

theorem execPdieCooling_keeps {qz : List Instr} (d : Fin 2) (temp : Int) (s : State) (hs : s.Keeps qz) :
    OutKeeps qz (execPdieCooling d temp s) := by
  unfold execPdieCooling
  repeat' first
    | with_reducible apply OutKeeps.next
    | with_reducible assumption
    | with_reducible apply State.setF_keeps
    | with_reducible apply State.Keeps.ite

theorem State.foldBlock_keeps {qz : List Instr} (s : State) (d : Nat) (hs : s.Keeps qz) :
    State.Keeps qz (State.foldBlock s d) := by
  unfold State.foldBlock
  repeat' first
    | with_reducible assumption
    | with_reducible apply State.modOutputs_keeps
    | with_reducible apply State.setF_keeps
    | with_reducible apply State.Keeps.ite
    | with_reducible rfl

theorem State.pvddBad_keeps {qz : List Instr} (s : State) (rail : Nat) (ov : Nat) (hs : s.Keeps qz) :
    State.Keeps qz (State.pvddBad s rail ov) := by
  unfold State.pvddBad
  repeat' first
    | with_reducible assumption
    | with_reducible apply State.hiZAll_keeps
    | with_reducible apply State.raiseF_keeps
    | with_reducible apply State.setBit_keeps
    | with_reducible apply State.Keeps.ite

theorem execPvddUnder_keeps {qz : List Instr} (rail : Fin 2) (s : State) (hs : s.Keeps qz) :
    OutKeeps qz (execPvddUnder rail s) := by
  unfold execPvddUnder
  repeat' first
    | with_reducible apply OutKeeps.next
    | with_reducible assumption
    | with_reducible apply State.pvddBad_keeps

theorem execPvddOver_keeps {qz : List Instr} (rail : Fin 2) (s : State) (hs : s.Keeps qz) :
    OutKeeps qz (execPvddOver rail s) := by
  unfold execPvddOver
  repeat' first
    | with_reducible apply OutKeeps.next
    | with_reducible assumption
    | with_reducible apply State.pvddBad_keeps

theorem execPvddOk_keeps {qz : List Instr} (rail : Fin 2) (s : State) (hs : s.Keeps qz) :
    OutKeeps qz (execPvddOk rail s) := by
  unfold execPvddOk
  repeat' first
    | with_reducible apply OutKeeps.next
    | with_reducible assumption
    | with_reducible apply State.raiseF_keeps
    | with_reducible apply State.resumeAll_keeps
    | with_reducible apply State.setBit_keeps
    | with_reducible apply State.Keeps.ite

theorem State.calBegin_keeps {qz : List Instr} (s : State) (id : DescId) (m : Nat) (k : Nat) (hs : s.Keeps qz) :
    State.Keeps qz (State.calBegin s id m k) := by
  unfold State.calBegin
  repeat' first
    | with_reducible assumption
    | with_reducible apply State.finishBad_keeps
    | with_reducible apply State.modOut_keeps
    | with_reducible apply State.servoShow_keeps
    | with_reducible apply State.setCh_keeps
    | with_reducible apply State.Keeps.ite

theorem execOffsetCalDone_keeps {qz : List Instr} (m : Fin 8) (trim : BitVec 16) (s : State) (hs : s.Keeps qz) :
    OutKeeps qz (execOffsetCalDone m trim s) := by
  unfold execOffsetCalDone
  repeat' first
    | with_reducible apply OutKeeps.next
    | with_reducible assumption
    | with_reducible apply State.finish_keeps
    | with_reducible apply State.modOut_keeps
    | with_reducible apply State.servoShow_keeps
    | with_reducible apply State.setCh_keeps
    | with_reducible apply State.setF_keeps
    | with_reducible apply State.sinksReady_keeps
    | with_reducible apply State.Keeps.ite
    | split

theorem execExtReady_keeps {qz : List Instr} (e : Fin 8) (s : State) (hs : s.Keeps qz) :
    OutKeeps qz (execExtReady e s) := by
  unfold execExtReady
  repeat' first
    | with_reducible apply OutKeeps.next
    | with_reducible assumption
    | with_reducible apply State.enterReady_keeps
    | with_reducible apply State.Keeps.ite

theorem execExtFault_keeps {qz : List Instr} (e : Fin 8) (s : State) (hs : s.Keeps qz) :
    OutKeeps qz (execExtFault e s) := by
  unfold execExtFault
  repeat' first
    | with_reducible apply OutKeeps.next
    | with_reducible assumption
    | with_reducible apply State.raiseF_keeps
    | with_reducible apply State.setF_keeps
    | with_reducible apply State.trip_keeps
    | with_reducible apply State.Keeps.ite

theorem State.powerBlock_keeps {qz : List Instr} (s : State) (m : Nat) (p : Nat) (hs : s.Keeps qz) :
    State.Keeps qz (State.powerBlock s m p) := by
  unfold State.powerBlock
  repeat' first
    | with_reducible assumption
    | with_reducible apply State.modOut_keeps
    | with_reducible apply State.raiseLimited_keeps
    | with_reducible apply State.setF_keeps
    | with_reducible apply State.Keeps.ite

theorem State.powerAll_keeps {qz : List Instr} (ps : List Nat)  : ∀ (x0 : List Nat) (x1 : State),
    x1.Keeps qz → State.Keeps qz (State.powerAll ps x0 x1) := by
  intro x0 x1
  fun_induction State.powerAll ps x0 x1
  all_goals repeat' first
    | intro _
    | with_reducible assumption
    | with_reducible apply State.powerBlock_keeps
    | with_reducible apply State.Keeps.ite
    | with_reducible apply_assumption

theorem State.park_keeps {qz : List Instr}   : ∀ (x0 : List Nat) (x1 : State),
    x1.Keeps qz → State.Keeps qz (State.park x0 x1) := by
  intro x0 x1
  fun_induction State.park x0 x1
  all_goals repeat' first
    | intro _
    | with_reducible assumption
    | with_reducible apply State.calEnd_keeps
    | with_reducible apply State.servoShow_keeps
    | with_reducible apply State.setCh_keeps
    | with_reducible apply State.Keeps.ite
    | with_reducible apply_assumption

theorem State.unpark_keeps {qz : List Instr}   : ∀ (x0 : List Nat) (x1 : State),
    x1.Keeps qz → State.Keeps qz (State.unpark x0 x1) := by
  intro x0 x1
  fun_induction State.unpark x0 x1
  all_goals repeat' first
    | intro _
    | with_reducible assumption
    | with_reducible apply State.servoShow_keeps
    | with_reducible apply State.setCh_keeps
    | with_reducible apply State.sinksReady_keeps
    | with_reducible apply State.Keeps.ite
    | with_reducible apply_assumption

theorem State.setLo_keeps {qz : List Instr} (s : State) (j : Nat) (p : LoPhase) (hs : s.Keeps qz) :
    State.Keeps qz (State.setLo s j p) := by
  unfold State.setLo
  repeat' first
    | with_reducible assumption
    | with_reducible apply State.modOutputs_keeps
    | with_reducible rfl

theorem execLoEnable_keeps {qz : List Instr} (j : Fin 5) (s : State) (hs : s.Keeps qz) :
    OutKeeps qz (execLoEnable j s) := by
  unfold execLoEnable
  repeat' first
    | with_reducible apply OutKeeps.next
    | with_reducible assumption
    | with_reducible apply State.setF_keeps
    | with_reducible apply State.setLo_keeps
    | with_reducible apply State.Keeps.ite
    | split

theorem execLoReady_keeps {qz : List Instr} (j : Fin 5) (s : State) (hs : s.Keeps qz) :
    OutKeeps qz (execLoReady j s) := by
  unfold execLoReady
  repeat' first
    | with_reducible apply OutKeeps.next
    | with_reducible assumption
    | with_reducible apply State.setF_keeps
    | with_reducible apply State.setLo_keeps
    | with_reducible apply State.sinksReady_keeps
    | with_reducible apply State.Keeps.ite
    | split

theorem execLoOvercurrent_keeps {qz : List Instr} (j : Fin 4) (s : State) (hs : s.Keeps qz) :
    OutKeeps qz (execLoOvercurrent j s) := by
  unfold execLoOvercurrent
  repeat' first
    | with_reducible apply OutKeeps.next
    | with_reducible assumption
    | with_reducible apply State.raiseF_keeps
    | with_reducible apply State.setF_keeps

theorem execHpOvercurrent_keeps {qz : List Instr} (s : State) (hs : s.Keeps qz) :
    OutKeeps qz (execHpOvercurrent s) := by
  unfold execHpOvercurrent
  repeat' first
    | with_reducible apply OutKeeps.next
    | with_reducible assumption
    | with_reducible apply State.raiseF_keeps
    | with_reducible apply State.setF_keeps

theorem State.hpClass_keeps {qz : List Instr} (s : State) (cls : Nat) (hs : s.Keeps qz) :
    State.Keeps qz (State.hpClass s cls) := by
  unfold State.hpClass
  repeat' first
    | with_reducible assumption
    | with_reducible apply State.modOutputs_keeps
    | with_reducible apply State.raiseF_keeps
    | with_reducible apply State.setF_keeps
    | with_reducible apply State.stagePreset_keeps
    | with_reducible apply State.Keeps.ite
    | with_reducible rfl
    | split

theorem execHpJackInsert_keeps {qz : List Instr} (s : State) (hs : s.Keeps qz) :
    OutKeeps qz (execHpJackInsert s) := by
  unfold execHpJackInsert
  repeat' first
    | with_reducible apply OutKeeps.next
    | with_reducible assumption
    | with_reducible apply State.hpClass_keeps
    | with_reducible apply State.modOutputs_keeps
    | with_reducible apply State.setF_keeps
    | with_reducible apply State.Keeps.ite
    | with_reducible rfl

theorem execHpProbeDone_keeps {qz : List Instr} (zl : Nat) (zr : Nat) (s : State) (hs : s.Keeps qz) :
    OutKeeps qz (execHpProbeDone zl zr s) := by
  unfold execHpProbeDone
  repeat' first
    | with_reducible apply OutKeeps.next
    | with_reducible assumption
    | with_reducible apply State.hpClass_keeps
    | with_reducible apply State.setF_keeps
    | with_reducible apply State.Keeps.ite

theorem execHpRemoved_keeps {qz : List Instr} (ts : Nat) (s : State) (hs : s.Keeps qz) :
    OutKeeps qz (execHpRemoved ts s) := by
  unfold execHpRemoved
  repeat' first
    | with_reducible apply OutKeeps.next
    | with_reducible assumption
    | with_reducible apply State.raiseFAt_keeps
    | with_reducible apply State.setAll_keeps
    | with_reducible apply State.setF_keeps
    | with_reducible apply State.stagePreset_keeps
    | with_reducible apply State.Keeps.ite

theorem State.pwrCntClr_keeps {qz : List Instr} (s : State) (hs : s.Keeps qz) :
    State.Keeps qz (State.pwrCntClr s) := by
  unfold State.pwrCntClr
  repeat' first
    | with_reducible assumption
    | with_reducible apply State.zeroAll_keeps

theorem State.diagGo_keeps {qz : List Instr} (s : State) (m : Nat) (hs : s.Keeps qz) :
    State.Keeps qz (State.diagGo s m) := by
  unfold State.diagGo
  repeat' first
    | with_reducible assumption
    | with_reducible apply State.injectLoad_keeps
    | with_reducible apply State.modOut_keeps
    | with_reducible apply State.setCh_keeps
    | with_reducible apply State.Keeps.ite

theorem State.parWritten_keeps {qz : List Instr}   : ∀ (x0 : List Nat) (x1 : State),
    x1.Keeps qz → State.Keeps qz (State.parWritten x0 x1) := by
  intro x0 x1
  fun_induction State.parWritten x0 x1
  all_goals repeat' first
    | intro _
    | with_reducible assumption
    | with_reducible apply State.setCh_keeps
    | with_reducible apply State.Keeps.ite
    | with_reducible apply_assumption

end Sys2Proof.Machine
end

