-- ==== Sys2Proof/Laws/KeepsTether.lean ====
section
/-!
SUPPORT. What the definitions of Machine/Tether.lean keep.
-/
namespace Sys2Proof.Machine

theorem State.setNode_keeps {qz : List Instr} (s : State) (i : Nat) (x : NodeX) (hs : s.Keeps qz) :
    State.Keeps qz (State.setNode s i x) := by
  unfold State.setNode
  repeat' first
    | with_reducible assumption
    | with_reducible apply State.modTth_keeps
    | with_reducible rfl

theorem State.nodeTo_keeps {qz : List Instr} (s : State) (i : Nat) (g : Word) (hs : s.Keeps qz) :
    State.Keeps qz (State.nodeTo s i g) := by
  unfold State.nodeTo
  repeat' first
    | with_reducible assumption
    | with_reducible apply State.setNode_keeps

theorem State.nodesTo_keeps {qz : List Instr}   : ∀ (x0 : Nat) (x1 : List Word) (x2 : State),
    x2.Keeps qz → State.Keeps qz (State.nodesTo x0 x1 x2) := by
  intro x0 x1 x2
  fun_induction State.nodesTo x0 x1 x2
  all_goals repeat' first
    | intro _
    | with_reducible assumption
    | with_reducible apply State.nodeTo_keeps
    | with_reducible apply_assumption

theorem State.rateWritten_keeps {qz : List Instr} (s : State) (old : Nat) (hs : s.Keeps qz) :
    State.Keeps qz (State.rateWritten s old) := by
  unfold State.rateWritten
  repeat' first
    | with_reducible assumption
    | with_reducible apply State.modTth_keeps
    | with_reducible rfl

theorem State.gwinNext_keeps {qz : List Instr} (s : State) (hs : s.Keeps qz) :
    State.Keeps qz (State.gwinNext s) := by
  unfold State.gwinNext
  repeat' first
    | with_reducible assumption
    | with_reducible apply State.setF_keeps
    | with_reducible apply State.Keeps.ite

theorem State.gwinWrite_keeps {qz : List Instr} (s : State) (v : Word) (hs : s.Keeps qz) :
    State.Keeps qz (State.gwinWrite s v) := by
  unfold State.gwinWrite
  repeat' first
    | with_reducible assumption
    | with_reducible apply State.gwinNext_keeps
    | with_reducible apply State.nodeTo_keeps

theorem State.modTthOut_keeps {qz : List Instr} (s : State) (o : Nat) (f : TthOut → TthOut) (hs : s.Keeps qz) :
    State.Keeps qz (State.modTthOut s o f) := by
  unfold State.modTthOut
  repeat' first
    | with_reducible assumption
    | with_reducible apply State.modTth_keeps
    | with_reducible rfl
    | (first | exact List.length_modify .. | exact List.length_set .. | exact List.length_map ..)

theorem State.fadeOut_keeps {qz : List Instr} (s : State) (o : Nat) (samples : Nat) (hs : s.Keeps qz) :
    State.Keeps qz (State.fadeOut s o samples) := by
  unfold State.fadeOut
  repeat' first
    | with_reducible assumption
    | with_reducible apply State.modTthOut_keeps

theorem State.transBegin_keeps {qz : List Instr} (s : State) (new : Mode) (cause : Nat) (hs : s.Keeps qz) :
    State.Keeps qz (State.transBegin s new cause) := by
  unfold State.transBegin
  repeat' first
    | with_reducible assumption
    | with_reducible apply State.modPower_keeps
    | with_reducible apply State.setF_keeps

theorem State.transEnd_keeps {qz : List Instr} (s : State) (m : Mode) (hs : s.Keeps qz) :
    State.Keeps qz (State.transEnd s m) := by
  unfold State.transEnd
  repeat' first
    | with_reducible assumption
    | with_reducible apply State.modPower_keeps
    | with_reducible apply State.setF_keeps

theorem State.quietAbandon_keeps {qz : List Instr} (s : State) (hs : s.Keeps qz) :
    State.Keeps qz (State.quietAbandon s) := by
  unfold State.quietAbandon
  repeat' first
    | with_reducible assumption
    | with_reducible apply State.modMp_keeps
    | with_reducible apply State.transEnd_keeps
    | with_reducible apply State.Keeps.ite

theorem State.quietTrigger_keeps {qz : List Instr} (s : State) (cause : Nat) (hs : s.Keeps qz) :
    State.Keeps qz (State.quietTrigger s cause) := by
  unfold State.quietTrigger
  repeat' first
    | with_reducible assumption
    | with_reducible apply State.modMp_keeps
    | with_reducible apply State.quietAbandon_keeps
    | with_reducible apply State.transBegin_keeps
    | with_reducible apply State.Keeps.ite

theorem State.modeEvents_keeps {qz : List Instr} (s : State) (o : Nat) (old : Nat) (new : Nat) (ts : Nat) (hs : s.Keeps qz) :
    State.Keeps qz (State.modeEvents s o old new ts) := by
  unfold State.modeEvents
  repeat' first
    | with_reducible assumption
    | with_reducible apply State.raiseFAt_keeps
    | with_reducible apply State.Keeps.ite

theorem State.modeShow_keeps {qz : List Instr} (s : State) (ts : Nat) (o : Nat) (hs : s.Keeps qz) :
    State.Keeps qz (State.modeShow s ts o) := by
  unfold State.modeShow
  repeat' first
    | with_reducible assumption
    | with_reducible apply State.calAbort_keeps
    | with_reducible apply State.fadeOut_keeps
    | with_reducible apply State.quietTrigger_keeps
    | with_reducible apply State.modeEvents_keeps
    | with_reducible apply State.servoShow_keeps
    | with_reducible apply State.setF_keeps
    | with_reducible apply State.Keeps.ite

theorem State.modesShow_keeps {qz : List Instr} (ts : Nat)  : ∀ (x0 : List Nat) (x1 : State),
    x1.Keeps qz → State.Keeps qz (State.modesShow ts x0 x1) := by
  intro x0 x1
  fun_induction State.modesShow ts x0 x1
  all_goals repeat' first
    | intro _
    | with_reducible assumption
    | with_reducible apply State.modeShow_keeps
    | with_reducible apply_assumption

theorem State.baseModeIn_keeps {qz : List Instr} (s : State) (o : Nat) (old : Nat) (hs : s.Keeps qz) :
    State.Keeps qz (State.baseModeIn s o old) := by
  unfold State.baseModeIn
  repeat' first
    | with_reducible assumption
    | with_reducible apply State.modTth_keeps
    | with_reducible apply State.servoShow_keeps
    | with_reducible apply State.setF_keeps
    | with_reducible apply State.Keeps.ite
    | with_reducible rfl

theorem State.outCfgCommit_keeps {qz : List Instr} (s : State) (o : Nat) (old : Nat) (k : Nat) (hs : s.Keeps qz) :
    State.Keeps qz (State.outCfgCommit s o old k) := by
  unfold State.outCfgCommit
  repeat' first
    | with_reducible assumption
    | with_reducible apply State.baseModeIn_keeps
    | with_reducible apply State.modeShow_keeps

theorem State.setModes_keeps {qz : List Instr} (m : Nat) (k : Nat)  : ∀ (x0 : List Nat) (x1 : State),
    x1.Keeps qz → State.Keeps qz (State.setModes m k x0 x1) := by
  intro x0 x1
  fun_induction State.setModes m k x0 x1
  all_goals repeat' first
    | intro _
    | with_reducible assumption
    | with_reducible apply State.outCfgCommit_keeps
    | with_reducible apply State.setF_keeps
    | with_reducible apply_assumption

theorem State.tlog_keeps {qz : List Instr} (s : State) (code : Nat) (mask : Nat) (hs : s.Keeps qz) :
    State.Keeps qz (State.tlog s code mask) := by
  unfold State.tlog
  repeat' first
    | with_reducible assumption
    | with_reducible apply State.incWrap_keeps
    | with_reducible apply State.wr_keeps

theorem State.testAbort_keeps {qz : List Instr} (s : State) (hs : s.Keeps qz) :
    State.Keeps qz (State.testAbort s) := by
  unfold State.testAbort
  repeat' first
    | with_reducible assumption
    | with_reducible apply State.finishBad_keeps
    | with_reducible apply State.modTth_keeps
    | with_reducible apply State.setF_keeps
    | with_reducible rfl
    | dsimp only
    | split

theorem State.setCause_keeps {qz : List Instr} (bit : Nat) (code : Nat)  : ∀ (x0 : List Nat) (x1 : State),
    x1.Keeps qz → State.Keeps qz (State.setCause bit code x0 x1) := by
  intro x0 x1
  fun_induction State.setCause bit code x0 x1
  all_goals repeat' first
    | intro _
    | with_reducible assumption
    | with_reducible apply State.modTthOut_keeps
    | with_reducible apply State.setBit_keeps
    | with_reducible apply State.setF_keeps
    | with_reducible apply State.Keeps.ite
    | with_reducible apply_assumption

theorem State.latchCause_keeps {qz : List Instr} (s : State) (bit : Nat) (mask : Nat) (ts : Nat) (hs : s.Keeps qz) :
    State.Keeps qz (State.latchCause s bit mask ts) := by
  unfold State.latchCause
  repeat' first
    | intro _
    | with_reducible assumption
    | with_reducible apply State.fadeOut_keeps
    | with_reducible apply State.modesShow_keeps
    | with_reducible apply State.setCause_keeps
    | with_reducible apply State.testAbort_keeps
    | with_reducible apply State.tlog_keeps
    | with_reducible apply State.Keeps.ite
    | with_reducible apply State.Keeps.foldl

theorem State.setPsrc_keeps {qz : List Instr} (src : Nat) (b : Bool)  : ∀ (x0 : List Nat) (x1 : State),
    x1.Keeps qz → State.Keeps qz (State.setPsrc src b x0 x1) := by
  intro x0 x1
  fun_induction State.setPsrc src b x0 x1
  all_goals repeat' first
    | intro _
    | with_reducible assumption
    | with_reducible apply State.setBit_keeps
    | with_reducible apply_assumption

theorem State.modPlayer_keeps {qz : List Instr} (s : State) (f : PlayerX → PlayerX) (hs : s.Keeps qz) :
    State.Keeps qz (State.modPlayer s f) := by
  unfold State.modPlayer
  repeat' first
    | with_reducible assumption
    | with_reducible apply State.modTth_keeps
    | with_reducible rfl

theorem State.playNext_keeps {qz : List Instr}   : ∀ (x0 : Nat) (x1 : State),
    x1.Keeps qz → State.Keeps qz (State.playNext x0 x1) := by
  intro x0 x1
  fun_induction State.playNext x0 x1
  all_goals repeat' first
    | intro _
    | with_reducible assumption
    | with_reducible apply State.incSat_keeps
    | with_reducible apply State.modPlayer_keeps
    | with_reducible apply State.raiseF_keeps
    | with_reducible apply State.setF_keeps
    | with_reducible apply_assumption

theorem State.playQueue_keeps {qz : List Instr} (s : State) (q : PlayReq) (hs : s.Keeps qz) :
    State.Keeps qz (State.playQueue s q) := by
  unfold State.playQueue
  repeat' first
    | with_reducible assumption
    | with_reducible apply State.modPlayer_keeps
    | with_reducible apply State.playNext_keeps
    | with_reducible apply State.Keeps.ite

theorem State.playStop_keeps {qz : List Instr} (s : State) (hs : s.Keeps qz) :
    State.Keeps qz (State.playStop s) := by
  unfold State.playStop
  repeat' first
    | with_reducible assumption
    | with_reducible apply State.modPlayer_keeps
    | with_reducible apply State.setF_keeps
    | dsimp only
    | split

theorem State.autoPlay_keeps {qz : List Instr} (s : State) (src : Nat) (hs : s.Keeps qz) :
    State.Keeps qz (State.autoPlay s src) := by
  unfold State.autoPlay
  repeat' first
    | with_reducible assumption
    | with_reducible apply State.modPlayer_keeps
    | with_reducible apply State.playQueue_keeps
    | with_reducible apply State.playStop_keeps
    | with_reducible apply State.Keeps.ite

theorem State.autoStop_keeps {qz : List Instr} (s : State) (src : Nat) (hs : s.Keeps qz) :
    State.Keeps qz (State.autoStop s src) := by
  unfold State.autoStop
  repeat' first
    | with_reducible assumption
    | with_reducible apply State.playStop_keeps
    | with_reducible apply State.Keeps.ite

theorem State.prioSet_keeps {qz : List Instr} (s : State) (src : Nat) (mask : Nat) (ts : Nat) (hs : s.Keeps qz) :
    State.Keeps qz (State.prioSet s src mask ts) := by
  unfold State.prioSet
  repeat' first
    | with_reducible assumption
    | with_reducible apply State.autoPlay_keeps
    | with_reducible apply State.modesShow_keeps
    | with_reducible apply State.setPsrc_keeps
    | with_reducible apply State.testAbort_keeps
    | with_reducible apply State.tlog_keeps
    | with_reducible apply State.Keeps.ite

theorem State.prioClear_keeps {qz : List Instr} (s : State) (src : Nat) (mask : Nat) (ts : Nat) (hs : s.Keeps qz) :
    State.Keeps qz (State.prioClear s src mask ts) := by
  unfold State.prioClear
  repeat' first
    | with_reducible assumption
    | with_reducible apply State.autoStop_keeps
    | with_reducible apply State.modesShow_keeps
    | with_reducible apply State.setPsrc_keeps
    | with_reducible apply State.tlog_keeps
    | with_reducible apply State.Keeps.ite

theorem State.clearCauses_keeps {qz : List Instr} (s : State) (mask : Nat) (ts : Nat) (hs : s.Keeps qz) :
    State.Keeps qz (State.clearCauses s mask ts) := by
  unfold State.clearCauses
  repeat' first
    | intro _
    | with_reducible assumption
    | with_reducible apply State.modesShow_keeps
    | with_reducible apply State.setF_keeps
    | with_reducible apply State.tlog_keeps
    | with_reducible apply State.raiseFAt_keeps
    | with_reducible apply State.Keeps.ite
    | with_reducible apply State.Keeps.foldl

theorem State.modeCommand_keeps {qz : List Instr} (s : State) (mask : Nat) (code : Nat) (k : Nat) (hs : s.Keeps qz) :
    State.Keeps qz (State.modeCommand s mask code k).2 := by
  unfold State.modeCommand
  repeat' first
    | with_reducible assumption
    | with_reducible apply State.clearCauses_keeps
    | with_reducible apply State.latchCause_keeps
    | with_reducible apply State.prioClear_keeps
    | with_reducible apply State.prioSet_keeps
    | with_reducible apply State.setModes_keeps
    | with_reducible apply State.Keeps.ite_snd
    | split

theorem State.voteCapture_keeps {qz : List Instr} (s : State) (o : Nat) (w : Fin 3 → BitVec 24) (hs : s.Keeps qz) :
    State.Keeps qz (State.voteCapture s o w) := by
  unfold State.voteCapture
  repeat' first
    | with_reducible assumption
    | with_reducible apply State.wr_keeps

theorem State.tthFault_keeps {qz : List Instr} (s : State) (o : Nat) (hs : s.Keeps qz) :
    State.Keeps qz (State.tthFault s o) := by
  unfold State.tthFault
  repeat' first
    | with_reducible assumption
    | with_reducible apply State.incSat_keeps
    | with_reducible apply State.raiseF_keeps
    | with_reducible apply State.setF_keeps
    | with_reducible apply State.tlog_keeps
    | with_reducible apply State.Keeps.ite

theorem State.tthClrFault_keeps {qz : List Instr} (s : State) (o : Nat) (hs : s.Keeps qz) :
    State.Keeps qz (State.tthClrFault s o) := by
  unfold State.tthClrFault
  repeat' first
    | with_reducible assumption
    | with_reducible apply State.fadeOut_keeps
    | with_reducible apply State.setF_keeps
    | with_reducible apply State.Keeps.ite

theorem State.tthClrFaults_keeps {qz : List Instr}   : ∀ (x0 : List Nat) (x1 : State),
    x1.Keeps qz → State.Keeps qz (State.tthClrFaults x0 x1) := by
  intro x0 x1
  fun_induction State.tthClrFaults x0 x1
  all_goals repeat' first
    | intro _
    | with_reducible assumption
    | with_reducible apply State.tthClrFault_keeps
    | with_reducible apply_assumption

theorem execTetherScrub_keeps {qz : List Instr} (set_ : Fin 3) (node : Fin 384) (f : NodeFind) (s : State) (hs : s.Keeps qz) :
    OutKeeps qz (execTetherScrub set_ node f s) := by
  unfold execTetherScrub
  repeat' first
    | with_reducible apply OutKeeps.next
    | with_reducible assumption
    | with_reducible apply State.incSat_keeps
    | with_reducible apply State.setF_keeps
    | with_reducible apply State.tthFault_keeps
    | split

theorem execTetherVoteMasked_keeps {qz : List Instr} (o : Fin 24) (w0 : BitVec 24) (w1 : BitVec 24) (w2 : BitVec 24) (s : State) (hs : s.Keeps qz) :
    OutKeeps qz (execTetherVoteMasked o w0 w1 w2 s) := by
  unfold execTetherVoteMasked
  repeat' first
    | with_reducible apply OutKeeps.next
    | with_reducible assumption
    | with_reducible apply State.incSat_keeps
    | with_reducible apply State.raiseFLimited_keeps
    | with_reducible apply State.voteCapture_keeps
    | with_reducible apply State.Keeps.ite

theorem execTetherFault_keeps {qz : List Instr} (o : Fin 24) (w0 : BitVec 24) (w1 : BitVec 24) (w2 : BitVec 24) (s : State) (hs : s.Keeps qz) :
    OutKeeps qz (execTetherFault o w0 w1 w2 s) := by
  unfold execTetherFault
  repeat' first
    | with_reducible apply OutKeeps.next
    | with_reducible assumption
    | with_reducible apply State.tthFault_keeps
    | with_reducible apply State.voteCapture_keeps
    | with_reducible apply State.Keeps.ite

theorem execTakeoverRequest_keeps {qz : List Instr} (s : State) (hs : s.Keeps qz) :
    OutKeeps qz (execTakeoverRequest s) := by
  unfold execTakeoverRequest
  repeat' first
    | with_reducible apply OutKeeps.next
    | with_reducible assumption
    | with_reducible apply State.latchCause_keeps
    | with_reducible apply State.modTth_keeps
    | with_reducible apply State.Keeps.ite
    | with_reducible rfl
    | split

theorem execMessageFrameDecode_keeps {qz : List Instr} (s : State) (hs : s.Keeps qz) :
    OutKeeps qz (execMessageFrameDecode s) := by
  unfold execMessageFrameDecode
  repeat' first
    | with_reducible apply OutKeeps.next
    | with_reducible assumption
    | with_reducible apply State.incSat_keeps
    | with_reducible apply State.modPlayer_keeps
    | with_reducible apply State.raiseF_keeps
    | with_reducible apply State.Keeps.ite

theorem execMessageEnd_keeps {qz : List Instr} (s : State) (hs : s.Keeps qz) :
    OutKeeps qz (execMessageEnd s) := by
  unfold execMessageEnd
  repeat' first
    | with_reducible apply OutKeeps.next
    | with_reducible assumption
    | with_reducible apply State.incSat_keeps
    | with_reducible apply State.modPlayer_keeps
    | with_reducible apply State.raiseF_keeps
    | with_reducible apply State.setF_keeps
    | with_reducible apply State.Keeps.ite

theorem execMessageGapEnd_keeps {qz : List Instr} (s : State) (hs : s.Keeps qz) :
    OutKeeps qz (execMessageGapEnd s) := by
  unfold execMessageGapEnd
  repeat' first
    | with_reducible apply OutKeeps.next
    | with_reducible assumption
    | with_reducible apply State.modPlayer_keeps
    | with_reducible apply State.playNext_keeps
    | with_reducible apply State.raiseF_keeps
    | with_reducible apply State.setF_keeps
    | with_reducible apply State.Keeps.ite
    | split

theorem execMessageStopFadeEnd_keeps {qz : List Instr} (s : State) (hs : s.Keeps qz) :
    OutKeeps qz (execMessageStopFadeEnd s) := by
  unfold execMessageStopFadeEnd
  repeat' first
    | with_reducible apply OutKeeps.next
    | with_reducible assumption
    | with_reducible apply State.modPlayer_keeps
    | with_reducible apply State.raiseF_keeps
    | with_reducible apply State.setF_keeps
    | with_reducible apply State.Keeps.ite

theorem execPsapLock_keeps {qz : List Instr} (s : State) (hs : s.Keeps qz) :
    OutKeeps qz (execPsapLock s) := by
  unfold execPsapLock
  repeat' first
    | with_reducible apply OutKeeps.next
    | with_reducible assumption
    | with_reducible apply State.setF_keeps
    | with_reducible apply State.Keeps.ite

theorem execServoOpen_keeps {qz : List Instr} (m : Fin 8) (s : State) (hs : s.Keeps qz) :
    OutKeeps qz (execServoOpen m s) := by
  unfold execServoOpen
  repeat' first
    | with_reducible apply OutKeeps.next
    | with_reducible assumption
    | with_reducible apply State.incSat_keeps
    | with_reducible apply State.modTth_keeps
    | with_reducible apply State.raiseF_keeps
    | with_reducible apply State.servoShow_keeps
    | with_reducible apply State.setF_keeps
    | with_reducible apply State.Keeps.ite
    | with_reducible rfl

theorem State.servoClose_keeps {qz : List Instr} (s : State) (m : Nat) (hs : s.Keeps qz) :
    State.Keeps qz (State.servoClose s m) := by
  unfold State.servoClose
  repeat' first
    | with_reducible assumption
    | with_reducible apply State.modTth_keeps
    | with_reducible apply State.servoShow_keeps
    | with_reducible rfl

theorem execSelftestDone_keeps {qz : List Instr} (failed : BitVec 24) (s : State) (hs : s.Keeps qz) :
    OutKeeps qz (execSelftestDone failed s) := by
  unfold execSelftestDone
  repeat' first
    | with_reducible apply OutKeeps.next
    | with_reducible assumption
    | with_reducible apply State.finish_keeps
    | with_reducible apply State.modTth_keeps
    | with_reducible apply State.setF_keeps
    | with_reducible apply State.Keeps.ite
    | with_reducible rfl
    | dsimp only
    | split

theorem State.selftestBegin_keeps {qz : List Instr} (s : State) (id : DescId) (k : Nat) (hs : s.Keeps qz) :
    State.Keeps qz (State.selftestBegin s id k) := by
  unfold State.selftestBegin
  repeat' first
    | with_reducible assumption
    | with_reducible apply State.finishBad_keeps
    | with_reducible apply State.modTth_keeps
    | with_reducible apply State.setF_keeps
    | with_reducible apply State.Keeps.ite
    | with_reducible rfl

theorem State.tthCntClr_keeps {qz : List Instr} (s : State) (hs : s.Keeps qz) :
    State.Keeps qz (State.tthCntClr s) := by
  unfold State.tthCntClr
  repeat' first
    | with_reducible assumption
    | with_reducible apply State.zeroAll_keeps

theorem State.playGo_keeps {qz : List Instr} (s : State) (msg : Nat) (rep : Nat) (hs : s.Keeps qz) :
    State.Keeps qz (State.playGo s msg rep) := by
  unfold State.playGo
  repeat' first
    | with_reducible assumption
    | with_reducible apply State.playQueue_keeps
    | with_reducible apply State.setF_keeps
    | with_reducible apply State.Keeps.ite

theorem State.toneRestart_keeps {qz : List Instr} (s : State) (hs : s.Keeps qz) :
    State.Keeps qz (State.toneRestart s) := by
  unfold State.toneRestart
  repeat' first
    | with_reducible assumption
    | with_reducible apply State.modTth_keeps
    | with_reducible rfl

theorem State.mainMute_keeps {qz : List Instr}   : ∀ (x0 : List Nat) (x1 : State),
    x1.Keeps qz → State.Keeps qz (State.mainMute x0 x1) := by
  intro x0 x1
  fun_induction State.mainMute x0 x1
  all_goals repeat' first
    | intro _
    | with_reducible assumption
    | with_reducible apply State.setF_keeps
    | with_reducible apply State.Keeps.ite
    | with_reducible apply_assumption

theorem State.tthLinkLost_keeps {qz : List Instr} (s : State) (hs : s.Keeps qz) :
    State.Keeps qz (State.tthLinkLost s) := by
  unfold State.tthLinkLost
  repeat' first
    | with_reducible assumption
    | with_reducible apply State.latchCause_keeps
    | with_reducible apply State.mainMute_keeps
    | with_reducible apply State.setF_keeps
    | with_reducible apply State.Keeps.ite

theorem State.tthLinkBack_keeps {qz : List Instr} (s : State) (hs : s.Keeps qz) :
    State.Keeps qz (State.tthLinkBack s) := by
  unfold State.tthLinkBack
  repeat' first
    | with_reducible assumption
    | with_reducible apply State.setAll_keeps
    | with_reducible apply State.setF_keeps

end Sys2Proof.Machine
end

