-- ==== Sys2Proof/Laws/KeepsModes.lean ====
section
/-!
SUPPORT. What the definitions of Machine/Modes.lean keep.
-/
namespace Sys2Proof.Machine

theorem State.histEntry_keeps {qz : List Instr} (s : State) (old : Mode) (new : Mode) (cause : Nat) (hs : s.Keeps qz) :
    State.Keeps qz (State.histEntry s old new cause) := by
  unfold State.histEntry
  repeat' first
    | with_reducible assumption
    | with_reducible apply State.incWrap_keeps
    | with_reducible apply State.wr_keeps

theorem State.modeChangedEvent_keeps {qz : List Instr} (s : State) (old : Mode) (new : Mode) (cause : Nat) (hs : s.Keeps qz) :
    State.Keeps qz (State.modeChangedEvent s old new cause) := by
  unfold State.modeChangedEvent
  repeat' first
    | with_reducible assumption
    | with_reducible apply State.raise_keeps

theorem State.railsShow_keeps {qz : List Instr}   : ∀ (x0 : List Nat) (x1 : State),
    x1.Keeps qz → State.Keeps qz (State.railsShow x0 x1) := by
  intro x0 x1
  fun_induction State.railsShow x0 x1
  all_goals repeat' first
    | intro _
    | with_reducible assumption
    | with_reducible apply State.setF_keeps
    | with_reducible apply State.Keeps.ite
    | with_reducible apply_assumption

theorem State.quietBegin_keeps {qz : List Instr} (s : State) (cause : Nat) (hs : s.Keeps qz) :
    State.Keeps qz (State.quietBegin s cause) := by
  unfold State.quietBegin
  repeat' first
    | with_reducible assumption
    | with_reducible apply State.modMp_keeps
    | with_reducible apply State.transBegin_keeps

theorem execQuietRequest_keeps {qz : List Instr} (s : State) (hs : s.Keeps qz) :
    OutKeeps qz (execQuietRequest s) := by
  unfold execQuietRequest
  repeat' first
    | with_reducible apply OutKeeps.next
    | with_reducible assumption
    | with_reducible apply State.quietBegin_keeps
    | with_reducible apply State.Keeps.ite

theorem execQuietEntryAbandon_keeps {qz : List Instr} (s : State) (hs : s.Keeps qz) :
    OutKeeps qz (execQuietEntryAbandon s) := by
  unfold execQuietEntryAbandon
  repeat' first
    | with_reducible apply OutKeeps.next
    | with_reducible assumption
    | with_reducible apply State.quietAbandon_keeps

theorem execQuietEntered_keeps {qz : List Instr} (s : State) (hs : s.Keeps qz) :
    OutKeeps qz (execQuietEntered s) := by
  unfold execQuietEntered
  repeat' first
    | with_reducible apply OutKeeps.next
    | with_reducible assumption
    | with_reducible apply State.histEntry_keeps
    | with_reducible apply State.incSat_keeps
    | with_reducible apply State.modMp_keeps
    | with_reducible apply State.modeChangedEvent_keeps
    | with_reducible apply State.park_keeps
    | with_reducible apply State.raise_keeps
    | with_reducible apply State.setF_keeps
    | with_reducible apply State.transEnd_keeps
    | with_reducible apply State.Keeps.ite
    | dsimp only
    | split

theorem execQuietWake_keeps {qz : List Instr} (host : Bool) (s : State) (hs : s.Keeps qz) :
    OutKeeps qz (execQuietWake host s) := by
  unfold execQuietWake
  repeat' first
    | with_reducible apply OutKeeps.next
    | with_reducible assumption
    | with_reducible apply State.quietTrigger_keeps

theorem execOutReady_keeps {qz : List Instr} (s : State) (hs : s.Keeps qz) :
    OutKeeps qz (execOutReady s) := by
  unfold execOutReady
  repeat' first
    | with_reducible apply OutKeeps.next
    | with_reducible assumption
    | with_reducible apply State.histEntry_keeps
    | with_reducible apply State.modMp_keeps
    | with_reducible apply State.modeChangedEvent_keeps
    | with_reducible apply State.raise_keeps
    | with_reducible apply State.resumeAll_keeps
    | with_reducible apply State.setF_keeps
    | with_reducible apply State.transEnd_keeps
    | with_reducible apply State.unpark_keeps
    | with_reducible apply State.Keeps.ite
    | dsimp only
    | split

theorem State.entryCancel_keeps {qz : List Instr} (s : State) (cause : Nat) (hs : s.Keeps qz) :
    State.Keeps qz (State.entryCancel s cause) := by
  unfold State.entryCancel
  repeat' first
    | with_reducible assumption
    | with_reducible apply State.incSat_keeps
    | with_reducible apply State.modPower_keeps
    | with_reducible apply State.modeChangedEvent_keeps
    | with_reducible apply State.transEnd_keeps
    | with_reducible apply State.unpark_keeps
    | dsimp only
    | split

theorem State.wakeRequest_keeps {qz : List Instr} (s : State) (cause : Nat) (hs : s.Keeps qz) :
    State.Keeps qz (State.wakeRequest s cause) := by
  unfold State.wakeRequest
  repeat' first
    | with_reducible assumption
    | with_reducible apply State.entryCancel_keeps
    | with_reducible apply State.modPower_keeps
    | with_reducible apply State.setF_keeps
    | with_reducible apply State.Keeps.ite

end Sys2Proof.Machine
end

