-- ==== Sys2Proof/Laws/KeepsListener.lean ====
section
/-!
SUPPORT. What the definitions of Machine/Listener.lean keep.
-/
namespace Sys2Proof.Machine

theorem State.decision_keeps {qz : List Instr} (s : State) (kind : Nat) (start : Nat) (startTs : Nat) (frames : Nat) (hs : s.Keeps qz) :
    State.Keeps qz (State.decision s kind start startTs frames) := by
  unfold State.decision
  repeat' first
    | with_reducible assumption
    | with_reducible apply State.prioSet_keeps
    | with_reducible apply State.raiseFAt_keeps
    | with_reducible apply State.setF_keeps
    | with_reducible apply State.wakeRequest_keeps
    | with_reducible apply State.wr_keeps
    | with_reducible apply State.Keeps.ite

theorem State.almFrame_keeps {qz : List Instr} (s : State) (on_ : Bool) (idx : Nat) (ts : Nat) (hs : s.Keeps qz) :
    State.Keeps qz (State.almFrame s on_ idx ts) := by
  unfold State.almFrame
  repeat' first
    | with_reducible assumption
    | with_reducible apply State.decision_keeps
    | with_reducible apply State.modLsn_keeps
    | with_reducible apply State.setF_keeps
    | with_reducible apply State.Keeps.ite

theorem State.glassFrame_keeps {qz : List Instr} (s : State) (f : FrameMeas) (lowFloor : Int) (shFloor : Int) (idx : Nat) (ts : Nat) (hs : s.Keeps qz) :
    State.Keeps qz (State.glassFrame s f lowFloor shFloor idx ts) := by
  unfold State.glassFrame
  repeat' first
    | with_reducible assumption
    | with_reducible apply State.decision_keeps
    | with_reducible apply State.modLsn_keeps
    | with_reducible apply State.setF_keeps
    | with_reducible apply State.Keeps.ite
    | dsimp only
    | split

theorem execDetectorFrame_keeps {qz : List Instr} (f : FrameMeas) (s : State) (hs : s.Keeps qz) :
    OutKeeps qz (execDetectorFrame f s) := by
  unfold execDetectorFrame
  repeat' first
    | with_reducible apply OutKeeps.next
    | with_reducible assumption
    | with_reducible apply State.almFrame_keeps
    | with_reducible apply State.glassFrame_keeps
    | with_reducible apply State.modLsn_keeps
    | with_reducible apply State.setF_keeps
    | with_reducible apply State.wr_keeps
    | with_reducible apply State.Keeps.ite

theorem execLclkCalibrate_keeps {qz : List Instr} (err : BitVec 20) (s : State) (hs : s.Keeps qz) :
    OutKeeps qz (execLclkCalibrate err s) := by
  unfold execLclkCalibrate
  repeat' first
    | with_reducible apply OutKeeps.next
    | with_reducible assumption
    | with_reducible apply State.setF_keeps
    | with_reducible apply State.Keeps.ite

theorem State.switchWindow_keeps {qz : List Instr} (s : State) (idx : Nat) (listenPath : Bool) (hs : s.Keeps qz) :
    State.Keeps qz (State.switchWindow s idx listenPath) := by
  unfold State.switchWindow
  repeat' first
    | with_reducible assumption
    | with_reducible apply State.modLsn_keeps
    | with_reducible apply State.setF_keeps
    | with_reducible apply State.Keeps.ite

theorem State.gatherLost_keeps {qz : List Instr} (s : State) (upTo : Nat) (hs : s.Keeps qz) :
    State.Keeps qz (State.gatherLost s upTo) := by
  unfold State.gatherLost
  repeat' first
    | with_reducible assumption
    | with_reducible apply State.modLsn_keeps
    | with_reducible apply State.raiseF_keeps
    | with_reducible apply State.setF_keeps
    | with_reducible apply State.Keeps.ite
    | split

theorem State.encodeOldest_keeps {qz : List Instr} (s : State) (hs : s.Keeps qz) :
    State.Keeps qz (State.encodeOldest s) := by
  unfold State.encodeOldest
  repeat' first
    | with_reducible assumption
    | with_reducible apply State.gatherLost_keeps
    | with_reducible apply State.modLsn_keeps
    | with_reducible apply State.Keeps.ite
    | dsimp only
    | split

theorem State.gatherPump_keeps {qz : List Instr}   : ∀ (x0 : Nat) (x1 : State),
    x1.Keeps qz → State.Keeps qz (State.gatherPump x0 x1) := by
  intro x0 x1
  fun_induction State.gatherPump x0 x1
  all_goals repeat' first
    | intro _
    | with_reducible assumption
    | with_reducible apply State.modLsn_keeps
    | with_reducible apply State.ringPost_keeps
    | with_reducible apply_assumption

theorem State.gatherEnd_keeps {qz : List Instr} (s : State) (hs : s.Keeps qz) :
    State.Keeps qz (State.gatherEnd s) := by
  unfold State.gatherEnd
  repeat' first
    | with_reducible assumption
    | with_reducible apply State.modLsn_keeps
    | with_reducible apply State.Keeps.ite
    | split

theorem State.gatherStart_keeps {qz : List Instr} (s : State) (fmt : Nat) (hs : s.Keeps qz) :
    State.Keeps qz (State.gatherStart s fmt) := by
  unfold State.gatherStart
  repeat' first
    | with_reducible assumption
    | with_reducible apply State.gatherPump_keeps
    | with_reducible apply State.modLsn_keeps
    | with_reducible apply State.Keeps.ite

theorem State.gatherStop_keeps {qz : List Instr} (s : State) (hs : s.Keeps qz) :
    State.Keeps qz (State.gatherStop s) := by
  unfold State.gatherStop
  repeat' first
    | with_reducible assumption
    | with_reducible apply State.modLsn_keeps

theorem execGatherSegmentComplete_keeps {qz : List Instr} (xs : List (BitVec 16)) (s : State) (hs : s.Keeps qz) :
    OutKeeps qz (execGatherSegmentComplete xs s) := by
  unfold execGatherSegmentComplete
  repeat' first
    | with_reducible apply OutKeeps.next
    | with_reducible assumption
    | with_reducible apply State.encodeOldest_keeps
    | with_reducible apply State.gatherEnd_keeps
    | with_reducible apply State.gatherPump_keeps
    | with_reducible apply State.modLsn_keeps
    | with_reducible apply State.wr_keeps
    | with_reducible apply State.Keeps.ite

theorem State.lsnCfgWritten_keeps {qz : List Instr} (s : State) (old : Bool) (hs : s.Keeps qz) :
    State.Keeps qz (State.lsnCfgWritten s old) := by
  unfold State.lsnCfgWritten
  repeat' first
    | with_reducible assumption
    | with_reducible apply State.modLsn_keeps
    | with_reducible apply State.setF_keeps
    | with_reducible apply State.wr_keeps
    | with_reducible apply State.Keeps.ite

theorem State.almBandWritten_keeps {qz : List Instr} (s : State) (hs : s.Keeps qz) :
    State.Keeps qz (State.almBandWritten s) := by
  unfold State.almBandWritten
  repeat' first
    | with_reducible assumption
    | with_reducible apply State.setF_keeps
    | with_reducible apply State.Keeps.ite

theorem State.lsnDiscard_keeps {qz : List Instr} (s : State) (hs : s.Keeps qz) :
    State.Keeps qz (State.lsnDiscard s) := by
  unfold State.lsnDiscard
  repeat' first
    | with_reducible assumption
    | with_reducible apply State.modLsn_keeps
    | with_reducible apply State.zeroAll_keeps

theorem execPrioBallChange_keeps {qz : List Instr} (active : Bool) (s : State) (hs : s.Keeps qz) :
    OutKeeps qz (execPrioBallChange active s) := by
  unfold execPrioBallChange
  repeat' first
    | with_reducible apply OutKeeps.next
    | with_reducible assumption
    | with_reducible apply State.prioClear_keeps
    | with_reducible apply State.prioSet_keeps
    | with_reducible apply State.setF_keeps
    | with_reducible apply State.wakeRequest_keeps
    | with_reducible apply State.Keeps.ite

end Sys2Proof.Machine
end

