-- ==== Sys2Proof/Laws/KeepsLocks.lean ====
section
/-!
SUPPORT. What the definitions of Machine/Locks.lean keep.
-/
namespace Sys2Proof.Machine

theorem State.modLock_keeps {qz : List Instr} (s : State) (k : Nat) (f : Lock → Lock) (hs : s.Keeps qz) :
    State.Keeps qz (State.modLock s k f) := by
  unfold State.modLock
  repeat' first
    | with_reducible assumption
    | with_reducible apply State.modLocks_keeps
    | (first | exact List.length_modify .. | exact List.length_set .. | exact List.length_map ..)

theorem State.stagedShow_keeps {qz : List Instr} (s : State) (k : Nat) (hs : s.Keeps qz) :
    State.Keeps qz (State.stagedShow s k) := by
  unfold State.stagedShow
  repeat' first
    | with_reducible assumption
    | with_reducible apply State.setF_keeps

theorem State.mapFlights_keeps {qz : List Instr} (s : State) (f : InFlight → InFlight) (hs : s.Keeps qz) :
    State.Keeps qz (State.mapFlights s f) := by
  unfold State.mapFlights
  repeat' first
    | with_reducible assumption
    | with_reducible apply State.modHost_keeps
    | with_reducible rfl
    | (first | exact List.length_modify .. | exact List.length_set .. | exact List.length_map ..)

theorem State.lockFree_keeps {qz : List Instr} (s : State) (k : Nat) (hs : s.Keeps qz) :
    State.Keeps qz (State.lockFree s k) := by
  unfold State.lockFree
  repeat' first
    | with_reducible assumption
    | with_reducible apply State.mapFlights_keeps
    | with_reducible apply State.modLock_keeps
    | with_reducible apply State.setBit_keeps
    | with_reducible apply State.setF_keeps
    | with_reducible apply State.stagedShow_keeps
    | with_reducible apply State.wr_keeps

theorem State.abortAll_keeps {qz : List Instr}   : ∀ (x0 : List DescId) (x1 : State),
    x1.Keeps qz → State.Keeps qz (State.abortAll x0 x1) := by
  intro x0 x1
  fun_induction State.abortAll x0 x1
  all_goals repeat' first
    | intro _
    | with_reducible assumption
    | with_reducible apply State.finishBad_keeps
    | with_reducible apply_assumption

theorem State.lockDrop_keeps {qz : List Instr} (s : State) (k : Nat) (hs : s.Keeps qz) :
    State.Keeps qz (State.lockDrop s k) := by
  unfold State.lockDrop
  repeat' first
    | with_reducible assumption
    | with_reducible apply State.abortAll_keeps
    | with_reducible apply State.lockFree_keeps

theorem State.abandon_keeps {qz : List Instr} (s : State) (k : Nat) (cause : Nat) (hs : s.Keeps qz) :
    State.Keeps qz (State.abandon s k cause) := by
  unfold State.abandon
  repeat' first
    | with_reducible assumption
    | with_reducible apply State.incSat_keeps
    | with_reducible apply State.lockDrop_keeps
    | with_reducible apply State.raise_keeps
    | with_reducible apply State.setBit_keeps
    | with_reducible apply State.setF_keeps
    | with_reducible apply State.setPair_keeps

theorem State.ownerReset_keeps {qz : List Instr} (s : State) (owner : Nat) (cause : Nat) (hs : s.Keeps qz) :
    State.Keeps qz (State.ownerReset s owner cause) := by
  unfold State.ownerReset
  repeat' first
    | with_reducible assumption
    | with_reducible apply State.abandon_keeps
    | split

theorem State.lockAcquire_keeps {qz : List Instr} (s : State) (owner : Nat) (k : Nat) (lease : Nat) (hs : s.Keeps qz) :
    State.Keeps qz (State.lockAcquire s owner k lease).2 := by
  unfold State.lockAcquire
  repeat' first
    | with_reducible assumption
    | with_reducible apply State.incWrap_keeps
    | with_reducible apply State.modLock_keeps
    | with_reducible apply State.setBit_keeps
    | with_reducible apply State.setF_keeps
    | with_reducible apply State.setPair_keeps
    | with_reducible apply State.Keeps.ite_snd

theorem State.leases_keeps {qz : List Instr}   : ∀ (x0 : List Nat) (x1 : State),
    x1.Keeps qz → State.Keeps qz (State.leases x0 x1) := by
  intro x0 x1
  fun_induction State.leases x0 x1
  all_goals repeat' first
    | intro _
    | with_reducible assumption
    | with_reducible apply State.abandon_keeps
    | with_reducible apply State.Keeps.ite
    | with_reducible apply_assumption

theorem execLeaseExpiry_keeps {qz : List Instr} (k : Fin 32) (s : State) (hs : s.Keeps qz) :
    OutKeeps qz (execLeaseExpiry k s) := by
  unfold execLeaseExpiry
  repeat' first
    | with_reducible apply OutKeeps.next
    | with_reducible assumption
    | with_reducible apply State.abandon_keeps
    | with_reducible apply State.Keeps.ite

theorem State.chainFail_keeps {qz : List Instr} (s : State) (k : Nat) (id : DescId) (st : Status) (hs : s.Keeps qz) :
    State.Keeps qz (State.chainFail s k id st) := by
  unfold State.chainFail
  repeat' first
    | with_reducible assumption
    | with_reducible apply State.finishBad_keeps
    | with_reducible apply State.modLock_keeps
    | with_reducible apply State.modQueue_keeps

theorem State.chainStage_keeps {qz : List Instr} (s : State) (k : Nat) (id : DescId) (act : Act) (len : Nat) (hs : s.Keeps qz) :
    State.Keeps qz (State.chainStage s k id act len) := by
  unfold State.chainStage
  repeat' first
    | with_reducible assumption
    | with_reducible apply State.chainFail_keeps
    | with_reducible apply State.modLock_keeps
    | with_reducible apply State.setF_keeps
    | with_reducible apply State.stagedShow_keeps
    | with_reducible apply State.Keeps.ite

theorem State.markChained_keeps {qz : List Instr} (s : State) (id : DescId) (want : Option Nat) (hs : s.Keeps qz) :
    State.Keeps qz (State.markChained s id want) := by
  unfold State.markChained
  repeat' first
    | with_reducible assumption
    | with_reducible apply State.modQueue_keeps

theorem State.commitAll_keeps {qz : List Instr} (eff : Nat) (k : Nat) (want : Option Nat)  : ∀ (x0 : List (DescId × Act)) (x1 : State),
    x1.Keeps qz → State.Keeps qz (State.commitAll eff k want x0 x1) := by
  intro x0 x1
  fun_induction State.commitAll eff k want x0 x1
  all_goals repeat' first
    | intro _
    | with_reducible assumption
    | with_reducible apply State.markChained_keeps
    | with_reducible apply State.stageAct_keeps
    | with_reducible apply_assumption

theorem State.lockRelease_keeps {qz : List Instr} (s : State) (id : DescId) (k : Nat) (want : Option Nat) (hs : s.Keeps qz) :
    State.Keeps qz (State.lockRelease s id k want) := by
  unfold State.lockRelease
  repeat' first
    | with_reducible assumption
    | with_reducible apply State.commitAll_keeps
    | with_reducible apply State.finishBad_keeps
    | with_reducible apply State.incWrap_keeps
    | with_reducible apply State.lockDrop_keeps
    | with_reducible apply State.markChained_keeps
    | with_reducible apply State.modLock_keeps
    | with_reducible apply State.setF_keeps
    | with_reducible apply State.stageAct_keeps
    | with_reducible apply State.Keeps.ite

theorem State.lockCommitted_keeps {qz : List Instr} (s : State) (id : Option DescId) (k : Nat) (eff : Nat) (hs : s.Keeps qz) :
    State.Keeps qz (State.lockCommitted s id k eff) := by
  unfold State.lockCommitted
  repeat' first
    | with_reducible assumption
    | with_reducible apply State.finishOpt_keeps
    | with_reducible apply State.incSat_keeps
    | with_reducible apply State.incWrap_keeps
    | with_reducible apply State.lockFree_keeps
    | with_reducible apply State.setPair_keeps

theorem State.lockDiscard_keeps {qz : List Instr} (s : State) (k : Nat) (hs : s.Keeps qz) :
    State.Keeps qz (State.lockDiscard s k) := by
  unfold State.lockDiscard
  repeat' first
    | with_reducible assumption
    | with_reducible apply State.lockDrop_keeps

theorem State.lockRenew_keeps {qz : List Instr} (s : State) (k : Nat) (lease : Nat) (hs : s.Keeps qz) :
    State.Keeps qz (State.lockRenew s k lease) := by
  unfold State.lockRenew
  repeat' first
    | with_reducible assumption
    | with_reducible apply State.modLock_keeps
    | with_reducible apply State.setF_keeps

theorem State.lckCntClr_keeps {qz : List Instr} (s : State) (hs : s.Keeps qz) :
    State.Keeps qz (State.lckCntClr s) := by
  unfold State.lckCntClr
  repeat' first
    | with_reducible assumption
    | with_reducible apply State.zeroAll_keeps

theorem State.abandonClear_keeps {qz : List Instr} (s : State) (k : Nat) (hs : s.Keeps qz) :
    State.Keeps qz (State.abandonClear s k) := by
  unfold State.abandonClear
  repeat' first
    | with_reducible assumption
    | with_reducible apply State.setBit_keeps
    | with_reducible apply State.setF_keeps

end Sys2Proof.Machine
end

