-- ==== Sys2Proof/Laws/KeepsHost.lean ====
section
/-!
SUPPORT. What the definitions of Machine/Host.lean keep.
-/
namespace Sys2Proof.Machine

theorem State.protViolation_keeps {qz : List Instr} (s : State) (ag : Nat) (kind : Nat) (a : Nat) (hs : s.Keeps qz) :
    State.Keeps qz (State.protViolation s ag kind a) := by
  unfold State.protViolation
  repeat' first
    | with_reducible assumption
    | with_reducible apply State.incSat_keeps
    | with_reducible apply State.raiseLimited_keeps
    | with_reducible apply State.setF_keeps
    | with_reducible apply State.wr_keeps

theorem State.modRing_keeps {qz : List Instr} (s : State) (r : Nat) (f : RingX → RingX) (hs : s.Keeps qz) :
    State.Keeps qz (State.modRing s r f) := by
  unfold State.modRing
  repeat' first
    | with_reducible assumption
    | with_reducible apply State.modHost_keeps
    | with_reducible rfl
    | (first | exact List.length_modify .. | exact List.length_set .. | exact List.length_map ..)

theorem State.ringErr_keeps {qz : List Instr} (s : State) (r : Nat) (hs : s.Keeps qz) :
    State.Keeps qz (State.ringErr s r) := by
  unfold State.ringErr
  repeat' first
    | with_reducible assumption
    | with_reducible apply State.setF_keeps

theorem State.ringTo_keeps {qz : List Instr} (s : State) (r : Nat) (st : Nat) (hs : s.Keeps qz) :
    State.Keeps qz (State.ringTo s r st) := by
  unfold State.ringTo
  repeat' first
    | with_reducible assumption
    | with_reducible apply State.setF_keeps

theorem State.ringEnable_keeps {qz : List Instr} (s : State) (r : Nat) (hs : s.Keeps qz) :
    State.Keeps qz (State.ringEnable s r) := by
  unfold State.ringEnable
  repeat' first
    | with_reducible assumption
    | with_reducible apply State.modQueue_keeps
    | with_reducible apply State.modRing_keeps
    | with_reducible apply State.pumpAll_keeps
    | with_reducible apply State.ringErr_keeps
    | with_reducible apply State.ringFull_keeps
    | with_reducible apply State.ringTo_keeps
    | with_reducible apply State.setF_keeps
    | with_reducible apply State.wr_keeps
    | with_reducible apply State.Keeps.ite
    | dsimp only
    | split

theorem State.ringOff_keeps {qz : List Instr} (s : State) (r : Nat) (hs : s.Keeps qz) :
    State.Keeps qz (State.ringOff s r) := by
  unfold State.ringOff
  repeat' first
    | with_reducible assumption
    | with_reducible apply State.modRing_keeps
    | with_reducible apply State.ringTo_keeps

theorem State.cancelStaged_keeps {qz : List Instr} (s : State) (o : Origin) (hs : s.Keeps qz) :
    State.Keeps qz (State.cancelStaged s o) := by
  unfold State.cancelStaged
  repeat' first
    | intro _
    | with_reducible assumption
    | with_reducible apply State.abortAll_keeps
    | with_reducible apply State.lockFree_keeps
    | with_reducible apply State.modStage_keeps
    | with_reducible apply State.Keeps.foldl
    | split

theorem State.cancelSwaps_keeps {qz : List Instr} (o : Origin)  : ∀ (x0 : List Nat) (x1 : State),
    x1.Keeps qz → State.Keeps qz (State.cancelSwaps o x0 x1) := by
  intro x0 x1
  fun_induction State.cancelSwaps o x0 x1
  all_goals repeat' first
    | intro _
    | with_reducible assumption
    | with_reducible apply State.abortAll_keeps
    | with_reducible apply State.clearQueued_keeps
    | with_reducible apply State.Keeps.ite
    | with_reducible apply_assumption
    | split

theorem State.cancelRoutes_keeps {qz : List Instr} (s : State) (o : Origin) (hs : s.Keeps qz) :
    State.Keeps qz (State.cancelRoutes s o) := by
  unfold State.cancelRoutes
  refine State.Keeps.foldl (fun s m h => State.routeShow_keeps s m h) _ ?_
  repeat' first
    | with_reducible assumption
    | with_reducible apply State.abortAll_keeps
    | with_reducible apply State.modMp_keeps

theorem State.newFlight_keeps {qz : List Instr} (s : State) (o : Origin) (op : Nat) (tag : Nat) (noCpl : Bool) (hs : s.Keeps qz) :
    State.Keeps qz (State.newFlight s o op tag noCpl).2 := by
  unfold State.newFlight
  repeat' first
    | with_reducible assumption
    | with_reducible apply State.modQueue_keeps

theorem State.abortUnread_keeps {qz : List Instr} (o : Origin) (r : Nat)  : ∀ (x0 : Nat) (x1 : List Nat) (x2 : State),
    x2.Keeps qz → State.Keeps qz (State.abortUnread o r x0 x1 x2) := by
  intro x0 x1 x2
  fun_induction State.abortUnread o r x0 x1 x2
  all_goals repeat' first
    | intro _
    | with_reducible assumption
    | with_reducible apply State.finishBad_keeps
    | with_reducible apply State.fresh_keeps
    | with_reducible apply State.newFlight_keeps
    | with_reducible apply State.setF_keeps
    | with_reducible apply State.Keeps.ite_snd
    | with_reducible apply_assumption
    | (refine State.Keeps.of_eq (by with_reducible assumption) ?_)
    | dsimp only
    | split

theorem State.abortOrigin_keeps {qz : List Instr} (s : State) (o : Origin) (hs : s.Keeps qz) :
    State.Keeps qz (State.abortOrigin s o) := by
  unfold State.abortOrigin
  repeat' first
    | with_reducible assumption
    | with_reducible apply State.cancelRoutes_keeps
    | with_reducible apply State.cancelStaged_keeps
    | with_reducible apply State.cancelSwaps_keeps
    | with_reducible apply State.ownerReset_keeps
    | dsimp only
    | split

theorem State.drainDone_keeps {qz : List Instr} (s : State) (r : Nat) (o : Origin) (hs : s.Keeps qz) :
    State.Keeps qz (State.drainDone s r o) := by
  unfold State.drainDone
  repeat' first
    | with_reducible assumption
    | with_reducible apply State.ownerReset_keeps
    | with_reducible apply State.ringOff_keeps
    | split

theorem execRingDrainDone_keeps {qz : List Instr} (r : Fin 16) (s : State) (hs : s.Keeps qz) :
    OutKeeps qz (execRingDrainDone r s) := by
  unfold execRingDrainDone
  repeat' first
    | with_reducible apply OutKeeps.next
    | with_reducible assumption
    | with_reducible apply State.drainDone_keeps
    | with_reducible apply State.ringOff_keeps
    | with_reducible apply State.Keeps.ite
    | split

theorem State.ringDisable_keeps {qz : List Instr} (s : State) (r : Nat) (abort : Bool) (tags : List Nat) (hs : s.Keeps qz) :
    State.Keeps qz (State.ringDisable s r abort tags) := by
  unfold State.ringDisable
  repeat' first
    | with_reducible assumption
    | with_reducible apply State.abortOrigin_keeps
    | with_reducible apply State.abortUnread_keeps
    | with_reducible apply State.drainDone_keeps
    | with_reducible apply State.modRing_keeps
    | with_reducible apply State.ringOff_keeps
    | with_reducible apply State.ringTo_keeps
    | with_reducible apply State.Keeps.ite
    | dsimp only
    | split

theorem State.dropHostRings_keeps {qz : List Instr}   : ∀ (x0 : List Nat) (x1 : State),
    x1.Keeps qz → State.Keeps qz (State.dropHostRings x0 x1) := by
  intro x0 x1
  fun_induction State.dropHostRings x0 x1
  all_goals repeat' first
    | intro _
    | with_reducible assumption
    | with_reducible apply State.abortOrigin_keeps
    | with_reducible apply State.addSat_keeps
    | with_reducible apply State.modQueue_keeps
    | with_reducible apply State.ringOff_keeps
    | with_reducible apply State.setF_keeps
    | with_reducible apply State.Keeps.ite
    | with_reducible apply_assumption
    | dsimp only
    | split

theorem State.dropHostMemory_keeps {qz : List Instr} (s : State) (hs : s.Keeps qz) :
    State.Keeps qz (State.dropHostMemory s) := by
  unfold State.dropHostMemory
  repeat' first
    | with_reducible assumption
    | with_reducible apply State.dropHostRings_keeps
    | with_reducible apply State.setF_keeps
    | with_reducible apply State.Keeps.ite

theorem execFunctionLevelReset_keeps {qz : List Instr} (s : State) (hs : s.Keeps qz) :
    OutKeeps qz (execFunctionLevelReset s) := by
  unfold execFunctionLevelReset
  repeat' first
    | with_reducible apply OutKeeps.next
    | with_reducible assumption
    | with_reducible apply State.dropHostMemory_keeps
    | with_reducible apply State.ownerReset_keeps
    | with_reducible apply State.setF_keeps
    | with_reducible apply State.Keeps.ite

theorem execPcieLinkDown_keeps {qz : List Instr} (s : State) (hs : s.Keeps qz) :
    OutKeeps qz (execPcieLinkDown s) := by
  unfold execPcieLinkDown
  repeat' first
    | with_reducible apply OutKeeps.next
    | with_reducible assumption
    | with_reducible apply State.dropHostMemory_keeps
    | with_reducible apply State.incSat_keeps
    | with_reducible apply State.setF_keeps
    | with_reducible apply State.Keeps.ite

theorem State.msix_keeps {qz : List Instr} (s : State) (v : Nat) (hs : s.Keeps qz) :
    State.Keeps qz (State.msix s v) := by
  unfold State.msix
  repeat' first
    | with_reducible assumption
    | with_reducible apply State.emit_keeps
    | with_reducible apply State.modHost_keeps
    | with_reducible apply State.Keeps.ite
    | with_reducible rfl

theorem execPcieLinkUp_keeps {qz : List Instr} (bme : Bool) (msix : Bool) (fmask : Bool) (vmask : BitVec 16) (s : State) (hs : s.Keeps qz) :
    OutKeeps qz (execPcieLinkUp bme msix fmask vmask s) := by
  unfold execPcieLinkUp
  repeat' first
    | with_reducible apply OutKeeps.next
    | intro _
    | with_reducible assumption
    | with_reducible apply State.modHost_keeps
    | with_reducible apply State.msix_keeps
    | with_reducible apply State.setF_keeps
    | with_reducible apply State.Keeps.ite
    | with_reducible apply State.Keeps.foldl
    | with_reducible rfl

theorem State.statusBlock_keeps {qz : List Instr} (s : State) (hs : s.Keeps qz) :
    State.Keeps qz (State.statusBlock s) := by
  unfold State.statusBlock
  repeat' first
    | with_reducible assumption
    | with_reducible apply State.incWrap_keeps
    | with_reducible apply State.modHost_keeps
    | with_reducible apply State.putBytes_keeps
    | with_reducible apply State.Keeps.ite
    | with_reducible rfl

theorem State.alertShow_keeps {qz : List Instr} (s : State) (hs : s.Keeps qz) :
    State.Keeps qz (State.alertShow s) := by
  unfold State.alertShow
  repeat' first
    | with_reducible assumption
    | with_reducible apply State.setF_keeps

theorem execVectorFire_keeps {qz : List Instr} (k : Fin 16) (s : State) (hs : s.Keeps qz) :
    OutKeeps qz (execVectorFire k s) := by
  unfold execVectorFire
  repeat' first
    | with_reducible apply OutKeeps.next
    | with_reducible assumption
    | with_reducible apply State.alertShow_keeps
    | with_reducible apply State.incWrap_keeps
    | with_reducible apply State.modHost_keeps
    | with_reducible apply State.msix_keeps
    | with_reducible apply State.setBit_keeps
    | with_reducible apply State.setF_keeps
    | with_reducible apply State.statusBlock_keeps
    | with_reducible apply State.Keeps.ite
    | with_reducible rfl

theorem State.rearm_keeps {qz : List Instr} (s : State) (v : Nat) (x : Nat) (hs : s.Keeps qz) :
    State.Keeps qz (State.rearm s v x) := by
  unfold State.rearm
  repeat' first
    | with_reducible assumption
    | with_reducible apply State.alertShow_keeps
    | with_reducible apply State.modHost_keeps
    | with_reducible apply State.setBit_keeps
    | with_reducible apply State.setF_keeps
    | with_reducible apply State.Keeps.ite
    | with_reducible rfl

theorem State.doorGuard_keeps {qz : List Instr} (s : State) (ag : Nat) (i : Nat) (f : State → State) (hs : s.Keeps qz) (hf : ∀ y0, y0.Keeps qz → State.Keeps qz (f y0)) :
    State.Keeps qz (State.doorGuard s ag i f) := by
  unfold State.doorGuard
  repeat' first
    | with_reducible assumption
    | with_reducible apply State.protViolation_keeps
    | with_reducible apply State.Keeps.ite
    | with_reducible apply_assumption

theorem execVectorRearm_keeps {qz : List Instr} (a : Agent) (k : Fin 16) (v : Word) (s : State) (hs : s.Keeps qz) :
    OutKeeps qz (execVectorRearm a k v s) := by
  unfold execVectorRearm
  repeat' first
    | with_reducible apply OutKeeps.next
    | intro _
    | with_reducible assumption
    | with_reducible apply State.doorGuard_keeps
    | with_reducible apply State.rearm_keeps

theorem State.doorbell_keeps {qz : List Instr} (s : State) (r : Nat) (x : Nat) (es : List StrEntry) (hs : s.Keeps qz) :
    State.Keeps qz (State.doorbell s r x es) := by
  unfold State.doorbell
  repeat' first
    | with_reducible assumption
    | with_reducible apply State.gatherPump_keeps
    | with_reducible apply State.modRing_keeps
    | with_reducible apply State.pumpAll_keeps
    | with_reducible apply State.raise_keeps
    | with_reducible apply State.ringFull_keeps
    | with_reducible apply State.setF_keeps
    | with_reducible apply State.touch_keeps
    | with_reducible apply State.Keeps.ite

theorem execDoorbellRing_keeps {qz : List Instr} (a : Agent) (r : Fin 16) (v : Word) (entries : List StrEntry) (s : State) (hs : s.Keeps qz) :
    OutKeeps qz (execDoorbellRing a r v entries s) := by
  unfold execDoorbellRing
  repeat' first
    | with_reducible apply OutKeeps.next
    | intro _
    | with_reducible assumption
    | with_reducible apply State.doorGuard_keeps
    | with_reducible apply State.doorbell_keeps

theorem execDmaError_keeps {qz : List Instr} (t : DmaTarget) (s : State) (hs : s.Keeps qz) :
    OutKeeps qz (execDmaError t s) := by
  unfold execDmaError
  repeat' first
    | with_reducible apply OutKeeps.next
    | with_reducible assumption
    | with_reducible apply State.finish_keeps
    | with_reducible apply State.incSat_keeps
    | with_reducible apply State.modHost_keeps
    | with_reducible apply State.modStage_keeps
    | with_reducible apply State.ringTo_keeps
    | with_reducible apply State.setF_keeps
    | with_reducible apply State.Keeps.ite
    | with_reducible rfl
    | dsimp only
    | split

theorem State.strConsume_keeps {qz : List Instr} (r : Nat) (b : Nat)  : ∀ (x0 : Nat) (x1 : State),
    x1.Keeps qz → State.Keeps qz (State.strConsume r b x0 x1) := by
  intro x0 x1
  fun_induction State.strConsume r b x0 x1
  all_goals repeat' first
    | intro _
    | with_reducible assumption
    | with_reducible apply State.incSat_keeps
    | with_reducible apply State.modHost_keeps
    | with_reducible apply State.modRing_keeps
    | with_reducible apply State.ringFull_keeps
    | with_reducible apply State.setF_keeps
    | with_reducible apply State.Keeps.ite
    | with_reducible rfl
    | with_reducible apply_assumption

theorem State.streamIn_keeps {qz : List Instr} (b : Nat)  : ∀ (x0 : List Nat) (x1 : State),
    x1.Keeps qz → State.Keeps qz (State.streamIn b x0 x1) := by
  intro x0 x1
  fun_induction State.streamIn b x0 x1
  all_goals repeat' first
    | intro _
    | with_reducible assumption
    | with_reducible apply State.incSat_keeps
    | with_reducible apply State.modRing_keeps
    | with_reducible apply State.raiseLimited_keeps
    | with_reducible apply State.strConsume_keeps
    | with_reducible apply State.Keeps.ite
    | with_reducible apply_assumption

theorem State.streamOut_keeps {qz : List Instr} (k : Nat) (data : List (Nat × List Byte))  : ∀ (x0 : List Nat) (x1 : State),
    x1.Keeps qz → State.Keeps qz (State.streamOut k data x0 x1) := by
  intro x0 x1
  fun_induction State.streamOut k data x0 x1
  all_goals repeat' first
    | intro _
    | with_reducible assumption
    | with_reducible apply State.incSat_keeps
    | with_reducible apply State.modRing_keeps
    | with_reducible apply State.raiseLimited_keeps
    | with_reducible apply State.ringPost_keeps
    | with_reducible apply State.setF_keeps
    | with_reducible apply State.Keeps.ite
    | with_reducible apply_assumption

theorem State.hifCntClr_keeps {qz : List Instr} (s : State) (hs : s.Keeps qz) :
    State.Keeps qz (State.hifCntClr s) := by
  unfold State.hifCntClr
  repeat' first
    | with_reducible assumption
    | with_reducible apply State.zeroAll_keeps

theorem State.dropFlight_keeps {qz : List Instr} (s : State) (o : Origin) (hs : s.Keeps qz) :
    State.Keeps qz (State.dropFlight s o) := by
  unfold State.dropFlight
  repeat' first
    | with_reducible assumption
    | with_reducible apply State.modQueue_keeps

theorem State.postRing_keeps {qz : List Instr} (s : State) (r : Nat) (cr : Nat) (o : Origin) (hs : s.Keeps qz) :
    State.Keeps qz (State.postRing s r cr o) := by
  unfold State.postRing
  repeat' first
    | with_reducible assumption
    | with_reducible apply State.dropFlight_keeps
    | with_reducible apply State.ringPost_keeps
    | with_reducible apply State.setF_keeps
    | with_reducible apply State.Keeps.ite
    | split

end Sys2Proof.Machine
end

