-- ==== Sys2Proof/Laws/KeepsFlash.lean ====
section
/-!
SUPPORT. What the definitions of Machine/Flash.lean keep.
-/
namespace Sys2Proof.Machine

theorem State.modPart_keeps {qz : List Instr} (s : State) (f : Mem → Mem) (hs : s.Keeps qz)
    (hf : Mem.wf 0xFF s.tth.part = true → Mem.wf 0xFF (f s.tth.part) = true) : State.Keeps qz (s.modPart f) := by
  obtain ⟨h0, ⟨r, m, sn, w, p, a, b⟩, l⟩ := hs
  exact ⟨h0, ⟨r, m, sn, w, hf p, a, b⟩, l⟩

theorem State.jnlRegion_keeps {qz : List Instr} (s : State) (j : Nat) (hs : s.Keeps qz) :
    State.Keeps qz (State.jnlRegion s j) := by
  unfold State.jnlRegion
  repeat' first
    | with_reducible assumption
    | with_reducible apply State.wr_keeps

theorem State.jnlShow_keeps {qz : List Instr} (s : State) (hs : s.Keeps qz) :
    State.Keeps qz (State.jnlShow s) := by
  unfold State.jnlShow
  repeat' first
    | with_reducible assumption
    | with_reducible apply State.jnlRegion_keeps
    | with_reducible apply State.setF_keeps
    | with_reducible apply State.wr_keeps

theorem State.writeKey_keeps {qz : List Instr} (s : State) (key : Nat) (bs : List Byte) (hs : s.Keeps qz) :
    State.Keeps qz (State.writeKey s key bs) := by
  unfold State.writeKey
  repeat' first
    | intro _
    | with_reducible assumption
    | with_reducible apply State.incWrap_keeps
    | with_reducible apply State.modFlash_keeps
    | with_reducible apply State.wr_keeps
    | with_reducible apply State.Keeps.ite
    | (with_reducible apply FlashX.ok_append)

theorem State.writeKeys_keeps {qz : List Instr}   : ∀ (x0 : List (Nat × List Byte)) (x1 : State),
    x1.Keeps qz → State.Keeps qz (State.writeKeys x0 x1) := by
  intro x0 x1
  fun_induction State.writeKeys x0 x1
  all_goals repeat' first
    | intro _
    | with_reducible assumption
    | with_reducible apply State.writeKey_keeps
    | with_reducible apply_assumption

theorem State.groupsDone_keeps {qz : List Instr}   : ∀ (x0 : List Nat) (x1 : State),
    x1.Keeps qz → State.Keeps qz (State.groupsDone x0 x1) := by
  intro x0 x1
  fun_induction State.groupsDone x0 x1
  all_goals repeat' first
    | intro _
    | with_reducible assumption
    | with_reducible apply State.wr_keeps
    | with_reducible apply_assumption

theorem execJournalCompact_keeps {qz : List Instr} (j : Fin 2) (s : State) (hs : s.Keeps qz) :
    OutKeeps qz (execJournalCompact j s) := by
  unfold execJournalCompact
  repeat' first
    | with_reducible apply OutKeeps.next
    | intro _
    | with_reducible assumption
    | with_reducible apply State.jnlShow_keeps
    | with_reducible apply State.modFlash_keeps
    | with_reducible apply State.Keeps.ite
    | (exact And.intro (And.left (FlashX.ok_setRegion _ _ _ (by assumption))) (And.right (FlashX.ok_setRegion _ _ _ (by assumption))))

theorem execJournalCompactDone_keeps {qz : List Instr} (j : Fin 2) (s : State) (hs : s.Keeps qz) :
    OutKeeps qz (execJournalCompactDone j s) := by
  unfold execJournalCompactDone
  repeat' first
    | with_reducible apply OutKeeps.next
    | intro _
    | with_reducible assumption
    | with_reducible apply State.incWrap_keeps
    | with_reducible apply State.jnlShow_keeps
    | with_reducible apply State.modFlash_keeps
    | with_reducible apply State.Keeps.ite
    | (exact And.intro (And.left (FlashX.ok_setRegion _ _ _ (by assumption))) (And.right (FlashX.ok_setRegion _ _ _ (by assumption))))

theorem State.compactGo_keeps {qz : List Instr} (s : State) (hs : s.Keeps qz) :
    State.Keeps qz (State.compactGo s) := by
  unfold State.compactGo
  repeat' first
    | intro _
    | with_reducible assumption
    | with_reducible apply State.modFlash_keeps
    | (guard_target = FlashX.Ok _; first | assumption | exact And.intro (And.left (by assumption)) (And.right (by assumption)))

theorem State.jnlCntClr_keeps {qz : List Instr} (s : State) (hs : s.Keeps qz) :
    State.Keeps qz (State.jnlCntClr s) := by
  unfold State.jnlCntClr
  repeat' first
    | with_reducible assumption
    | with_reducible apply State.setF_keeps
    | with_reducible apply State.zeroAll_keeps

theorem State.scanRegion_keeps {qz : List Instr} (s : State) (j : Nat) (hs : s.Keeps qz) :
    State.Keeps qz (State.scanRegion s j) := by
  unfold State.scanRegion
  repeat' first
    | intro _
    | with_reducible assumption
    | with_reducible apply State.addSat_keeps
    | with_reducible apply State.modFlash_keeps
    | with_reducible apply State.setF_keeps
    | with_reducible apply State.Keeps.ite
    | (with_reducible apply FlashX.ok_setRegion)
    | (guard_target = FlashX.Ok _; first | assumption | exact And.intro (And.left (by assumption)) (And.right (by assumption)))

theorem State.logDivergent_keeps {qz : List Instr}   : ∀ (x0 : List Nat) (x1 : State),
    x1.Keeps qz → State.Keeps qz (State.logDivergent x0 x1) := by
  intro x0 x1
  fun_induction State.logDivergent x0 x1
  all_goals repeat' first
    | intro _
    | with_reducible assumption
    | with_reducible apply State.incSat_keeps
    | with_reducible apply State.setF_keeps
    | with_reducible apply State.wr_keeps
    | with_reducible apply_assumption

theorem State.jnlScan_keeps {qz : List Instr} (s : State) (hs : s.Keeps qz) :
    State.Keeps qz (State.jnlScan s) := by
  unfold State.jnlScan
  repeat' first
    | intro _
    | with_reducible assumption
    | with_reducible apply State.jnlShow_keeps
    | with_reducible apply State.logDivergent_keeps
    | with_reducible apply State.modFlash_keeps
    | with_reducible apply State.scanRegion_keeps
    | with_reducible apply State.setF_keeps
    | (guard_target = FlashX.Ok _; first | assumption | exact And.intro (And.left (by assumption)) (And.right (by assumption)))

theorem State.storeMessage_keeps {qz : List Instr} (s : State) (j : Nat) (samples : Nat) (level : Nat) (bs : List Byte) (hs : s.Keeps qz) :
    State.Keeps qz (State.storeMessage s j samples level bs) := by
  unfold State.storeMessage
  repeat' first
    | intro _
    | with_reducible assumption
    | with_reducible apply State.modPart_keeps
    | (with_reducible apply Mem.wf_setMany)

theorem State.flashBegin_keeps {qz : List Instr} (s : State) (id : Option DescId) (job : FlashJob) (hs : s.Keeps qz) :
    State.Keeps qz (State.flashBegin s id job) := by
  unfold State.flashBegin
  repeat' first
    | intro _
    | with_reducible assumption
    | with_reducible apply State.jnlShow_keeps
    | with_reducible apply State.modFlash_keeps
    | (guard_target = FlashX.Ok _; first | assumption | exact And.intro (And.left (by assumption)) (And.right (by assumption)))

theorem State.programSector_keeps {qz : List Instr} (s : State) (i : Nat) (off : Nat) (bs : List Byte) (hs : s.Keeps qz) :
    State.Keeps qz (State.programSector s i off bs) := by
  unfold State.programSector
  repeat' first
    | intro _
    | with_reducible assumption
    | with_reducible apply State.modFlash_keeps
    | (with_reducible apply Mem.wf_setMany)
    | (with_reducible apply FlashX.ok_setImage)
    | (with_reducible apply FlashX.wf_image)

theorem State.flashApply_keeps {qz : List Instr} (s : State) (hs : s.Keeps qz) : ∀ (x0 : FlashJob),
    State.Keeps qz (State.flashApply s x0) := by
  intro x0
  unfold State.flashApply
  repeat' first
    | intro _
    | with_reducible assumption
    | with_reducible apply State.groupsDone_keeps
    | with_reducible apply State.modPart_keeps
    | with_reducible apply State.programSector_keeps
    | with_reducible apply State.storeMessage_keeps
    | with_reducible apply State.writeKeys_keeps
    | (with_reducible apply Mem.wf_setMany)
    | split

theorem State.regionFail_keeps {qz : List Instr} (s : State) (j : Nat) (hs : s.Keeps qz) :
    State.Keeps qz (State.regionFail s j) := by
  unfold State.regionFail
  repeat' first
    | with_reducible assumption
    | with_reducible apply State.setF_keeps

theorem execFlashOperationDone_keeps {qz : List Instr} (res : FlashResult) (s : State) (hs : s.Keeps qz) :
    OutKeeps qz (execFlashOperationDone res s) := by
  unfold execFlashOperationDone
  repeat' first
    | with_reducible apply OutKeeps.next
    | intro _
    | with_reducible assumption
    | with_reducible apply State.finishOpt_keeps
    | with_reducible apply State.flashApply_keeps
    | with_reducible apply State.incSat_keeps
    | with_reducible apply State.jnlShow_keeps
    | with_reducible apply State.modFlash_keeps
    | with_reducible apply State.regionFail_keeps
    | with_reducible apply State.Keeps.ite
    | (guard_target = FlashX.Ok _; first | assumption | exact And.intro (And.left (by assumption)) (And.right (by assumption)))
    | dsimp only
    | split

theorem State.cutRecords_keeps {qz : List Instr}   : ∀ (x0 : Nat) (x1 : Bool) (x2 : List (Nat × List Byte)) (x3 : State),
    x3.Keeps qz → State.Keeps qz (State.cutRecords x0 x1 x2 x3) := by
  intro x0 x1 x2 x3
  fun_induction State.cutRecords x0 x1 x2 x3
  all_goals repeat' first
    | intro _
    | with_reducible assumption
    | with_reducible apply State.modFlash_keeps
    | (with_reducible apply FlashX.ok_append)
    | with_reducible apply_assumption

theorem State.flashCut_keeps {qz : List Instr} (s : State) (hs : s.Keeps qz) :
    State.Keeps qz (State.flashCut s) := by
  unfold State.flashCut
  repeat' first
    | intro _
    | with_reducible assumption
    | with_reducible apply State.cutRecords_keeps
    | with_reducible apply State.fresh_keeps
    | with_reducible apply State.freshBytes_keeps
    | with_reducible apply State.modFlash_keeps
    | with_reducible apply State.modPart_keeps
    | with_reducible apply State.programSector_keeps
    | (with_reducible apply Mem.wf_setMany)
    | (guard_target = FlashX.Ok _; first | assumption | exact And.intro (And.left (by assumption)) (And.right (by assumption)))
    | dsimp only
    | split

end Sys2Proof.Machine
end

