-- ==== Sys2Proof/Laws/KeepsEngine.lean ====
section
/-!
SUPPORT. What the definitions of Machine/Engine.lean keep.
-/
namespace Sys2Proof.Machine

theorem State.progLoad_keeps {qz : List Instr} (s : State) (n : Nat) (bs : List Byte) (hs : s.Keeps qz) :
    State.Keeps qz (State.progLoad s n bs).2 := by
  unfold State.progLoad
  repeat' first
    | with_reducible assumption
    | with_reducible apply State.modEng_keeps
    | with_reducible apply State.setF_keeps
    | with_reducible apply State.Keeps.ite_snd
    | split

theorem State.maskShow_keeps {qz : List Instr} (s : State) (r : Nat) (hs : s.Keeps qz) :
    State.Keeps qz (State.maskShow s r) := by
  unfold State.maskShow
  repeat' first
    | with_reducible assumption
    | with_reducible apply State.setBit_keeps
    | with_reducible apply State.setF_keeps
    | with_reducible apply State.Keeps.ite

theorem State.arbCount_keeps {qz : List Instr} (s : State) (r : Nat) (grants : Nat) (wait : Nat) (longest : Nat) (hs : s.Keeps qz) :
    State.Keeps qz (State.arbCount s r grants wait longest) := by
  unfold State.arbCount
  repeat' first
    | with_reducible assumption
    | with_reducible apply State.modEngines_keeps
    | with_reducible apply State.Keeps.ite
    | with_reducible rfl

theorem State.arbCopy_keeps {qz : List Instr}   : ∀ (x0 : List Nat) (x1 : State),
    x1.Keeps qz → State.Keeps qz (State.arbCopy x0 x1) := by
  intro x0 x1
  fun_induction State.arbCopy x0 x1
  all_goals repeat' first
    | intro _
    | with_reducible assumption
    | with_reducible apply State.wr_keeps
    | with_reducible apply_assumption

theorem State.arbSnap_keeps {qz : List Instr} (s : State) (clr : Bool) (hs : s.Keeps qz) :
    State.Keeps qz (State.arbSnap s clr) := by
  unfold State.arbSnap
  repeat' first
    | with_reducible assumption
    | with_reducible apply State.arbCopy_keeps
    | with_reducible apply State.modEngines_keeps
    | with_reducible apply State.setF_keeps
    | with_reducible apply State.setPair_keeps
    | with_reducible apply State.Keeps.ite
    | with_reducible rfl

theorem State.lanesAgain_keeps {qz : List Instr}   : ∀ (x0 : List Nat) (x1 : State),
    x1.Keeps qz → State.Keeps qz (State.lanesAgain x0 x1) := by
  intro x0 x1
  fun_induction State.lanesAgain x0 x1
  all_goals repeat' first
    | intro _
    | with_reducible assumption
    | with_reducible apply State.routeShow_keeps
    | with_reducible apply State.setF_keeps
    | with_reducible apply State.setRoute_keeps
    | with_reducible apply State.Keeps.ite
    | with_reducible apply_assumption

theorem State.admitShow_keeps {qz : List Instr} (s : State) (n : Nat) (hs : s.Keeps qz) :
    State.Keeps qz (State.admitShow s n) := by
  unfold State.admitShow
  repeat' first
    | with_reducible assumption
    | with_reducible apply State.setF_keeps

theorem State.swapLoad_keeps {qz : List Instr} (s : State) (n : Nat) (mode : Nat) (k : Nat) (hs : s.Keeps qz) :
    State.Keeps qz (State.swapLoad s n mode k) := by
  unfold State.swapLoad
  repeat' first
    | with_reducible assumption
    | with_reducible apply State.admitShow_keeps
    | with_reducible apply State.maskShow_keeps
    | with_reducible apply State.modEng_keeps
    | with_reducible apply State.setF_keeps
    | with_reducible apply State.setPair_keeps
    | dsimp only
    | split

theorem State.clusterUp_keeps {qz : List Instr} (s : State) (n : Nat) (k : Nat) (hs : s.Keeps qz) :
    State.Keeps qz (State.clusterUp s n k) := by
  unfold State.clusterUp
  repeat' first
    | with_reducible assumption
    | with_reducible apply State.modErr_keeps
    | with_reducible apply State.raiseAt_keeps
    | with_reducible apply State.setF_keeps
    | with_reducible apply State.Keeps.ite

theorem State.swapStart_keeps {qz : List Instr} (s : State) (n : Nat) (mode : Nat) (k : Nat) (hs : s.Keeps qz) :
    State.Keeps qz (State.swapStart s n mode k) := by
  unfold State.swapStart
  repeat' first
    | with_reducible assumption
    | with_reducible apply State.admitShow_keeps
    | with_reducible apply State.clusterUp_keeps
    | with_reducible apply State.lanesAgain_keeps
    | with_reducible apply State.maskShow_keeps
    | with_reducible apply State.modEng_keeps
    | with_reducible apply State.raiseAt_keeps
    | with_reducible apply State.setF_keeps
    | with_reducible apply State.setPair_keeps
    | with_reducible apply State.Keeps.ite

theorem State.swapStep_keeps {qz : List Instr} (s : State) (n : Nat) (b : Nat) (hs : s.Keeps qz) :
    State.Keeps qz (State.swapStep s n b) := by
  unfold State.swapStep
  repeat' first
    | with_reducible assumption
    | with_reducible apply State.modEng_keeps
    | with_reducible apply State.setF_keeps
    | with_reducible apply State.swapLoad_keeps
    | with_reducible apply State.swapStart_keeps
    | with_reducible apply State.Keeps.ite
    | dsimp only
    | split

theorem State.swapSteps_keeps {qz : List Instr} (b : Nat)  : ∀ (x0 : List Nat) (x1 : State),
    x1.Keeps qz → State.Keeps qz (State.swapSteps b x0 x1) := by
  intro x0 x1
  fun_induction State.swapSteps b x0 x1
  all_goals repeat' first
    | intro _
    | with_reducible assumption
    | with_reducible apply State.swapStep_keeps
    | with_reducible apply_assumption

theorem State.swapBegin_keeps {qz : List Instr} (s : State) (n : Nat) (mode : Nat) (k : Nat) (hs : s.Keeps qz) :
    State.Keeps qz (State.swapBegin s n mode k) := by
  unfold State.swapBegin
  repeat' first
    | with_reducible assumption
    | with_reducible apply State.modEng_keeps
    | with_reducible apply State.setF_keeps
    | with_reducible apply State.swapLoad_keeps
    | with_reducible apply State.Keeps.ite

theorem State.engModeApply_keeps {qz : List Instr} (s : State) (n : Nat) (mode : Nat) (k : Nat) (hs : s.Keeps qz) :
    State.Keeps qz (State.engModeApply s n mode k) := by
  unfold State.engModeApply
  repeat' first
    | with_reducible assumption
    | with_reducible apply State.swapBegin_keeps
    | with_reducible apply State.Keeps.ite

theorem State.engCtlCommit_keeps {qz : List Instr} (s : State) (n : Nat) (old : Word) (k : Nat) (hs : s.Keeps qz) :
    State.Keeps qz (State.engCtlCommit s n old k) := by
  unfold State.engCtlCommit
  repeat' first
    | with_reducible assumption
    | with_reducible apply State.setF_keeps
    | with_reducible apply State.swapBegin_keeps
    | with_reducible apply State.Keeps.ite

theorem State.paramApply_keeps {qz : List Instr} (s : State) (id : Option DescId) (n : Nat) (pid : Nat) (rec : Nat) (off : Nat) (ws : List Word) (k : Nat) (hs : s.Keeps qz) :
    State.Keeps qz (State.paramApply s id n pid rec off ws k) := by
  unfold State.paramApply
  repeat' first
    | with_reducible assumption
    | with_reducible apply State.finishOpt_keeps
    | with_reducible apply State.modEng_keeps
    | with_reducible apply State.Keeps.ite
    | dsimp only
    | split

theorem State.irLoad_keeps {qz : List Instr} (s : State) (n : Nat) (bs : List Byte) (hs : s.Keeps qz) :
    State.Keeps qz (State.irLoad s n bs).2 := by
  unfold State.irLoad
  repeat' first
    | with_reducible assumption
    | with_reducible apply State.modEng_keeps
    | with_reducible apply State.Keeps.ite_snd
    | dsimp only
    | split

theorem State.raSet_keeps {qz : List Instr} (s : State) (bs : List Byte) (hs : s.Keeps qz) :
    State.Keeps qz (State.raSet s bs).2 := by
  unfold State.raSet
  repeat' first
    | with_reducible assumption
    | with_reducible apply State.modEng_keeps
    | with_reducible apply State.Keeps.ite_snd

theorem State.raClear_keeps {qz : List Instr} (s : State) (n : Nat) (hs : s.Keeps qz) :
    State.Keeps qz (State.raClear s n) := by
  unfold State.raClear
  repeat' first
    | with_reducible assumption
    | with_reducible apply State.modEng_keeps

theorem State.releaseOne_keeps {qz : List Instr} (s : State) (n : Nat) (k : Nat) (e : RecEffect) (hs : s.Keeps qz) :
    State.Keeps qz (State.releaseOne s n k e) := by
  unfold State.releaseOne
  repeat' first
    | with_reducible assumption
    | with_reducible apply State.incSat_keeps
    | with_reducible apply State.raiseAt_keeps
    | with_reducible apply State.ringPost_keeps
    | with_reducible apply State.setF_keeps
    | with_reducible apply State.Keeps.ite
    | dsimp only
    | split

theorem State.releaseAll_keeps {qz : List Instr} (n : Nat) (k : Nat)  : ∀ (x0 : List RecEffect) (x1 : State),
    x1.Keeps qz → State.Keeps qz (State.releaseAll n k x0 x1) := by
  intro x0 x1
  fun_induction State.releaseAll n k x0 x1
  all_goals repeat' first
    | intro _
    | with_reducible assumption
    | with_reducible apply State.releaseOne_keeps
    | with_reducible apply_assumption

theorem State.laneRun_keeps {qz : List Instr} (s : State) (l : Nat) (c : Bool) (hs : s.Keeps qz) :
    State.Keeps qz (State.laneRun s l c) := by
  unfold State.laneRun
  repeat' first
    | with_reducible assumption
    | with_reducible apply State.modEngines_keeps
    | with_reducible rfl

theorem State.laneRuns_keeps {qz : List Instr}   : ∀ (x0 : Nat) (x1 : List Bool) (x2 : State),
    x2.Keeps qz → State.Keeps qz (State.laneRuns x0 x1 x2) := by
  intro x0 x1 x2
  fun_induction State.laneRuns x0 x1 x2
  all_goals repeat' first
    | intro _
    | with_reducible assumption
    | with_reducible apply State.laneRun_keeps
    | with_reducible apply_assumption

theorem State.concealShow_keeps {qz : List Instr}   : ∀ (x0 : List Nat) (x1 : State),
    x1.Keeps qz → State.Keeps qz (State.concealShow x0 x1) := by
  intro x0 x1
  fun_induction State.concealShow x0 x1
  all_goals repeat' first
    | intro _
    | with_reducible assumption
    | with_reducible apply State.setBit_keeps
    | with_reducible apply_assumption

theorem State.annealOne_keeps {qz : List Instr} (s : State) (n : Nat) (r : Rendered) (hs : s.Keeps qz) :
    State.Keeps qz (State.annealOne s n r) := by
  unfold State.annealOne
  repeat' first
    | with_reducible assumption
    | with_reducible apply State.laneRuns_keeps
    | with_reducible apply State.modEng_keeps
    | with_reducible apply State.releaseAll_keeps

theorem State.annealList_keeps {qz : List Instr} (n : Nat)  : ∀ (x0 : List Rendered) (x1 : State),
    x1.Keeps qz → State.Keeps qz (State.annealList n x0 x1) := by
  intro x0 x1
  fun_induction State.annealList n x0 x1
  all_goals repeat' first
    | intro _
    | with_reducible assumption
    | with_reducible apply State.annealOne_keeps
    | with_reducible apply_assumption

theorem State.annealAll_keeps {qz : List Instr} (b : Nat)  : ∀ (x0 : List Nat) (x1 : State),
    x1.Keeps qz → State.Keeps qz (State.annealAll b x0 x1) := by
  intro x0 x1
  fun_induction State.annealAll b x0 x1
  all_goals repeat' first
    | intro _
    | with_reducible assumption
    | with_reducible apply State.annealList_keeps
    | with_reducible apply_assumption

theorem State.engWaits_keeps {qz : List Instr} (s : State) (n : Nat) (hs : s.Keeps qz) :
    State.Keeps qz (State.engWaits s n) := by
  unfold State.engWaits
  repeat' first
    | with_reducible assumption
    | with_reducible apply State.modEng_keeps
    | with_reducible apply State.raiseLimited_keeps
    | with_reducible apply State.Keeps.ite

theorem State.beginAhead_keeps {qz : List Instr} (s : State) (n : Nat) (k : Nat) (parison : Bool) (hs : s.Keeps qz) :
    State.Keeps qz (State.beginAhead s n k parison) := by
  unfold State.beginAhead
  repeat' first
    | with_reducible assumption
    | with_reducible apply State.modEng_keeps

theorem execEngineRenderStart_keeps {qz : List Instr} (n : Fin 8) (s : State) (hs : s.Keeps qz) :
    OutKeeps qz (execEngineRenderStart n s) := by
  unfold execEngineRenderStart
  repeat' first
    | with_reducible apply OutKeeps.next
    | with_reducible assumption
    | with_reducible apply State.beginAhead_keeps
    | with_reducible apply State.engWaits_keeps
    | with_reducible apply State.modEng_keeps
    | with_reducible apply State.Keeps.ite

theorem execEngineRenderDone_keeps {qz : List Instr} (n : Fin 8) (words : Nat) (fx : List RecFx) (s : State) (hs : s.Keeps qz) :
    OutKeeps qz (execEngineRenderDone n words fx s) := by
  unfold execEngineRenderDone
  repeat' first
    | with_reducible apply OutKeeps.next
    | with_reducible assumption
    | with_reducible apply State.annealOne_keeps
    | with_reducible apply State.modEng_keeps
    | with_reducible apply State.releaseAll_keeps
    | with_reducible apply State.Keeps.ite
    | dsimp only
    | split

theorem State.engMiss_keeps {qz : List Instr} (s : State) (n : Nat) (k : Nat) (hs : s.Keeps qz) :
    State.Keeps qz (State.engMiss s n k) := by
  unfold State.engMiss
  repeat' first
    | with_reducible assumption
    | with_reducible apply State.incSat_keeps
    | with_reducible apply State.modEng_keeps
    | with_reducible apply State.raise_keeps
    | with_reducible apply State.setF_keeps

theorem State.engSlot_keeps {qz : List Instr} (s : State) (n : Nat) (cycles : Nat) (stall : Nat) (hs : s.Keeps qz) :
    State.Keeps qz (State.engSlot s n cycles stall) := by
  unfold State.engSlot
  repeat' first
    | with_reducible assumption
    | with_reducible apply State.raiseLimited_keeps
    | with_reducible apply State.setF_keeps
    | with_reducible apply State.Keeps.ite

theorem State.aheadRestart_keeps {qz : List Instr} (b : Nat)  : ∀ (x0 : List Nat) (x1 : State),
    x1.Keeps qz → State.Keeps qz (State.aheadRestart b x0 x1) := by
  intro x0 x1
  fun_induction State.aheadRestart b x0 x1
  all_goals repeat' first
    | intro _
    | with_reducible assumption
    | with_reducible apply State.modEng_keeps
    | with_reducible apply State.raise_keeps
    | with_reducible apply State.squash_keeps
    | with_reducible apply State.Keeps.ite
    | with_reducible apply_assumption

theorem State.engCntClr_keeps {qz : List Instr} (s : State) (hs : s.Keeps qz) :
    State.Keeps qz (State.engCntClr s) := by
  unfold State.engCntClr
  repeat' first
    | with_reducible assumption
    | with_reducible apply State.setAll_keeps
    | with_reducible apply State.zeroAll_keeps

theorem execArbMaskChange_keeps {qz : List Instr} (r : Fin 12) (s : State) (hs : s.Keeps qz) :
    OutKeeps qz (execArbMaskChange r s) := by
  unfold execArbMaskChange
  repeat' first
    | with_reducible apply OutKeeps.next
    | with_reducible assumption
    | with_reducible apply State.maskShow_keeps

theorem execGroupMuted_keeps {qz : List Instr} (g : Fin 16) (j : Nat) (s : State) (hs : s.Keeps qz) :
    OutKeeps qz (execGroupMuted g j s) := by
  unfold execGroupMuted
  repeat' first
    | with_reducible apply OutKeeps.next
    | with_reducible assumption
    | with_reducible apply State.modEngines_keeps
    | with_reducible rfl
    | with_reducible apply State.raise_keeps
    | with_reducible apply State.setBit_keeps
    | with_reducible apply State.Keeps.ite

theorem execGroupUnmuted_keeps {qz : List Instr} (g : Fin 16) (j : Nat) (s : State) (hs : s.Keeps qz) :
    OutKeeps qz (execGroupUnmuted g j s) := by
  unfold execGroupUnmuted
  repeat' first
    | with_reducible apply OutKeeps.next
    | with_reducible assumption
    | with_reducible apply State.modEngines_keeps
    | with_reducible rfl
    | with_reducible apply State.raise_keeps
    | with_reducible apply State.setBit_keeps
    | with_reducible apply State.Keeps.ite

end Sys2Proof.Machine
end

