-- ==== Sys2Proof/Laws/KeepsNet.lean ====
section
/-!
SUPPORT. What the definitions of Machine/Net.lean keep.
-/
namespace Sys2Proof.Machine

theorem execNetLinkUp_keeps {qz : List Instr} (p : Fin 2) (mbps : Nat) (full : Bool) (s : State) (hs : s.Keeps qz) :
    OutKeeps qz (execNetLinkUp p mbps full s) := by
  unfold execNetLinkUp
  repeat' first
    | with_reducible apply OutKeeps.next
    | with_reducible assumption
    | with_reducible apply State.raise_keeps
    | with_reducible apply State.setF_keeps
    | with_reducible apply State.Keeps.ite

theorem State.portDown_keeps {qz : List Instr} (s : State) (p : Nat) (hs : s.Keeps qz) :
    State.Keeps qz (State.portDown s p) := by
  unfold State.portDown
  repeat' first
    | with_reducible assumption
    | with_reducible apply State.raise_keeps
    | with_reducible apply State.setF_keeps
    | with_reducible apply State.Keeps.ite

theorem execNetLinkDown_keeps {qz : List Instr} (p : Fin 2) (s : State) (hs : s.Keeps qz) :
    OutKeeps qz (execNetLinkDown p s) := by
  unfold execNetLinkDown
  repeat' first
    | with_reducible apply OutKeeps.next
    | with_reducible assumption
    | with_reducible apply State.portDown_keeps

theorem State.mdioGo_keeps {qz : List Instr} (s : State) (hs : s.Keeps qz) :
    State.Keeps qz (State.mdioGo s) := by
  unfold State.mdioGo
  repeat' first
    | with_reducible assumption
    | with_reducible apply State.emit_keeps
    | with_reducible apply State.setF_keeps
    | with_reducible apply State.Keeps.ite

theorem execMdioDone_keeps {qz : List Instr} (data : BitVec 16) (s : State) (hs : s.Keeps qz) :
    OutKeeps qz (execMdioDone data s) := by
  unfold execMdioDone
  repeat' first
    | with_reducible apply OutKeeps.next
    | with_reducible assumption
    | with_reducible apply State.setF_keeps
    | with_reducible apply State.Keeps.ite

theorem State.zvConflict_keeps {qz : List Instr} (s : State) (typ : Nat) (m : ZvMsg) (hs : s.Keeps qz) :
    State.Keeps qz (State.zvConflict s typ m) := by
  unfold State.zvConflict
  repeat' first
    | with_reducible assumption
    | with_reducible apply State.raise_keeps
    | with_reducible apply State.setF_keeps
    | with_reducible apply State.Keeps.ite

theorem State.zvRefuse_keeps {qz : List Instr} (s : State) (typ : Nat) (m : ZvMsg) (hs : s.Keeps qz) :
    State.Keeps qz (State.zvRefuse s typ m) := by
  unfold State.zvRefuse
  repeat' first
    | with_reducible assumption
    | with_reducible apply State.incSat_keeps
    | with_reducible apply State.raiseLimited_keeps
    | split

theorem State.portCnt_keeps {qz : List Instr} (s : State) (p : Nat) (k : Nat) (hs : s.Keeps qz) :
    State.Keeps qz (State.portCnt s p k) := by
  unfold State.portCnt
  repeat' first
    | with_reducible assumption
    | with_reducible apply State.incWrap_keeps

theorem State.egress_keeps {qz : List Instr} (s : State) (q : Nat) (f : EthFrame) (hs : s.Keeps qz) :
    State.Keeps qz (State.egress s q f) := by
  unfold State.egress
  repeat' first
    | with_reducible assumption
    | with_reducible apply State.emit_keeps
    | with_reducible apply State.portCnt_keeps
    | with_reducible apply State.Keeps.ite
    | split

theorem State.egressAll_keeps {qz : List Instr} (f : EthFrame)  : ∀ (x0 : List Nat) (x1 : State),
    x1.Keeps qz → State.Keeps qz (State.egressAll f x0 x1) := by
  intro x0 x1
  fun_induction State.egressAll f x0 x1
  all_goals repeat' first
    | intro _
    | with_reducible assumption
    | with_reducible apply State.egress_keeps
    | with_reducible apply_assumption

theorem State.learn_keeps {qz : List Instr} (s : State) (p : Nat) (m : Mac) (hs : s.Keeps qz) :
    State.Keeps qz (State.learn s p m) := by
  unfold State.learn
  repeat' first
    | with_reducible assumption
    | with_reducible apply State.modNet_keeps
    | with_reducible apply State.Keeps.ite
    | with_reducible rfl

theorem State.useLearned_keeps {qz : List Instr} (s : State) (m : Mac) (hs : s.Keeps qz) :
    State.Keeps qz (State.useLearned s m) := by
  unfold State.useLearned
  repeat' first
    | with_reducible assumption
    | with_reducible apply State.modNet_keeps
    | with_reducible rfl

theorem execFrameReceive_keeps {qz : List Instr} (p : Fin 3) (f : EthFrame) (s : State) (hs : s.Keeps qz) :
    OutKeeps qz (execFrameReceive p f s) := by
  unfold execFrameReceive
  repeat' first
    | with_reducible apply OutKeeps.next
    | with_reducible assumption
    | with_reducible apply State.egressAll_keeps
    | with_reducible apply State.learn_keeps
    | with_reducible apply State.portCnt_keeps
    | with_reducible apply State.useLearned_keeps
    | with_reducible apply State.zvConflict_keeps
    | with_reducible apply State.zvRefuse_keeps
    | with_reducible apply State.Keeps.ite
    | dsimp only
    | split

theorem execFdbAgeing_keeps {qz : List Instr} (m : Mac) (s : State) (hs : s.Keeps qz) :
    OutKeeps qz (execFdbAgeing m s) := by
  unfold execFdbAgeing
  repeat' first
    | with_reducible apply OutKeeps.next
    | with_reducible assumption
    | with_reducible apply State.modNet_keeps
    | with_reducible rfl

theorem State.alignShow_keeps {qz : List Instr} (s : State) (hs : s.Keeps qz) :
    State.Keeps qz (State.alignShow s) := by
  unfold State.alignShow
  repeat' first
    | with_reducible assumption
    | with_reducible apply State.raise_keeps
    | with_reducible apply State.setF_keeps
    | with_reducible apply State.Keeps.ite

theorem State.modPtp_keeps {qz : List Instr} (s : State) (f : PtpX → PtpX) (hs : s.Keeps qz) :
    State.Keeps qz (State.modPtp s f) := by
  unfold State.modPtp
  repeat' first
    | with_reducible assumption
    | with_reducible apply State.modNet_keeps
    | with_reducible rfl

theorem State.ptpTo_keeps {qz : List Instr} (s : State) (st : Nat) (hs : s.Keeps qz) :
    State.Keeps qz (State.ptpTo s st) := by
  unfold State.ptpTo
  repeat' first
    | with_reducible assumption
    | with_reducible apply State.alignShow_keeps
    | with_reducible apply State.modPtp_keeps
    | with_reducible apply State.raise_keeps
    | with_reducible apply State.setF_keeps
    | with_reducible apply State.Keeps.ite

theorem State.ptpFree_keeps {qz : List Instr} (s : State) (hs : s.Keeps qz) :
    State.Keeps qz (State.ptpFree s) := by
  unfold State.ptpFree
  repeat' first
    | with_reducible assumption
    | with_reducible apply State.modPtp_keeps
    | with_reducible apply State.ptpTo_keeps
    | with_reducible apply State.setF_keeps

theorem State.timeStep_keeps {qz : List Instr} (s : State) (off : Int) (hs : s.Keeps qz) :
    State.Keeps qz (State.timeStep s off) := by
  unfold State.timeStep
  repeat' first
    | with_reducible assumption
    | with_reducible apply State.incSat_keeps
    | with_reducible apply State.modClk_keeps
    | with_reducible apply State.modPtp_keeps
    | with_reducible apply State.setF_keeps
    | with_reducible apply State.Keeps.ite

theorem execPtpSync_keeps {qz : List Instr} (p : Fin 2) (gm : BitVec 64) (hops : Nat) (off : Int) (s : State) (hs : s.Keeps qz) :
    OutKeeps qz (execPtpSync p gm hops off s) := by
  unfold execPtpSync
  repeat' first
    | with_reducible apply OutKeeps.next
    | with_reducible assumption
    | with_reducible apply State.alignShow_keeps
    | with_reducible apply State.modPtp_keeps
    | with_reducible apply State.ptpTo_keeps
    | with_reducible apply State.setF_keeps
    | with_reducible apply State.setPair_keeps
    | with_reducible apply State.timeStep_keeps
    | with_reducible apply State.wr_keeps
    | with_reducible apply State.Keeps.ite

theorem execSyncTimeout_keeps {qz : List Instr} (s : State) (hs : s.Keeps qz) :
    OutKeeps qz (execSyncTimeout s) := by
  unfold execSyncTimeout
  repeat' first
    | with_reducible apply OutKeeps.next
    | with_reducible assumption
    | with_reducible apply State.ptpTo_keeps
    | with_reducible apply State.Keeps.ite

theorem execHoldoverExpire_keeps {qz : List Instr} (s : State) (hs : s.Keeps qz) :
    OutKeeps qz (execHoldoverExpire s) := by
  unfold execHoldoverExpire
  repeat' first
    | with_reducible apply OutKeeps.next
    | with_reducible assumption
    | with_reducible apply State.ptpFree_keeps
    | with_reducible apply State.Keeps.ite

theorem execAnnounceTimeout_keeps {qz : List Instr} (other : Bool) (s : State) (hs : s.Keeps qz) :
    OutKeeps qz (execAnnounceTimeout other s) := by
  unfold execAnnounceTimeout
  repeat' first
    | with_reducible apply OutKeeps.next
    | with_reducible assumption
    | with_reducible apply State.fresh_keeps
    | with_reducible apply State.ptpFree_keeps
    | with_reducible apply State.setF_keeps
    | with_reducible apply State.setPair_keeps
    | with_reducible apply State.Keeps.ite

theorem State.ptpCfgWritten_keeps {qz : List Instr} (s : State) (hs : s.Keeps qz) :
    State.Keeps qz (State.ptpCfgWritten s) := by
  unfold State.ptpCfgWritten
  repeat' first
    | with_reducible assumption
    | with_reducible apply State.ptpFree_keeps
    | with_reducible apply State.Keeps.ite

theorem execPdelayTimer_keeps {qz : List Instr} (p : Fin 2) (delay : Option Nat) (s : State) (hs : s.Keeps qz) :
    OutKeeps qz (execPdelayTimer p delay s) := by
  unfold execPdelayTimer
  repeat' first
    | with_reducible apply OutKeeps.next
    | with_reducible assumption
    | with_reducible apply State.setF_keeps
    | with_reducible apply State.Keeps.ite
    | split

theorem State.modLs_keeps {qz : List Instr} (s : State) (st : Nat) (f : ListenerX → ListenerX) (hs : s.Keeps qz) :
    State.Keeps qz (State.modLs s st f) := by
  unfold State.modLs
  repeat' first
    | with_reducible assumption
    | with_reducible apply State.modNet_keeps
    | with_reducible rfl
    | (first | exact List.length_modify .. | exact List.length_set .. | exact List.length_map ..)

theorem State.lateCount_keeps {qz : List Instr} (s : State) (st : Nat) (n : Nat) (hs : s.Keeps qz) :
    State.Keeps qz (State.lateCount s st n) := by
  unfold State.lateCount
  repeat' first
    | with_reducible assumption
    | with_reducible apply State.addSat_keeps
    | with_reducible apply State.setF_keeps
    | with_reducible apply State.Keeps.ite

theorem State.sampleAhead_keeps {qz : List Instr} (s : State) (st : Nat) (k : Nat) (hs : s.Keeps qz) : ∀ (x0 : List Nat),
    State.Keeps qz (State.sampleAhead s st k x0) := by
  intro x0
  fun_induction State.sampleAhead s st k x0
  all_goals repeat' first
    | with_reducible assumption
    | with_reducible apply State.lateCount_keeps
    | with_reducible apply State.modEng_keeps
    | with_reducible apply State.raiseLimited_keeps

theorem State.sampleOne_keeps {qz : List Instr} (s : State) (st : Nat) (c : Nat) (x : Nat) (hs : s.Keeps qz) :
    State.Keeps qz (State.sampleOne s st c x) := by
  unfold State.sampleOne
  repeat' first
    | with_reducible assumption
    | with_reducible apply State.lateCount_keeps
    | with_reducible apply State.sampleAhead_keeps
    | with_reducible apply State.Keeps.ite

theorem State.sampleChans_keeps {qz : List Instr} (st : Nat) (x : Nat)  : ∀ (x0 : List Nat) (x1 : State),
    x1.Keeps qz → State.Keeps qz (State.sampleChans st x x0 x1) := by
  intro x0 x1
  fun_induction State.sampleChans st x x0 x1
  all_goals repeat' first
    | intro _
    | with_reducible assumption
    | with_reducible apply State.sampleOne_keeps
    | with_reducible apply_assumption

theorem State.placeSamples_keeps {qz : List Instr} (st : Nat) (chans : Nat) (t0 : Int) (data : List (List Word)) : ∀ (x0 : Nat) (x1 : Nat) (x2 : State),
    x2.Keeps qz → State.Keeps qz (State.placeSamples st chans t0 data x0 x1 x2) := by
  intro x0 x1 x2
  fun_induction State.placeSamples st chans t0 data x0 x1 x2
  all_goals repeat' first
    | intro _
    | with_reducible assumption
    | with_reducible apply State.modLs_keeps
    | with_reducible apply State.sampleChans_keeps
    | with_reducible apply State.Keeps.ite
    | with_reducible apply_assumption

theorem State.squashFrame_keeps {qz : List Instr} (st chans : Nat) (ks : List Nat) : ∀ (ns : List Nat) (s : State),
    s.Keeps qz → State.Keeps qz (State.squashFrame st chans ks ns s)
  | [], _, hs => hs
  | n :: ns, s, hs => by
    unfold State.squashFrame
    refine State.squashFrame_keeps st chans ks ns _ (State.Keeps.ite ?_ hs)
    split
    · exact hs
    · exact State.squash_keeps _ _ _ hs

theorem State.frameTaken_keeps {qz : List Instr} (s : State) (st : Nat) (f : AafFrame) (hs : s.Keeps qz) :
    State.Keeps qz (State.frameTaken s st f) := by
  unfold State.frameTaken
  repeat' first
    | with_reducible assumption
    | with_reducible apply State.incSat_keeps
    | with_reducible apply State.modLs_keeps
    | with_reducible apply State.placeSamples_keeps
    | with_reducible apply State.raise_keeps
    | with_reducible apply State.setF_keeps
    | with_reducible apply State.squashFrame_keeps
    | with_reducible apply State.wr_keeps
    | with_reducible apply State.Keeps.ite

theorem execListenerFrame_keeps {qz : List Instr} (st : Fin 16) (f : AafFrame) (s : State) (hs : s.Keeps qz) :
    OutKeeps qz (execListenerFrame st f s) := by
  unfold execListenerFrame
  repeat' first
    | with_reducible apply OutKeeps.next
    | with_reducible assumption
    | with_reducible apply State.frameTaken_keeps
    | with_reducible apply State.incWrap_keeps
    | with_reducible apply State.setF_keeps
    | with_reducible apply State.Keeps.ite

theorem execStreamLost_keeps {qz : List Instr} (st : Fin 16) (s : State) (hs : s.Keeps qz) :
    OutKeeps qz (execStreamLost st s) := by
  unfold execStreamLost
  repeat' first
    | with_reducible apply OutKeeps.next
    | with_reducible assumption
    | with_reducible apply State.modLs_keeps
    | with_reducible apply State.raise_keeps
    | with_reducible apply State.setF_keeps
    | with_reducible apply State.Keeps.ite

theorem State.lsCfgWritten_keeps {qz : List Instr} (s : State) (st : Nat) (old : Word) (hs : s.Keeps qz) :
    State.Keeps qz (State.lsCfgWritten s st old) := by
  unfold State.lsCfgWritten
  repeat' first
    | with_reducible assumption
    | with_reducible apply State.modLs_keeps
    | with_reducible apply State.setF_keeps
    | with_reducible apply State.Keeps.ite

theorem State.tkCfgWritten_keeps {qz : List Instr} (s : State) (st : Nat) (hs : s.Keeps qz) :
    State.Keeps qz (State.tkCfgWritten s st) := by
  unfold State.tkCfgWritten
  repeat' first
    | with_reducible assumption
    | with_reducible apply State.setF_keeps
    | with_reducible apply State.Keeps.ite

theorem execTalkerFrameSend_keeps {qz : List Instr} (st : Fin 16) (k : Nat) (smp : Fin 16) (room : Bool) (s : State) (hs : s.Keeps qz) :
    OutKeeps qz (execTalkerFrameSend st k smp room s) := by
  unfold execTalkerFrameSend
  repeat' first
    | with_reducible apply OutKeeps.next
    | with_reducible assumption
    | with_reducible apply State.emit_keeps
    | with_reducible apply State.incSat_keeps
    | with_reducible apply State.incWrap_keeps
    | with_reducible apply State.setF_keeps
    | with_reducible apply State.wr_keeps
    | with_reducible apply State.Keeps.ite

theorem State.netCntClr_keeps {qz : List Instr} (s : State) (hs : s.Keeps qz) :
    State.Keeps qz (State.netCntClr s) := by
  unfold State.netCntClr
  repeat' first
    | with_reducible assumption
    | with_reducible apply State.zeroAll_keeps

theorem State.bridleCommit_keeps {qz : List Instr} (s : State) (old : Word) (hs : s.Keeps qz) :
    State.Keeps qz (State.bridleCommit s old) := by
  unfold State.bridleCommit
  repeat' first
    | with_reducible assumption
    | with_reducible apply State.modNet_keeps
    | with_reducible apply State.setF_keeps
    | with_reducible apply State.Keeps.ite
    | with_reducible rfl

theorem execBridleSlewEnd_keeps {qz : List Instr} (s : State) (hs : s.Keeps qz) :
    OutKeeps qz (execBridleSlewEnd s) := by
  unfold execBridleSlewEnd
  repeat' first
    | with_reducible apply OutKeeps.next
    | with_reducible assumption
    | with_reducible apply State.setF_keeps
    | with_reducible apply State.Keeps.ite

end Sys2Proof.Machine
end

