-- ==== Sys2Proof/Laws/KeepsMetro.lean ====
section
/-!
SUPPORT. What the definitions of Machine/Metro.lean keep.
-/
namespace Sys2Proof.Machine

theorem execMStart_keeps {qz : List Instr} (cause : Fin 2) (s : State) (hs : s.Keeps qz) :
    OutKeeps qz (execMStart cause s) := by
  unfold execMStart
  repeat' first
    | with_reducible apply OutKeeps.next
    | with_reducible assumption
    | with_reducible apply State.fresh_keeps
    | with_reducible apply State.modMetro_keeps
    | with_reducible apply State.Keeps.ite

theorem execMSupplyRemove_keeps {qz : List Instr} (s : State) (hs : s.Keeps qz) :
    OutKeeps qz (execMSupplyRemove s) := by
  unfold execMSupplyRemove
  repeat' first
    | with_reducible apply OutKeeps.next
    | with_reducible assumption
    | with_reducible apply State.modMetro_keeps
    | with_reducible apply State.Keeps.ite

theorem execIntegrationSecond_keeps {qz : List Instr} (m : SecondMeas) (ver : Bool) (s : State) (hs : s.Keeps qz) :
    OutKeeps qz (execIntegrationSecond m ver s) := by
  unfold execIntegrationSecond
  repeat' first
    | with_reducible apply OutKeeps.next
    | with_reducible assumption
    | with_reducible apply State.modMetro_keeps
    | with_reducible apply State.Keeps.ite

theorem execMinuteClose_keeps {qz : List Instr} (vbak : Nat) (s : State) (hs : s.Keeps qz) :
    OutKeeps qz (execMinuteClose vbak s) := by
  unfold execMinuteClose
  repeat' first
    | with_reducible apply OutKeeps.next
    | with_reducible assumption
    | with_reducible apply State.modMetro_keeps
    | with_reducible apply State.Keeps.ite

theorem State.muart_keeps {qz : List Instr} (s : State) (cmd : Nat) (st : Nat) (bs : List Byte) (hs : s.Keeps qz) :
    State.Keeps qz (State.muart s cmd st bs) := by
  unfold State.muart
  repeat' first
    | with_reducible assumption
    | with_reducible apply State.emit_keeps

theorem State.muartSealed_keeps {qz : List Instr} (s : State) (cmd : Nat) (hs : s.Keeps qz) :
    State.Keeps qz (State.muartSealed s cmd) := by
  unfold State.muartSealed
  repeat' first
    | with_reducible assumption
    | with_reducible apply State.modMetro_keeps
    | with_reducible apply State.muart_keeps

theorem State.muartTake_keeps {qz : List Instr} (s : State) (r : MuartReq) (cmd : Nat) (len : Nat) (v : Bool) (legal : Bool) (f : State → State) (hs : s.Keeps qz) (hf : ∀ y0, y0.Keeps qz → State.Keeps qz (f y0)) :
    State.Keeps qz (State.muartTake s r cmd len v legal f) := by
  unfold State.muartTake
  repeat' first
    | with_reducible assumption
    | with_reducible apply State.modMetro_keeps
    | with_reducible apply State.muart_keeps
    | with_reducible apply State.muartSealed_keeps
    | with_reducible apply State.Keeps.ite
    | with_reducible apply_assumption

theorem State.bytesOr_keeps {qz : List Instr} (s : State) (n : Nat) (x : Option Nat) (hs : s.Keeps qz) :
    State.Keeps qz (State.bytesOr s n x).2 := by
  unfold State.bytesOr
  repeat' first
    | with_reducible assumption
    | with_reducible apply State.freshBytes_keeps
    | split

theorem execMuartGapTimeout_keeps {qz : List Instr} (s : State) (hs : s.Keeps qz) :
    OutKeeps qz (execMuartGapTimeout s) := by
  unfold execMuartGapTimeout
  repeat' first
    | with_reducible apply OutKeeps.next
    | with_reducible assumption

theorem execStatus_keeps {qz : List Instr} (r : MuartReq) (s : State) (hs : s.Keeps qz) :
    OutKeeps qz (execStatus r s) := by
  unfold execStatus
  repeat' first
    | with_reducible apply OutKeeps.next
    | intro _
    | with_reducible assumption
    | with_reducible apply State.bytesOr_keeps
    | with_reducible apply State.muart_keeps
    | with_reducible apply State.muartTake_keeps

theorem execRead_keeps {qz : List Instr} (r : MuartReq) (s : State) (hs : s.Keeps qz) :
    OutKeeps qz (execRead r s) := by
  unfold execRead
  repeat' first
    | with_reducible apply OutKeeps.next
    | intro _
    | with_reducible assumption
    | with_reducible apply State.muart_keeps
    | with_reducible apply State.muartTake_keeps
    | with_reducible apply State.Keeps.ite

theorem execAck_keeps {qz : List Instr} (r : MuartReq) (s : State) (hs : s.Keeps qz) :
    OutKeeps qz (execAck r s) := by
  unfold execAck
  repeat' first
    | with_reducible apply OutKeeps.next
    | intro _
    | with_reducible assumption
    | with_reducible apply State.modMetro_keeps
    | with_reducible apply State.muart_keeps
    | with_reducible apply State.muartTake_keeps
    | with_reducible apply State.Keeps.ite

theorem execHead_keeps {qz : List Instr} (r : MuartReq) (s : State) (hs : s.Keeps qz) :
    OutKeeps qz (execHead r s) := by
  unfold execHead
  repeat' first
    | with_reducible apply OutKeeps.next
    | intro _
    | with_reducible assumption
    | with_reducible apply State.freshBytes_keeps
    | with_reducible apply State.muart_keeps
    | with_reducible apply State.muartTake_keeps
    | dsimp only
    | split

theorem execSettings_keeps {qz : List Instr} (r : MuartReq) (s : State) (hs : s.Keeps qz) :
    OutKeeps qz (execSettings r s) := by
  unfold execSettings
  repeat' first
    | with_reducible apply OutKeeps.next
    | intro _
    | with_reducible assumption
    | with_reducible apply State.modMetro_keeps
    | with_reducible apply State.muart_keeps
    | with_reducible apply State.muartTake_keeps
    | with_reducible apply State.Keeps.ite

theorem execSetTime_keeps {qz : List Instr} (r : MuartReq) (s : State) (hs : s.Keeps qz) :
    OutKeeps qz (execSetTime r s) := by
  unfold execSetTime
  repeat' first
    | with_reducible apply OutKeeps.next
    | intro _
    | with_reducible assumption
    | with_reducible apply State.modMetro_keeps
    | with_reducible apply State.muart_keeps
    | with_reducible apply State.muartSealed_keeps
    | with_reducible apply State.muartTake_keeps
    | with_reducible apply State.Keeps.ite

theorem execCalRead_keeps {qz : List Instr} (r : MuartReq) (s : State) (hs : s.Keeps qz) :
    OutKeeps qz (execCalRead r s) := by
  unfold execCalRead
  repeat' first
    | with_reducible apply OutKeeps.next
    | intro _
    | with_reducible assumption
    | with_reducible apply State.freshBytes_keeps
    | with_reducible apply State.muart_keeps
    | with_reducible apply State.muartTake_keeps
    | dsimp only
    | split

theorem execCalSet_keeps {qz : List Instr} (r : MuartReq) (s : State) (hs : s.Keeps qz) :
    OutKeeps qz (execCalSet r s) := by
  unfold execCalSet
  repeat' first
    | with_reducible apply OutKeeps.next
    | intro _
    | with_reducible assumption
    | with_reducible apply State.modMetro_keeps
    | with_reducible apply State.muart_keeps
    | with_reducible apply State.muartTake_keeps
    | with_reducible apply State.Keeps.ite

theorem execCalMeasure_keeps {qz : List Instr} (r : MuartReq) (s : State) (hs : s.Keeps qz) :
    OutKeeps qz (execCalMeasure r s) := by
  unfold execCalMeasure
  repeat' first
    | with_reducible apply OutKeeps.next
    | intro _
    | with_reducible assumption
    | with_reducible apply State.modMetro_keeps
    | with_reducible apply State.muartTake_keeps

theorem execCalCheck_keeps {qz : List Instr} (r : MuartReq) (s : State) (hs : s.Keeps qz) :
    OutKeeps qz (execCalCheck r s) := by
  unfold execCalCheck
  repeat' first
    | with_reducible apply OutKeeps.next
    | intro _
    | with_reducible assumption
    | with_reducible apply State.modMetro_keeps
    | with_reducible apply State.muartTake_keeps

theorem execCalMeasureDone_keeps {qz : List Instr} (vals : List Nat) (s : State) (hs : s.Keeps qz) :
    OutKeeps qz (execCalMeasureDone vals s) := by
  unfold execCalMeasureDone
  repeat' first
    | with_reducible apply OutKeeps.next
    | with_reducible assumption
    | with_reducible apply State.modMetro_keeps
    | with_reducible apply State.muart_keeps
    | with_reducible apply State.Keeps.ite
    | dsimp only
    | split

theorem execCalCheckDone_keeps {qz : List Instr} (vals : List Nat) (s : State) (hs : s.Keeps qz) :
    OutKeeps qz (execCalCheckDone vals s) := by
  unfold execCalCheckDone
  repeat' first
    | with_reducible apply OutKeeps.next
    | with_reducible assumption
    | with_reducible apply State.modMetro_keeps
    | with_reducible apply State.muart_keeps
    | with_reducible apply State.Keeps.ite
    | dsimp only
    | split

theorem execCalCommit_keeps {qz : List Instr} (r : MuartReq) (s : State) (hs : s.Keeps qz) :
    OutKeeps qz (execCalCommit r s) := by
  unfold execCalCommit
  repeat' first
    | with_reducible apply OutKeeps.next
    | intro _
    | with_reducible assumption
    | with_reducible apply State.modMetro_keeps
    | with_reducible apply State.muart_keeps
    | with_reducible apply State.muartTake_keeps
    | with_reducible apply State.Keeps.ite
    | dsimp only
    | split

theorem execSeal_keeps {qz : List Instr} (r : MuartReq) (s : State) (hs : s.Keeps qz) :
    OutKeeps qz (execSeal r s) := by
  unfold execSeal
  repeat' first
    | with_reducible apply OutKeeps.next
    | intro _
    | with_reducible assumption
    | with_reducible apply State.modMetro_keeps
    | with_reducible apply State.muart_keeps
    | with_reducible apply State.muartTake_keeps
    | split

theorem execCalendarTick_keeps {qz : List Instr} (s : State) (hs : s.Keeps qz) :
    OutKeeps qz (execCalendarTick s) := by
  unfold execCalendarTick
  repeat' first
    | with_reducible apply OutKeeps.next
    | with_reducible assumption
    | with_reducible apply State.modMetro_keeps
    | with_reducible apply State.Keeps.ite

theorem execCalendarTrim_keeps {qz : List Instr} (temp : Int) (s : State) (hs : s.Keeps qz) :
    OutKeeps qz (execCalendarTrim temp s) := by
  unfold execCalendarTrim
  repeat' first
    | with_reducible apply OutKeeps.next
    | with_reducible assumption
    | with_reducible apply State.modMetro_keeps
    | with_reducible apply State.Keeps.ite

theorem execCalendarStop_keeps {qz : List Instr} (s : State) (hs : s.Keeps qz) :
    OutKeeps qz (execCalendarStop s) := by
  unfold execCalendarStop
  repeat' first
    | with_reducible apply OutKeeps.next
    | with_reducible assumption
    | with_reducible apply State.fresh_keeps
    | with_reducible apply State.modMetro_keeps
    | with_reducible apply State.Keeps.ite

theorem execMlinkSecondMarker_keeps {qz : List Instr} (s : State) (hs : s.Keeps qz) :
    OutKeeps qz (execMlinkSecondMarker s) := by
  unfold execMlinkSecondMarker
  repeat' first
    | with_reducible apply OutKeeps.next
    | with_reducible assumption
    | with_reducible apply State.modMetro_keeps
    | with_reducible apply State.wr_keeps
    | with_reducible apply State.Keeps.ite

theorem State.wrAll_keeps {qz : List Instr}   : ∀ (x0 : List (Nat × Word)) (x1 : State),
    x1.Keeps qz → State.Keeps qz (State.wrAll x0 x1) := by
  intro x0 x1
  fun_induction State.wrAll x0 x1
  all_goals repeat' first
    | intro _
    | with_reducible assumption
    | with_reducible apply State.wr_keeps
    | with_reducible apply_assumption

theorem State.announce_keeps {qz : List Instr} (s : State) (r : LegalRec) (hs : s.Keeps qz) :
    State.Keeps qz (State.announce s r) := by
  unfold State.announce
  repeat' first
    | with_reducible assumption
    | with_reducible apply State.raise_keeps
    | with_reducible apply State.Keeps.ite

theorem State.announceAll_keeps {qz : List Instr}   : ∀ (x0 : List LegalRec) (x1 : State),
    x1.Keeps qz → State.Keeps qz (State.announceAll x0 x1) := by
  intro x0 x1
  fun_induction State.announceAll x0 x1
  all_goals repeat' first
    | intro _
    | with_reducible assumption
    | with_reducible apply State.announce_keeps
    | with_reducible apply_assumption

theorem State.zvSendOwn_keeps {qz : List Instr} (s : State) (dst : Mac) (typ : Nat) (flags : Nat) (bs : List Byte) (hs : s.Keeps qz) :
    State.Keeps qz (State.zvSendOwn s dst typ flags bs) := by
  unfold State.zvSendOwn
  repeat' first
    | with_reducible assumption
    | with_reducible apply State.emit_keeps
    | with_reducible apply State.modNet_keeps
    | with_reducible rfl

theorem State.toReport_keeps {qz : List Instr} (typ : Nat) (flags : Nat) (bs : List Byte)  : ∀ (x0 : List Nat) (x1 : State),
    x1.Keeps qz → State.Keeps qz (State.toReport typ flags bs x0 x1) := by
  intro x0 x1
  fun_induction State.toReport typ flags bs x0 x1
  all_goals repeat' first
    | intro _
    | with_reducible assumption
    | with_reducible apply State.zvSendOwn_keeps
    | with_reducible apply State.Keeps.ite
    | with_reducible apply_assumption

theorem State.levelSend_keeps {qz : List Instr} (s : State) (laeq : Nat) (seq : Nat) (legal : Bool) (hs : s.Keeps qz) :
    State.Keeps qz (State.levelSend s laeq seq legal) := by
  unfold State.levelSend
  repeat' first
    | with_reducible assumption
    | with_reducible apply State.toReport_keeps
    | with_reducible apply State.Keeps.ite

theorem State.limUpdate_keeps {qz : List Instr} (s : State) (laeq : Option Nat) (hs : s.Keeps qz) :
    State.Keeps qz (State.limUpdate s laeq) := by
  unfold State.limUpdate
  repeat' first
    | with_reducible assumption
    | with_reducible apply State.modMetro_keeps
    | with_reducible apply State.setF_keeps
    | with_reducible apply State.Keeps.ite
    | dsimp only
    | split

theorem State.limCfgWritten_keeps {qz : List Instr} (s : State) (hs : s.Keeps qz) :
    State.Keeps qz (State.limCfgWritten s) := by
  unfold State.limCfgWritten
  repeat' first
    | with_reducible assumption
    | with_reducible apply State.setF_keeps
    | with_reducible apply State.Keeps.ite

theorem State.secFrame_keeps {qz : List Instr} (s : State) (f : SecFrame) (hs : s.Keeps qz) :
    State.Keeps qz (State.secFrame s f) := by
  unfold State.secFrame
  repeat' first
    | with_reducible assumption
    | with_reducible apply State.announceAll_keeps
    | with_reducible apply State.levelSend_keeps
    | with_reducible apply State.limUpdate_keeps
    | with_reducible apply State.modMetro_keeps
    | with_reducible apply State.wrAll_keeps
    | split

theorem execMlinkFrame_keeps {qz : List Instr} (f : MFrame) (s : State) (hs : s.Keeps qz) :
    OutKeeps qz (execMlinkFrame f s) := by
  unfold execMlinkFrame
  repeat' first
    | with_reducible apply OutKeeps.next
    | with_reducible assumption
    | with_reducible apply State.incSat_keeps
    | with_reducible apply State.modErr_keeps
    | with_reducible apply State.raise_keeps
    | with_reducible apply State.secFrame_keeps
    | with_reducible apply State.setF_keeps
    | with_reducible apply State.Keeps.ite
    | dsimp only
    | split

theorem execMReadRequest_keeps {qz : List Instr} (s : State) (hs : s.Keeps qz) :
    OutKeeps qz (execMReadRequest s) := by
  unfold execMReadRequest
  repeat' first
    | with_reducible apply OutKeeps.next
    | with_reducible assumption
    | with_reducible apply State.finishBad_keeps
    | with_reducible apply State.finishDone_keeps
    | with_reducible apply State.modMetro_keeps
    | with_reducible apply State.putPayload_keeps
    | with_reducible apply State.Keeps.ite
    | dsimp only
    | split

theorem execMetrologyReadTimeout_keeps {qz : List Instr} (s : State) (hs : s.Keeps qz) :
    OutKeeps qz (execMetrologyReadTimeout s) := by
  unfold execMetrologyReadTimeout
  repeat' first
    | with_reducible apply OutKeeps.next
    | with_reducible assumption
    | with_reducible apply State.finishBad_keeps
    | with_reducible apply State.modMetro_keeps
    | with_reducible apply State.Keeps.ite
    | split

theorem State.calTimeRead_keeps {qz : List Instr} (s : State) (a : Nat) (hs : s.Keeps qz) :
    State.Keeps qz (State.calTimeRead s a).2 := by
  unfold State.calTimeRead
  repeat' first
    | with_reducible assumption
    | with_reducible apply State.modMetro_keeps
    | with_reducible apply State.Keeps.ite_snd

end Sys2Proof.Machine
end

