-- ==== Sys2Proof/Laws/KeepsErrors.lean ====
section
/-!
SUPPORT. What the definitions of Machine/Errors.lean keep.
-/
namespace Sys2Proof.Machine

theorem State.worst_keeps {qz : List Instr} (s : State) (level : Nat) (hs : s.Keeps qz) :
    State.Keeps qz (State.worst s level) := by
  unfold State.worst
  repeat' first
    | with_reducible assumption
    | with_reducible apply State.modNet_keeps
    | with_reducible apply State.setF_keeps
    | with_reducible rfl

theorem State.corrected_keeps {qz : List Instr} (s : State) (st : Nat) (addr : Nat) (hs : s.Keeps qz) :
    State.Keeps qz (State.corrected s st addr) := by
  unfold State.corrected
  repeat' first
    | with_reducible assumption
    | with_reducible apply State.incSat_keeps
    | with_reducible apply State.modErr_keeps
    | with_reducible apply State.raiseFLimited_keeps
    | with_reducible apply State.raiseLimited_keeps
    | with_reducible apply State.setF_keeps
    | with_reducible apply State.worst_keeps
    | with_reducible apply State.Keeps.ite
    | split

theorem execMemSingleBitError_keeps {qz : List Instr} (st : Fin 28) (addr : Nat) (s : State) (hs : s.Keeps qz) :
    OutKeeps qz (execMemSingleBitError st addr s) := by
  unfold execMemSingleBitError
  repeat' first
    | with_reducible apply OutKeeps.next
    | with_reducible assumption
    | with_reducible apply State.corrected_keeps

theorem State.uncorrected_keeps {qz : List Instr} (s : State) (st : Nat) (hs : s.Keeps qz) :
    State.Keeps qz (State.uncorrected s st) := by
  unfold State.uncorrected
  repeat' first
    | with_reducible assumption
    | with_reducible apply State.incSat_keeps
    | with_reducible apply State.modErr_keeps
    | with_reducible apply State.setF_keeps
    | with_reducible apply State.Keeps.ite
    | dsimp only
    | split

theorem State.memLast_keeps {qz : List Instr} (s : State) (st : Nat) (addr : Nat) (level : Nat) (kind : Nat) (index : Nat) (hs : s.Keeps qz) :
    State.Keeps qz (State.memLast s st addr level kind index) := by
  unfold State.memLast
  repeat' first
    | with_reducible assumption
    | with_reducible apply State.wr_keeps

theorem State.memDegraded_keeps {qz : List Instr} (s : State) (st : Nat) (addr : Nat) (kind : Nat) (index : Nat) (hs : s.Keeps qz) :
    State.Keeps qz (State.memDegraded s st addr kind index) := by
  unfold State.memDegraded
  repeat' first
    | with_reducible assumption
    | with_reducible apply State.memLast_keeps
    | with_reducible apply State.raise_keeps
    | with_reducible apply State.raiseF_keeps
    | with_reducible apply State.Keeps.ite

theorem State.degradedCount_keeps {qz : List Instr} (s : State) (hs : s.Keeps qz) :
    State.Keeps qz (State.degradedCount s) := by
  unfold State.degradedCount
  repeat' first
    | with_reducible assumption
    | with_reducible apply State.incSat_keeps
    | with_reducible apply State.worst_keeps

theorem State.muteSinks_keeps {qz : List Instr}   : ∀ (x0 : List Nat) (x1 : State),
    x1.Keeps qz → State.Keeps qz (State.muteSinks x0 x1) := by
  intro x0 x1
  fun_induction State.muteSinks x0 x1
  all_goals repeat' first
    | intro _
    | with_reducible assumption
    | with_reducible apply State.modErr_keeps
    | with_reducible apply State.raise_keeps
    | with_reducible apply State.Keeps.ite
    | with_reducible apply_assumption

theorem State.sinksOf_keeps {qz : List Instr} (s : State) (dep : Nat → Bool) (cause : Nat) (hs : s.Keeps qz) :
    State.Keeps qz (State.sinksOf s dep cause) := by
  unfold State.sinksOf
  repeat' first
    | with_reducible assumption
    | with_reducible apply State.modTth_keeps
    | with_reducible apply State.muteSinks_keeps
    | with_reducible apply State.Keeps.ite
    | with_reducible rfl

theorem State.unmuteList_keeps {qz : List Instr} (ts : Nat)  : ∀ (x0 : List Nat) (x1 : State),
    x1.Keeps qz → State.Keeps qz (State.unmuteList ts x0 x1) := by
  intro x0 x1
  fun_induction State.unmuteList ts x0 x1
  all_goals repeat' first
    | intro _
    | with_reducible assumption
    | with_reducible apply State.modErr_keeps
    | with_reducible apply State.raiseAt_keeps
    | with_reducible apply State.Keeps.ite
    | with_reducible apply_assumption

theorem State.unmuteAll_keeps {qz : List Instr} (s : State) (ts : Nat) (hs : s.Keeps qz) :
    State.Keeps qz (State.unmuteAll s ts) := by
  unfold State.unmuteAll
  repeat' first
    | with_reducible assumption
    | with_reducible apply State.unmuteList_keeps

theorem State.faultAll_keeps {qz : List Instr} (dep : Option Nat)  : ∀ (x0 : List Staged) (x1 : State),
    x1.Keeps qz → State.Keeps qz (State.faultAll dep x0 x1) := by
  intro x0 x1
  fun_induction State.faultAll dep x0 x1
  all_goals repeat' first
    | intro _
    | with_reducible assumption
    | with_reducible apply State.finishOpt_keeps
    | with_reducible apply_assumption

theorem State.clusterDown_keeps {qz : List Instr} (s : State) (n : Nat) (cause : Nat) (l : Nat) (hs : s.Keeps qz) :
    State.Keeps qz (State.clusterDown s n cause l) := by
  unfold State.clusterDown
  repeat' first
    | with_reducible assumption
    | with_reducible apply State.admitShow_keeps
    | with_reducible apply State.degradedCount_keeps
    | with_reducible apply State.faultAll_keeps
    | with_reducible apply State.maskShow_keeps
    | with_reducible apply State.modEng_keeps
    | with_reducible apply State.modErr_keeps
    | with_reducible apply State.modStage_keeps
    | with_reducible apply State.ownerReset_keeps
    | with_reducible apply State.raise_keeps
    | with_reducible apply State.setF_keeps
    | with_reducible apply State.sinksOf_keeps
    | with_reducible apply State.Keeps.ite

theorem execEngineDeadlineMiss_keeps {qz : List Instr} (n : Fin 8) (s : State) (hs : s.Keeps qz) :
    OutKeeps qz (execEngineDeadlineMiss n s) := by
  unfold execEngineDeadlineMiss
  repeat' first
    | with_reducible apply OutKeeps.next
    | with_reducible assumption
    | with_reducible apply State.clusterDown_keeps
    | with_reducible apply State.engMiss_keeps
    | with_reducible apply State.Keeps.ite
    | dsimp only
    | split

theorem execParisonEscape_keeps {qz : List Instr} (n : Fin 8) (s : State) (hs : s.Keeps qz) :
    OutKeeps qz (execParisonEscape n s) := by
  unfold execParisonEscape
  repeat' first
    | with_reducible apply OutKeeps.next
    | with_reducible assumption
    | with_reducible apply State.clusterDown_keeps
    | with_reducible apply State.raise_keeps

theorem State.stageRebuild_keeps {qz : List Instr} (s : State) (hs : s.Keeps qz) : ∀ (x0 : Stg),
    State.Keeps qz (State.stageRebuild s x0) := by
  intro x0
  unfold State.stageRebuild
  repeat' first
    | with_reducible assumption
    | with_reducible apply State.modMp_keeps
    | with_reducible apply State.scaleShow_keeps
    | with_reducible apply State.setF_keeps
    | split

theorem State.stageShow_keeps {qz : List Instr} (s : State) (hs : s.Keeps qz) :
    State.Keeps qz (State.stageShow s) := by
  unfold State.stageShow
  repeat' first
    | with_reducible assumption
    | with_reducible apply State.setF_keeps

theorem State.stageDown_keeps {qz : List Instr} (s : State) (g : Stg) (hs : s.Keeps qz) :
    State.Keeps qz (State.stageDown s g) := by
  unfold State.stageDown
  repeat' first
    | with_reducible assumption
    | with_reducible apply State.degradedCount_keeps
    | with_reducible apply State.modErr_keeps
    | with_reducible apply State.raise_keeps
    | with_reducible apply State.sinksOf_keeps
    | with_reducible apply State.stageRebuild_keeps
    | with_reducible apply State.stageShow_keeps
    | with_reducible apply State.Keeps.ite

theorem execStageResume_keeps {qz : List Instr} (g : Stg) (s : State) (hs : s.Keeps qz) :
    OutKeeps qz (execStageResume g s) := by
  unfold execStageResume
  repeat' first
    | with_reducible apply OutKeeps.next
    | with_reducible assumption
    | with_reducible apply State.ballastEval_keeps
    | with_reducible apply State.modErr_keeps
    | with_reducible apply State.raiseAt_keeps
    | with_reducible apply State.stageShow_keeps
    | with_reducible apply State.unmuteAll_keeps
    | with_reducible apply State.Keeps.ite
    | split

theorem State.hubClear_keeps {qz : List Instr} (s : State) (hs : s.Keeps qz) : State.Keeps qz s.hubClear := by
  obtain ⟨h0, ⟨r, m, sn, w, p, a, b⟩, l1, l2, l3, l4, l5, l6, l7, l8, l9, l10⟩ := hs
  refine ⟨h0, ⟨RegFile.wf_resetWhere _ _ r, rfl, sn, rfl, p, a, b⟩, rfl, rfl, ?_, rfl, l5, l6, l7, l8, rfl, rfl⟩
  exact (List.length_map _).trans l3

theorem State.hubReset_keeps {qz : List Instr} (s : State) (cause : Nat) (hs : s.Keeps qz) :
    State.Keeps qz (State.hubReset s cause) := by
  unfold State.hubReset
  repeat' first
    | with_reducible assumption
    | with_reducible apply State.flashCut_keeps
    | with_reducible apply State.hubClear_keeps
    | with_reducible apply State.incSat_keeps
    | with_reducible apply State.modPower_keeps
    | with_reducible apply State.setF_keeps
    | with_reducible apply State.wr_keeps

theorem execHubReset_keeps {qz : List Instr} (s : State) (hs : s.Keeps qz) :
    OutKeeps qz (execHubReset s) := by
  unfold execHubReset
  repeat' first
    | with_reducible apply OutKeeps.next
    | with_reducible assumption
    | with_reducible apply State.hubReset_keeps
    | with_reducible apply State.Keeps.ite

theorem execMcWatchdogExpire_keeps {qz : List Instr} (s : State) (hs : s.Keeps qz) :
    OutKeeps qz (execMcWatchdogExpire s) := by
  unfold execMcWatchdogExpire
  repeat' first
    | with_reducible apply OutKeeps.next
    | with_reducible assumption
    | with_reducible apply State.hubReset_keeps
    | with_reducible apply State.Keeps.ite

theorem execSyspllLockLoss_keeps {qz : List Instr} (s : State) (hs : s.Keeps qz) :
    OutKeeps qz (execSyspllLockLoss s) := by
  unfold execSyspllLockLoss
  repeat' first
    | with_reducible apply OutKeeps.next
    | with_reducible assumption
    | with_reducible apply State.hubReset_keeps
    | with_reducible apply State.incSat_keeps
    | with_reducible apply State.Keeps.ite

theorem State.gatherGone_keeps {qz : List Instr} (s : State) (i : Nat) (hs : s.Keeps qz) :
    State.Keeps qz (State.gatherGone s i) := by
  unfold State.gatherGone
  repeat' first
    | with_reducible assumption
    | with_reducible apply State.modLsn_keeps

theorem State.clusterError_keeps {qz : List Instr} (s : State) (st : Nat) (addr : Nat) (n : Nat) (hs : s.Keeps qz) :
    State.Keeps qz (State.clusterError s st addr n) := by
  unfold State.clusterError
  repeat' first
    | with_reducible assumption
    | with_reducible apply State.clusterDown_keeps
    | with_reducible apply State.memDegraded_keeps
    | with_reducible apply State.Keeps.ite

theorem State.uncorrectable_keeps {qz : List Instr} (s : State) (st : Nat) (addr : Nat) (place : ErrPlace) (hs : s.Keeps qz) :
    State.Keeps qz (State.uncorrectable s st addr place) := by
  unfold State.uncorrectable
  repeat' first
    | with_reducible assumption
    | with_reducible apply State.chainReset_keeps
    | with_reducible apply State.clusterError_keeps
    | with_reducible apply State.coefBankFail_keeps
    | with_reducible apply State.degradedCount_keeps
    | with_reducible apply State.gatherGone_keeps
    | with_reducible apply State.hubReset_keeps
    | with_reducible apply State.incSat_keeps
    | with_reducible apply State.memDegraded_keeps
    | with_reducible apply State.memLast_keeps
    | with_reducible apply State.modCol_keeps
    | with_reducible apply State.modEng_keeps
    | with_reducible apply State.setF_keeps
    | with_reducible apply State.squash_keeps
    | with_reducible apply State.stageDown_keeps
    | with_reducible apply State.uncorrected_keeps
    | with_reducible apply State.worst_keeps
    | with_reducible apply State.Keeps.ite
    | dsimp only
    | split

theorem execMemUncorrectable_keeps {qz : List Instr} (st : Fin 28) (addr : Nat) (place : ErrPlace) (s : State) (hs : s.Keeps qz) :
    OutKeeps qz (execMemUncorrectable st addr place s) := by
  unfold execMemUncorrectable
  repeat' first
    | with_reducible apply OutKeeps.next
    | with_reducible assumption
    | with_reducible apply State.uncorrectable_keeps

theorem State.scrubbed_keeps {qz : List Instr} (s : State) (st : Nat) (addr : Nat) (hs : s.Keeps qz) : ∀ (x0 : ScrubFind),
    State.Keeps qz (State.scrubbed s st addr x0) := by
  intro x0
  unfold State.scrubbed
  repeat' first
    | with_reducible assumption
    | with_reducible apply State.corrected_keeps
    | with_reducible apply State.uncorrectable_keeps
    | split

theorem execSramScrub_keeps {qz : List Instr} (st : Fin 28) (addr : Nat) (find : ScrubFind) (s : State) (hs : s.Keeps qz) :
    OutKeeps qz (execSramScrub st addr find s) := by
  unfold execSramScrub
  repeat' first
    | with_reducible apply OutKeeps.next
    | with_reducible assumption
    | with_reducible apply State.scrubbed_keeps
    | with_reducible apply State.Keeps.ite

theorem State.rowRepair_keeps {qz : List Instr} (s : State) (row : Nat) (hs : s.Keeps qz) :
    State.Keeps qz (State.rowRepair s row) := by
  unfold State.rowRepair
  repeat' first
    | with_reducible assumption
    | with_reducible apply State.incSat_keeps
    | with_reducible apply State.modErr_keeps
    | with_reducible apply State.raise_keeps
    | with_reducible apply State.setF_keeps
    | with_reducible apply State.Keeps.ite

theorem execDramScrub_keeps {qz : List Instr} (addr : Nat) (find : ScrubFind) (s : State) (hs : s.Keeps qz) :
    OutKeeps qz (execDramScrub addr find s) := by
  unfold execDramScrub
  repeat' first
    | with_reducible apply OutKeeps.next
    | with_reducible assumption
    | with_reducible apply State.rowRepair_keeps
    | with_reducible apply State.scrubbed_keeps
    | with_reducible apply State.Keeps.ite

theorem State.memCntClr_keeps {qz : List Instr} (s : State) (hs : s.Keeps qz) :
    State.Keeps qz (State.memCntClr s) := by
  unfold State.memCntClr
  repeat' first
    | with_reducible assumption
    | with_reducible apply State.setF_keeps
    | with_reducible apply State.zeroAll_keeps

end Sys2Proof.Machine
end

