-- ==== Sys2Proof/Laws/KeepsClocks.lean ====
section
/-!
SUPPORT. What the definitions of Machine/Clocks.lean keep.
-/
namespace Sys2Proof.Machine

theorem State.modDirOf_keeps {qz : List Instr} (s : State) (w : LinkWay) (f : LinkDir → LinkDir) (hs : s.Keeps qz) :
    State.Keeps qz (State.modDirOf s w f) := by
  unfold State.modDirOf
  repeat' first
    | with_reducible assumption
    | with_reducible apply State.modLink_keeps
    | split

theorem execFlitReceived_keeps {qz : List Instr} (dir : LinkWay) (seq : Fin 256) (crcOk : Bool) (kind : FlitKind) (s : State) (hs : s.Keeps qz) :
    OutKeeps qz (execFlitReceived dir seq crcOk kind s) := by
  unfold execFlitReceived
  repeat' first
    | with_reducible apply OutKeeps.next
    | with_reducible assumption
    | with_reducible apply State.emit_keeps
    | with_reducible apply State.modDirOf_keeps
    | with_reducible apply State.Keeps.ite

theorem execLinkReplay_keeps {qz : List Instr} (dir : LinkWay) (first : Fin 256) (s : State) (hs : s.Keeps qz) :
    OutKeeps qz (execLinkReplay dir first s) := by
  unfold execLinkReplay
  repeat' first
    | with_reducible apply OutKeeps.next
    | with_reducible assumption
    | with_reducible apply State.emit_keeps
    | with_reducible apply State.incSat_keeps
    | with_reducible apply State.modDirOf_keeps
    | with_reducible apply State.worst_keeps
    | with_reducible apply State.Keeps.ite

theorem execLinkSampleSubstitute_keeps {qz : List Instr} (n : Nat) (s : State) (hs : s.Keeps qz) :
    OutKeeps qz (execLinkSampleSubstitute n s) := by
  unfold execLinkSampleSubstitute
  repeat' first
    | with_reducible apply OutKeeps.next
    | with_reducible assumption
    | with_reducible apply State.addSat_keeps
    | with_reducible apply State.degradedCount_keeps
    | with_reducible apply State.modLink_keeps
    | with_reducible apply State.raiseF_keeps
    | with_reducible apply State.Keeps.ite

theorem execFLinkDown_keeps {qz : List Instr} (s : State) (hs : s.Keeps qz) :
    OutKeeps qz (execFLinkDown s) := by
  unfold execFLinkDown
  repeat' first
    | with_reducible apply OutKeeps.next
    | with_reducible assumption
    | with_reducible apply State.modLink_keeps
    | with_reducible apply State.tthLinkLost_keeps
    | with_reducible apply State.Keeps.ite

theorem execHLinkDown_keeps {qz : List Instr} (s : State) (hs : s.Keeps qz) :
    OutKeeps qz (execHLinkDown s) := by
  unfold execHLinkDown
  repeat' first
    | with_reducible apply OutKeeps.next
    | with_reducible assumption
    | with_reducible apply State.incSat_keeps
    | with_reducible apply State.modLink_keeps
    | with_reducible apply State.raise_keeps
    | with_reducible apply State.setF_keeps
    | with_reducible apply State.Keeps.ite

theorem State.spaceReturn_keeps {qz : List Instr} (s : State) (hs : s.Keeps qz) :
    State.Keeps qz (State.spaceReturn s) := by
  unfold State.spaceReturn
  repeat' first
    | with_reducible assumption
    | with_reducible apply State.modCol_keeps
    | with_reducible apply State.pumpAll_keeps

theorem execCollectorSpaceReturn_keeps {qz : List Instr} (s : State) (hs : s.Keeps qz) :
    OutKeeps qz (execCollectorSpaceReturn s) := by
  unfold execCollectorSpaceReturn
  repeat' first
    | with_reducible apply OutKeeps.next
    | with_reducible assumption
    | with_reducible apply State.spaceReturn_keeps
    | with_reducible apply State.Keeps.ite

theorem State.divergentEvents_keeps {qz : List Instr}   : ∀ (x0 : List Nat) (x1 : State),
    x1.Keeps qz → State.Keeps qz (State.divergentEvents x0 x1) := by
  intro x0 x1
  fun_induction State.divergentEvents x0 x1
  all_goals repeat' first
    | intro _
    | with_reducible assumption
    | with_reducible apply State.raise_keeps
    | with_reducible apply_assumption

theorem State.bootEvents_keeps {qz : List Instr} (s : State) (hs : s.Keeps qz) :
    State.Keeps qz (State.bootEvents s) := by
  unfold State.bootEvents
  repeat' first
    | intro _
    | with_reducible assumption
    | with_reducible apply State.divergentEvents_keeps
    | with_reducible apply State.modFlash_keeps
    | with_reducible apply State.modPower_keeps
    | with_reducible apply State.raise_keeps
    | (guard_target = FlashX.Ok _; first | assumption | exact And.intro (And.left (by assumption)) (And.right (by assumption)))
    | split

theorem execDieLinkUp_keeps {qz : List Instr} (s : State) (hs : s.Keeps qz) :
    OutKeeps qz (execDieLinkUp s) := by
  unfold execDieLinkUp
  repeat' first
    | with_reducible apply OutKeeps.next
    | with_reducible assumption
    | with_reducible apply State.bootEvents_keeps
    | with_reducible apply State.modLink_keeps
    | with_reducible apply State.raise_keeps
    | with_reducible apply State.setF_keeps
    | with_reducible apply State.spaceReturn_keeps
    | with_reducible apply State.tthLinkBack_keeps
    | with_reducible apply State.Keeps.ite

theorem execLinkRetrainTimeout_keeps {qz : List Instr} (s : State) (hs : s.Keeps qz) :
    OutKeeps qz (execLinkRetrainTimeout s) := by
  unfold execLinkRetrainTimeout
  repeat' first
    | with_reducible apply OutKeeps.next
    | with_reducible assumption
    | with_reducible apply State.hubReset_keeps
    | with_reducible apply State.Keeps.ite
    | split

theorem execParityWordReplaced_keeps {qz : List Instr} (d : Fin 2) (up : Bool) (s : State) (hs : s.Keeps qz) :
    OutKeeps qz (execParityWordReplaced d up s) := by
  unfold execParityWordReplaced
  repeat' first
    | with_reducible apply OutKeeps.next
    | with_reducible assumption
    | with_reducible apply State.incSat_keeps
    | with_reducible apply State.modLink_keeps
    | with_reducible apply State.worst_keeps

theorem execDieLinkParity_keeps {qz : List Instr} (d : Fin 2) (up : Bool) (s : State) (hs : s.Keeps qz) :
    OutKeeps qz (execDieLinkParity d up s) := by
  unfold execDieLinkParity
  repeat' first
    | with_reducible apply OutKeeps.next
    | with_reducible assumption
    | with_reducible apply State.modLink_keeps
    | with_reducible apply State.raiseF_keeps
    | with_reducible apply State.touch_keeps
    | with_reducible apply State.Keeps.ite

theorem execLinkParityTrip_keeps {qz : List Instr} (d : Fin 2) (up : Bool) (s : State) (hs : s.Keeps qz) :
    OutKeeps qz (execLinkParityTrip d up s) := by
  unfold execLinkParityTrip
  repeat' first
    | with_reducible apply OutKeeps.next
    | with_reducible assumption
    | with_reducible apply State.pwrTrips_keeps
    | with_reducible apply State.Keeps.ite

theorem State.apllCommit_keeps {qz : List Instr} (s : State) (old : Word) (k : Nat) (hs : s.Keeps qz) :
    State.Keeps qz (State.apllCommit s old k) := by
  unfold State.apllCommit
  repeat' first
    | with_reducible assumption
    | with_reducible apply State.alignShow_keeps
    | with_reducible apply State.modClk_keeps
    | with_reducible apply State.modSap_keeps
    | with_reducible apply State.raiseFAt_keeps
    | with_reducible apply State.setF_keeps
    | with_reducible apply State.Keeps.ite
    | with_reducible rfl

theorem execAudioPllRefLost_keeps {qz : List Instr} (s : State) (hs : s.Keeps qz) :
    OutKeeps qz (execAudioPllRefLost s) := by
  unfold execAudioPllRefLost
  repeat' first
    | with_reducible apply OutKeeps.next
    | with_reducible assumption
    | with_reducible apply State.alignShow_keeps
    | with_reducible apply State.raiseF_keeps
    | with_reducible apply State.setF_keeps
    | with_reducible apply State.Keeps.ite

theorem execAudioPllRefReturn_keeps {qz : List Instr} (s : State) (hs : s.Keeps qz) :
    OutKeeps qz (execAudioPllRefReturn s) := by
  unfold execAudioPllRefReturn
  repeat' first
    | with_reducible apply OutKeeps.next
    | with_reducible assumption
    | with_reducible apply State.setF_keeps
    | with_reducible apply State.Keeps.ite

theorem State.pllLocks_keeps {qz : List Instr} (s : State) (hs : s.Keeps qz) :
    State.Keeps qz (State.pllLocks s) := by
  unfold State.pllLocks
  repeat' first
    | with_reducible assumption
    | with_reducible apply State.alignShow_keeps
    | with_reducible apply State.modClk_keeps
    | with_reducible apply State.raiseF_keeps
    | with_reducible apply State.setF_keeps
    | with_reducible apply State.Keeps.ite

theorem execAudioPllLocked_keeps {qz : List Instr} (s : State) (hs : s.Keeps qz) :
    OutKeeps qz (execAudioPllLocked s) := by
  unfold execAudioPllLocked
  repeat' first
    | with_reducible apply OutKeeps.next
    | with_reducible assumption
    | with_reducible apply State.pllLocks_keeps
    | with_reducible apply State.Keeps.ite

theorem execBlockSlip_keeps {qz : List Instr} (s : State) (hs : s.Keeps qz) :
    OutKeeps qz (execBlockSlip s) := by
  unfold execBlockSlip
  repeat' first
    | with_reducible apply OutKeeps.next
    | with_reducible assumption
    | with_reducible apply State.modClk_keeps
    | with_reducible apply State.raiseF_keeps
    | with_reducible apply State.Keeps.ite

end Sys2Proof.Machine
end

