-- ==== Sys2Proof/Laws/KeepsRegAccess.lean ====
section
/-!
SUPPORT. What the definitions of Machine/RegAccess.lean keep.
-/
namespace Sys2Proof.Machine

theorem gwinStep_wf (rf : RegFile) (h : rf.wf = true) : (gwinStep rf).wf = true := by
  unfold gwinStep
  split
  · exact RegFile.wf_setFld _ _ _ _ (RegFile.wf_setFld _ _ _ _ h)
  · exact h

theorem mirrorWrite_wf (rf : RegFile) (e : Nat × Word × Word) (h : rf.wf = true) : (mirrorWrite rf e).wf = true := by
  unfold mirrorWrite
  dsimp only
  split
  · refine gwinStep_wf _ ?_
    split
    · exact h
    · exact RegFile.wf_set _ _ _ h
  · split
    · exact h
    · exact RegFile.wf_set _ _ _ h

theorem RegFile.wf_foldl {α : Type} (f : RegFile → α → RegFile) (hf : ∀ rf a, rf.wf = true → (f rf a).wf = true) :
    ∀ (l : List α) (rf : RegFile), rf.wf = true → (l.foldl f rf).wf = true
  | [], _, h => h
  | a :: l, rf, h => RegFile.wf_foldl f hf l _ (hf rf a h)

theorem State.capture_wf (s : State) (h : s.regs.wf = true) : s.capture.wf = true := by
  unfold State.capture
  dsimp only
  refine RegFile.wf_foldl _ (fun rf _ h => RegFile.wf_set _ _ _ h) _ _ ?_
  have k : (List.foldl mirrorWrite (List.foldl (fun rf (p : Nat × Word) => RegFile.set rf p.1 p.2)
      (List.filter (fun c => onFront c.1) s.regs) s.frontComputed)
      (List.filter (fun e => e.1 != R.TTH_GWIN_DATA && e.1 != R.TTH_GWIN_ADDR) s.stage.toF)).wf = true :=
    RegFile.wf_foldl _ (fun rf e h => mirrorWrite_wf rf e h) _ _
      (RegFile.wf_foldl _ (fun rf _ h => RegFile.wf_set _ _ _ h) _ _ (RegFile.wf_filter _ _ h))
  split
  · exact RegFile.wf_set _ _ _ k
  · exact k

theorem State.tstWritten_keeps {qz : List Instr} (s : State) (k : Nat) (hs : s.Keeps qz) :
    State.Keeps qz (State.tstWritten s k) := by
  unfold State.tstWritten
  repeat' first
    | with_reducible assumption
    | with_reducible apply State.incSat_keeps
    | with_reducible apply State.setBit_keeps
    | with_reducible apply State.Keeps.ite

theorem execMirrorRefreshArrive_keeps {qz : List Instr} (s : State) (hs : s.Keeps qz) :
    OutKeeps qz (execMirrorRefreshArrive s) := by
  unfold execMirrorRefreshArrive
  refine OutKeeps.next (State.Keeps.ite ?_ hs)
  refine State.setF_keeps _ _ _ _ (State.wr_keeps _ _ _ ?_)
  obtain ⟨h0, ⟨r, mw, sn, rest⟩, l⟩ := hs
  refine ⟨h0, ⟨r, ?_, (fun _ e => nomatch (e : none = some _)), rest⟩, l⟩
  cases e : s.snap with
  | none => exact State.capture_wf s r
  | some p => exact sn p e

theorem State.latch_keeps {qz : List Instr} (s : State) (ag : Nat) (a : Nat) (hs : s.Keeps qz) :
    State.Keeps qz (State.latch s ag a) := by
  unfold State.latch
  repeat' first
    | with_reducible assumption
    | with_reducible apply State.modHost_keeps
    | with_reducible rfl

theorem State.readReg_keeps {qz : List Instr} (s : State) (ag a : Nat) (hs : s.Keeps qz) :
    State.Keeps qz (s.readReg ag a).2 := by
  unfold State.readReg
  refine State.Keeps.ite_snd (State.latch_keeps _ _ _ hs) (State.Keeps.ite_snd hs (State.Keeps.ite_snd
    (State.calTimeRead_keeps _ _ hs) (State.Keeps.ite_snd ?_ (State.Keeps.ite_snd ?_ (State.Keeps.ite_snd
      (State.fresh_keeps _ _ hs) hs)))))
  · obtain ⟨h0, ⟨r, mw, rest⟩, l⟩ := hs
    exact ⟨h0, ⟨r, gwinStep_wf _ mw, rest⟩, l⟩
  · exact State.Keeps.mk hs rfl rfl rfl rfl rfl rfl rfl rfl rfl rfl rfl rfl rfl

theorem State.accErr_keeps {qz : List Instr} (s : State) (ag : Nat) (kind : Nat) (a : Nat) (hs : s.Keeps qz) :
    State.Keeps qz (State.accErr s ag kind a) := by
  unfold State.accErr
  repeat' first
    | with_reducible assumption
    | with_reducible apply State.incSat_keeps
    | with_reducible apply State.setF_keeps
    | with_reducible apply State.wr_keeps

theorem State.windowRead_keeps {qz : List Instr} (s : State) (ag : Nat) (a : Nat) (hs : s.Keeps qz) :
    State.Keeps qz (State.windowRead s ag a).2 := by
  unfold State.windowRead
  repeat' first
    | with_reducible assumption
    | with_reducible apply State.accErr_keeps
    | with_reducible apply State.protViolation_keeps
    | with_reducible apply State.readReg_keeps
    | with_reducible apply State.Keeps.ite_snd

theorem State.holdRelease_keeps {qz : List Instr} (s : State) (hs : s.Keeps qz) :
    State.Keeps qz (State.holdRelease s) := by
  unfold State.holdRelease
  repeat' first
    | intro _
    | with_reducible assumption
    | with_reducible apply State.modStage_keeps
    | with_reducible apply State.setPair_keeps
    | with_reducible apply State.stageAct_keeps
    | with_reducible apply State.Keeps.foldl
    | dsimp only
    | split

theorem State.recoveryStart_keeps {qz : List Instr} (s : State) (hs : s.Keeps qz) :
    State.Keeps qz (State.recoveryStart s) := by
  unfold State.recoveryStart
  repeat' first
    | with_reducible assumption
    | with_reducible apply State.flashBegin_keeps
    | with_reducible apply State.setF_keeps
    | with_reducible apply State.Keeps.ite

theorem State.hookClk_keeps {qz : List Instr} (s : State) (a : Nat) (old : Word) (wo : Word) (hs : s.Keeps qz) :
    State.Keeps qz (State.hookClk s a old wo) := by
  unfold State.hookClk
  repeat' first
    | with_reducible assumption
    | with_reducible apply State.holdRelease_keeps
    | with_reducible apply State.recoveryStart_keeps
    | with_reducible apply State.setF_keeps
    | with_reducible apply State.Keeps.ite

theorem State.ringCtlWritten_keeps {qz : List Instr} (s : State) (r : Nat) (old : Word) (tags : List Nat) (hs : s.Keeps qz) :
    State.Keeps qz (State.ringCtlWritten s r old tags) := by
  unfold State.ringCtlWritten
  repeat' first
    | with_reducible assumption
    | with_reducible apply State.ringDisable_keeps
    | with_reducible apply State.ringEnable_keeps
    | with_reducible apply State.Keeps.ite

theorem State.hookHif_keeps {qz : List Instr} (s : State) (a : Nat) (old : Word) (wo : Word) (hs : s.Keeps qz) :
    State.Keeps qz (State.hookHif s a old wo) := by
  unfold State.hookHif
  repeat' first
    | with_reducible assumption
    | with_reducible apply State.hifCntClr_keeps
    | with_reducible apply State.modHost_keeps
    | with_reducible apply State.ringCtlWritten_keeps
    | with_reducible apply State.Keeps.ite
    | with_reducible rfl
    | split

theorem State.hookNet_keeps {qz : List Instr} (s : State) (a : Nat) (old : Word) (wo : Word) (hs : s.Keeps qz) :
    State.Keeps qz (State.hookNet s a old wo) := by
  unfold State.hookNet
  repeat' first
    | with_reducible assumption
    | with_reducible apply State.lsCfgWritten_keeps
    | with_reducible apply State.mdioGo_keeps
    | with_reducible apply State.netCntClr_keeps
    | with_reducible apply State.ownerReset_keeps
    | with_reducible apply State.ptpCfgWritten_keeps
    | with_reducible apply State.tkCfgWritten_keeps
    | with_reducible apply State.Keeps.ite
    | split

theorem State.hookSap_keeps {qz : List Instr} (s : State) (a : Nat) (old : Word) (v : Word) (hs : s.Keeps qz) :
    State.Keeps qz (State.hookSap s a old v) := by
  unfold State.hookSap
  repeat' first
    | with_reducible assumption
    | with_reducible apply State.sapCfgWritten_keeps
    | with_reducible apply State.sapShadow_keeps
    | with_reducible apply State.Keeps.ite
    | split

theorem State.hookAfe_keeps {qz : List Instr} (s : State) (a : Nat) (old : Word) (wo : Word) (hs : s.Keeps qz) :
    State.Keeps qz (State.hookAfe s a old wo) := by
  unfold State.hookAfe
  repeat' first
    | with_reducible assumption
    | with_reducible apply State.almBandWritten_keeps
    | with_reducible apply State.gainWritten_keeps
    | with_reducible apply State.gatherStart_keeps
    | with_reducible apply State.gatherStop_keeps
    | with_reducible apply State.lsnCfgWritten_keeps
    | with_reducible apply State.modeChanged_keeps
    | with_reducible apply State.railsShow_keeps
    | with_reducible apply State.Keeps.ite
    | split

theorem State.hookSns_keeps {qz : List Instr} (s : State) (a : Nat) (old : Word) (wo : Word) (v : Word) (hs : s.Keeps qz) :
    State.Keeps qz (State.hookSns s a old wo v) := by
  unfold State.hookSns
  repeat' first
    | with_reducible assumption
    | with_reducible apply State.calGainWritten_keeps
    | with_reducible apply State.calGo_keeps
    | with_reducible apply State.calOfsWritten_keeps
    | with_reducible apply State.injGo_keeps
    | with_reducible apply State.refWritten_keeps
    | with_reducible apply State.snsCfgWritten_keeps
    | with_reducible apply State.snsCntClr_keeps
    | with_reducible apply State.snsSoftware_keeps
    | with_reducible apply State.Keeps.ite

theorem State.hookFlt_keeps {qz : List Instr} (s : State) (a : Nat) (old : Word) (wo : Word) (v : Word) (hs : s.Keeps qz) :
    State.Keeps qz (State.hookFlt s a old wo v) := by
  unfold State.hookFlt
  repeat' first
    | with_reducible assumption
    | with_reducible apply State.armSync_keeps
    | with_reducible apply State.fltCntClr_keeps
    | with_reducible apply State.setDelay_keeps
    | with_reducible apply State.swSync_keeps
    | with_reducible apply State.swapGo_keeps
    | with_reducible apply State.Keeps.ite
    | split

theorem State.hookMp_keeps {qz : List Instr} (s : State) (a : Nat) (wo : Word) (hs : s.Keeps qz) :
    State.Keeps qz (State.hookMp s a wo) := by
  unfold State.hookMp
  repeat' first
    | with_reducible assumption
    | with_reducible apply State.mpCntClr_keeps
    | with_reducible apply State.stagePreset_keeps
    | with_reducible apply State.Keeps.ite

theorem State.hookTth_keeps {qz : List Instr} (s : State) (a : Nat) (old : Word) (wo : Word) (v : Word) (hs : s.Keeps qz) :
    State.Keeps qz (State.hookTth s a old wo v) := by
  unfold State.hookTth
  repeat' first
    | with_reducible assumption
    | with_reducible apply State.gwinWrite_keeps
    | with_reducible apply State.playGo_keeps
    | with_reducible apply State.playStop_keeps
    | with_reducible apply State.rateWritten_keeps
    | with_reducible apply State.servoClose_keeps
    | with_reducible apply State.setF_keeps
    | with_reducible apply State.toneRestart_keeps
    | with_reducible apply State.tthClrFault_keeps
    | with_reducible apply State.tthCntClr_keeps
    | with_reducible apply State.Keeps.ite
    | split

theorem State.hookPwr_keeps {qz : List Instr} (s : State) (a : Nat) (old : Word) (wo : Word) (hs : s.Keeps qz) :
    State.Keeps qz (State.hookPwr s a old wo) := by
  unfold State.hookPwr
  repeat' first
    | with_reducible assumption
    | with_reducible apply State.clearFault_keeps
    | with_reducible apply State.diagGo_keeps
    | with_reducible apply State.parWritten_keeps
    | with_reducible apply State.pwrCntClr_keeps
    | with_reducible apply State.Keeps.ite
    | dsimp only
    | split

theorem State.abandonClears_keeps {qz : List Instr} (w : Word)  : ∀ (x0 : List Nat) (x1 : State),
    x1.Keeps qz → State.Keeps qz (State.abandonClears w x0 x1) := by
  intro x0 x1
  fun_induction State.abandonClears w x0 x1
  all_goals repeat' first
    | intro _
    | with_reducible assumption
    | with_reducible apply State.abandonClear_keeps
    | with_reducible apply State.Keeps.ite
    | with_reducible apply_assumption

theorem State.hookEng_keeps {qz : List Instr} (s : State) (a : Nat) (wo : Word) (w1 : Word) (hs : s.Keeps qz) :
    State.Keeps qz (State.hookEng s a wo w1) := by
  unfold State.hookEng
  repeat' first
    | with_reducible assumption
    | with_reducible apply State.abandonClear_keeps
    | with_reducible apply State.abandonClears_keeps
    | with_reducible apply State.arbSnap_keeps
    | with_reducible apply State.engCntClr_keeps
    | with_reducible apply State.lckCntClr_keeps
    | with_reducible apply State.ownerReset_keeps
    | with_reducible apply State.Keeps.ite
    | split

theorem State.hookMem_keeps {qz : List Instr} (s : State) (a : Nat) (wo : Word) (hs : s.Keeps qz) :
    State.Keeps qz (State.hookMem s a wo) := by
  unfold State.hookMem
  repeat' first
    | with_reducible assumption
    | with_reducible apply State.compactGo_keeps
    | with_reducible apply State.jnlCntClr_keeps
    | with_reducible apply State.maskShow_keeps
    | with_reducible apply State.memCntClr_keeps
    | with_reducible apply State.modErr_keeps
    | with_reducible apply State.Keeps.ite

theorem State.hookTst_keeps {qz : List Instr} (s : State) (a : Nat) (wo : Word) (hs : s.Keeps qz) :
    State.Keeps qz (State.hookTst s a wo) := by
  unfold State.hookTst
  repeat' first
    | with_reducible assumption
    | with_reducible apply State.limCfgWritten_keeps
    | with_reducible apply State.setF_keeps
    | with_reducible apply State.tstWritten_keeps
    | with_reducible apply State.wr_keeps
    | with_reducible apply State.Keeps.ite
    | split

theorem State.hook_keeps {qz : List Instr} (s : State) (a : Nat) (old : Word) (wo : Word) (w1 : Word) (v : Word) (hs : s.Keeps qz) :
    State.Keeps qz (State.hook s a old wo w1 v) := by
  unfold State.hook
  repeat' first
    | with_reducible assumption
    | with_reducible apply State.hookAfe_keeps
    | with_reducible apply State.hookClk_keeps
    | with_reducible apply State.hookEng_keeps
    | with_reducible apply State.hookFlt_keeps
    | with_reducible apply State.hookHif_keeps
    | with_reducible apply State.hookMem_keeps
    | with_reducible apply State.hookMp_keeps
    | with_reducible apply State.hookNet_keeps
    | with_reducible apply State.hookPwr_keeps
    | with_reducible apply State.hookSap_keeps
    | with_reducible apply State.hookSns_keeps
    | with_reducible apply State.hookTst_keeps
    | with_reducible apply State.hookTth_keeps
    | with_reducible apply State.Keeps.ite

theorem State.applyNow_keeps {qz : List Instr} (s : State) (a : Nat) (m : Word) (v : Word) (hs : s.Keeps qz) :
    State.Keeps qz (State.applyNow s a m v) := by
  unfold State.applyNow
  repeat' first
    | with_reducible assumption
    | with_reducible apply State.calAdvance_keeps
    | with_reducible apply State.coefWinWrite_keeps
    | with_reducible apply State.gwinNext_keeps
    | with_reducible apply State.hook_keeps
    | with_reducible apply State.wr_keeps
    | with_reducible apply State.Keeps.ite
    | dsimp only
    | split

theorem State.applyF_keeps {qz : List Instr} (s : State) (hs : s.Keeps qz) :
    State.Keeps qz (State.applyF s) := by
  unfold State.applyF
  repeat' first
    | with_reducible assumption
    | with_reducible apply State.applyNow_keeps
    | with_reducible apply State.modStage_keeps
    | split

theorem execFWriteApply_keeps {qz : List Instr} (s : State) (hs : s.Keeps qz) :
    OutKeeps qz (execFWriteApply s) := by
  unfold execFWriteApply
  repeat' first
    | with_reducible apply OutKeeps.next
    | with_reducible assumption
    | with_reducible apply State.applyF_keeps

theorem State.drainF_keeps {qz : List Instr}   : ∀ (x0 : Nat) (x1 : State),
    x1.Keeps qz → State.Keeps qz (State.drainF x0 x1) := by
  intro x0 x1
  fun_induction State.drainF x0 x1
  all_goals repeat' first
    | intro _
    | with_reducible assumption
    | with_reducible apply State.applyF_keeps
    | with_reducible apply_assumption

theorem State.guardErr_keeps {qz : List Instr} (s : State) (a : Nat) (shown : Word) (v : Word) (hs : s.Keeps qz) :
    State.Keeps qz (State.guardErr s a shown v) := by
  unfold State.guardErr
  repeat' first
    | with_reducible assumption
    | with_reducible apply State.setF_keeps

theorem State.stageWrite_keeps {qz : List Instr} (s : State) (ag : Nat) (a : Nat) (v : Word) (hs : s.Keeps qz) :
    State.Keeps qz (State.stageWrite s ag a v) := by
  unfold State.stageWrite
  repeat' first
    | with_reducible assumption
    | with_reducible apply State.modStage_keeps
    | with_reducible apply State.setF_keeps
    | with_reducible apply State.setPair_keeps
    | with_reducible apply State.stageAct_keeps
    | with_reducible apply State.Keeps.ite

theorem State.writeNow_keeps {qz : List Instr} (s : State) (a : Nat) (m v : Word) (hs : s.Keeps qz) :
    State.Keeps qz (s.writeNow a m v) := by
  unfold State.writeNow
  refine State.Keeps.ite ?_ (State.applyNow_keeps _ _ _ _ hs)
  obtain ⟨h0, ⟨r, mw, sn, rest⟩, l⟩ := hs
  refine ⟨h0, ⟨r, mirrorWrite_wf s.mirror (a, m, v) mw, ?_, rest⟩, l⟩
  intro p hp
  obtain ⟨x, hx, rfl⟩ := Option.map_eq_some_iff.mp hp
  exact mirrorWrite_wf x.2 (a, m, v) (sn x hx)

theorem State.writeFields_keeps {qz : List Instr} (s : State) (ag : Nat) (a : Nat) (v : Word) (hs : s.Keeps qz) :
    State.Keeps qz (State.writeFields s ag a v) := by
  unfold State.writeFields
  repeat' first
    | with_reducible assumption
    | with_reducible apply State.guardErr_keeps
    | with_reducible apply State.stageWrite_keeps
    | with_reducible apply State.writeNow_keeps
    | with_reducible apply State.Keeps.ite

theorem State.windowWrite_keeps {qz : List Instr} (s : State) (ag : Nat) (a : Nat) (v : Word) (be : Nat) (hs : s.Keeps qz) :
    State.Keeps qz (State.windowWrite s ag a v be) := by
  unfold State.windowWrite
  repeat' first
    | with_reducible assumption
    | with_reducible apply State.accErr_keeps
    | with_reducible apply State.protViolation_keeps
    | with_reducible apply State.setF_keeps
    | with_reducible apply State.writeFields_keeps
    | with_reducible apply State.Keeps.ite

theorem State.writeThrough_keeps {qz : List Instr} (s : State) (ag : Nat) (a : Nat) (v : Word) (hs : s.Keeps qz) :
    State.Keeps qz (State.writeThrough s ag a v) := by
  unfold State.writeThrough
  repeat' first
    | with_reducible assumption
    | with_reducible apply State.drainF_keeps
    | with_reducible apply State.windowWrite_keeps

end Sys2Proof.Machine
end

