-- ==== Sys2Proof/Laws/KeepsRegRows.lean ====
section
/-!
SUPPORT. What the definitions of Machine/RegRows.lean keep.
-/
namespace Sys2Proof.Machine

theorem execFltCntClr_keeps {qz : List Instr} (a : Agent) (v : Word) (s : State) (hs : s.Keeps qz) :
    OutKeeps qz (execFltCntClr a v s) := by
  unfold execFltCntClr
  repeat' first
    | with_reducible apply OutKeeps.next
    | with_reducible assumption
    | with_reducible apply State.writeThrough_keeps

theorem execMpCntClr_keeps {qz : List Instr} (a : Agent) (v : Word) (s : State) (hs : s.Keeps qz) :
    OutKeeps qz (execMpCntClr a v s) := by
  unfold execMpCntClr
  repeat' first
    | with_reducible apply OutKeeps.next
    | with_reducible assumption
    | with_reducible apply State.writeThrough_keeps

theorem execEngCntClr_keeps {qz : List Instr} (a : Agent) (v : Word) (s : State) (hs : s.Keeps qz) :
    OutKeeps qz (execEngCntClr a v s) := by
  unfold execEngCntClr
  repeat' first
    | with_reducible apply OutKeeps.next
    | with_reducible assumption
    | with_reducible apply State.writeThrough_keeps

theorem execNetCntClr_keeps {qz : List Instr} (a : Agent) (v : Word) (s : State) (hs : s.Keeps qz) :
    OutKeeps qz (execNetCntClr a v s) := by
  unfold execNetCntClr
  repeat' first
    | with_reducible apply OutKeeps.next
    | with_reducible assumption
    | with_reducible apply State.writeThrough_keeps

theorem execPwrCntClr_keeps {qz : List Instr} (a : Agent) (v : Word) (s : State) (hs : s.Keeps qz) :
    OutKeeps qz (execPwrCntClr a v s) := by
  unfold execPwrCntClr
  repeat' first
    | with_reducible apply OutKeeps.next
    | with_reducible assumption
    | with_reducible apply State.writeThrough_keeps

theorem execTthCntClr_keeps {qz : List Instr} (a : Agent) (v : Word) (s : State) (hs : s.Keeps qz) :
    OutKeeps qz (execTthCntClr a v s) := by
  unfold execTthCntClr
  repeat' first
    | with_reducible apply OutKeeps.next
    | with_reducible assumption
    | with_reducible apply State.writeThrough_keeps

theorem execSnsCntClr_keeps {qz : List Instr} (a : Agent) (v : Word) (s : State) (hs : s.Keeps qz) :
    OutKeeps qz (execSnsCntClr a v s) := by
  unfold execSnsCntClr
  repeat' first
    | with_reducible apply OutKeeps.next
    | with_reducible assumption
    | with_reducible apply State.writeThrough_keeps

theorem execLckCntClr_keeps {qz : List Instr} (a : Agent) (v : Word) (s : State) (hs : s.Keeps qz) :
    OutKeeps qz (execLckCntClr a v s) := by
  unfold execLckCntClr
  repeat' first
    | with_reducible apply OutKeeps.next
    | with_reducible assumption
    | with_reducible apply State.writeThrough_keeps

theorem execHifCntClr_keeps {qz : List Instr} (a : Agent) (v : Word) (s : State) (hs : s.Keeps qz) :
    OutKeeps qz (execHifCntClr a v s) := by
  unfold execHifCntClr
  repeat' first
    | with_reducible apply OutKeeps.next
    | with_reducible assumption
    | with_reducible apply State.writeThrough_keeps

theorem execMemCntClr_keeps {qz : List Instr} (a : Agent) (v : Word) (s : State) (hs : s.Keeps qz) :
    OutKeeps qz (execMemCntClr a v s) := by
  unfold execMemCntClr
  repeat' first
    | with_reducible apply OutKeeps.next
    | with_reducible assumption
    | with_reducible apply State.writeThrough_keeps

theorem execJnlCntClr_keeps {qz : List Instr} (a : Agent) (v : Word) (s : State) (hs : s.Keeps qz) :
    OutKeeps qz (execJnlCntClr a v s) := by
  unfold execJnlCntClr
  repeat' first
    | with_reducible apply OutKeeps.next
    | with_reducible assumption
    | with_reducible apply State.writeThrough_keeps

theorem execGlbCntClr_keeps {qz : List Instr} (a : Agent) (v : Word) (s : State) (hs : s.Keeps qz) :
    OutKeeps qz (execGlbCntClr a v s) := by
  unfold execGlbCntClr
  repeat' first
    | with_reducible apply OutKeeps.next
    | with_reducible assumption
    | with_reducible apply State.writeThrough_keeps

theorem execTstCntClr_keeps {qz : List Instr} (a : Agent) (v : Word) (s : State) (hs : s.Keeps qz) :
    OutKeeps qz (execTstCntClr a v s) := by
  unfold execTstCntClr
  repeat' first
    | with_reducible apply OutKeeps.next
    | with_reducible assumption
    | with_reducible apply State.writeThrough_keeps

theorem execAfeModeChange_keeps {qz : List Instr} (a : Agent) (n : Fin 8) (v : Word) (s : State) (hs : s.Keeps qz) :
    OutKeeps qz (execAfeModeChange a n v s) := by
  unfold execAfeModeChange
  repeat' first
    | with_reducible apply OutKeeps.next
    | with_reducible assumption
    | with_reducible apply State.writeThrough_keeps

theorem execAfeGainWrite_keeps {qz : List Instr} (a : Agent) (n : Fin 8) (v : Word) (s : State) (hs : s.Keeps qz) :
    OutKeeps qz (execAfeGainWrite a n v s) := by
  unfold execAfeGainWrite
  repeat' first
    | with_reducible apply OutKeeps.next
    | with_reducible assumption
    | with_reducible apply State.writeThrough_keeps

theorem execFltCoefWinWrite_keeps {qz : List Instr} (a : Agent) (i : Fin 128) (v : Word) (s : State) (hs : s.Keeps qz) :
    OutKeeps qz (execFltCoefWinWrite a i v s) := by
  unfold execFltCoefWinWrite
  repeat' first
    | with_reducible apply OutKeeps.next
    | with_reducible assumption
    | with_reducible apply State.writeThrough_keeps

theorem execFltSwapGo_keeps {qz : List Instr} (a : Agent) (c : Fin 16) (v : Word) (s : State) (hs : s.Keeps qz) :
    OutKeeps qz (execFltSwapGo a c v s) := by
  unfold execFltSwapGo
  repeat' first
    | with_reducible apply OutKeeps.next
    | with_reducible assumption
    | with_reducible apply State.writeThrough_keeps

theorem execFltSwSync_keeps {qz : List Instr} (a : Agent) (v : Word) (s : State) (hs : s.Keeps qz) :
    OutKeeps qz (execFltSwSync a v s) := by
  unfold execFltSwSync
  repeat' first
    | with_reducible apply OutKeeps.next
    | with_reducible assumption
    | with_reducible apply State.writeThrough_keeps

theorem execSyncArm_keeps {qz : List Instr} (a : Agent) (w : ArmWrite) (s : State) (hs : s.Keeps qz) :
    OutKeeps qz (execSyncArm a w s) := by
  unfold execSyncArm
  repeat' first
    | with_reducible apply OutKeeps.next
    | with_reducible assumption
    | with_reducible apply State.writeThrough_keeps
    | split

theorem execSapStart_keeps {qz : List Instr} (a : Agent) (d : Fin 8) (v : Word) (s : State) (hs : s.Keeps qz) :
    OutKeeps qz (execSapStart a d v s) := by
  unfold execSapStart
  repeat' first
    | with_reducible apply OutKeeps.next
    | with_reducible assumption
    | with_reducible apply State.writeThrough_keeps

theorem execSapStop_keeps {qz : List Instr} (a : Agent) (d : Fin 8) (v : Word) (s : State) (hs : s.Keeps qz) :
    OutKeeps qz (execSapStop a d v s) := by
  unfold execSapStop
  repeat' first
    | with_reducible apply OutKeeps.next
    | with_reducible assumption
    | with_reducible apply State.writeThrough_keeps

theorem execSapHoldRelease_keeps {qz : List Instr} (a : Agent) (d : Fin 8) (v : Word) (s : State) (hs : s.Keeps qz) :
    OutKeeps qz (execSapHoldRelease a d v s) := by
  unfold execSapHoldRelease
  repeat' first
    | with_reducible apply OutKeeps.next
    | with_reducible assumption
    | with_reducible apply State.writeThrough_keeps

theorem execSrcModeChange_keeps {qz : List Instr} (a : Agent) (d : Fin 8) (v : Word) (s : State) (hs : s.Keeps qz) :
    OutKeeps qz (execSrcModeChange a d v s) := by
  unfold execSrcModeChange
  repeat' first
    | with_reducible apply OutKeeps.next
    | with_reducible assumption
    | with_reducible apply State.writeThrough_keeps

theorem State.listenerTracked_keeps {qz : List Instr} (s : State) (st : Nat) (hs : s.Keeps qz) :
    State.Keeps qz (State.listenerTracked s st) := by
  unfold State.listenerTracked
  repeat' first
    | with_reducible assumption
    | with_reducible apply State.modMp_keeps
    | with_reducible apply State.raise_keeps
    | with_reducible apply State.Keeps.ite

theorem State.listenerTrackLost_keeps {qz : List Instr} (s : State) (st : Nat) (hs : s.Keeps qz) :
    State.Keeps qz (State.listenerTrackLost s st) := by
  unfold State.listenerTrackLost
  repeat' first
    | with_reducible assumption
    | with_reducible apply State.modMp_keeps
    | with_reducible apply State.raise_keeps
    | with_reducible apply State.Keeps.ite

theorem execSrcLocked_keeps {qz : List Instr} (t : Tracker) (rate : Nat) (s : State) (hs : s.Keeps qz) :
    OutKeeps qz (execSrcLocked t rate s) := by
  unfold execSrcLocked
  repeat' first
    | with_reducible apply OutKeeps.next
    | with_reducible assumption
    | with_reducible apply State.listenerTracked_keeps
    | with_reducible apply State.sapTracked_keeps
    | with_reducible apply State.splitLocked_keeps
    | with_reducible apply State.Keeps.ite
    | dsimp only
    | split

theorem execSrcUnlocked_keeps {qz : List Instr} (t : Tracker) (s : State) (hs : s.Keeps qz) :
    OutKeeps qz (execSrcUnlocked t s) := by
  unfold execSrcUnlocked
  repeat' first
    | with_reducible apply OutKeeps.next
    | with_reducible assumption
    | with_reducible apply State.listenerTrackLost_keeps
    | with_reducible apply State.sapTrackLost_keeps
    | split

theorem execPresetGo_keeps {qz : List Instr} (a : Agent) (v : Word) (s : State) (hs : s.Keeps qz) :
    OutKeeps qz (execPresetGo a v s) := by
  unfold execPresetGo
  repeat' first
    | with_reducible apply OutKeeps.next
    | with_reducible assumption
    | with_reducible apply State.writeThrough_keeps

theorem execEngineModeWrite_keeps {qz : List Instr} (a : Agent) (n : Fin 8) (v : Word) (s : State) (hs : s.Keeps qz) :
    OutKeeps qz (execEngineModeWrite a n v s) := by
  unfold execEngineModeWrite
  repeat' first
    | with_reducible apply OutKeeps.next
    | with_reducible assumption
    | with_reducible apply State.writeThrough_keeps

theorem execArbSnap_keeps {qz : List Instr} (a : Agent) (v : Word) (s : State) (hs : s.Keeps qz) :
    OutKeeps qz (execArbSnap a v s) := by
  unfold execArbSnap
  repeat' first
    | with_reducible apply OutKeeps.next
    | with_reducible assumption
    | with_reducible apply State.writeThrough_keeps

theorem execMdioGo_keeps {qz : List Instr} (a : Agent) (v : Word) (s : State) (hs : s.Keeps qz) :
    OutKeeps qz (execMdioGo a v s) := by
  unfold execMdioGo
  repeat' first
    | with_reducible apply OutKeeps.next
    | with_reducible assumption
    | with_reducible apply State.writeThrough_keeps

theorem execPwrClrFault_keeps {qz : List Instr} (a : Agent) (m : Fin 8) (v : Word) (s : State) (hs : s.Keeps qz) :
    OutKeeps qz (execPwrClrFault a m v s) := by
  unfold execPwrClrFault
  repeat' first
    | with_reducible apply OutKeeps.next
    | with_reducible assumption
    | with_reducible apply State.writeThrough_keeps

theorem execPwrDiagGo_keeps {qz : List Instr} (a : Agent) (m : Fin 8) (v : Word) (s : State) (hs : s.Keeps qz) :
    OutKeeps qz (execPwrDiagGo a m v s) := by
  unfold execPwrDiagGo
  repeat' first
    | with_reducible apply OutKeeps.next
    | with_reducible assumption
    | with_reducible apply State.writeThrough_keeps

theorem execExtClrFault_keeps {qz : List Instr} (a : Agent) (e : Fin 8) (v : Word) (s : State) (hs : s.Keeps qz) :
    OutKeeps qz (execExtClrFault a e v s) := by
  unfold execExtClrFault
  repeat' first
    | with_reducible apply OutKeeps.next
    | with_reducible assumption
    | with_reducible apply State.writeThrough_keeps

theorem execTthGwinWrite_keeps {qz : List Instr} (a : Agent) (v : Word) (s : State) (hs : s.Keeps qz) :
    OutKeeps qz (execTthGwinWrite a v s) := by
  unfold execTthGwinWrite
  repeat' first
    | with_reducible apply OutKeeps.next
    | with_reducible assumption
    | with_reducible apply State.writeThrough_keeps

theorem execTthClrFault_keeps {qz : List Instr} (a : Agent) (o : Fin 24) (v : Word) (s : State) (hs : s.Keeps qz) :
    OutKeeps qz (execTthClrFault a o v s) := by
  unfold execTthClrFault
  repeat' first
    | with_reducible apply OutKeeps.next
    | with_reducible assumption
    | with_reducible apply State.writeThrough_keeps

theorem execTthPlayGo_keeps {qz : List Instr} (a : Agent) (v : Word) (s : State) (hs : s.Keeps qz) :
    OutKeeps qz (execTthPlayGo a v s) := by
  unfold execTthPlayGo
  repeat' first
    | with_reducible apply OutKeeps.next
    | with_reducible assumption
    | with_reducible apply State.writeThrough_keeps

theorem execTthPlayStop_keeps {qz : List Instr} (a : Agent) (v : Word) (s : State) (hs : s.Keeps qz) :
    OutKeeps qz (execTthPlayStop a v s) := by
  unfold execTthPlayStop
  repeat' first
    | with_reducible apply OutKeeps.next
    | with_reducible assumption
    | with_reducible apply State.writeThrough_keeps

theorem execToneCfgWrite_keeps {qz : List Instr} (a : Agent) (freq : Bool) (v : Word) (s : State) (hs : s.Keeps qz) :
    OutKeeps qz (execToneCfgWrite a freq v s) := by
  unfold execToneCfgWrite
  repeat' first
    | with_reducible apply OutKeeps.next
    | with_reducible assumption
    | with_reducible apply State.writeThrough_keeps

theorem execServoClose_keeps {qz : List Instr} (a : Agent) (m : Fin 8) (v : Word) (s : State) (hs : s.Keeps qz) :
    OutKeeps qz (execServoClose a m v s) := by
  unfold execServoClose
  repeat' first
    | with_reducible apply OutKeeps.next
    | with_reducible assumption
    | with_reducible apply State.writeThrough_keeps

theorem execTthMaintWrite_keeps {qz : List Instr} (a : Agent) (v : Word) (s : State) (hs : s.Keeps qz) :
    OutKeeps qz (execTthMaintWrite a v s) := by
  unfold execTthMaintWrite
  repeat' first
    | with_reducible apply OutKeeps.next
    | with_reducible assumption
    | with_reducible apply State.writeThrough_keeps

theorem execGthGoWrite_keeps {qz : List Instr} (a : Agent) (v : Word) (s : State) (hs : s.Keeps qz) :
    OutKeeps qz (execGthGoWrite a v s) := by
  unfold execGthGoWrite
  repeat' first
    | with_reducible apply OutKeeps.next
    | with_reducible assumption
    | with_reducible apply State.writeThrough_keeps

theorem execGthStopWrite_keeps {qz : List Instr} (a : Agent) (v : Word) (s : State) (hs : s.Keeps qz) :
    OutKeeps qz (execGthStopWrite a v s) := by
  unfold execGthStopWrite
  repeat' first
    | with_reducible apply OutKeeps.next
    | with_reducible assumption
    | with_reducible apply State.writeThrough_keeps

theorem execSnsSwTrigger_keeps {qz : List Instr} (a : Agent) (c : Fin 2) (v : Word) (s : State) (hs : s.Keeps qz) :
    OutKeeps qz (execSnsSwTrigger a c v s) := by
  unfold execSnsSwTrigger
  repeat' first
    | with_reducible apply OutKeeps.next
    | with_reducible assumption
    | with_reducible apply State.writeThrough_keeps

theorem execSensePause_keeps {qz : List Instr} (a : Agent) (c : Fin 2) (v : Word) (s : State) (hs : s.Keeps qz) :
    OutKeeps qz (execSensePause a c v s) := by
  unfold execSensePause
  repeat' first
    | with_reducible apply OutKeeps.next
    | with_reducible assumption
    | with_reducible apply State.writeThrough_keeps

theorem execSenseResume_keeps {qz : List Instr} (a : Agent) (c : Fin 2) (v : Word) (s : State) (hs : s.Keeps qz) :
    OutKeeps qz (execSenseResume a c v s) := by
  unfold execSenseResume
  repeat' first
    | with_reducible apply OutKeeps.next
    | with_reducible assumption
    | with_reducible apply State.writeThrough_keeps

theorem execSenseDisable_keeps {qz : List Instr} (a : Agent) (c : Fin 2) (v : Word) (s : State) (hs : s.Keeps qz) :
    OutKeeps qz (execSenseDisable a c v s) := by
  unfold execSenseDisable
  repeat' first
    | with_reducible apply OutKeeps.next
    | with_reducible assumption
    | with_reducible apply State.writeThrough_keeps

theorem execSnsInjGo_keeps {qz : List Instr} (a : Agent) (c : Fin 2) (v : Word) (s : State) (hs : s.Keeps qz) :
    OutKeeps qz (execSnsInjGo a c v s) := by
  unfold execSnsInjGo
  repeat' first
    | with_reducible apply OutKeeps.next
    | with_reducible assumption
    | with_reducible apply State.writeThrough_keeps

theorem execSnsCalGo_keeps {qz : List Instr} (a : Agent) (c : Fin 2) (v : Word) (s : State) (hs : s.Keeps qz) :
    OutKeeps qz (execSnsCalGo a c v s) := by
  unfold execSnsCalGo
  repeat' first
    | with_reducible apply OutKeeps.next
    | with_reducible assumption
    | with_reducible apply State.writeThrough_keeps

theorem execRefBufferEnable_keeps {qz : List Instr} (a : Agent) (on : Bool) (s : State) (hs : s.Keeps qz) :
    OutKeeps qz (execRefBufferEnable a on s) := by
  unfold execRefBufferEnable
  repeat' first
    | with_reducible apply OutKeeps.next
    | with_reducible assumption
    | with_reducible apply State.writeThrough_keeps

theorem execSnsCalTableWrite_keeps {qz : List Instr} (a : Agent) (gain : Bool) (v : Word) (s : State) (hs : s.Keeps qz) :
    OutKeeps qz (execSnsCalTableWrite a gain v s) := by
  unfold execSnsCalTableWrite
  repeat' first
    | with_reducible apply OutKeeps.next
    | with_reducible assumption
    | with_reducible apply State.writeThrough_keeps

theorem execTdacSwitchWrite_keeps {qz : List Instr} (a : Agent) (v : Word) (s : State) (hs : s.Keeps qz) :
    OutKeeps qz (execTdacSwitchWrite a v s) := by
  unfold execTdacSwitchWrite
  repeat' first
    | with_reducible apply OutKeeps.next
    | with_reducible assumption
    | with_reducible apply State.writeThrough_keeps

theorem execRingEnable_keeps {qz : List Instr} (a : Agent) (r : Fin 16) (s : State) (hs : s.Keeps qz) :
    OutKeeps qz (execRingEnable a r s) := by
  unfold execRingEnable
  repeat' first
    | with_reducible apply OutKeeps.next
    | with_reducible assumption
    | with_reducible apply State.writeThrough_keeps

theorem execRingDisableDrain_keeps {qz : List Instr} (a : Agent) (r : Fin 16) (s : State) (hs : s.Keeps qz) :
    OutKeeps qz (execRingDisableDrain a r s) := by
  unfold execRingDisableDrain
  repeat' first
    | with_reducible apply OutKeeps.next
    | with_reducible assumption
    | with_reducible apply State.writeThrough_keeps

theorem execRingDisableAbort_keeps {qz : List Instr} (a : Agent) (r : Fin 16) (tags : List Nat) (s : State) (hs : s.Keeps qz) :
    OutKeeps qz (execRingDisableAbort a r tags s) := by
  unfold execRingDisableAbort
  repeat' first
    | with_reducible apply OutKeeps.next
    | with_reducible assumption
    | with_reducible apply State.ringCtlWritten_keeps
    | with_reducible apply State.wr_keeps
    | with_reducible apply State.writeThrough_keeps
    | with_reducible apply State.Keeps.ite

theorem execLckOwnerReset_keeps {qz : List Instr} (a : Agent) (owner : Fin 64) (s : State) (hs : s.Keeps qz) :
    OutKeeps qz (execLckOwnerReset a owner s) := by
  unfold execLckOwnerReset
  repeat' first
    | with_reducible apply OutKeeps.next
    | with_reducible assumption
    | with_reducible apply State.writeThrough_keeps

theorem execEvtDetailSelect_keeps {qz : List Instr} (a : Agent) (v : Word) (s : State) (hs : s.Keeps qz) :
    OutKeeps qz (execEvtDetailSelect a v s) := by
  unfold execEvtDetailSelect
  repeat' first
    | with_reducible apply OutKeeps.next
    | with_reducible assumption
    | with_reducible apply State.writeThrough_keeps

theorem execMemInject_keeps {qz : List Instr} (a : Agent) (v : Word) (s : State) (hs : s.Keeps qz) :
    OutKeeps qz (execMemInject a v s) := by
  unfold execMemInject
  repeat' first
    | with_reducible apply OutKeeps.next
    | with_reducible assumption
    | with_reducible apply State.writeThrough_keeps

theorem execJnlCompactGo_keeps {qz : List Instr} (a : Agent) (v : Word) (s : State) (hs : s.Keeps qz) :
    OutKeeps qz (execJnlCompactGo a v s) := by
  unfold execJnlCompactGo
  repeat' first
    | with_reducible apply OutKeeps.next
    | with_reducible assumption
    | with_reducible apply State.writeThrough_keeps

theorem execRecoveryGo_keeps {qz : List Instr} (a : Agent) (v : Word) (s : State) (hs : s.Keeps qz) :
    OutKeeps qz (execRecoveryGo a v s) := by
  unfold execRecoveryGo
  repeat' first
    | with_reducible apply OutKeeps.next
    | with_reducible assumption
    | with_reducible apply State.writeThrough_keeps

theorem execCommitHoldSet_keeps {qz : List Instr} (a : Agent) (s : State) (hs : s.Keeps qz) :
    OutKeeps qz (execCommitHoldSet a s) := by
  unfold execCommitHoldSet
  repeat' first
    | with_reducible apply OutKeeps.next
    | with_reducible assumption
    | with_reducible apply State.writeThrough_keeps

theorem execCommitHoldRelease_keeps {qz : List Instr} (a : Agent) (s : State) (hs : s.Keeps qz) :
    OutKeeps qz (execCommitHoldRelease a s) := by
  unfold execCommitHoldRelease
  repeat' first
    | with_reducible apply OutKeeps.next
    | with_reducible assumption
    | with_reducible apply State.writeThrough_keeps

theorem execMirrorRefresh_keeps {qz : List Instr} (a : Agent) (v : Word) (s : State) (hs : s.Keeps qz) :
    OutKeeps qz (execMirrorRefresh a v s) := by
  unfold execMirrorRefresh
  repeat' first
    | with_reducible apply OutKeeps.next
    | with_reducible assumption
    | with_reducible apply State.writeThrough_keeps

theorem execTstSelWrite_keeps {qz : List Instr} (a : Agent) (k : Fin 3) (v : Word) (s : State) (hs : s.Keeps qz) :
    OutKeeps qz (execTstSelWrite a k v s) := by
  unfold execTstSelWrite
  repeat' first
    | with_reducible apply OutKeeps.next
    | with_reducible assumption
    | with_reducible apply State.writeThrough_keeps

theorem State.busRead_keeps {qz : List Instr} (s : State) (ag : Nat) (a : Nat) (hs : s.Keeps qz) :
    State.Keeps qz (State.busRead s ag a) := by
  unfold State.busRead
  repeat' first
    | with_reducible assumption
    | with_reducible apply State.modHost_keeps
    | with_reducible apply State.windowRead_keeps
    | with_reducible rfl

theorem execLoLatchRead_keeps {qz : List Instr} (a : Agent) (addr : Nat) (s : State) (hs : s.Keeps qz) :
    OutKeeps qz (execLoLatchRead a addr s) := by
  unfold execLoLatchRead
  repeat' first
    | with_reducible apply OutKeeps.next
    | with_reducible assumption
    | with_reducible apply State.busRead_keeps

theorem execCalTimeRead_keeps {qz : List Instr} (a : Agent) (s : State) (hs : s.Keeps qz) :
    OutKeeps qz (execCalTimeRead a s) := by
  unfold execCalTimeRead
  repeat' first
    | with_reducible apply OutKeeps.next
    | with_reducible assumption
    | with_reducible apply State.busRead_keeps

theorem execJtagUpdateIr_keeps {qz : List Instr} (irH : BitVec 8) (irF : BitVec 6) (irM : BitVec 4) (s : State) (hs : s.Keeps qz) :
    OutKeeps qz (execJtagUpdateIr irH irF irM s) := by
  unfold execJtagUpdateIr
  repeat' first
    | with_reducible apply OutKeeps.next
    | with_reducible assumption
    | with_reducible apply State.modTest_keeps
    | with_reducible apply State.setF_keeps

theorem execJtagTapReset_keeps {qz : List Instr} (s : State) (hs : s.Keeps qz) :
    OutKeeps qz (execJtagTapReset s) := by
  unfold execJtagTapReset
  repeat' first
    | with_reducible apply OutKeeps.next
    | with_reducible assumption
    | with_reducible apply State.modTest_keeps
    | with_reducible apply State.setF_keeps

theorem execJtagRegwin_keeps {qz : List Instr} (w : BitVec 50) (s : State) (hs : s.Keeps qz) :
    OutKeeps qz (execJtagRegwin w s) := by
  unfold execJtagRegwin
  repeat' first
    | with_reducible apply OutKeeps.next
    | with_reducible assumption
    | with_reducible apply State.fresh_keeps
    | with_reducible apply State.incSat_keeps
    | with_reducible apply State.modTest_keeps
    | with_reducible apply State.windowRead_keeps
    | with_reducible apply State.writeThrough_keeps
    | with_reducible apply State.Keeps.ite

end Sys2Proof.Machine
end

