-- ==== Sys2Proof/Laws/KeepsHostPorts.lean ====
section
/-!
SUPPORT. What the definitions of Machine/HostPorts.lean keep.
-/
namespace Sys2Proof.Machine

theorem State.spiDoor_keeps {qz : List Instr} (s : State) (off : Nat) (v : Word) (hs : s.Keeps qz) :
    State.Keeps qz (State.spiDoor s off v) := by
  unfold State.spiDoor
  repeat' first
    | intro _
    | with_reducible assumption
    | with_reducible apply State.doorGuard_keeps
    | with_reducible apply State.doorbell_keeps
    | with_reducible apply State.rearm_keeps
    | with_reducible apply State.Keeps.ite

theorem State.spiDoorRead_keeps {qz : List Instr} (s : State) (off : Nat) (hs : s.Keeps qz) :
    State.Keeps qz (State.spiDoorRead s off).2 := by
  unfold State.spiDoorRead
  repeat' first
    | with_reducible assumption
    | with_reducible apply State.protViolation_keeps
    | with_reducible apply State.Keeps.ite_snd

theorem State.spiMiss_keeps {qz : List Instr} (s : State) (hs : s.Keeps qz) :
    State.Keeps qz (State.spiMiss s) := by
  unfold State.spiMiss
  repeat' first
    | with_reducible assumption
    | with_reducible apply State.setF_keeps

theorem State.spiWrite_keeps {qz : List Instr} (s : State) (a : Nat) (v : Word) (hs : s.Keeps qz) :
    State.Keeps qz (State.spiWrite s a v) := by
  unfold State.spiWrite
  repeat' first
    | intro _
    | with_reducible assumption
    | with_reducible apply State.modWindow_keeps
    | with_reducible apply State.spiDoor_keeps
    | with_reducible apply State.spiMiss_keeps
    | with_reducible apply State.writeThrough_keeps
    | with_reducible apply State.Keeps.ite
    | (with_reducible apply Mem.wf_setMany)

theorem State.spiRead_keeps {qz : List Instr} (s : State) (a : Nat) (hs : s.Keeps qz) :
    State.Keeps qz (State.spiRead s a).2 := by
  unfold State.spiRead
  repeat' first
    | with_reducible assumption
    | with_reducible apply State.drainF_keeps
    | with_reducible apply State.spiDoorRead_keeps
    | with_reducible apply State.spiMiss_keeps
    | with_reducible apply State.windowRead_keeps
    | with_reducible apply State.Keeps.ite_snd

theorem State.spiWrites_keeps {qz : List Instr}   : ∀ (x0 : Nat) (x1 : List Word) (x2 : State),
    x2.Keeps qz → State.Keeps qz (State.spiWrites x0 x1 x2) := by
  intro x0 x1 x2
  fun_induction State.spiWrites x0 x1 x2
  all_goals repeat' first
    | intro _
    | with_reducible assumption
    | with_reducible apply State.spiWrite_keeps
    | with_reducible apply_assumption

theorem State.spiReads_keeps {qz : List Instr}   : ∀ (x0 : Nat) (x1 : Nat) (x2 : State),
    x2.Keeps qz → State.Keeps qz (State.spiReads x0 x1 x2).2 := by
  intro x0 x1 x2
  fun_induction State.spiReads x0 x1 x2
  all_goals repeat' first
    | intro _
    | with_reducible assumption
    | with_reducible apply State.spiRead_keeps
    | with_reducible apply_assumption
    | (refine State.Keeps.of_eq (by with_reducible assumption) ?_)

theorem State.spiCut_keeps {qz : List Instr} (s : State) (cut : Bool) (hs : s.Keeps qz) :
    State.Keeps qz (State.spiCut s cut) := by
  unfold State.spiCut
  repeat' first
    | with_reducible assumption
    | with_reducible apply State.setF_keeps
    | with_reducible apply State.Keeps.ite

theorem execSpiTransaction_keeps {qz : List Instr} (addr : Nat) (op : SpiOp) (s : State) (hs : s.Keeps qz) :
    OutKeeps qz (execSpiTransaction addr op s) := by
  unfold execSpiTransaction
  repeat' first
    | with_reducible apply OutKeeps.next
    | with_reducible assumption
    | with_reducible apply State.emit_keeps
    | with_reducible apply State.spiCut_keeps
    | with_reducible apply State.spiReads_keeps
    | with_reducible apply State.spiWrites_keeps
    | with_reducible apply State.Keeps.ite
    | dsimp only
    | split

theorem State.healthPayload_keeps {qz : List Instr} (s : State) (hs : s.Keeps qz) :
    State.Keeps qz (State.healthPayload s).2 := by
  unfold State.healthPayload
  repeat' first
    | with_reducible assumption
    | with_reducible apply State.fresh_keeps

theorem State.healthSent_keeps {qz : List Instr} (s : State) (hs : s.Keeps qz) :
    State.Keeps qz (State.healthSent s) := by
  unfold State.healthSent
  repeat' first
    | with_reducible assumption
    | with_reducible apply State.modNet_keeps
    | with_reducible rfl

theorem State.smbPec_keeps {qz : List Instr} (s : State) (pecOk : Bool) (f : State → State) (hs : s.Keeps qz) (hf : ∀ y0, y0.Keeps qz → State.Keeps qz (f y0)) :
    State.Keeps qz (State.smbPec s pecOk f) := by
  unfold State.smbPec
  repeat' first
    | with_reducible assumption
    | with_reducible apply State.setF_keeps
    | with_reducible apply State.Keeps.ite
    | with_reducible apply_assumption

theorem State.smbAnswer_keeps {qz : List Instr} (s : State) (bs : List Byte) (hs : s.Keeps qz) :
    State.Keeps qz (State.smbAnswer s bs) := by
  unfold State.smbAnswer
  repeat' first
    | with_reducible assumption
    | with_reducible apply State.emit_keeps

theorem execSmbSetPointer_keeps {qz : List Instr} (p : Nat) (pecOk : Bool) (s : State) (hs : s.Keeps qz) :
    OutKeeps qz (execSmbSetPointer p pecOk s) := by
  unfold execSmbSetPointer
  repeat' first
    | with_reducible apply OutKeeps.next
    | intro _
    | with_reducible assumption
    | with_reducible apply State.modHost_keeps
    | with_reducible apply State.smbPec_keeps
    | with_reducible rfl

theorem execSmbReadRegister_keeps {qz : List Instr} (s : State) (hs : s.Keeps qz) :
    OutKeeps qz (execSmbReadRegister s) := by
  unfold execSmbReadRegister
  repeat' first
    | with_reducible apply OutKeeps.next
    | with_reducible assumption
    | with_reducible apply State.drainF_keeps
    | with_reducible apply State.modHost_keeps
    | with_reducible apply State.smbAnswer_keeps
    | with_reducible apply State.windowRead_keeps
    | with_reducible apply State.Keeps.ite
    | with_reducible rfl

theorem execSmbReadHealth_keeps {qz : List Instr} (s : State) (hs : s.Keeps qz) :
    OutKeeps qz (execSmbReadHealth s) := by
  unfold execSmbReadHealth
  repeat' first
    | with_reducible apply OutKeeps.next
    | with_reducible assumption
    | with_reducible apply State.healthPayload_keeps
    | with_reducible apply State.smbAnswer_keeps
    | with_reducible apply State.Keeps.ite

theorem execSmbReadMcpl_keeps {qz : List Instr} (s : State) (hs : s.Keeps qz) :
    OutKeeps qz (execSmbReadMcpl s) := by
  unfold execSmbReadMcpl
  repeat' first
    | with_reducible apply OutKeeps.next
    | with_reducible assumption
    | with_reducible apply State.modHost_keeps
    | with_reducible apply State.smbAnswer_keeps
    | with_reducible apply State.Keeps.ite
    | with_reducible rfl

theorem execSmbAlertResponse_keeps {qz : List Instr} (s : State) (hs : s.Keeps qz) :
    OutKeeps qz (execSmbAlertResponse s) := by
  unfold execSmbAlertResponse
  repeat' first
    | with_reducible apply OutKeeps.next
    | with_reducible assumption
    | with_reducible apply State.modHost_keeps
    | with_reducible apply State.smbAnswer_keeps
    | with_reducible apply State.Keeps.ite
    | with_reducible rfl

theorem execSmbDescriptorDone_keeps {qz : List Instr} (s : State) (hs : s.Keeps qz) :
    OutKeeps qz (execSmbDescriptorDone s) := by
  unfold execSmbDescriptorDone
  repeat' first
    | with_reducible apply OutKeeps.next
    | with_reducible assumption
    | with_reducible apply State.dropFlight_keeps
    | with_reducible apply State.modHost_keeps
    | with_reducible apply State.setF_keeps
    | with_reducible rfl
    | dsimp only
    | split

end Sys2Proof.Machine
end

