-- ==== Sys2Proof/Laws/KeepsPower.lean ====
section
/-!
SUPPORT. What the definitions of Machine/Power.lean keep.
-/
namespace Sys2Proof.Machine

theorem State.cold_keeps {qz : List Instr} (s : State) (hs : s.Keeps qz) : State.Keeps qz s.cold := by
  obtain ⟨h0, ⟨r, m, sn, w, p, a, b⟩, l⟩ := hs
  exact ⟨h0, ⟨rfl, rfl, (fun _ e => nomatch (e : none = some _)), rfl, p, a, b⟩, rfl, rfl, rfl, rfl, rfl, rfl, rfl, rfl, rfl, rfl⟩

theorem execPowerOn_keeps {qz : List Instr} (vsys : Nat) (testen : Bool) (s : State) (hs : s.Keeps qz) :
    OutKeeps qz (execPowerOn vsys testen s) := by
  unfold execPowerOn
  repeat' first
    | with_reducible apply OutKeeps.next
    | with_reducible assumption
    | with_reducible apply State.railsShow_keeps
    | with_reducible apply State.setF_keeps
    | with_reducible apply State.Keeps.ite
    | with_reducible rfl
    | dsimp only
    | with_reducible apply State.Keeps.mk
    | (with_reducible apply State.Base.of; with_reducible apply State.cold_keeps)

theorem execVsysFail_keeps {qz : List Instr} (s : State) (hs : s.Keeps qz) :
    OutKeeps qz (execVsysFail s) := by
  unfold execVsysFail
  repeat' first
    | with_reducible apply OutKeeps.next
    | with_reducible assumption
    | with_reducible apply State.cold_keeps
    | with_reducible apply State.flashCut_keeps
    | with_reducible apply State.modClk_keeps
    | with_reducible apply State.modMetro_keeps
    | with_reducible apply State.modPower_keeps
    | with_reducible apply State.Keeps.ite

theorem execResetN_keeps {qz : List Instr} (testen : Bool) (s : State) (hs : s.Keeps qz) :
    OutKeeps qz (execResetN testen s) := by
  unfold execResetN
  refine OutKeeps.next (State.Keeps.ite hs (State.railsShow_keeps _ _ (State.modPower_keeps _ _ ?_)))
  have hc : (s.flashCut.cold.modTest (fun _ => { TestX.reset with testen := testen })).Keeps qz :=
    State.modTest_keeps _ _ (State.cold_keeps _ (State.flashCut_keeps _ hs))
  have hr : s.flashCut.regs.wf = true := (State.flashCut_keeps s hs).2.1.1
  have hi (t : State) (ht : t.Keeps qz) : ((t.setF R.MEM_RST_CAUSE F.MEM_RST_CAUSE_CAUSE 1).incSat R.MEM_RST_CAUSE
      F.MEM_RST_CAUSE_COUNT).Keeps qz := State.incSat_keeps _ _ _ (State.setF_keeps _ _ _ _ ht)
  exact State.Keeps.ite
    (State.setF_keeps _ _ _ _ (hi _ (State.Keeps.ite hc (State.wr_keeps _ _ _
      (State.modRegs_keeps _ _ hc (RegFile.wf_resetWhere _ _ hr))))))
    (State.setF_keeps _ _ _ _ (hi _ (State.Keeps.ite hc (State.wr_keeps _ _ _
      (State.modRegs_keeps _ _ hc (RegFile.wf_resetWhere _ _ hr))))))

theorem execVioGoodChange_keeps {qz : List Instr} (good : Bool) (mv : Nat) (s : State) (hs : s.Keeps qz) :
    OutKeeps qz (execVioGoodChange good mv s) := by
  unfold execVioGoodChange
  repeat' first
    | with_reducible apply OutKeeps.next
    | with_reducible assumption
    | with_reducible apply State.setF_keeps

theorem execRailFault_keeps {qz : List Instr} (i : Fin 16) (mv : Nat) (s : State) (hs : s.Keeps qz) :
    OutKeeps qz (execRailFault i mv s) := by
  unfold execRailFault
  repeat' first
    | with_reducible apply OutKeeps.next
    | with_reducible assumption
    | with_reducible apply State.setF_keeps
    | with_reducible apply State.Keeps.ite

theorem execHubPowerGoodLow_keeps {qz : List Instr} (s : State) (hs : s.Keeps qz) :
    OutKeeps qz (execHubPowerGoodLow s) := by
  unfold execHubPowerGoodLow
  repeat' first
    | with_reducible apply OutKeeps.next
    | with_reducible assumption
    | with_reducible apply State.hubReset_keeps
    | with_reducible apply State.latchCause_keeps
    | with_reducible apply State.setF_keeps
    | with_reducible apply State.Keeps.ite

theorem execHubPowerGoodHigh_keeps {qz : List Instr} (s : State) (hs : s.Keeps qz) :
    OutKeeps qz (execHubPowerGoodHigh s) := by
  unfold execHubPowerGoodHigh
  repeat' first
    | with_reducible apply OutKeeps.next
    | with_reducible assumption
    | with_reducible apply State.setF_keeps

theorem State.protWrite_keeps {qz : List Instr}   : ∀ (x0 : List Nat) (x1 : List Word) (x2 : State),
    x2.Keeps qz → State.Keeps qz (State.protWrite x0 x1 x2) := by
  intro x0 x1 x2
  fun_induction State.protWrite x0 x1 x2
  all_goals repeat' first
    | intro _
    | with_reducible assumption
    | with_reducible apply State.wr_keeps
    | with_reducible apply_assumption

theorem State.imageLoad_keeps {qz : List Instr} (s : State) (i : Nat) (hs : s.Keeps qz) :
    State.Keeps qz (State.imageLoad s i) := by
  unfold State.imageLoad
  repeat' first
    | with_reducible assumption
    | with_reducible apply State.protWrite_keeps
    | with_reducible apply State.setF_keeps
    | with_reducible apply State.wr_keeps

theorem State.recovery_keeps {qz : List Instr} (s : State) (hs : s.Keeps qz) :
    State.Keeps qz (State.recovery s) := by
  unfold State.recovery
  repeat' first
    | with_reducible assumption
    | with_reducible apply State.setF_keeps
    | with_reducible apply State.wr_keeps

theorem State.chooseImage_keeps {qz : List Instr} (s : State) (errA : Bool) (errB : Bool) (hs : s.Keeps qz) :
    State.Keeps qz (State.chooseImage s errA errB) := by
  unfold State.chooseImage
  repeat' first
    | with_reducible assumption
    | with_reducible apply State.imageLoad_keeps
    | with_reducible apply State.modPower_keeps
    | with_reducible apply State.recovery_keeps
    | with_reducible apply State.setF_keeps
    | with_reducible apply State.Keeps.ite

theorem execBootRomStart_keeps {qz : List Instr} (readErrA : Bool) (readErrB : Bool) (s : State) (hs : s.Keeps qz) :
    OutKeeps qz (execBootRomStart readErrA readErrB s) := by
  unfold execBootRomStart
  repeat' first
    | with_reducible apply OutKeeps.next
    | with_reducible assumption
    | with_reducible apply State.chooseImage_keeps
    | with_reducible apply State.jnlScan_keeps
    | with_reducible apply State.modPower_keeps
    | with_reducible apply State.railsShow_keeps
    | with_reducible apply State.raiseAt_keeps
    | with_reducible apply State.setF_keeps
    | with_reducible apply State.wr_keeps
    | with_reducible apply State.Keeps.ite

theorem State.skipped_keeps {qz : List Instr} (s : State) (hs : s.Keeps qz) :
    State.Keeps qz (State.skipped s) := by
  unfold State.skipped
  repeat' first
    | with_reducible assumption
    | with_reducible apply State.incSat_keeps

theorem State.restoreWrite_keeps {qz : List Instr} (eff : Nat) (s : State) (a : Nat) (v : Word) (hs : s.Keeps qz) :
    State.Keeps qz (State.restoreWrite eff s a v) := by
  unfold State.restoreWrite
  repeat' first
    | with_reducible assumption
    | with_reducible apply State.guardErr_keeps
    | with_reducible apply State.skipped_keeps
    | with_reducible apply State.stageAct_keeps
    | with_reducible apply State.writeNow_keeps
    | with_reducible apply State.Keeps.ite

theorem State.restoreRegs_keeps {qz : List Instr} (s : State) (ps : List (Nat × Word)) (hs : s.Keeps qz) :
    State.Keeps qz (State.restoreRegs s ps) := by
  unfold State.restoreRegs
  repeat' first
    | intro _
    | with_reducible assumption
    | with_reducible apply State.restoreWrite_keeps
    | with_reducible apply State.Keeps.foldl

theorem State.restoreCal_keeps {qz : List Instr}   : ∀ (x0 : Nat) (x1 : List Word) (x2 : State),
    x2.Keeps qz → State.Keeps qz (State.restoreCal x0 x1 x2) := by
  intro x0 x1 x2
  fun_induction State.restoreCal x0 x1 x2
  all_goals repeat' first
    | intro _
    | with_reducible assumption
    | with_reducible apply State.setCalPair_keeps
    | with_reducible apply_assumption

theorem State.restoreGens_keeps {qz : List Instr} (eff : Nat)  : ∀ (x0 : Nat) (x1 : List Word) (x2 : State),
    x2.Keeps qz → State.Keeps qz (State.restoreGens eff x0 x1 x2) := by
  intro x0 x1 x2
  fun_induction State.restoreGens eff x0 x1 x2
  all_goals repeat' first
    | intro _
    | with_reducible assumption
    | with_reducible apply State.stageAct_keeps
    | with_reducible apply_assumption

theorem State.restoreAhead_keeps {qz : List Instr}   : ∀ (x0 : Nat) (x1 : List Byte) (x2 : State),
    x2.Keeps qz → State.Keeps qz (State.restoreAhead x0 x1 x2) := by
  intro x0 x1 x2
  fun_induction State.restoreAhead x0 x1 x2
  all_goals repeat' first
    | intro _
    | with_reducible assumption
    | with_reducible apply State.modEng_keeps
    | with_reducible apply_assumption

theorem State.restoreRecord_keeps {qz : List Instr} (s : State) (key : Nat) (bs : List Byte) (hs : s.Keeps qz) :
    State.Keeps qz (State.restoreRecord s key bs) := by
  unfold State.restoreRecord
  repeat' first
    | with_reducible assumption
    | with_reducible apply State.modMp_keeps
    | with_reducible apply State.restoreAhead_keeps
    | with_reducible apply State.restoreCal_keeps
    | with_reducible apply State.restoreGens_keeps
    | with_reducible apply State.restoreRegs_keeps
    | with_reducible apply State.setCoefs_keeps
    | with_reducible apply State.Keeps.ite

theorem State.restoreKeys_keeps {qz : List Instr}   : ∀ (x0 : List Nat) (x1 : State),
    x1.Keeps qz → State.Keeps qz (State.restoreKeys x0 x1) := by
  intro x0 x1
  fun_induction State.restoreKeys x0 x1
  all_goals repeat' first
    | intro _
    | with_reducible assumption
    | with_reducible apply State.restoreRecord_keeps
    | with_reducible apply_assumption
    | split

theorem State.restoreJournal_keeps {qz : List Instr} (s : State) (hs : s.Keeps qz) :
    State.Keeps qz (State.restoreJournal s) := by
  unfold State.restoreJournal
  repeat' first
    | with_reducible assumption
    | with_reducible apply State.restoreKeys_keeps

theorem State.afterSeal_keeps {qz : List Instr} (s : State) (was : Bool) (hs : s.Keeps qz) :
    State.Keeps qz (State.afterSeal s was) := by
  unfold State.afterSeal
  repeat' first
    | with_reducible assumption
    | with_reducible apply State.restoreJournal_keeps
    | with_reducible apply State.Keeps.ite

theorem execBootseal_keeps {qz : List Instr} (a : Agent) (s : State) (hs : s.Keeps qz) :
    OutKeeps qz (execBootseal a s) := by
  unfold execBootseal
  repeat' first
    | with_reducible apply OutKeeps.next
    | with_reducible assumption
    | with_reducible apply State.afterSeal_keeps
    | with_reducible apply State.writeThrough_keeps

theorem execRegisterWrite_keeps {qz : List Instr} (a : Agent) (addr : BitVec 17) (v : Word) (be : Fin 16) (s : State) (hs : s.Keeps qz) :
    OutKeeps qz (execRegisterWrite a addr v be s) := by
  unfold execRegisterWrite
  repeat' first
    | with_reducible apply OutKeeps.next
    | with_reducible assumption
    | with_reducible apply State.afterSeal_keeps
    | with_reducible apply State.windowWrite_keeps

theorem State.bootEnds_keeps {qz : List Instr} (s : State) (hs : s.Keeps qz) :
    State.Keeps qz (State.bootEnds s) := by
  unfold State.bootEnds
  repeat' first
    | with_reducible assumption
    | with_reducible apply State.histEntry_keeps
    | with_reducible apply State.modeChangedEvent_keeps
    | with_reducible apply State.transEnd_keeps
    | with_reducible apply State.Keeps.ite

theorem execJournalRestoreDone_keeps {qz : List Instr} (s : State) (hs : s.Keeps qz) :
    OutKeeps qz (execJournalRestoreDone s) := by
  unfold execJournalRestoreDone
  repeat' first
    | with_reducible apply OutKeeps.next
    | with_reducible assumption
    | with_reducible apply State.bootEnds_keeps
    | with_reducible apply State.modPower_keeps
    | with_reducible apply State.setF_keeps
    | with_reducible apply State.Keeps.ite

theorem execRecoveryDone_keeps {qz : List Instr} (ok : Bool) (s : State) (hs : s.Keeps qz) :
    OutKeeps qz (execRecoveryDone ok s) := by
  unfold execRecoveryDone
  repeat' first
    | with_reducible apply OutKeeps.next
    | intro _
    | with_reducible assumption
    | with_reducible apply State.flashApply_keeps
    | with_reducible apply State.jnlShow_keeps
    | with_reducible apply State.modFlash_keeps
    | with_reducible apply State.setF_keeps
    | with_reducible apply State.Keeps.ite
    | (guard_target = FlashX.Ok _; first | assumption | exact And.intro (And.left (by assumption)) (And.right (by assumption)))
    | dsimp only
    | split

theorem State.stopAll_keeps {qz : List Instr}   : ∀ (x0 : List Nat) (x1 : State),
    x1.Keeps qz → State.Keeps qz (State.stopAll x0 x1) := by
  intro x0 x1
  fun_induction State.stopAll x0 x1
  all_goals repeat' first
    | intro _
    | with_reducible assumption
    | with_reducible apply State.chStop_keeps
    | with_reducible apply_assumption

theorem State.loDownAll_keeps {qz : List Instr}   : ∀ (x0 : List Nat) (x1 : State),
    x1.Keeps qz → State.Keeps qz (State.loDownAll x0 x1) := by
  intro x0 x1
  fun_induction State.loDownAll x0 x1
  all_goals repeat' first
    | intro _
    | with_reducible assumption
    | with_reducible apply State.setF_keeps
    | with_reducible apply State.setLo_keeps
    | with_reducible apply_assumption
    | split

theorem execListenOutputsZero_keeps {qz : List Instr} (idx : Nat) (s : State) (hs : s.Keeps qz) :
    OutKeeps qz (execListenOutputsZero idx s) := by
  unfold execListenOutputsZero
  repeat' first
    | with_reducible apply OutKeeps.next
    | with_reducible assumption
    | with_reducible apply State.loDownAll_keeps
    | with_reducible apply State.modPower_keeps
    | with_reducible apply State.park_keeps
    | with_reducible apply State.stopAll_keeps
    | with_reducible apply State.switchWindow_keeps
    | with_reducible apply State.Keeps.ite

theorem State.pllStops_keeps {qz : List Instr} (s : State) (hs : s.Keeps qz) :
    State.Keeps qz (State.pllStops s) := by
  unfold State.pllStops
  repeat' first
    | with_reducible assumption
    | with_reducible apply State.modClk_keeps
    | with_reducible apply State.setF_keeps

theorem State.intoListen_keeps {qz : List Instr} (s : State) (hs : s.Keeps qz) :
    State.Keeps qz (State.intoListen s) := by
  unfold State.intoListen
  repeat' first
    | with_reducible assumption
    | with_reducible apply State.histEntry_keeps
    | with_reducible apply State.hubReset_keeps
    | with_reducible apply State.incSat_keeps
    | with_reducible apply State.modMetro_keeps
    | with_reducible apply State.modPower_keeps
    | with_reducible apply State.pllStops_keeps
    | with_reducible apply State.railsShow_keeps
    | with_reducible apply State.setF_keeps
    | with_reducible apply State.snsOff_keeps
    | with_reducible apply State.wr_keeps
    | with_reducible apply State.Keeps.ite

theorem State.intoShelf_keeps {qz : List Instr} (s : State) (hs : s.Keeps qz) :
    State.Keeps qz (State.intoShelf s) := by
  unfold State.intoShelf
  repeat' first
    | with_reducible assumption
    | with_reducible apply State.cold_keeps
    | with_reducible apply State.lsnDiscard_keeps
    | with_reducible apply State.modClk_keeps
    | with_reducible apply State.modMetro_keeps
    | with_reducible apply State.modPower_keeps

theorem execListenRailRemove_keeps {qz : List Instr} (s : State) (hs : s.Keeps qz) :
    OutKeeps qz (execListenRailRemove s) := by
  unfold execListenRailRemove
  repeat' first
    | with_reducible apply OutKeeps.next
    | with_reducible assumption
    | with_reducible apply State.intoListen_keeps
    | with_reducible apply State.intoShelf_keeps
    | with_reducible apply State.Keeps.ite

theorem execListenEntryCancel_keeps {qz : List Instr} (source : Fin 4) (s : State) (hs : s.Keeps qz) :
    OutKeeps qz (execListenEntryCancel source s) := by
  unfold execListenEntryCancel
  repeat' first
    | with_reducible apply OutKeeps.next
    | with_reducible assumption
    | with_reducible apply State.entryCancel_keeps
    | with_reducible apply State.Keeps.ite

theorem execGpioWake_keeps {qz : List Instr} (k : Fin 4) (s : State) (hs : s.Keeps qz) :
    OutKeeps qz (execGpioWake k s) := by
  unfold execGpioWake
  repeat' first
    | with_reducible apply OutKeeps.next
    | with_reducible assumption
    | with_reducible apply State.setF_keeps
    | with_reducible apply State.wakeRequest_keeps
    | with_reducible apply State.Keeps.ite

theorem State.startAll_keeps {qz : List Instr}   : ∀ (x0 : List Nat) (x1 : State),
    x1.Keeps qz → State.Keeps qz (State.startAll x0 x1) := by
  intro x0 x1
  fun_induction State.startAll x0 x1
  all_goals repeat' first
    | intro _
    | with_reducible assumption
    | with_reducible apply State.chStart_keeps
    | with_reducible apply State.Keeps.ite
    | with_reducible apply_assumption

theorem execWakeOutputsReady_keeps {qz : List Instr} (idx : Nat) (s : State) (hs : s.Keeps qz) :
    OutKeeps qz (execWakeOutputsReady idx s) := by
  unfold execWakeOutputsReady
  repeat' first
    | with_reducible apply OutKeeps.next
    | with_reducible assumption
    | with_reducible apply State.modPower_keeps
    | with_reducible apply State.pllLocks_keeps
    | with_reducible apply State.railsShow_keeps
    | with_reducible apply State.startAll_keeps
    | with_reducible apply State.switchWindow_keeps
    | with_reducible apply State.unpark_keeps
    | with_reducible apply State.Keeps.ite

theorem State.refResume_keeps {qz : List Instr} (s : State) (hs : s.Keeps qz) :
    State.Keeps qz (State.refResume s) := by
  unfold State.refResume
  repeat' first
    | with_reducible assumption
    | with_reducible apply State.alignShow_keeps
    | with_reducible apply State.modClk_keeps
    | with_reducible apply State.setF_keeps
    | with_reducible apply State.Keeps.ite

theorem execHubReady_keeps {qz : List Instr} (s : State) (hs : s.Keeps qz) :
    OutKeeps qz (execHubReady s) := by
  unfold execHubReady
  repeat' first
    | with_reducible apply OutKeeps.next
    | with_reducible assumption
    | with_reducible apply State.gatherStart_keeps
    | with_reducible apply State.histEntry_keeps
    | with_reducible apply State.modeChangedEvent_keeps
    | with_reducible apply State.railsShow_keeps
    | with_reducible apply State.refResume_keeps
    | with_reducible apply State.spaceReturn_keeps
    | with_reducible apply State.transEnd_keeps
    | with_reducible apply State.Keeps.ite

end Sys2Proof.Machine
end

