-- ==== Sys2Proof/Laws/KeepsCommands.lean ====
section
/-!
SUPPORT. What the definitions of Machine/Commands.lean keep.
-/
namespace Sys2Proof.Machine

theorem State.regReport_keeps {qz : List Instr} (s : State) (o : Origin) (hs : s.Keeps qz) : ∀ (x0 : List Nat),
    State.Keeps qz (State.regReport s o x0) := by
  intro x0
  fun_induction State.regReport s o x0
  all_goals repeat' first
    | with_reducible assumption
    | with_reducible apply State.protViolation_keeps

theorem State.ends_keeps {qz : List Instr} (s : State) (id : DescId) (st : Status) (hs : s.Keeps qz) :
    State.Keeps qz (State.ends s id st) := by
  unfold State.ends
  repeat' first
    | with_reducible assumption
    | with_reducible apply State.finish_keeps
    | with_reducible apply State.finishBad_keeps
    | with_reducible apply State.Keeps.ite

theorem endsWith_keeps {qz : List Instr} (id : DescId) (r : Status × State) (hr : r.2.Keeps qz) :
    State.Keeps qz (endsWith id r) := by
  unfold endsWith
  repeat' first
    | with_reducible assumption
    | with_reducible apply State.ends_keeps

theorem State.presetStore_keeps {qz : List Instr} (s : State) (t : Nat) (bs : List Byte) (hs : s.Keeps qz) :
    State.Keeps qz (State.presetStore s t bs) := by
  unfold State.presetStore
  repeat' first
    | with_reducible assumption
    | with_reducible apply State.modMp_keeps

theorem State.asHolder_keeps {qz : List Instr} (s : State) (id : DescId) (k : Nat) (f : State → State) (hs : s.Keeps qz) (hf : ∀ y0, y0.Keeps qz → State.Keeps qz (f y0)) :
    State.Keeps qz (State.asHolder s id k f) := by
  unfold State.asHolder
  repeat' first
    | with_reducible assumption
    | with_reducible apply State.finishBad_keeps
    | with_reducible apply State.Keeps.ite
    | with_reducible apply_assumption
    | split

theorem State.cmdOper_keeps {qz : List Instr} (s : State) (id : DescId) (d : Desc) (bs : List Byte) (hs : s.Keeps qz) :
    State.Keeps qz (State.cmdOper s id d bs) := by
  unfold State.cmdOper
  repeat' first
    | intro _
    | with_reducible assumption
    | with_reducible apply State.asHolder_keeps
    | with_reducible apply State.ends_keeps
    | with_reducible apply endsWith_keeps
    | with_reducible apply State.finishBad_keeps
    | with_reducible apply State.gatherStart_keeps
    | with_reducible apply State.gatherStop_keeps
    | with_reducible apply State.incSat_keeps
    | with_reducible apply State.inject_keeps
    | with_reducible apply State.irLoad_keeps
    | with_reducible apply State.lockAcquire_keeps
    | with_reducible apply State.lockDiscard_keeps
    | with_reducible apply State.lockRenew_keeps
    | with_reducible apply State.playQueue_keeps
    | with_reducible apply State.playStop_keeps
    | with_reducible apply State.presetStore_keeps
    | with_reducible apply State.progLoad_keeps
    | with_reducible apply State.putPayload_keeps
    | with_reducible apply State.raClear_keeps
    | with_reducible apply State.raSet_keeps
    | with_reducible apply State.setCoefs_keeps
    | with_reducible apply State.snsSoftware_keeps
    | with_reducible apply State.Keeps.ite
    | dsimp only
    | split

theorem State.journalWrite_keeps {qz : List Instr} (s : State) (id : DescId) (gs : List Nat) (recs : List (Nat × List Byte)) (hs : s.Keeps qz) :
    State.Keeps qz (State.journalWrite s id gs recs) := by
  unfold State.journalWrite
  repeat' first
    | with_reducible assumption
    | with_reducible apply State.ends_keeps
    | with_reducible apply State.flashBegin_keeps
    | with_reducible apply State.Keeps.ite

theorem State.powerMode_keeps {qz : List Instr} (s : State) (id : DescId) (code : Nat) (hs : s.Keeps qz) :
    State.Keeps qz (State.powerMode s id code) := by
  unfold State.powerMode
  repeat' first
    | with_reducible assumption
    | with_reducible apply State.ends_keeps
    | with_reducible apply State.modPower_keeps
    | with_reducible apply State.modeChangedEvent_keeps
    | with_reducible apply State.quietAbandon_keeps
    | with_reducible apply State.quietBegin_keeps
    | with_reducible apply State.quietTrigger_keeps
    | with_reducible apply State.statusBlock_keeps
    | with_reducible apply State.transBegin_keeps
    | with_reducible apply State.Keeps.ite
    | dsimp only
    | split

theorem State.metroAsk_keeps {qz : List Instr} (s : State) (id : DescId) (d : Desc) (hs : s.Keeps qz) :
    State.Keeps qz (State.metroAsk s id d) := by
  unfold State.metroAsk
  repeat' first
    | with_reducible assumption
    | with_reducible apply State.ends_keeps
    | with_reducible apply State.modMetro_keeps
    | with_reducible apply State.Keeps.ite

theorem State.mgmtOper_keeps {qz : List Instr} (s : State) (id : DescId) (d : Desc) (bs : List Byte) (hs : s.Keeps qz) :
    State.Keeps qz (State.mgmtOper s id d bs) := by
  unfold State.mgmtOper
  repeat' first
    | with_reducible assumption
    | with_reducible apply State.ends_keeps
    | with_reducible apply State.finishBad_keeps
    | with_reducible apply State.flashBegin_keeps
    | with_reducible apply State.journalWrite_keeps
    | with_reducible apply State.metroAsk_keeps
    | with_reducible apply State.powerMode_keeps
    | with_reducible apply State.putPayload_keeps
    | with_reducible apply State.Keeps.ite
    | dsimp only
    | split

theorem State.operOf_keeps {qz : List Instr} (s : State) (id : DescId) (d : Desc) (bs : List Byte) (hs : s.Keeps qz) :
    State.Keeps qz (State.operOf s id d bs) := by
  unfold State.operOf
  repeat' first
    | with_reducible assumption
    | with_reducible apply State.cmdOper_keeps
    | with_reducible apply State.ends_keeps
    | with_reducible apply State.finishBad_keeps
    | with_reducible apply State.mgmtOper_keeps
    | with_reducible apply State.Keeps.ite

theorem State.failDesc_keeps {qz : List Instr} (s : State) (id : DescId) (d : Desc) (st : Status) (hs : s.Keeps qz) :
    State.Keeps qz (State.failDesc s id d st) := by
  unfold State.failDesc
  repeat' first
    | with_reducible assumption
    | with_reducible apply State.chainFail_keeps
    | with_reducible apply State.finishBad_keeps
    | split

theorem State.setWant_keeps {qz : List Instr} (s : State) (id : DescId) (want : Option Nat) (hs : s.Keeps qz) :
    State.Keeps qz (State.setWant s id want) := by
  unfold State.setWant
  repeat' first
    | with_reducible assumption
    | with_reducible apply State.modQueue_keeps

theorem State.stageDesc_keeps {qz : List Instr} (s : State) (id : DescId) (d : Desc) (act : Act) (hs : s.Keeps qz) :
    State.Keeps qz (State.stageDesc s id d act) := by
  unfold State.stageDesc
  repeat' first
    | with_reducible assumption
    | with_reducible apply State.setWant_keeps
    | with_reducible apply State.stageAct_keeps

theorem State.releaseOf_keeps {qz : List Instr} (s : State) (id : DescId) (d : Desc) (hs : s.Keeps qz) :
    State.Keeps qz (State.releaseOf s id d) := by
  unfold State.releaseOf
  repeat' first
    | intro _
    | with_reducible assumption
    | with_reducible apply State.asHolder_keeps
    | with_reducible apply State.finishBad_keeps
    | with_reducible apply State.incWrap_keeps
    | with_reducible apply State.lockDrop_keeps
    | with_reducible apply State.lockRelease_keeps
    | with_reducible apply State.Keeps.ite

theorem State.beginDesc_keeps {qz : List Instr} (s : State) (id : DescId) (d : Desc) (k : OpKind) (hs : s.Keeps qz) :
    State.Keeps qz (State.beginDesc s id d k) := by
  unfold State.beginDesc
  repeat' first
    | with_reducible assumption
    | with_reducible apply State.chainStage_keeps
    | with_reducible apply State.failDesc_keeps
    | with_reducible apply State.operOf_keeps
    | with_reducible apply State.regReport_keeps
    | with_reducible apply State.releaseOf_keeps
    | with_reducible apply State.stageDesc_keeps
    | with_reducible apply State.Keeps.ite
    | split

theorem State.checkDesc_keeps {qz : List Instr} (s : State) (id : DescId) (d : Desc) (hs : s.Keeps qz) :
    State.Keeps qz (State.checkDesc s id d) := by
  unfold State.checkDesc
  repeat' first
    | with_reducible assumption
    | with_reducible apply State.beginDesc_keeps
    | with_reducible apply State.failDesc_keeps
    | with_reducible apply State.finishBad_keeps
    | with_reducible apply State.fresh_keeps
    | with_reducible apply State.protViolation_keeps
    | with_reducible apply State.quietTrigger_keeps
    | with_reducible apply State.Keeps.ite
    | dsimp only
    | split

theorem State.runDesc_keeps {qz : List Instr} (s : State) (o : Origin) (d : Desc) (hs : s.Keeps qz) :
    State.Keeps qz (State.runDesc s o d) := by
  unfold State.runDesc
  repeat' first
    | with_reducible assumption
    | with_reducible apply State.checkDesc_keeps
    | with_reducible apply State.leases_keeps
    | with_reducible apply State.newFlight_keeps

theorem State.opRow_keeps {qz : List Instr} (s : State) (op : Nat) (o : Origin) (d : Desc) (hs : s.Keeps qz) :
    State.Keeps qz (State.opRow s op o d) := by
  unfold State.opRow
  repeat' first
    | with_reducible assumption
    | with_reducible apply State.runDesc_keeps
    | with_reducible apply State.Keeps.ite

theorem execDescriptorFetch_keeps {qz : List Instr} (mgmt : Bool) (bytes : List Byte) (payload : List Byte) (s : State) (hs : s.Keeps qz) :
    OutKeeps qz (execDescriptorFetch mgmt bytes payload s) := by
  unfold execDescriptorFetch
  repeat' first
    | with_reducible apply OutKeeps.next
    | with_reducible assumption
    | with_reducible apply State.modHost_keeps
    | with_reducible apply State.ringFull_keeps
    | with_reducible apply State.runDesc_keeps
    | with_reducible apply State.setF_keeps
    | with_reducible apply State.Keeps.ite
    | with_reducible rfl

theorem execSmbSubmit_keeps {qz : List Instr} (d : Desc) (pecOk : Bool) (s : State) (hs : s.Keeps qz) :
    OutKeeps qz (execSmbSubmit d pecOk s) := by
  unfold execSmbSubmit
  repeat' first
    | with_reducible apply OutKeeps.next
    | intro _
    | with_reducible assumption
    | with_reducible apply State.runDesc_keeps
    | with_reducible apply State.setF_keeps
    | with_reducible apply State.smbPec_keeps
    | with_reducible apply State.Keeps.ite

theorem execLaneSource_keeps {qz : List Instr} (org : Origin) (d : Desc) (s : State) (hs : s.Keeps qz) :
    OutKeeps qz (execLaneSource org d s) := by
  unfold execLaneSource
  repeat' first
    | with_reducible apply OutKeeps.next
    | with_reducible assumption
    | with_reducible apply State.opRow_keeps

theorem execLaneTrim_keeps {qz : List Instr} (org : Origin) (d : Desc) (s : State) (hs : s.Keeps qz) :
    OutKeeps qz (execLaneTrim org d s) := by
  unfold execLaneTrim
  repeat' first
    | with_reducible apply OutKeeps.next
    | with_reducible assumption
    | with_reducible apply State.opRow_keeps

theorem execLaneDetect_keeps {qz : List Instr} (org : Origin) (d : Desc) (s : State) (hs : s.Keeps qz) :
    OutKeeps qz (execLaneDetect org d s) := by
  unfold execLaneDetect
  repeat' first
    | with_reducible apply OutKeeps.next
    | with_reducible assumption
    | with_reducible apply State.opRow_keeps

theorem execBusInput_keeps {qz : List Instr} (org : Origin) (d : Desc) (s : State) (hs : s.Keeps qz) :
    OutKeeps qz (execBusInput org d s) := by
  unfold execBusInput
  repeat' first
    | with_reducible apply OutKeeps.next
    | with_reducible assumption
    | with_reducible apply State.opRow_keeps

theorem execBusCfg_keeps {qz : List Instr} (org : Origin) (d : Desc) (s : State) (hs : s.Keeps qz) :
    OutKeeps qz (execBusCfg org d s) := by
  unfold execBusCfg
  repeat' first
    | with_reducible apply OutKeeps.next
    | with_reducible assumption
    | with_reducible apply State.opRow_keeps

theorem execSink_keeps {qz : List Instr} (org : Origin) (d : Desc) (s : State) (hs : s.Keeps qz) :
    OutKeeps qz (execSink org d s) := by
  unfold execSink
  repeat' first
    | with_reducible apply OutKeeps.next
    | with_reducible assumption
    | with_reducible apply State.opRow_keeps

theorem execSinkDynamics_keeps {qz : List Instr} (org : Origin) (d : Desc) (s : State) (hs : s.Keeps qz) :
    OutKeeps qz (execSinkDynamics org d s) := by
  unfold execSinkDynamics
  repeat' first
    | with_reducible apply OutKeeps.next
    | with_reducible assumption
    | with_reducible apply State.opRow_keeps

theorem execPresetStore_keeps {qz : List Instr} (org : Origin) (d : Desc) (s : State) (hs : s.Keeps qz) :
    OutKeeps qz (execPresetStore org d s) := by
  unfold execPresetStore
  repeat' first
    | with_reducible apply OutKeeps.next
    | with_reducible assumption
    | with_reducible apply State.opRow_keeps

theorem execPresetApply_keeps {qz : List Instr} (org : Origin) (d : Desc) (s : State) (hs : s.Keeps qz) :
    OutKeeps qz (execPresetApply org d s) := by
  unfold execPresetApply
  repeat' first
    | with_reducible apply OutKeeps.next
    | with_reducible assumption
    | with_reducible apply State.opRow_keeps

theorem execFilterSwap_keeps {qz : List Instr} (org : Origin) (d : Desc) (s : State) (hs : s.Keeps qz) :
    OutKeeps qz (execFilterSwap org d s) := by
  unfold execFilterSwap
  repeat' first
    | with_reducible apply OutKeeps.next
    | with_reducible assumption
    | with_reducible apply State.opRow_keeps

theorem execFilterCoef_keeps {qz : List Instr} (org : Origin) (d : Desc) (s : State) (hs : s.Keeps qz) :
    OutKeeps qz (execFilterCoef org d s) := by
  unfold execFilterCoef
  repeat' first
    | with_reducible apply OutKeeps.next
    | with_reducible assumption
    | with_reducible apply State.opRow_keeps

theorem execFrontEndSync_keeps {qz : List Instr} (org : Origin) (d : Desc) (s : State) (hs : s.Keeps qz) :
    OutKeeps qz (execFrontEndSync org d s) := by
  unfold execFrontEndSync
  repeat' first
    | with_reducible apply OutKeeps.next
    | with_reducible assumption
    | with_reducible apply State.opRow_keeps

theorem execRegWrite_keeps {qz : List Instr} (org : Origin) (d : Desc) (s : State) (hs : s.Keeps qz) :
    OutKeeps qz (execRegWrite org d s) := by
  unfold execRegWrite
  repeat' first
    | with_reducible apply OutKeeps.next
    | with_reducible assumption
    | with_reducible apply State.opRow_keeps

theorem execRegWriteMasked_keeps {qz : List Instr} (org : Origin) (d : Desc) (s : State) (hs : s.Keeps qz) :
    OutKeeps qz (execRegWriteMasked org d s) := by
  unfold execRegWriteMasked
  repeat' first
    | with_reducible apply OutKeeps.next
    | with_reducible assumption
    | with_reducible apply State.opRow_keeps

theorem execRegWriteRun_keeps {qz : List Instr} (org : Origin) (d : Desc) (s : State) (hs : s.Keeps qz) :
    OutKeeps qz (execRegWriteRun org d s) := by
  unfold execRegWriteRun
  repeat' first
    | with_reducible apply OutKeeps.next
    | with_reducible assumption
    | with_reducible apply State.opRow_keeps

theorem execGenerator_keeps {qz : List Instr} (org : Origin) (d : Desc) (s : State) (hs : s.Keeps qz) :
    OutKeeps qz (execGenerator org d s) := by
  unfold execGenerator
  repeat' first
    | with_reducible apply OutKeeps.next
    | with_reducible assumption
    | with_reducible apply State.opRow_keeps

theorem execProgLoad_keeps {qz : List Instr} (org : Origin) (d : Desc) (s : State) (hs : s.Keeps qz) :
    OutKeeps qz (execProgLoad org d s) := by
  unfold execProgLoad
  repeat' first
    | with_reducible apply OutKeeps.next
    | with_reducible assumption
    | with_reducible apply State.opRow_keeps

theorem execProgStart_keeps {qz : List Instr} (org : Origin) (d : Desc) (s : State) (hs : s.Keeps qz) :
    OutKeeps qz (execProgStart org d s) := by
  unfold execProgStart
  repeat' first
    | with_reducible apply OutKeeps.next
    | with_reducible assumption
    | with_reducible apply State.opRow_keeps

theorem execEngineMode_keeps {qz : List Instr} (org : Origin) (d : Desc) (s : State) (hs : s.Keeps qz) :
    OutKeeps qz (execEngineMode org d s) := by
  unfold execEngineMode
  repeat' first
    | with_reducible apply OutKeeps.next
    | with_reducible assumption
    | with_reducible apply State.opRow_keeps

theorem execParamWrite_keeps {qz : List Instr} (org : Origin) (d : Desc) (s : State) (hs : s.Keeps qz) :
    OutKeeps qz (execParamWrite org d s) := by
  unfold execParamWrite
  repeat' first
    | with_reducible apply OutKeeps.next
    | with_reducible assumption
    | with_reducible apply State.opRow_keeps

theorem execIrLoad_keeps {qz : List Instr} (org : Origin) (d : Desc) (s : State) (hs : s.Keeps qz) :
    OutKeeps qz (execIrLoad org d s) := by
  unfold execIrLoad
  repeat' first
    | with_reducible apply OutKeeps.next
    | with_reducible assumption
    | with_reducible apply State.opRow_keeps

theorem execRunaheadSet_keeps {qz : List Instr} (org : Origin) (d : Desc) (s : State) (hs : s.Keeps qz) :
    OutKeeps qz (execRunaheadSet org d s) := by
  unfold execRunaheadSet
  repeat' first
    | with_reducible apply OutKeeps.next
    | with_reducible assumption
    | with_reducible apply State.opRow_keeps

theorem execRunaheadStatus_keeps {qz : List Instr} (org : Origin) (d : Desc) (s : State) (hs : s.Keeps qz) :
    OutKeeps qz (execRunaheadStatus org d s) := by
  unfold execRunaheadStatus
  repeat' first
    | with_reducible apply OutKeeps.next
    | with_reducible assumption
    | with_reducible apply State.opRow_keeps

theorem execGatherStart_keeps {qz : List Instr} (org : Origin) (d : Desc) (s : State) (hs : s.Keeps qz) :
    OutKeeps qz (execGatherStart org d s) := by
  unfold execGatherStart
  repeat' first
    | with_reducible apply OutKeeps.next
    | with_reducible assumption
    | with_reducible apply State.opRow_keeps

theorem execGatherStop_keeps {qz : List Instr} (org : Origin) (d : Desc) (s : State) (hs : s.Keeps qz) :
    OutKeeps qz (execGatherStop org d s) := by
  unfold execGatherStop
  repeat' first
    | with_reducible apply OutKeeps.next
    | with_reducible assumption
    | with_reducible apply State.opRow_keeps

theorem execHostStreamStart_keeps {qz : List Instr} (org : Origin) (d : Desc) (s : State) (hs : s.Keeps qz) :
    OutKeeps qz (execHostStreamStart org d s) := by
  unfold execHostStreamStart
  repeat' first
    | with_reducible apply OutKeeps.next
    | with_reducible assumption
    | with_reducible apply State.opRow_keeps

theorem execHostStreamStop_keeps {qz : List Instr} (org : Origin) (d : Desc) (s : State) (hs : s.Keeps qz) :
    OutKeeps qz (execHostStreamStop org d s) := by
  unfold execHostStreamStop
  repeat' first
    | with_reducible apply OutKeeps.next
    | with_reducible assumption
    | with_reducible apply State.opRow_keeps

theorem execTetherGains_keeps {qz : List Instr} (org : Origin) (d : Desc) (s : State) (hs : s.Keeps qz) :
    OutKeeps qz (execTetherGains org d s) := by
  unfold execTetherGains
  repeat' first
    | with_reducible apply OutKeeps.next
    | with_reducible assumption
    | with_reducible apply State.opRow_keeps

theorem execTetherMode_keeps {qz : List Instr} (org : Origin) (d : Desc) (s : State) (hs : s.Keeps qz) :
    OutKeeps qz (execTetherMode org d s) := by
  unfold execTetherMode
  repeat' first
    | with_reducible apply OutKeeps.next
    | with_reducible assumption
    | with_reducible apply State.opRow_keeps

theorem execTetherFaultClear_keeps {qz : List Instr} (org : Origin) (d : Desc) (s : State) (hs : s.Keeps qz) :
    OutKeeps qz (execTetherFaultClear org d s) := by
  unfold execTetherFaultClear
  repeat' first
    | with_reducible apply OutKeeps.next
    | with_reducible assumption
    | with_reducible apply State.opRow_keeps

theorem execTetherSelftest_keeps {qz : List Instr} (org : Origin) (d : Desc) (s : State) (hs : s.Keeps qz) :
    OutKeeps qz (execTetherSelftest org d s) := by
  unfold execTetherSelftest
  repeat' first
    | with_reducible apply OutKeeps.next
    | with_reducible assumption
    | with_reducible apply State.opRow_keeps

theorem execMessagePlay_keeps {qz : List Instr} (org : Origin) (d : Desc) (s : State) (hs : s.Keeps qz) :
    OutKeeps qz (execMessagePlay org d s) := by
  unfold execMessagePlay
  repeat' first
    | with_reducible apply OutKeeps.next
    | with_reducible assumption
    | with_reducible apply State.opRow_keeps

theorem execMessageStop_keeps {qz : List Instr} (org : Origin) (d : Desc) (s : State) (hs : s.Keeps qz) :
    OutKeeps qz (execMessageStop org d s) := by
  unfold execMessageStop
  repeat' first
    | with_reducible apply OutKeeps.next
    | with_reducible assumption
    | with_reducible apply State.opRow_keeps

theorem execSenseTrigger_keeps {qz : List Instr} (org : Origin) (d : Desc) (s : State) (hs : s.Keeps qz) :
    OutKeeps qz (execSenseTrigger org d s) := by
  unfold execSenseTrigger
  repeat' first
    | with_reducible apply OutKeeps.next
    | with_reducible assumption
    | with_reducible apply State.opRow_keeps

theorem execSenseInject_keeps {qz : List Instr} (org : Origin) (d : Desc) (s : State) (hs : s.Keeps qz) :
    OutKeeps qz (execSenseInject org d s) := by
  unfold execSenseInject
  repeat' first
    | with_reducible apply OutKeeps.next
    | with_reducible assumption
    | with_reducible apply State.opRow_keeps

theorem execSenseCalibrate_keeps {qz : List Instr} (org : Origin) (d : Desc) (s : State) (hs : s.Keeps qz) :
    OutKeeps qz (execSenseCalibrate org d s) := by
  unfold execSenseCalibrate
  repeat' first
    | with_reducible apply OutKeeps.next
    | with_reducible assumption
    | with_reducible apply State.opRow_keeps

theorem execOutputOffsetCal_keeps {qz : List Instr} (org : Origin) (d : Desc) (s : State) (hs : s.Keeps qz) :
    OutKeeps qz (execOutputOffsetCal org d s) := by
  unfold execOutputOffsetCal
  repeat' first
    | with_reducible apply OutKeeps.next
    | with_reducible assumption
    | with_reducible apply State.opRow_keeps

theorem execOutputClearFault_keeps {qz : List Instr} (org : Origin) (d : Desc) (s : State) (hs : s.Keeps qz) :
    OutKeeps qz (execOutputClearFault org d s) := by
  unfold execOutputClearFault
  repeat' first
    | with_reducible apply OutKeeps.next
    | with_reducible assumption
    | with_reducible apply State.opRow_keeps

theorem execLockAcquire_keeps {qz : List Instr} (org : Origin) (d : Desc) (s : State) (hs : s.Keeps qz) :
    OutKeeps qz (execLockAcquire org d s) := by
  unfold execLockAcquire
  repeat' first
    | with_reducible apply OutKeeps.next
    | with_reducible assumption
    | with_reducible apply State.opRow_keeps

theorem execLockRelease_keeps {qz : List Instr} (org : Origin) (d : Desc) (s : State) (hs : s.Keeps qz) :
    OutKeeps qz (execLockRelease org d s) := by
  unfold execLockRelease
  repeat' first
    | with_reducible apply OutKeeps.next
    | with_reducible assumption
    | with_reducible apply State.opRow_keeps

theorem execLockDiscard_keeps {qz : List Instr} (org : Origin) (d : Desc) (s : State) (hs : s.Keeps qz) :
    OutKeeps qz (execLockDiscard org d s) := by
  unfold execLockDiscard
  repeat' first
    | with_reducible apply OutKeeps.next
    | with_reducible assumption
    | with_reducible apply State.opRow_keeps

theorem execLockRenew_keeps {qz : List Instr} (org : Origin) (d : Desc) (s : State) (hs : s.Keeps qz) :
    OutKeeps qz (execLockRenew org d s) := by
  unfold execLockRenew
  repeat' first
    | with_reducible apply OutKeeps.next
    | with_reducible assumption
    | with_reducible apply State.opRow_keeps

theorem execPersist_keeps {qz : List Instr} (org : Origin) (d : Desc) (s : State) (hs : s.Keeps qz) :
    OutKeeps qz (execPersist org d s) := by
  unfold execPersist
  repeat' first
    | with_reducible apply OutKeeps.next
    | with_reducible assumption
    | with_reducible apply State.opRow_keeps

theorem execJournalRead_keeps {qz : List Instr} (org : Origin) (d : Desc) (s : State) (hs : s.Keeps qz) :
    OutKeeps qz (execJournalRead org d s) := by
  unfold execJournalRead
  repeat' first
    | with_reducible apply OutKeeps.next
    | with_reducible assumption
    | with_reducible apply State.opRow_keeps

theorem execFirmwareWrite_keeps {qz : List Instr} (org : Origin) (d : Desc) (s : State) (hs : s.Keeps qz) :
    OutKeeps qz (execFirmwareWrite org d s) := by
  unfold execFirmwareWrite
  repeat' first
    | with_reducible apply OutKeeps.next
    | with_reducible assumption
    | with_reducible apply State.opRow_keeps

theorem execFirmwareSelect_keeps {qz : List Instr} (org : Origin) (d : Desc) (s : State) (hs : s.Keeps qz) :
    OutKeeps qz (execFirmwareSelect org d s) := by
  unfold execFirmwareSelect
  repeat' first
    | with_reducible apply OutKeeps.next
    | with_reducible assumption
    | with_reducible apply State.opRow_keeps

theorem execPowerMode_keeps {qz : List Instr} (org : Origin) (d : Desc) (s : State) (hs : s.Keeps qz) :
    OutKeeps qz (execPowerMode org d s) := by
  unfold execPowerMode
  repeat' first
    | with_reducible apply OutKeeps.next
    | with_reducible assumption
    | with_reducible apply State.opRow_keeps

theorem execMessageStore_keeps {qz : List Instr} (org : Origin) (d : Desc) (s : State) (hs : s.Keeps qz) :
    OutKeeps qz (execMessageStore org d s) := by
  unfold execMessageStore
  repeat' first
    | with_reducible apply OutKeeps.next
    | with_reducible assumption
    | with_reducible apply State.opRow_keeps

theorem execTetherImageStore_keeps {qz : List Instr} (org : Origin) (d : Desc) (s : State) (hs : s.Keeps qz) :
    OutKeeps qz (execTetherImageStore org d s) := by
  unfold execTetherImageStore
  repeat' first
    | with_reducible apply OutKeeps.next
    | with_reducible assumption
    | with_reducible apply State.opRow_keeps

theorem execMetrologyRead_keeps {qz : List Instr} (org : Origin) (d : Desc) (s : State) (hs : s.Keeps qz) :
    OutKeeps qz (execMetrologyRead org d s) := by
  unfold execMetrologyRead
  repeat' first
    | with_reducible apply OutKeeps.next
    | with_reducible assumption
    | with_reducible apply State.opRow_keeps

theorem execNop_keeps {qz : List Instr} (org : Origin) (d : Desc) (s : State) (hs : s.Keeps qz) :
    OutKeeps qz (execNop org d s) := by
  unfold execNop
  repeat' first
    | with_reducible apply OutKeeps.next
    | with_reducible assumption
    | with_reducible apply State.opRow_keeps

end Sys2Proof.Machine
end

