-- ==== Sys2Proof/Laws/KeepsDataPath.lean ====
section
/-!
SUPPORT. What the definitions of Machine/DataPath.lean keep.
-/
namespace Sys2Proof.Machine

theorem State.feKeep_keeps {qz : List Instr} (d : Nat) : ∀ (l : List (Nat × List Word)) (s : State),
    s.Keeps qz → State.Keeps qz (State.feKeep d l s)
  | [], _, hs => hs
  | (c, _) :: rest, s, hs => State.feKeep_keeps d rest _ (State.modChan_keeps s c _ hs)

theorem State.setAny_keeps {qz : List Instr} (f : Fld) : ∀ (l : List Nat) (s : State),
    s.Keeps qz → State.Keeps qz (State.setAny f l s)
  | [], _, hs => hs
  | a :: as, s, hs => State.setAny_keeps f as _ (State.setF_keeps s a f 1 hs)

theorem State.emitAll_keeps {qz : List Instr} : ∀ (l : List Output) (s : State),
    s.Keeps qz → State.Keeps qz (State.emitAll l s)
  | [], _, hs => hs
  | o :: os, s, hs => State.emitAll_keeps os _ (State.emit_keeps s o hs)

theorem State.muxRuns_keeps {qz : List Instr} (lanes : List (Nat × RouteX)) (srcs : Bufs) (d : Nat) :
    ∀ (l : List Nat) (s : State), s.Keeps qz → State.Keeps qz (State.muxRuns lanes srcs d l s)
  | [], _, hs => hs
  | _ :: ls, s, hs => State.muxRuns_keeps lanes srcs d ls _ (State.laneRun_keeps s _ _ hs)

theorem State.laneStage_keeps {qz : List Instr} (s : State) (m : BlockInputs) (d : Nat) (hs : s.Keeps qz) :
    State.Keeps qz (State.laneStage s m d) :=
  State.muxRuns_keeps _ _ _ _ _ (State.feKeep_keeps _ _ _ (State.setAny_keeps _ _ _ (State.modSig_keeps s _ hs)))

theorem State.sinkStage_keeps {qz : List Instr} (s : State) (p : Plan) (hs : s.Keeps qz) :
    State.Keeps qz (State.sinkStage s p) :=
  State.emitAll_keeps _ _ (State.setAny_keeps _ _ _ (State.setAny_keeps _ _ _ (State.setAny_keeps _ _ _
    (State.modSig_keeps s _ hs))))

theorem State.dataPath_keeps {qz : List Instr} (s : State) (k : Nat) (m : BlockInputs) (hs : s.Keeps qz) :
    State.Keeps qz (State.dataPath s k m) := by
  unfold State.dataPath
  refine State.Keeps.ite hs (State.Keeps.ite (State.feKeep_keeps _ _ _ hs) ?_)
  dsimp only
  split
  · exact State.sinkStage_keeps _ _ (State.laneStage_keeps s m _ hs)
  · exact State.laneStage_keeps s m _ hs

end Sys2Proof.Machine
end

