-- ==== Sys2Proof/Laws/KeepsCommit.lean ====
section
/-!
SUPPORT. What the definitions of Machine/Commit.lean keep.
-/
namespace Sys2Proof.Machine

theorem State.slipped_keeps {qz : List Instr} (s : State) (n : Nat) (c : Staged) (hs : s.Keeps qz) :
    State.Keeps qz (State.slipped s n c) := by
  unfold State.slipped
  repeat' first
    | with_reducible assumption
    | with_reducible apply State.incSat_keeps
    | with_reducible apply State.modQueue_keeps
    | dsimp only
    | split

theorem CommitX.on_keeps {qz : List Instr} (x : CommitX) (f : State → State) (hx : x.s.Keeps qz) (hf : ∀ y0, y0.Keeps qz → State.Keeps qz (f y0)) :
    State.Keeps qz (CommitX.on x f).s := by
  unfold CommitX.on
  repeat' first
    | with_reducible assumption
    | with_reducible apply_assumption

theorem CommitX.keepOld_keeps {qz : List Instr} (x : CommitX) (a : Nat) (hx : x.s.Keeps qz) :
    State.Keeps qz (CommitX.keepOld x a).s := by
  unfold CommitX.keepOld
  repeat' first
    | with_reducible assumption
    | split

theorem State.mirrorNow_keeps {qz : List Instr} (s : State) (a : Nat) (m v : Word) (hs : s.Keeps qz) :
    State.Keeps qz (s.mirrorNow a m v) := by
  unfold State.mirrorNow
  refine State.Keeps.ite ?_ hs
  obtain ⟨h0, ⟨r, mw, rest⟩, l⟩ := hs
  exact ⟨h0, ⟨r, mirrorWrite_wf s.mirror (a, m, v) mw, rest⟩, l⟩

theorem State.mirrorRws_keeps {qz : List Instr} (s : State) (a : Nat) (m v : Word) (hs : s.Keeps qz) :
    State.Keeps qz (s.mirrorRws a m v) := by
  unfold State.mirrorRws
  refine State.Keeps.ite ?_ hs
  obtain ⟨h0, ⟨r, mw, rest⟩, l⟩ := hs
  exact ⟨h0, ⟨r, RegFile.wf_set _ _ _ mw, rest⟩, l⟩

theorem State.routeCommit_keeps {qz : List Instr} (s : State) (id : Option DescId) (a : Nat) (old : Word) (k : Nat) (hs : s.Keeps qz) :
    State.Keeps qz (State.routeCommit s id a old k) := by
  unfold State.routeCommit
  repeat' first
    | with_reducible assumption
    | with_reducible apply State.finishOpt_keeps
    | with_reducible apply State.laneSrcCommit_keeps
    | with_reducible apply State.laneTrimCommit_keeps
    | with_reducible apply State.mixRouteCommit_keeps
    | with_reducible apply State.sinkRouteCommit_keeps
    | split

theorem CommitX.rws_keeps {qz : List Instr} (x : CommitX) (id : Option DescId) (a : Nat) (m : Word) (v : Word) (k : Nat) (hx : x.s.Keeps qz) :
    State.Keeps qz (CommitX.rws x id a m v k).s := by
  unfold CommitX.rws
  repeat' first
    | intro _
    | with_reducible assumption
    | with_reducible apply State.finishOpt_keeps
    | with_reducible apply CommitX.keepOld_keeps
    | with_reducible apply State.mirrorRws_keeps
    | with_reducible apply CommitX.on_keeps
    | with_reducible apply State.routeCommit_keeps
    | with_reducible apply State.wr_keeps
    | dsimp only
    | split

theorem State.cmdDrop_keeps {qz : List Instr} (s : State) (a : Nat) (m v : Word) (hs : s.Keeps qz) :
    ∀ t, s.cmdDrop a m v = some t → t.Keeps qz := by
  intro t e
  unfold State.cmdDrop at e
  dsimp only at e
  split at e
  · cases e
    exact State.guardErr_keeps _ _ _ _ hs
  · obtain ⟨p, hp, rfl⟩ := Option.map_eq_some_iff.mp e
    exact State.setF_keeps _ _ _ _ hs

theorem CommitX.write_keeps {qz : List Instr} (x : CommitX) (id : Option DescId) (a : Nat) (m : Word) (v : Word) (k : Nat) (hx : x.s.Keeps qz) :
    State.Keeps qz (CommitX.write x id a m v k).s := by
  unfold CommitX.write
  repeat' first
    | intro _
    | with_reducible assumption
    | with_reducible apply State.applyNow_keeps
    | with_reducible apply State.mirrorNow_keeps
    | with_reducible apply CommitX.on_keeps
    | with_reducible apply CommitX.rws_keeps
    | split

theorem CommitX.run_keeps {qz : List Instr} (k : Nat)  : ∀ (x0 : Nat) (x1 : List Word) (x2 : CommitX),
    x2.s.Keeps qz → State.Keeps qz (CommitX.run k x0 x1 x2).s := by
  intro x0 x1 x2
  fun_induction CommitX.run k x0 x1 x2
  all_goals repeat' first
    | intro _
    | with_reducible assumption
    | with_reducible apply CommitX.write_keeps
    | with_reducible apply_assumption

theorem State.runDrop_keeps {qz : List Instr} (s : State) (hs : s.Keeps qz) : ∀ (a : Nat) (vs : List Word),
    ∀ t, s.runDrop a vs = some t → t.Keeps qz
  | _, [], _, e => nomatch e
  | a, v :: vs, t, e => by
    unfold State.runDrop at e
    split at e
    · rename_i u hu
      cases e
      exact State.cmdDrop_keeps s a _ v hs _ hu
    · exact State.runDrop_keeps s hs (a + 4) vs t e

theorem CommitX.preset_keeps {qz : List Instr} (k : Nat)  : ∀ (x0 : List (Nat × Word)) (x1 : CommitX),
    x1.s.Keeps qz → State.Keeps qz (CommitX.preset k x0 x1).s := by
  intro x0 x1
  fun_induction CommitX.preset k x0 x1
  all_goals repeat' first
    | intro _
    | with_reducible assumption
    | with_reducible apply CommitX.on_keeps
    | with_reducible apply CommitX.rws_keeps
    | with_reducible apply State.setF_keeps
    | with_reducible apply_assumption
    | split

theorem CommitX.unless_keeps {qz : List Instr} (x : CommitX) (id : Option DescId) (drop : Option State) (f : CommitX → CommitX)
    (hx : x.s.Keeps qz) (hd : ∀ t, drop = some t → t.Keeps qz) (hf : ∀ y : CommitX, y.s.Keeps qz → (f y).s.Keeps qz) :
    State.Keeps qz (x.unless id drop f).s := by
  unfold CommitX.unless
  split
  · exact State.finishOpt_keeps _ _ _ (hd _ rfl)
  · exact hf _ hx

theorem CommitX.engMode_keeps {qz : List Instr} (x : CommitX) (id : Option DescId) (n : Nat) (mode : Nat) (k : Nat) (hx : x.s.Keeps qz) :
    State.Keeps qz (CommitX.engMode x id n mode k).s := by
  unfold CommitX.engMode
  repeat' first
    | intro _
    | with_reducible assumption
    | with_reducible apply State.finishOpt_keeps
    | with_reducible apply CommitX.keepOld_keeps
    | with_reducible apply CommitX.on_keeps
    | with_reducible apply State.setF_keeps
    | dsimp only
    | split

theorem CommitX.baseModes_keeps {qz : List Instr} (mode : Nat)  : ∀ (x0 : List Nat) (x1 : CommitX),
    x1.s.Keeps qz → State.Keeps qz (CommitX.baseModes mode x0 x1).s := by
  intro x0 x1
  fun_induction CommitX.baseModes mode x0 x1
  all_goals repeat' first
    | intro _
    | with_reducible assumption
    | with_reducible apply CommitX.keepOld_keeps
    | with_reducible apply CommitX.on_keeps
    | with_reducible apply State.setF_keeps
    | with_reducible apply_assumption

theorem CommitX.tthMode_keeps {qz : List Instr} (x : CommitX) (id : Option DescId) (mask : Nat) (code : Nat) (k : Nat) (hx : x.s.Keeps qz) :
    State.Keeps qz (CommitX.tthMode x id mask code k).s := by
  unfold CommitX.tthMode
  repeat' first
    | intro _
    | with_reducible assumption
    | with_reducible apply CommitX.baseModes_keeps
    | with_reducible apply State.finishOpt_keeps
    | with_reducible apply State.modeCommand_keeps
    | with_reducible apply CommitX.on_keeps
    | dsimp only
    | split

theorem State.actNow_keeps {qz : List Instr} (s : State) (id : Option DescId) (act : Act) (k : Nat) (hs : s.Keeps qz) :
    State.Keeps qz (State.actNow s id act k) := by
  unfold State.actNow
  repeat' first
    | with_reducible assumption
    | with_reducible apply State.calBegin_keeps
    | with_reducible apply State.calRequest_keeps
    | with_reducible apply State.clearFault_keeps
    | with_reducible apply State.finishOpt_keeps
    | with_reducible apply State.genSet_keeps
    | with_reducible apply State.lockCommitted_keeps
    | with_reducible apply State.modRing_keeps
    | with_reducible apply State.nodesTo_keeps
    | with_reducible apply State.prioClear_keeps
    | with_reducible apply State.prioSet_keeps
    | with_reducible apply State.selftestBegin_keeps
    | with_reducible apply State.swapEvaluate_keeps
    | with_reducible apply State.syncApply_keeps
    | with_reducible apply State.tthClrFaults_keeps
    | with_reducible apply State.Keeps.ite
    | dsimp only
    | split

theorem CommitX.act_keeps {qz : List Instr} (x : CommitX) (c : Staged) (k : Nat) (hx : x.s.Keeps qz) :
    State.Keeps qz (x.act c k).s := by
  unfold CommitX.act
  dsimp only
  split
  · exact CommitX.rws_keeps _ _ _ _ _ _ hx
  · exact CommitX.unless_keeps _ _ _ _ hx (State.cmdDrop_keeps _ _ _ _ hx) (fun y hy => CommitX.write_keeps _ _ _ _ _ _ hy)
  · exact CommitX.unless_keeps _ _ _ _ hx (State.cmdDrop_keeps _ _ _ _ hx) (fun y hy => CommitX.write_keeps _ _ _ _ _ _ hy)
  · exact CommitX.unless_keeps _ _ _ _ hx (State.runDrop_keeps _ hx _ _) (fun y hy =>
      State.finishOpt_keeps _ _ _ (CommitX.run_keeps _ _ _ _ hy))
  · exact State.finishOpt_keeps _ _ _ (CommitX.preset_keeps _ _ _ hx)
  · exact CommitX.unless_keeps _ _ _ _ hx (State.cmdDrop_keeps _ _ _ _ hx) (fun y hy =>
      CommitX.rws_keeps _ _ _ _ _ _ (CommitX.rws_keeps _ _ _ _ _ _ hy))
  · exact CommitX.engMode_keeps _ _ _ _ _ hx
  · exact hx
  · exact CommitX.tthMode_keeps _ _ _ _ _ hx
  · exact State.actNow_keeps _ _ _ _ hx

theorem State.lateCommit_keeps {qz : List Instr} (s : State) (byCmd : List Nat) (a : Nat) (old : Word) (k : Nat) (hs : s.Keeps qz) :
    State.Keeps qz (State.lateCommit s byCmd a old k) := by
  unfold State.lateCommit
  repeat' first
    | with_reducible assumption
    | with_reducible apply State.apllCommit_keeps
    | with_reducible apply State.bridleCommit_keeps
    | with_reducible apply State.busCfgCommit_keeps
    | with_reducible apply State.chEnCommit_keeps
    | with_reducible apply State.chanDisable_keeps
    | with_reducible apply State.chanEnable_keeps
    | with_reducible apply State.engCtlCommit_keeps
    | with_reducible apply State.engModeApply_keeps
    | with_reducible apply State.mixGainCommit_keeps
    | with_reducible apply State.outCfgCommit_keeps
    | with_reducible apply State.sinkEnCommit_keeps
    | with_reducible apply State.Keeps.ite
    | split

theorem State.lateAll_keeps {qz : List Instr} (byCmd : List Nat) (k : Nat)  : ∀ (x0 : List (Nat × Word)) (x1 : State),
    x1.Keeps qz → State.Keeps qz (State.lateAll byCmd k x0 x1) := by
  intro x0 x1
  fun_induction State.lateAll byCmd k x0 x1
  all_goals repeat' first
    | intro _
    | with_reducible assumption
    | with_reducible apply State.lateCommit_keeps
    | with_reducible apply_assumption

theorem State.paramAll_keeps {qz : List Instr} (k : Nat)  : ∀ (x0 : List Staged) (x1 : State),
    x1.Keeps qz → State.Keeps qz (State.paramAll k x0 x1) := by
  intro x0 x1
  fun_induction State.paramAll k x0 x1
  all_goals repeat' first
    | intro _
    | with_reducible assumption
    | with_reducible apply State.paramApply_keeps
    | with_reducible apply_assumption
    | split

theorem State.slipAll_keeps {qz : List Instr}   : ∀ (x0 : List (Nat × Staged)) (x1 : State),
    x1.Keeps qz → State.Keeps qz (State.slipAll x0 x1) := by
  intro x0 x1
  fun_induction State.slipAll x0 x1
  all_goals repeat' first
    | intro _
    | with_reducible assumption
    | with_reducible apply State.slipped_keeps
    | with_reducible apply_assumption

theorem CommitX.foldl_keeps {qz : List Instr} (k : Nat) : ∀ (l : List Staged) (x : CommitX), x.s.Keeps qz →
    State.Keeps qz (l.foldl (fun (x : CommitX) (c : Staged) => x.act c k) x).s
  | [], _, h => h
  | c :: l, x, h => CommitX.foldl_keeps k l _ (CommitX.act_keeps x c k h)

theorem State.commitDue_keeps {qz : List Instr} (s : State) (k : Nat) (hs : s.Keeps qz) : State.Keeps qz (s.commitDue k) := by
  unfold State.commitDue
  dsimp only
  refine State.paramAll_keeps _ _ _ (State.lateAll_keeps _ _ _ _ (CommitX.foldl_keeps k _ _ ?_))
  exact State.slipAll_keeps _ _ (State.Keeps.mk hs rfl rfl rfl rfl rfl rfl rfl rfl rfl rfl rfl rfl rfl)

theorem State.measure1_keeps {qz : List Instr} (s : State) (a : Nat) (v : Word) (hs : s.Keeps qz) :
    State.Keeps qz (State.measure1 s a v) := by
  unfold State.measure1
  repeat' first
    | with_reducible assumption
    | with_reducible apply State.wr_keeps

theorem State.measureAll_keeps {qz : List Instr}   : ∀ (x0 : List (Nat × Word)) (x1 : State),
    x1.Keeps qz → State.Keeps qz (State.measureAll x0 x1) := by
  intro x0 x1
  fun_induction State.measureAll x0 x1
  all_goals repeat' first
    | intro _
    | with_reducible assumption
    | with_reducible apply State.measure1_keeps
    | with_reducible apply_assumption

theorem State.clampCounts_keeps {qz : List Instr}   : ∀ (x0 : List Nat) (x1 : State),
    x1.Keeps qz → State.Keeps qz (State.clampCounts x0 x1) := by
  intro x0 x1
  fun_induction State.clampCounts x0 x1
  all_goals repeat' first
    | intro _
    | with_reducible assumption
    | with_reducible apply State.incSat_keeps
    | with_reducible apply State.Keeps.ite
    | with_reducible apply_assumption

theorem State.slotAll_keeps {qz : List Instr}   : ∀ (x0 : Nat) (x1 : List (Nat × Nat)) (x2 : State),
    x2.Keeps qz → State.Keeps qz (State.slotAll x0 x1 x2) := by
  intro x0 x1 x2
  fun_induction State.slotAll x0 x1 x2
  all_goals repeat' first
    | intro _
    | with_reducible assumption
    | with_reducible apply State.engSlot_keeps
    | with_reducible apply State.Keeps.ite
    | with_reducible apply_assumption

theorem State.arbAll_keeps {qz : List Instr}   : ∀ (x0 : List (Nat × Nat × Nat × Nat)) (x1 : State),
    x1.Keeps qz → State.Keeps qz (State.arbAll x0 x1) := by
  intro x0 x1
  fun_induction State.arbAll x0 x1
  all_goals repeat' first
    | intro _
    | with_reducible assumption
    | with_reducible apply State.arbCount_keeps
    | with_reducible apply State.Keeps.ite
    | with_reducible apply_assumption

theorem State.sinkStopAll_keeps {qz : List Instr} (k : Nat)  : ∀ (x0 : List Nat) (x1 : State),
    x1.Keeps qz → State.Keeps qz (State.sinkStopAll k x0 x1) := by
  intro x0 x1
  fun_induction State.sinkStopAll k x0 x1
  all_goals repeat' first
    | intro _
    | with_reducible assumption
    | with_reducible apply State.sinkStop_keeps
    | with_reducible apply_assumption

theorem State.fadeAll_keeps {qz : List Instr}   : ∀ (x0 : List Nat) (x1 : State),
    x1.Keeps qz → State.Keeps qz (State.fadeAll x0 x1) := by
  intro x0 x1
  fun_induction State.fadeAll x0 x1
  all_goals repeat' first
    | intro _
    | with_reducible assumption
    | with_reducible apply State.fadeOut_keeps
    | with_reducible apply_assumption

theorem State.entryStep2_keeps {qz : List Instr} (s : State) (k : Nat) (hs : s.Keeps qz) :
    State.Keeps qz (State.entryStep2 s k) := by
  unfold State.entryStep2
  repeat' first
    | intro _
    | with_reducible assumption
    | with_reducible apply State.fadeAll_keeps
    | with_reducible apply State.modMetro_keeps
    | with_reducible apply State.modPower_keeps
    | with_reducible apply State.sapStop_keeps
    | with_reducible apply State.sinkStopAll_keeps
    | with_reducible apply State.Keeps.ite
    | with_reducible apply State.Keeps.foldl

theorem State.hubBoundary_keeps {qz : List Instr} (s : State) (k : Nat) (hs : s.Keeps qz) :
    State.Keeps qz (State.hubBoundary s k) := by
  unfold State.hubBoundary
  repeat' first
    | with_reducible assumption
    | with_reducible apply State.annealAll_keeps
    | with_reducible apply State.ballastAll_keeps
    | with_reducible apply State.swapSteps_keeps
    | with_reducible apply State.Keeps.ite

theorem State.hubAfter_keeps {qz : List Instr} (s : State) (k : Nat) (m : BlockInputs) (hs : s.Keeps qz) :
    State.Keeps qz (State.hubAfter s k m) := by
  unfold State.hubAfter
  repeat' first
    | with_reducible assumption
    | with_reducible apply State.arbAll_keeps
    | with_reducible apply State.concealShow_keeps
    | with_reducible apply State.powerAll_keeps
    | with_reducible apply State.slotAll_keeps
    | with_reducible apply State.statusBlock_keeps
    | with_reducible apply State.streamIn_keeps
    | with_reducible apply State.streamOut_keeps
    | with_reducible apply State.unmuteAll_keeps
    | with_reducible apply State.Keeps.ite

theorem State.sendMirror_keeps {qz : List Instr} (s : State) (hs : s.Keeps qz) : State.Keeps qz s.sendMirror := by
  unfold State.sendMirror
  refine State.Keeps.ite ?_ hs
  obtain ⟨h0, ⟨r, mw, sn, rest⟩, l⟩ := hs
  refine ⟨h0, ⟨r, mw, ?_, rest⟩, l⟩
  intro p hp
  cases hp
  exact State.capture_wf s r

theorem State.commitPoint_keeps {qz : List Instr} (s : State) (k : Nat) (m : BlockInputs) (hs : s.Keeps qz) :
    State.Keeps qz (State.commitPoint s k m) := by
  unfold State.commitPoint
  repeat' first
    | intro _
    | with_reducible assumption
    | with_reducible apply State.dataPath_keeps
    | with_reducible apply State.clampCounts_keeps
    | with_reducible apply State.commitDue_keeps
    | with_reducible apply State.entryStep2_keeps
    | with_reducible apply State.feBlock_keeps
    | with_reducible apply State.foldBlock_keeps
    | with_reducible apply State.genBoundary_keeps
    | with_reducible apply State.hubAfter_keeps
    | with_reducible apply State.hubBoundary_keeps
    | with_reducible apply State.measureAll_keeps
    | with_reducible apply State.modLink_keeps
    | with_reducible apply State.sapBoundary_keeps
    | with_reducible apply State.sendMirror_keeps
    | with_reducible apply State.Keeps.foldl

theorem State.nextBlock_keeps {qz : List Instr} (s : State) (hs : s.Keeps qz) :
    State.Keeps qz (State.nextBlock s) := by
  unfold State.nextBlock
  repeat' first
    | with_reducible assumption
    | with_reducible apply State.modClk_keeps

theorem execCommitPoint_keeps {qz : List Instr} (m : BlockInputs) (s : State) (hs : s.Keeps qz) :
    OutKeeps qz (execCommitPoint m s) := by
  unfold execCommitPoint
  repeat' first
    | with_reducible apply OutKeeps.next
    | with_reducible assumption
    | with_reducible apply State.commitPoint_keeps
    | with_reducible apply State.nextBlock_keeps
    | with_reducible apply State.Keeps.ite

end Sys2Proof.Machine
end

