-- ==== Sys2Proof/Laws/KeepsZhev.lean ====
section
/-!
SUPPORT. What the definitions of Machine/Zhev.lean keep.
-/
namespace Sys2Proof.Machine

theorem State.modZv_keeps {qz : List Instr} (s : State) (f : ZvX → ZvX) (hs : s.Keeps qz)
    (h1 : (f s.net.zv).seen.length = s.net.zv.seen.length) : State.Keeps qz (s.modZv f) :=
  State.modNet_keeps _ _ hs rfl h1

theorem State.zvNote_keeps {qz : List Instr} (s : State) (i : Nat) (seq : Nat) (hs : s.Keeps qz) :
    State.Keeps qz (State.zvNote s i seq) := by
  unfold State.zvNote
  repeat' first
    | with_reducible assumption
    | with_reducible apply State.modZv_keeps
    | (first | exact List.length_modify .. | exact List.length_set .. | exact List.length_map ..)

theorem State.zvReply_keeps {qz : List Instr} (s : State) (entry : Option Nat) (seq : Nat) (dst : Mac) (typ : Nat) (flags : Nat) (bs : List Byte) (hs : s.Keeps qz) :
    State.Keeps qz (State.zvReply s entry seq dst typ flags bs) := by
  unfold State.zvReply
  repeat' first
    | with_reducible assumption
    | with_reducible apply State.modZv_keeps
    | with_reducible apply State.zvSendOwn_keeps
    | (first | exact List.length_modify .. | exact List.length_set .. | exact List.length_map ..)
    | dsimp only
    | split

theorem State.zvAccept_keeps {qz : List Instr} (s : State) (typ : Nat) (m : ZvMsg) (f : Option Nat → State → State) (hs : s.Keeps qz) (hf : ∀ y0 y1, y1.Keeps qz → State.Keeps qz (f y0 y1)) :
    State.Keeps qz (State.zvAccept s typ m f) := by
  unfold State.zvAccept
  repeat' first
    | with_reducible assumption
    | with_reducible apply State.emit_keeps
    | with_reducible apply State.incSat_keeps
    | with_reducible apply State.zvNote_keeps
    | with_reducible apply_assumption
    | dsimp only
    | split

theorem State.zvRecord_keeps {qz : List Instr} (s : State) (tag : Option Nat) (c : Completion) (hs : s.Keeps qz) :
    State.Keeps qz (State.zvRecord s tag c).2 := by
  unfold State.zvRecord
  repeat' first
    | with_reducible assumption
    | with_reducible apply State.fresh_keeps
    | dsimp only
    | split

theorem State.zvStatus_keeps {qz : List Instr} (s : State) (entry : Option Nat) (typ : Nat) (m : ZvMsg) (tag : Option Nat) (c : Completion) (hs : s.Keeps qz) :
    State.Keeps qz (State.zvStatus s entry typ m tag c) := by
  unfold State.zvStatus
  repeat' first
    | with_reducible assumption
    | with_reducible apply State.zvRecord_keeps
    | with_reducible apply State.zvReply_keeps

theorem execZvDiscover_keeps {qz : List Instr} (m : ZvMsg) (s : State) (hs : s.Keeps qz) :
    OutKeeps qz (execZvDiscover m s) := by
  unfold execZvDiscover
  repeat' first
    | with_reducible apply OutKeeps.next
    | intro _
    | with_reducible assumption
    | with_reducible apply State.modZv_keeps
    | with_reducible apply State.zvAccept_keeps
    | with_reducible rfl

theorem execDiscoverReplySend_keeps {qz : List Instr} (i : Nat) (s : State) (hs : s.Keeps qz) :
    OutKeeps qz (execDiscoverReplySend i s) := by
  unfold execDiscoverReplySend
  repeat' first
    | with_reducible apply OutKeeps.next
    | with_reducible assumption
    | with_reducible apply State.modZv_keeps
    | with_reducible apply State.zvReply_keeps
    | with_reducible rfl
    | split

theorem execZvAddress_keeps {qz : List Instr} (m : ZvMsg) (s : State) (hs : s.Keeps qz) :
    OutKeeps qz (execZvAddress m s) := by
  unfold execZvAddress
  repeat' first
    | with_reducible apply OutKeeps.next
    | intro _
    | with_reducible assumption
    | with_reducible apply State.setF_keeps
    | with_reducible apply State.zvAccept_keeps
    | with_reducible apply State.zvStatus_keeps
    | with_reducible apply State.Keeps.ite

theorem State.zvBegin_keeps {qz : List Instr} (s : State) (o : Origin) (hs : s.Keeps qz) :
    State.Keeps qz (State.zvBegin s o) := by
  unfold State.zvBegin
  repeat' first
    | with_reducible assumption
    | with_reducible apply State.modZv_keeps
    | with_reducible apply State.runDesc_keeps
    | with_reducible apply State.Keeps.ite
    | with_reducible rfl
    | dsimp only
    | split

theorem State.zvPump_keeps {qz : List Instr} (o : Origin)  : ∀ (x0 : Nat) (x1 : State),
    x1.Keeps qz → State.Keeps qz (State.zvPump o x0 x1) := by
  intro x0 x1
  fun_induction State.zvPump o x0 x1
  all_goals repeat' first
    | intro _
    | with_reducible assumption
    | with_reducible apply State.zvBegin_keeps
    | with_reducible apply_assumption

theorem State.zvPumpAll_keeps {qz : List Instr} (s : State) (o : Origin) (hs : s.Keeps qz) :
    State.Keeps qz (State.zvPumpAll s o) := by
  unfold State.zvPumpAll
  repeat' first
    | with_reducible assumption
    | with_reducible apply State.zvPump_keeps

theorem State.zvQueue_keeps {qz : List Instr} (s : State) (o : Origin) (m : ZvMsg) (hs : s.Keeps qz) :
    State.Keeps qz (State.zvQueue s o m) := by
  unfold State.zvQueue
  repeat' first
    | with_reducible assumption
    | with_reducible apply State.modZv_keeps
    | with_reducible apply State.zvPumpAll_keeps
    | with_reducible rfl

theorem execZvParam_keeps {qz : List Instr} (m : ZvMsg) (s : State) (hs : s.Keeps qz) :
    OutKeeps qz (execZvParam m s) := by
  unfold execZvParam
  repeat' first
    | with_reducible apply OutKeeps.next
    | intro _
    | with_reducible assumption
    | with_reducible apply State.zvAccept_keeps
    | with_reducible apply State.zvQueue_keeps
    | with_reducible apply State.zvStatus_keeps
    | with_reducible apply State.Keeps.ite
    | dsimp only
    | split

theorem execZvHealth_keeps {qz : List Instr} (m : ZvMsg) (s : State) (hs : s.Keeps qz) :
    OutKeeps qz (execZvHealth m s) := by
  unfold execZvHealth
  repeat' first
    | with_reducible apply OutKeeps.next
    | intro _
    | with_reducible assumption
    | with_reducible apply State.healthPayload_keeps
    | with_reducible apply State.healthSent_keeps
    | with_reducible apply State.zvAccept_keeps
    | with_reducible apply State.zvQueue_keeps
    | with_reducible apply State.zvReply_keeps
    | with_reducible apply State.zvStatus_keeps
    | with_reducible apply State.Keeps.ite
    | dsimp only
    | split

theorem execHealthReport_keeps {qz : List Instr} (s : State) (hs : s.Keeps qz) :
    OutKeeps qz (execHealthReport s) := by
  unfold execHealthReport
  repeat' first
    | with_reducible apply OutKeeps.next
    | with_reducible assumption
    | with_reducible apply State.healthPayload_keeps
    | with_reducible apply State.healthSent_keeps
    | with_reducible apply State.modZv_keeps
    | with_reducible apply State.toReport_keeps
    | with_reducible apply State.Keeps.ite
    | with_reducible rfl

theorem State.schedReply_keeps {qz : List Instr} (s : State) (e : SchedEntry) (c : Completion) (hs : s.Keeps qz) :
    State.Keeps qz (State.schedReply s e c) := by
  unfold State.schedReply
  repeat' first
    | with_reducible assumption
    | with_reducible apply State.zvRecord_keeps
    | with_reducible apply State.zvReply_keeps

theorem State.stageList_keeps {qz : List Instr} (eff : Nat)  : ∀ (x0 : List Act) (x1 : State),
    x1.Keeps qz → State.Keeps qz (State.stageList eff x0 x1) := by
  intro x0 x1
  fun_induction State.stageList eff x0 x1
  all_goals repeat' first
    | intro _
    | with_reducible assumption
    | with_reducible apply State.stageAct_keeps
    | with_reducible apply_assumption

theorem State.schedApply_keeps {qz : List Instr} (s : State) (e : SchedEntry) (eff : Nat) (hs : s.Keeps qz) :
    State.Keeps qz (State.schedApply s e eff) := by
  unfold State.schedApply
  repeat' first
    | with_reducible assumption
    | with_reducible apply State.incSat_keeps
    | with_reducible apply State.raise_keeps
    | with_reducible apply State.schedReply_keeps
    | with_reducible apply State.stageList_keeps
    | with_reducible apply State.Keeps.ite

theorem State.schedDrop_keeps {qz : List Instr} (s : State) (i : Nat) (id : Nat) (hs : s.Keeps qz) :
    State.Keeps qz (State.schedDrop s i id) := by
  unfold State.schedDrop
  repeat' first
    | with_reducible assumption
    | with_reducible apply State.modZv_keeps
    | with_reducible rfl

theorem State.schedCancel_keeps {qz : List Instr} (s : State) (e : SchedEntry) (hs : s.Keeps qz) :
    State.Keeps qz (State.schedCancel s e) := by
  unfold State.schedCancel
  repeat' first
    | with_reducible assumption
    | with_reducible apply State.fresh_keeps
    | with_reducible apply State.schedDrop_keeps
    | with_reducible apply State.schedReply_keeps
    | with_reducible apply State.zvRecord_keeps
    | with_reducible apply State.zvReply_keeps
    | dsimp only
    | split

theorem State.schedTake_keeps {qz : List Instr} (s : State) (e : SchedEntry) (hs : s.Keeps qz) :
    State.Keeps qz (State.schedTake s e) := by
  unfold State.schedTake
  repeat' first
    | with_reducible assumption
    | with_reducible apply State.modZv_keeps
    | with_reducible apply State.schedApply_keeps
    | with_reducible apply State.schedCancel_keeps
    | with_reducible apply State.schedDrop_keeps
    | with_reducible apply State.schedReply_keeps
    | with_reducible apply State.Keeps.ite
    | with_reducible rfl
    | dsimp only
    | split

theorem execZvSchedule_keeps {qz : List Instr} (m : ZvMsg) (s : State) (hs : s.Keeps qz) :
    OutKeeps qz (execZvSchedule m s) := by
  unfold execZvSchedule
  repeat' first
    | with_reducible apply OutKeeps.next
    | intro _
    | with_reducible assumption
    | with_reducible apply State.schedTake_keeps
    | with_reducible apply State.zvAccept_keeps
    | with_reducible apply State.zvStatus_keeps
    | with_reducible apply State.Keeps.ite
    | dsimp only
    | split

theorem execScheduleStage_keeps {qz : List Instr} (i : Fin 8) (id : Nat) (s : State) (hs : s.Keeps qz) :
    OutKeeps qz (execScheduleStage i id s) := by
  unfold execScheduleStage
  repeat' first
    | with_reducible apply OutKeeps.next
    | with_reducible assumption
    | with_reducible apply State.schedApply_keeps
    | with_reducible apply State.schedDrop_keeps
    | with_reducible apply State.Keeps.ite
    | split

theorem execZvPriority_keeps {qz : List Instr} (m : ZvMsg) (s : State) (hs : s.Keeps qz) :
    OutKeeps qz (execZvPriority m s) := by
  unfold execZvPriority
  repeat' first
    | with_reducible apply OutKeeps.next
    | intro _
    | with_reducible assumption
    | with_reducible apply State.stageAct_keeps
    | with_reducible apply State.zvAccept_keeps
    | with_reducible apply State.Keeps.ite

theorem State.postMessage_keeps {qz : List Instr} (s : State) (o : Origin) (i : Nat) (typ : Nat) (hs : s.Keeps qz) :
    State.Keeps qz (State.postMessage s o i typ) := by
  unfold State.postMessage
  repeat' first
    | with_reducible assumption
    | with_reducible apply State.dropFlight_keeps
    | with_reducible apply State.modZv_keeps
    | with_reducible apply State.zvPumpAll_keeps
    | with_reducible apply State.zvReply_keeps
    | with_reducible apply State.zvSendOwn_keeps
    | with_reducible apply State.Keeps.ite
    | with_reducible rfl
    | dsimp only
    | split

theorem execCompletionPost_keeps {qz : List Instr} (org : Origin) (s : State) (hs : s.Keeps qz) :
    OutKeeps qz (execCompletionPost org s) := by
  cases org with
  | cmd => exact OutKeeps.next (State.postRing_keeps _ _ _ _ hs)
  | mcmd => exact OutKeeps.next (State.postRing_keeps _ _ _ _ hs)
  | smbus => exact execSmbDescriptorDone_keeps _ hs
  | param i => exact OutKeeps.next (State.postMessage_keeps _ _ _ _ hs)
  | health i => exact OutKeeps.next (State.postMessage_keeps _ _ _ _ hs)

theorem State.schedSkipped_keeps {qz : List Instr} (k : Nat)  : ∀ (x0 : List SchedEntry) (x1 : State),
    x1.Keeps qz → State.Keeps qz (State.schedSkipped k x0 x1) := by
  intro x0 x1
  fun_induction State.schedSkipped k x0 x1
  all_goals repeat' first
    | intro _
    | with_reducible assumption
    | with_reducible apply State.schedApply_keeps
    | with_reducible apply State.schedDrop_keeps
    | with_reducible apply State.Keeps.ite
    | with_reducible apply_assumption

theorem execBlockCounterReload_keeps {qz : List Instr} (s : State) (hs : s.Keeps qz) :
    OutKeeps qz (execBlockCounterReload s) := by
  unfold execBlockCounterReload
  repeat' first
    | with_reducible apply OutKeeps.next
    | with_reducible assumption
    | with_reducible apply State.renumber_keeps
    | with_reducible apply State.aheadRestart_keeps
    | with_reducible apply State.commitDue_keeps
    | with_reducible apply State.modClk_keeps
    | with_reducible apply State.modPtp_keeps
    | with_reducible apply State.raise_keeps
    | with_reducible apply State.schedSkipped_keeps
    | with_reducible apply State.Keeps.ite

theorem State.bootPair_keeps {qz : List Instr} (s : State) (a : Nat) (v : Word) (hs : s.Keeps qz) :
    State.Keeps qz (State.bootPair s a v) := by
  unfold State.bootPair
  repeat' first
    | with_reducible assumption
    | with_reducible apply State.applyNow_keeps
    | with_reducible apply State.guardErr_keeps
    | with_reducible apply State.setF_keeps
    | with_reducible apply State.stageNext_keeps
    | with_reducible apply State.Keeps.ite

theorem State.bootPairs_keeps {qz : List Instr}   : ∀ (x0 : List (Nat × Word)) (x1 : State),
    x1.Keeps qz → State.Keeps qz (State.bootPairs x0 x1) := by
  intro x0 x1
  fun_induction State.bootPairs x0 x1
  all_goals repeat' first
    | intro _
    | with_reducible assumption
    | with_reducible apply State.bootPair_keeps
    | with_reducible apply_assumption

theorem State.bootFrom_keeps {qz : List Instr} (s : State) (src : Nat) (ws : List Word) (hs : s.Keeps qz) :
    State.Keeps qz (State.bootFrom s src ws) := by
  unfold State.bootFrom
  repeat' first
    | with_reducible assumption
    | with_reducible apply State.bootPairs_keeps
    | with_reducible apply State.setF_keeps

theorem State.bootSelect_keeps {qz : List Instr} (s : State) (hs : s.Keeps qz) :
    State.Keeps qz (State.bootSelect s) := by
  unfold State.bootSelect
  repeat' first
    | with_reducible assumption
    | with_reducible apply State.bootFrom_keeps
    | with_reducible apply State.raiseF_keeps
    | with_reducible apply State.setF_keeps
    | with_reducible apply State.Keeps.ite
    | split

theorem execTetherBoot_keeps {qz : List Instr} (s : State) (hs : s.Keeps qz) :
    OutKeeps qz (execTetherBoot s) := by
  unfold execTetherBoot
  repeat' first
    | with_reducible apply OutKeeps.next
    | with_reducible assumption
    | with_reducible apply State.bootSelect_keeps
    | with_reducible apply State.raiseF_keeps
    | with_reducible apply State.setF_keeps
    | with_reducible apply State.Keeps.ite

end Sys2Proof.Machine
end

