-- ==== Sys2Proof/Laws/KeepsDispatch.lean ====
section
/-!
SUPPORT. What the definitions of Machine/Dispatch.lean keep.
-/
namespace Sys2Proof.Machine

/-- A command leaves the queue, and keeps the canonical forms and the shape. -/
theorem exec_keeps {qz : List Instr} (i : Instr) (s : State) (hs : s.Keeps qz) : OutKeeps qz (exec i s) := by
  cases i
  · exact execCommitPoint_keeps _ s hs
  · exact execScheduleStage_keeps _ _ s hs
  · exact execFlitReceived_keeps _ _ _ _ s hs
  · exact execLinkReplay_keeps _ _ s hs
  · exact execLinkSampleSubstitute_keeps _ s hs
  · exact execFLinkDown_keeps s hs
  · exact execHLinkDown_keeps s hs
  · exact execDieLinkUp_keeps s hs
  · exact execLinkRetrainTimeout_keeps s hs
  · exact execParityWordReplaced_keeps _ _ s hs
  · exact execDieLinkParity_keeps _ _ s hs
  · exact execLinkParityTrip_keeps _ _ s hs
  · exact execCollectorSpaceReturn_keeps s hs
  · exact execBlockSlip_keeps s hs
  · exact execAudioPllRefLost_keeps s hs
  · exact execAudioPllLocked_keeps s hs
  · exact execParisonEscape_keeps _ s hs
  · exact execAfeModeChange_keeps _ _ _ s hs
  · exact execAfeGainWrite_keeps _ _ _ s hs
  · exact execGainStep_keeps _ s hs
  · exact execAfeZcTimeout_keeps _ s hs
  · exact execMicbiasOvercurrent_keeps _ s hs
  · exact execPdmStuck_keeps _ s hs
  · exact execPdmWireToggle_keeps _ s hs
  · exact execJackInserted_keeps _ _ s hs
  · exact execJackRemoved_keeps _ _ s hs
  · exact execModulatorRelease_keeps _ s hs
  · exact execChainSettled_keeps _ s hs
  · exact execFltCoefWinWrite_keeps _ _ _ s hs
  · exact execFltSwapGo_keeps _ _ _ s hs
  · exact execBankFadeEnd_keeps _ s hs
  · exact execSyncBallEdge_keeps s hs
  · exact execFltSwSync_keeps _ _ s hs
  · exact execSyncArm_keeps _ _ s hs
  · exact execInputOverRange_keeps _ _ _ s hs
  · exact execModulatorOverload_keeps _ s hs
  · exact execModulatorResetEnd_keeps _ _ s hs
  · exact execInputThresholdUp_keeps _ _ _ _ s hs
  · exact execInputThresholdDown_keeps _ _ _ _ s hs
  · exact execFltCntClr_keeps _ _ s hs
  · exact execSapStart_keeps _ _ _ s hs
  · exact execSapFirstFrame_keeps _ _ s hs
  · exact execSapSlotStart_keeps _ _ _ s hs
  · exact execSapStop_keeps _ _ _ s hs
  · exact execSapStopped_keeps _ s hs
  · exact execSapShadowApply_keeps _ _ _ s hs
  · exact execSapHoldRelease_keeps _ _ _ s hs
  · exact execSapClockLost_keeps _ s hs
  · exact execSapClockRestored_keeps _ _ s hs
  · exact execSapFrameError_keeps _ s hs
  · exact execSapSlip_keeps _ s hs
  · exact execSrcModeChange_keeps _ _ _ s hs
  · exact execSrcLocked_keeps _ _ s hs
  · exact execSrcUnlocked_keeps _ s hs
  · exact execLaneSilent_keeps _ _ _ s hs
  · exact execLaneActive_keeps _ _ _ s hs
  · exact execLanePeak_keeps _ _ _ s hs
  · exact execRouteFadeEnd_keeps _ s hs
  · exact execSplitFillEnd_keeps _ s hs
  · exact execSinkStartCrossing_keeps _ _ _ s hs
  · exact execSinkStartTimeout_keeps _ s hs
  · exact execSinkStopCrossing_keeps _ _ _ s hs
  · exact execSinkStopTimeout_keeps _ s hs
  · exact execSinkStopFadeEnd_keeps _ s hs
  · exact execPresetGo_keeps _ _ s hs
  · exact execQuietRequest_keeps s hs
  · exact execQuietEntryAbandon_keeps s hs
  · exact execQuietEntered_keeps s hs
  · exact execQuietWake_keeps _ s hs
  · exact execOutReady_keeps s hs
  · exact execConcealedOut_keeps _ s hs
  · exact execMpCntClr_keeps _ _ s hs
  · exact execEngineModeWrite_keeps _ _ _ s hs
  · exact execEngineRenderStart_keeps _ s hs
  · exact execEngineRenderDone_keeps _ _ _ s hs
  · exact execEngineDeadlineMiss_keeps _ s hs
  · exact execArbMaskChange_keeps _ s hs
  · exact execArbSnap_keeps _ _ s hs
  · exact execEngCntClr_keeps _ _ s hs
  · exact execNetLinkUp_keeps _ _ _ s hs
  · exact execNetLinkDown_keeps _ s hs
  · exact execMdioGo_keeps _ _ s hs
  · exact execMdioDone_keeps _ s hs
  · exact execFrameReceive_keeps _ _ s hs
  · exact execFdbAgeing_keeps _ s hs
  · exact execPdelayTimer_keeps _ _ s hs
  · exact execPtpSync_keeps _ _ _ _ s hs
  · exact execSyncTimeout_keeps s hs
  · exact execHoldoverExpire_keeps s hs
  · exact execAnnounceTimeout_keeps _ s hs
  · exact execBlockCounterReload_keeps s hs
  · exact execListenerFrame_keeps _ _ s hs
  · exact execStreamLost_keeps _ s hs
  · exact execTalkerFrameSend_keeps _ _ _ _ s hs
  · exact execZvDiscover_keeps _ s hs
  · exact execDiscoverReplySend_keeps _ s hs
  · exact execZvAddress_keeps _ s hs
  · exact execZvParam_keeps _ s hs
  · exact execZvSchedule_keeps _ s hs
  · exact execZvPriority_keeps _ s hs
  · exact execZvHealth_keeps _ s hs
  · exact execHealthReport_keeps s hs
  · exact execBridleSlewEnd_keeps s hs
  · exact execNetCntClr_keeps _ _ s hs
  · exact execGroupMuted_keeps _ _ s hs
  · exact execGroupUnmuted_keeps _ _ s hs
  · exact execLoadTestDone_keeps _ _ s hs
  · exact execSoftstartEnd_keeps _ s hs
  · exact execPwrStopGainZero_keeps _ s hs
  · exact execPwrStopped_keeps _ s hs
  · exact execRestartRampStart_keeps _ _ s hs
  · exact execPwrClrFault_keeps _ _ _ s hs
  · exact execPwrDiagGo_keeps _ _ _ s hs
  · exact execPwrCurrentLimit_keeps _ s hs
  · exact execPwrSustainedTrip_keeps _ _ s hs
  · exact execPwrShortTrip_keeps _ _ s hs
  · exact execRetryAttempt_keeps _ s hs
  · exact execRetryCountReset_keeps _ s hs
  · exact execPwrDcFault_keeps _ s hs
  · exact execPdieThermalWarn_keeps _ s hs
  · exact execPdieFoldback_keeps _ s hs
  · exact execPdieShutdown_keeps _ s hs
  · exact execPdieThermalRecover_keeps _ s hs
  · exact execPvddUnder_keeps _ s hs
  · exact execPvddOver_keeps _ s hs
  · exact execPvddOk_keeps _ s hs
  · exact execOffsetCalDone_keeps _ _ s hs
  · exact execExtReady_keeps _ s hs
  · exact execExtFault_keeps _ s hs
  · exact execExtClrFault_keeps _ _ _ s hs
  · exact execLoEnable_keeps _ s hs
  · exact execLoReady_keeps _ s hs
  · exact execLoOvercurrent_keeps _ s hs
  · exact execHpOvercurrent_keeps s hs
  · exact execHpJackInsert_keeps s hs
  · exact execHpProbeDone_keeps _ _ s hs
  · exact execHpRemoved_keeps _ s hs
  · exact execPwrCntClr_keeps _ _ s hs
  · exact execTthGwinWrite_keeps _ _ s hs
  · exact execTetherScrub_keeps _ _ _ s hs
  · exact execTetherVoteMasked_keeps _ _ _ _ s hs
  · exact execTetherFault_keeps _ _ _ _ s hs
  · exact execTthClrFault_keeps _ _ _ s hs
  · exact execTakeoverRequest_keeps s hs
  · exact execHubPowerGoodLow_keeps s hs
  · exact execPrioBallChange_keeps _ s hs
  · exact execTthPlayGo_keeps _ _ s hs
  · exact execTthPlayStop_keeps _ _ s hs
  · exact execMessageFrameDecode_keeps s hs
  · exact execMessageEnd_keeps s hs
  · exact execMessageGapEnd_keeps s hs
  · exact execToneCfgWrite_keeps _ _ _ s hs
  · exact execPsapLock_keeps s hs
  · exact execServoOpen_keeps _ s hs
  · exact execServoClose_keeps _ _ _ s hs
  · exact execTetherBoot_keeps s hs
  · exact execTthMaintWrite_keeps _ _ s hs
  · exact execSelftestDone_keeps _ s hs
  · exact execTthCntClr_keeps _ _ s hs
  · exact execLclkCalibrate_keeps _ s hs
  · exact execDetectorFrame_keeps _ s hs
  · exact execWakeOutputsReady_keeps _ s hs
  · exact execHubReady_keeps s hs
  · exact execGatherSegmentComplete_keeps _ s hs
  · exact execGthGoWrite_keeps _ _ s hs
  · exact execGthStopWrite_keeps _ _ s hs
  · exact execSnsSwTrigger_keeps _ _ _ s hs
  · exact execSenseTimerTick_keeps _ s hs
  · exact execSensePwmEvent_keeps _ _ s hs
  · exact execSenseGpioEdge_keeps _ _ s hs
  · exact execSenseConversionDone_keeps _ _ s hs
  · exact execSensePause_keeps _ _ _ s hs
  · exact execSenseResume_keeps _ _ _ s hs
  · exact execSenseDisable_keeps _ _ _ s hs
  · exact execSnsInjGo_keeps _ _ _ s hs
  · exact execSnsCalGo_keeps _ _ _ s hs
  · exact execRefBufferEnable_keeps _ _ s hs
  · exact execRefReady_keeps s hs
  · exact execSnsCalTableWrite_keeps _ _ _ s hs
  · exact execTdacSwitchWrite_keeps _ _ s hs
  · exact execSnsCntClr_keeps _ _ s hs
  · exact execDmaError_keeps _ s hs
  · exact execSpiTransaction_keeps _ _ s hs
  · exact execSmbSetPointer_keeps _ _ s hs
  · exact execSmbReadRegister_keeps s hs
  · exact execSmbReadHealth_keeps s hs
  · exact execSmbSubmit_keeps _ _ s hs
  · exact execSmbReadMcpl_keeps s hs
  · exact execSmbAlertResponse_keeps s hs
  · exact execSmbDescriptorDone_keeps s hs
  · exact execRingEnable_keeps _ _ s hs
  · exact execRingDisableDrain_keeps _ _ s hs
  · exact execRingDisableAbort_keeps _ _ _ s hs
  · exact execRingDrainDone_keeps _ s hs
  · exact execDoorbellRing_keeps _ _ _ _ s hs
  · exact execVectorRearm_keeps _ _ _ s hs
  · exact execVectorFire_keeps _ s hs
  · exact execDescriptorFetch_keeps _ _ _ s hs
  · exact execCompletionPost_keeps _ s hs
  · exact execFunctionLevelReset_keeps s hs
  · exact execPcieLinkDown_keeps s hs
  · exact execPcieLinkUp_keeps _ _ _ _ s hs
  · exact execLaneSource_keeps _ _ s hs
  · exact execLaneTrim_keeps _ _ s hs
  · exact execLaneDetect_keeps _ _ s hs
  · exact execBusInput_keeps _ _ s hs
  · exact execBusCfg_keeps _ _ s hs
  · exact execSink_keeps _ _ s hs
  · exact execSinkDynamics_keeps _ _ s hs
  · exact execPresetStore_keeps _ _ s hs
  · exact execPresetApply_keeps _ _ s hs
  · exact execFilterSwap_keeps _ _ s hs
  · exact execFilterCoef_keeps _ _ s hs
  · exact execFrontEndSync_keeps _ _ s hs
  · exact execRegWrite_keeps _ _ s hs
  · exact execRegWriteMasked_keeps _ _ s hs
  · exact execRegWriteRun_keeps _ _ s hs
  · exact execGenerator_keeps _ _ s hs
  · exact execProgLoad_keeps _ _ s hs
  · exact execProgStart_keeps _ _ s hs
  · exact execEngineMode_keeps _ _ s hs
  · exact execParamWrite_keeps _ _ s hs
  · exact execIrLoad_keeps _ _ s hs
  · exact execRunaheadSet_keeps _ _ s hs
  · exact execRunaheadStatus_keeps _ _ s hs
  · exact execGatherStart_keeps _ _ s hs
  · exact execGatherStop_keeps _ _ s hs
  · exact execHostStreamStart_keeps _ _ s hs
  · exact execHostStreamStop_keeps _ _ s hs
  · exact execTetherGains_keeps _ _ s hs
  · exact execTetherMode_keeps _ _ s hs
  · exact execTetherFaultClear_keeps _ _ s hs
  · exact execTetherSelftest_keeps _ _ s hs
  · exact execMessagePlay_keeps _ _ s hs
  · exact execMessageStop_keeps _ _ s hs
  · exact execSenseTrigger_keeps _ _ s hs
  · exact execSenseInject_keeps _ _ s hs
  · exact execSenseCalibrate_keeps _ _ s hs
  · exact execOutputOffsetCal_keeps _ _ s hs
  · exact execOutputClearFault_keeps _ _ s hs
  · exact execLockAcquire_keeps _ _ s hs
  · exact execLockRelease_keeps _ _ s hs
  · exact execLockDiscard_keeps _ _ s hs
  · exact execLockRenew_keeps _ _ s hs
  · exact execLeaseExpiry_keeps _ s hs
  · exact execLckOwnerReset_keeps _ _ s hs
  · exact execLckCntClr_keeps _ _ s hs
  · exact execPersist_keeps _ _ s hs
  · exact execJournalRead_keeps _ _ s hs
  · exact execFirmwareWrite_keeps _ _ s hs
  · exact execFirmwareSelect_keeps _ _ s hs
  · exact execPowerMode_keeps _ _ s hs
  · exact execMessageStore_keeps _ _ s hs
  · exact execTetherImageStore_keeps _ _ s hs
  · exact execMetrologyRead_keeps _ _ s hs
  · exact execNop_keeps _ _ s hs
  · exact execHifCntClr_keeps _ _ s hs
  · exact execMemSingleBitError_keeps _ _ s hs
  · exact execMemUncorrectable_keeps _ _ _ s hs
  · exact execStageResume_keeps _ s hs
  · exact execSramScrub_keeps _ _ _ s hs
  · exact execDramScrub_keeps _ _ s hs
  · exact execHubReset_keeps s hs
  · exact execMcWatchdogExpire_keeps s hs
  · exact execSyspllLockLoss_keeps s hs
  · exact execMlinkFrame_keeps _ s hs
  · exact execMlinkSecondMarker_keeps s hs
  · exact execEvtDetailSelect_keeps _ _ s hs
  · exact execMemInject_keeps _ _ s hs
  · exact execMemCntClr_keeps _ _ s hs
  · exact execMStart_keeps _ s hs
  · exact execMSupplyRemove_keeps s hs
  · exact execMReadRequest_keeps s hs
  · exact execIntegrationSecond_keeps _ _ s hs
  · exact execMinuteClose_keeps _ s hs
  · exact execCalendarTick_keeps s hs
  · exact execCalendarTrim_keeps _ s hs
  · exact execCalendarStop_keeps s hs
  · exact execMuartGapTimeout_keeps s hs
  · exact execStatus_keeps _ s hs
  · exact execRead_keeps _ s hs
  · exact execAck_keeps _ s hs
  · exact execHead_keeps _ s hs
  · exact execSetTime_keeps _ s hs
  · exact execSettings_keeps _ s hs
  · exact execCalRead_keeps _ s hs
  · exact execCalSet_keeps _ s hs
  · exact execCalMeasure_keeps _ s hs
  · exact execCalMeasureDone_keeps _ s hs
  · exact execCalCommit_keeps _ s hs
  · exact execSeal_keeps _ s hs
  · exact execCalCheck_keeps _ s hs
  · exact execCalCheckDone_keeps _ s hs
  · exact execCalTimeRead_keeps _ s hs
  · exact execLoLatchRead_keeps _ _ s hs
  · exact execPowerOn_keeps _ _ s hs
  · exact execResetN_keeps _ s hs
  · exact execVsysFail_keeps s hs
  · exact execBootRomStart_keeps _ _ s hs
  · exact execBootseal_keeps _ s hs
  · exact execJournalRestoreDone_keeps s hs
  · exact execRecoveryGo_keeps _ _ s hs
  · exact execRecoveryDone_keeps _ s hs
  · exact execListenOutputsZero_keeps _ s hs
  · exact execListenRailRemove_keeps s hs
  · exact execListenEntryCancel_keeps _ s hs
  · exact execGpioWake_keeps _ s hs
  · exact execJournalCompact_keeps _ s hs
  · exact execJournalCompactDone_keeps _ s hs
  · exact execJnlCompactGo_keeps _ _ s hs
  · exact execJnlCntClr_keeps _ _ s hs
  · exact execRegisterWrite_keeps _ _ _ _ s hs
  · exact execCommitHoldSet_keeps _ s hs
  · exact execCommitHoldRelease_keeps _ s hs
  · exact execMirrorRefresh_keeps _ _ s hs
  · exact execMirrorRefreshArrive_keeps s hs
  · exact execFWriteApply_keeps s hs
  · exact execGlbCntClr_keeps _ _ s hs
  · exact execTstSelWrite_keeps _ _ _ s hs
  · exact execTstCntClr_keeps _ _ s hs
  · exact execJtagRegwin_keeps _ s hs
  · exact execJtagTapReset_keeps s hs
  · exact execAudioPllRefReturn_keeps s hs
  · exact execHubPowerGoodHigh_keeps s hs
  · exact execVioGoodChange_keeps _ _ s hs
  · exact execRailFault_keeps _ _ s hs
  · exact execRestartRampEnd_keeps _ s hs
  · exact execMessageStopFadeEnd_keeps s hs
  · exact execFlashOperationDone_keeps _ s hs
  · exact execMetrologyReadTimeout_keeps s hs
  · exact execPdieCooling_keeps _ _ s hs
  · exact execJtagUpdateIr_keeps _ _ _ s hs

end Sys2Proof.Machine
end

