-- ==== Sys2Proof/Laws/Signal.lean ====
section
/-!
SUPPORT. What convergent rounding gives, and what saturation leaves (R63).
-/
namespace Sys2Proof

/-- Convergent rounding: the value is at most half a code away, and an even code on a tie. -/
theorem Frac.round_near (n : Int) (d : Nat) (h : 0 < d) :
    2 * (Frac.round ⟨n, d⟩ * d - n) ≤ d ∧ -(d : Int) ≤ 2 * (Frac.round ⟨n, d⟩ * d - n) ∧
    (2 * (Frac.round ⟨n, d⟩ * d - n) = d ∨ 2 * (Frac.round ⟨n, d⟩ * d - n) = -d → Frac.round ⟨n, d⟩ % 2 = 0) := by
  have hd : (0 : Int) < d := by exact_mod_cast h
  have e := Int.emod_add_mul_ediv n d
  have l1 := Int.emod_nonneg n hd.ne'
  have l2 := Int.emod_lt_of_pos n hd
  unfold Frac.round
  dsimp only
  generalize n / (d : Int) = q at *
  generalize n % (d : Int) = r at *
  have e2 : (d : Int) * q = q * d := Int.mul_comm _ _
  split
  · refine ⟨by linarith, by linarith, ?_⟩
    rintro (h1 | h1) <;> exfalso <;> nlinarith
  · split
    · refine ⟨by nlinarith, by nlinarith, ?_⟩
      rintro (h1 | h1) <;> exfalso <;> nlinarith
    · have hrd : 2 * r = d := by omega
      rcases Int.emod_two_eq_zero_or_one q with hz | hz
      · rw [hz]; exact ⟨by nlinarith, by nlinarith, fun _ => by omega⟩
      · rw [hz]; exact ⟨by nlinarith, by nlinarith, fun _ => by omega⟩

/-- A code inside the limits is its own sample. -/
theorem satSmp_inside (x : Int) (t : Tag) (h1 : qMin ≤ x) (h2 : x ≤ qMax) : satSmp x t = ⟨BitVec.ofInt 32 x, t⟩ := by
  unfold satSmp
  rw [if_neg (by omega), if_neg (by omega)]

end Sys2Proof
end

