-- ==== Sys2Proof/Laws/Window.lean ====
section
/-!
SUPPORT. What an accepted window write does (R437, R440).
-/
namespace Sys2Proof.Machine

theorem not_zero (v : Word) : v &&& ~~~(0 : Word) = v := by
  have e : ~~~(0 : Word) = BitVec.allOnes 32 := by decide
  rw [e, BitVec.and_allOnes]

theorem mix_zero (v w : Word) : mix v w 0 = v := by
  simp only [mix, not_zero]
  simp

/-- An accepted write: its immediate part, its staged part, and then the writes on their way to F. -/
theorem State.writeThrough_eq (s : State) (ag x : Nat) (v : Word) (h : s.accepts ag x v = true) :
    s.writeThrough ag x v =
      State.drainF (if rwsMask x = 0 then (if nowMask x = 0 then s else s.writeNow x (nowMask x) v)
        else (if nowMask x = 0 then s else s.writeNow x (nowMask x) v).stageWrite ag x v).stage.toF.length
        (if rwsMask x = 0 then (if nowMask x = 0 then s else s.writeNow x (nowMask x) v)
        else (if nowMask x = 0 then s else s.writeNow x (nowMask x) v).stageWrite ag x v) := by
  simp only [State.accepts, State.windowOk, Bool.and_eq_true, beq_iff_eq, Bool.not_eq_true'] at h
  obtain ⟨⟨⟨⟨⟨⟨⟨⟨⟨h1, h2⟩, h3⟩, h4⟩, h5⟩, h6⟩, h7⟩, h8⟩, h9⟩, h10⟩ := h
  have hw : s.windowWrite ag x v 15 = s.writeFields ag x v := by
    unfold State.windowWrite
    rw [h3, h7, h8]
    simp [h1, h2, h4, h5, h6]
  have hf : s.writeFields ag x v = (if rwsMask x = 0 then (if nowMask x = 0 then s else s.writeNow x (nowMask x) v)
      else (if nowMask x = 0 then s else s.writeNow x (nowMask x) v).stageWrite ag x v) := by
    unfold State.writeFields
    simp only [h9, mix_zero, not_zero, if_true]
  unfold State.writeThrough
  rw [hw, hf]

/-- Nothing is on its way to F. -/
theorem State.accepts_toF (s : State) (ag x : Nat) (v : Word) (h : s.accepts ag x v = true) : s.stage.toF = [] := by
  simp only [State.accepts, Bool.and_eq_true] at h
  simpa using h.2

/-- An accepted write of a register of H that stages nothing. -/
theorem State.writeThrough_hub (s : State) (ag x : Nat) (v : Word) (h : s.accepts ag x v = true) (hf : onFront x = false)
    (hr : rwsMask x = 0) (hn : nowMask x ≠ 0) (ht : (s.applyNow x (nowMask x) v).stage.toF = []) :
    s.writeThrough ag x v = s.applyNow x (nowMask x) v := by
  rw [State.writeThrough_eq s ag x v h]
  have e : s.writeNow x (nowMask x) v = s.applyNow x (nowMask x) v := by
    unfold State.writeNow
    simp [hf]
  simp only [hr, hn, if_true, if_false, e, ht]
  rfl

/-- An accepted write of a register of F that stages nothing. -/
theorem State.writeThrough_front (s : State) (ag x : Nat) (v : Word) (h : s.accepts ag x v = true) (hf : onFront x = true)
    (hr : rwsMask x = 0) (hn : nowMask x ≠ 0) :
    s.writeThrough ag x v = (s.mirrored x v).applyNow x (nowMask x) v := by
  rw [State.writeThrough_eq s ag x v h]
  have ht := s.accepts_toF ag x v h
  have e : s.writeNow x (nowMask x) v = (s.mirrored x v).modStage (fun y => { y with toF := [(x, nowMask x, v)] }) := by
    unfold State.writeNow State.mirrored State.modStage State.modMirror State.modSnap
    simp [hf, ht]
  simp only [hr, hn, if_true, if_false, e]
  have k : (s.mirrored x v).modStage (fun y => { y with toF := [] }) = s.mirrored x v := by
    unfold State.mirrored State.modStage State.modMirror State.modSnap
    simp only [← ht]
  rw [← k]
  rfl

theorem mask_sub (x : Nat) (v : Word) (p q r t : Word) (h : nowMask x = p ||| q ||| r ||| t) :
    p &&& nowMask x &&& v = p &&& v ∧ q &&& nowMask x &&& v = q &&& v ∧ r &&& nowMask x &&& v = r &&& v
      ∧ (p ||| t) &&& nowMask x = p ||| t := by
  rw [h]
  refine ⟨?_, ?_, ?_, ?_⟩ <;>
    (ext i hi; simp only [BitVec.getElem_and, BitVec.getElem_or]
     cases p[i] <;> cases q[i] <;> cases r[i] <;> cases t[i] <;> simp)

/-- The immediate part of a write of any register but a coefficient window: the new word, then what the write runs. -/
theorem State.applyNow_eq (s : State) (x : Nat) (v : Word) (h1 : regIdx R.FLT_COEF_WIN 128 x = none) (h2 : nowMask x ≠ 0) :
    s.applyNow x (nowMask x) v = (s.wr x (s.newWord x v)).hook x (s.rd x) (woMask x &&& v) (w1cMask x &&& v) v := by
  obtain ⟨-, e2, e3, e4⟩ := mask_sub x v (rwMask x) (w1cMask x) (woMask x) (rwbMask x) rfl
  unfold State.applyNow State.newWord
  simp only [h1, h2, if_false, e2, e3, e4]

/-- The value of a field of one bit. -/
theorem fld_one (u : Word) (f : Fld) (hw : f.w = 1) : u.fld f = (u.getLsbD f.lo).toNat := by
  unfold Word.fld
  rw [hw]
  simp [BitVec.getLsbD, Nat.testBit, Nat.shiftRight_eq_div_pow]
  rcases Nat.mod_two_eq_zero_or_one (u.toNat / 2 ^ f.lo) with h | h <;> simp [h]

/-- A trigger bit that the word written carries. -/
theorem hit_withBits (m v : Word) (f : Fld) (hw : f.w = 1) (hm : m.fld f = 1) (hv : v.fld f = 1) : hit (m &&& v) f = true := by
  rw [fld_one _ _ hw] at hm hv
  have h1 : m.getLsbD f.lo = true := by cases h : m.getLsbD f.lo <;> simp_all
  have h2 : v.getLsbD f.lo = true := by cases h : v.getLsbD f.lo <;> simp_all
  simp [hit, fld_one _ _ hw, h1, h2]

theorem withBits_fld (v : Word) (f : Fld) (hw : f.w = 1) (hl : f.lo < 32) : (withBits v f).fld f = 1 := by
  rw [fld_one _ _ hw]
  have h1 : f.mask.getLsbD f.lo = true := by
    rw [Fld.mask_bit f (by omega)]
    simp
    omega
  simp [withBits, h1]

/-- What an accepted write of a register without staged fields does, where it leaves nothing on its way to F. -/
theorem State.writeThrough_hook (s : State) (ag x : Nat) (v : Word) (h : s.accepts ag x v = true)
    (hr : rwsMask x = 0) (hn : nowMask x ≠ 0) (hx : regIdx R.FLT_COEF_WIN 128 x = none)
    (ht : onFront x = false →
      ((s.written x v).hook x (s.rd x) (woMask x &&& v) (w1cMask x &&& v) v).stage.toF = []) :
    s.writeThrough ag x v = (s.written x v).hook x (s.rd x) (woMask x &&& v) (w1cMask x &&& v) v := by
  unfold State.written at *
  cases hf : onFront x with
  | true =>
    rw [State.writeThrough_front s ag x v h hf hr hn, State.applyNow_eq _ _ _ hx hn]
    rfl
  | false =>
    have e := State.applyNow_eq s x v hx hn
    simp only [hf, if_false, Bool.false_eq_true] at ht ⊢
    rw [State.writeThrough_hub s ag x v h hf hr hn (by rw [e]; exact ht trivial), e]

end Sys2Proof.Machine
end

