-- ==== Sys2Proof/WellFormed.lean ====
section
/-!
DEFINITION. Well-formed commands: every operand lies in the range that its field or its object has.
-/
namespace Sys2Proof

/-- The fields of a descriptor fit their bytes (R345). -/
def Desc.wf (d : Desc) : Bool :=
  decide (d.op < 2 ^ 8) && decide (d.flags < 2 ^ 8) && decide (d.tag < 2 ^ 16) && decide (d.target < 2 ^ 32)
    && decide (d.block < 2 ^ 64) && decide (d.payAddr < 2 ^ 64) && decide (d.payLen < 2 ^ 32) && decide (d.inl < 2 ^ 32)

/-- The fields of a Zhevdom message fit their bytes; its payload is at most 1,484 bytes (R190). -/
def ZvMsg.wf (m : ZvMsg) : Bool :=
  decide (m.version < 2 ^ 8) && decide (m.flags < 2 ^ 8) && decide (m.dest < 2 ^ 16) && decide (m.sender < 2 ^ 16)
    && decide (m.seq < 2 ^ 32) && decide (m.payload.length ≤ 1484)

/-- An EtherType and a message TYPE fit their bytes. -/
def EthFrame.wf (f : EthFrame) : Bool :=
  decide (f.etype < 2 ^ 16) && (match f.zv with
    | some (typ, m) => decide (typ < 2 ^ 8) && m.wf
    | none => true)

/-- An AVTP sequence number is one byte; a frame holds the words of its samples and channels. -/
def AafFrame.wf (f : AafFrame) : Bool :=
  decide (f.seq < 2 ^ 8) && f.data.length == f.count && f.data.all (fun x => x.length == f.chans)

/-- LEN of a MUART request is two bytes (R389). -/
def MuartReq.wf (r : MuartReq) : Bool := decide (r.payload.length < 2 ^ 16)

/-- A sink ID that R108 does not reserve. -/
def sinkIdOk (id : Nat) : Bool := decide (id < 0x16) || decide (0x20 ≤ id ∧ id < 0x60) || decide (0x80 ≤ id ∧ id < 0x140)

/-- The stage of a sink that exists. -/
def Stg.wf : Stg → Bool
  | .sink id => sinkIdOk id
  | .lane _ => true
  | .bus _ => true

/-- The multiplexer of a sink that exists. -/
def MuxId.wf : MuxId → Bool
  | .sink id => sinkIdOk id
  | .lane _ => true
  | .input _ _ => true

/-- The stage of an uncorrectable word exists. -/
def ErrPlace.wf : ErrPlace → Bool
  | .stage stg => stg.wf
  | .parison _ | .cluster _ | .netBuffer | .history _ | .coefBank _ _ | .eventStore _ | .gather _ | .tetherGain _
  | .hubState | .unused => true

/-- The place of a double error exists. -/
def ScrubFind.wf : ScrubFind → Bool
  | .double place => place.wf
  | .good | .single => true

/-- The time of a frame is a 64-bit count. -/
def FrameMeas.wf (f : FrameMeas) : Bool := decide (f.ts < 2 ^ 64)

/-- What a block measures has an entry for each power channel and engine; requesters, addresses, front-end
channels and sources exist, with the words and samples of one block. -/
def BlockInputs.wf (m : BlockInputs) : Bool :=
  m.powers.length == 8 && m.slots.length == 8 && m.arb.all (fun x => decide (x.1 < 12))
    && m.meas.all (fun x => decide (x.1 < 2 ^ 17)) && m.chains.all (fun x => decide (x.1 < 16) && x.2.length == 64)
    && m.sources.all (fun x => decide (x.1 < 2 ^ 10) && x.2.length == 16)

/-- A command is well-formed. -/
def Instr.wf : Instr → Bool
  | .commitPoint m => m.wf
  | .scheduleStage _ id => decide (id < 2 ^ 16)
  | .linkSampleSubstitute n => decide (1 ≤ n)
  | .jackInserted _ ts => decide (ts < 2 ^ 64)
  | .jackRemoved _ ts => decide (ts < 2 ^ 64)
  | .inputOverRange _ k _ => decide (k < 2 ^ 64)
  | .inputThresholdUp _ _ k _ => decide (k < 2 ^ 64)
  | .inputThresholdDown _ _ k _ => decide (k < 2 ^ 64)
  | .sapFirstFrame _ rate => decide (rate < 2 ^ 20)
  | .sapClockRestored _ rate => decide (rate < 2 ^ 20)
  | .srcLocked _ rate => decide (rate < 2 ^ 20)
  | .laneSilent _ k _ => decide (k < 2 ^ 64)
  | .laneActive _ k _ => decide (k < 2 ^ 64)
  | .lanePeak _ k _ => decide (k < 2 ^ 64)
  | .routeFadeEnd m => m.wf
  | .sinkStartCrossing id k _ => sinkIdOk id && decide (k < 2 ^ 64)
  | .sinkStartTimeout id => sinkIdOk id
  | .sinkStopCrossing id k _ => sinkIdOk id && decide (k < 2 ^ 64)
  | .sinkStopTimeout id => sinkIdOk id
  | .sinkStopFadeEnd id => sinkIdOk id
  | .engineRenderDone _ words _ => decide (words ≤ 16384)
  | .netLinkUp _ mbps _ => [10, 100, 1000].contains mbps
  | .frameReceive _ f => f.wf
  | .listenerFrame _ f => f.wf
  | .talkerFrameSend _ k _ _ => decide (k < 2 ^ 64)
  | .zvDiscover m => m.wf
  | .zvAddress m => m.wf
  | .zvParam m => m.wf
  | .zvSchedule m => m.wf
  | .zvPriority m => m.wf
  | .zvHealth m => m.wf
  | .groupMuted _ j => decide (j < 2 ^ 64)
  | .groupUnmuted _ j => decide (j < 2 ^ 64)
  | .pwrSustainedTrip _ trace => decide (trace.length ≤ 48)
  | .pwrShortTrip _ trace => decide (trace.length ≤ 48)
  | .hpRemoved ts => decide (ts < 2 ^ 64)
  | .detectorFrame f => f.wf
  | .gatherSegmentComplete xs => xs.length == 500
  | .spiTransaction addr _ => decide (addr < 2 ^ 32)
  | .smbSetPointer p _ => decide (p < 2 ^ 32)
  | .smbSubmit d _ => d.wf
  | .ringDisableAbort _ _ tags => tags.all (fun t => decide (t < 2 ^ 16))
  | .doorbellRing _ _ _ entries => entries.all (fun e => decide (e.k < 2 ^ 64) && decide (e.count < 2 ^ 16))
  | .descriptorFetch _ bytes _ => decide (bytes.length ≤ 32)
  | .laneSource _ d => d.wf
  | .laneTrim _ d => d.wf
  | .laneDetect _ d => d.wf
  | .busInput _ d => d.wf
  | .busCfg _ d => d.wf
  | .sink _ d => d.wf
  | .sinkDynamics _ d => d.wf
  | .presetStore _ d => d.wf
  | .presetApply _ d => d.wf
  | .filterSwap _ d => d.wf
  | .filterCoef _ d => d.wf
  | .frontEndSync _ d => d.wf
  | .regWrite _ d => d.wf
  | .regWriteMasked _ d => d.wf
  | .regWriteRun _ d => d.wf
  | .generator _ d => d.wf
  | .progLoad _ d => d.wf
  | .progStart _ d => d.wf
  | .engineMode _ d => d.wf
  | .paramWrite _ d => d.wf
  | .irLoad _ d => d.wf
  | .runaheadSet _ d => d.wf
  | .runaheadStatus _ d => d.wf
  | .gatherStart _ d => d.wf
  | .gatherStop _ d => d.wf
  | .hostStreamStart _ d => d.wf
  | .hostStreamStop _ d => d.wf
  | .tetherGains _ d => d.wf
  | .tetherMode _ d => d.wf
  | .tetherFaultClear _ d => d.wf
  | .tetherSelftest _ d => d.wf
  | .messagePlay _ d => d.wf
  | .messageStop _ d => d.wf
  | .senseTrigger _ d => d.wf
  | .senseInject _ d => d.wf
  | .senseCalibrate _ d => d.wf
  | .outputOffsetCal _ d => d.wf
  | .outputClearFault _ d => d.wf
  | .lockAcquire _ d => d.wf
  | .lockRelease _ d => d.wf
  | .lockDiscard _ d => d.wf
  | .lockRenew _ d => d.wf
  | .persist _ d => d.wf
  | .journalRead _ d => d.wf
  | .firmwareWrite _ d => d.wf
  | .firmwareSelect _ d => d.wf
  | .powerMode _ d => d.wf
  | .messageStore _ d => d.wf
  | .tetherImageStore _ d => d.wf
  | .metrologyRead _ d => d.wf
  | .nop _ d => d.wf
  | .memSingleBitError _ addr => decide (addr < 2 ^ 32)
  | .memUncorrectable _ addr place => decide (addr < 2 ^ 32) && place.wf
  | .stageResume g => g.wf
  | .sramScrub _ addr find => decide (addr < 2 ^ 32) && find.wf
  | .dramScrub addr find => decide (addr < 2 ^ 32) && find.wf
  | .minuteClose vbak => decide (vbak < 2 ^ 16)
  | .status r => r.wf
  | .read r => r.wf
  | .ack r => r.wf
  | .head r => r.wf
  | .setTime r => r.wf
  | .settings r => r.wf
  | .calRead r => r.wf
  | .calSet r => r.wf
  | .calMeasure r => r.wf
  | .calMeasureDone vals => decide (vals.length ≤ 10)
  | .calCommit r => r.wf
  | .seal r => r.wf
  | .calCheck r => r.wf
  | .calCheckDone vals => decide (vals.length ≤ 10)
  | .loLatchRead _ addr => decide (addr < 2 ^ 17)
  | .powerOn vsys _ => decide (vsys < 2 ^ 16)
  | .vioGoodChange _ mv => decide (mv < 2 ^ 16)
  | .railFault _ mv => decide (mv < 2 ^ 16)
  | .flitReceived _ _ _ _ | .linkReplay _ _ | .fLinkDown | .hLinkDown | .dieLinkUp | .linkRetrainTimeout
  | .parityWordReplaced _ _ | .dieLinkParity _ _ | .linkParityTrip _ _ | .collectorSpaceReturn | .blockSlip
  | .audioPllRefLost | .audioPllLocked | .parisonEscape _ | .afeModeChange _ _ _ | .afeGainWrite _ _ _ | .gainStep _
  | .afeZcTimeout _ | .micbiasOvercurrent _ | .pdmStuck _ | .pdmWireToggle _ | .modulatorRelease _ | .chainSettled _
  | .fltCoefWinWrite _ _ _ | .fltSwapGo _ _ _ | .bankFadeEnd _ | .syncBallEdge | .fltSwSync _ _ | .syncArm _ _
  | .modulatorOverload _ | .modulatorResetEnd _ _ | .fltCntClr _ _ | .sapStart _ _ _ | .sapSlotStart _ _ _
  | .sapStop _ _ _ | .sapStopped _ | .sapShadowApply _ _ _ | .sapHoldRelease _ _ _ | .sapClockLost _
  | .sapFrameError _ | .sapSlip _ | .srcModeChange _ _ _ | .srcUnlocked _ | .splitFillEnd _ | .presetGo _ _
  | .quietRequest | .quietEntryAbandon | .quietEntered | .quietWake _ | .outReady | .concealedOut _ | .mpCntClr _ _
  | .engineModeWrite _ _ _ | .engineRenderStart _ | .engineDeadlineMiss _ | .arbMaskChange _ | .arbSnap _ _
  | .engCntClr _ _ | .netLinkDown _ | .mdioGo _ _ | .mdioDone _ | .fdbAgeing _ | .pdelayTimer _ _ | .ptpSync _ _ _ _
  | .syncTimeout | .holdoverExpire | .announceTimeout _ | .blockCounterReload | .streamLost _ | .discoverReplySend _
  | .healthReport | .bridleSlewEnd | .netCntClr _ _ | .loadTestDone _ _ | .softstartEnd _ | .pwrStopGainZero _
  | .pwrStopped _ | .restartRampStart _ _ | .pwrClrFault _ _ _ | .pwrDiagGo _ _ _ | .pwrCurrentLimit _
  | .retryAttempt _ | .retryCountReset _ | .pwrDcFault _ | .pdieThermalWarn _ | .pdieFoldback _ | .pdieShutdown _
  | .pdieThermalRecover _ | .pvddUnder _ | .pvddOver _ | .pvddOk _ | .offsetCalDone _ _ | .extReady _ | .extFault _
  | .extClrFault _ _ _ | .loEnable _ | .loReady _ | .loOvercurrent _ | .hpOvercurrent | .hpJackInsert
  | .hpProbeDone _ _ | .pwrCntClr _ _ | .tthGwinWrite _ _ | .tetherScrub _ _ _ | .tetherVoteMasked _ _ _ _
  | .tetherFault _ _ _ _ | .tthClrFault _ _ _ | .takeoverRequest | .hubPowerGoodLow | .prioBallChange _
  | .tthPlayGo _ _ | .tthPlayStop _ _ | .messageFrameDecode | .messageEnd | .messageGapEnd | .toneCfgWrite _ _ _
  | .psapLock | .servoOpen _ | .servoClose _ _ _ | .tetherBoot | .tthMaintWrite _ _ | .selftestDone _
  | .tthCntClr _ _ | .lclkCalibrate _ | .wakeOutputsReady _ | .hubReady | .gthGoWrite _ _ | .gthStopWrite _ _
  | .snsSwTrigger _ _ _ | .senseTimerTick _ | .sensePwmEvent _ _ | .senseGpioEdge _ _ | .senseConversionDone _ _
  | .sensePause _ _ _ | .senseResume _ _ _ | .senseDisable _ _ _ | .snsInjGo _ _ _ | .snsCalGo _ _ _
  | .refBufferEnable _ _ | .refReady | .snsCalTableWrite _ _ _ | .tdacSwitchWrite _ _ | .snsCntClr _ _ | .dmaError _
  | .smbReadRegister | .smbReadHealth | .smbReadMcpl | .smbAlertResponse | .smbDescriptorDone | .ringEnable _ _
  | .ringDisableDrain _ _ | .ringDrainDone _ | .vectorRearm _ _ _ | .vectorFire _ | .completionPost _
  | .functionLevelReset | .pcieLinkDown | .pcieLinkUp _ _ _ _ | .leaseExpiry _ | .lckOwnerReset _ _ | .lckCntClr _ _
  | .hifCntClr _ _ | .hubReset | .mcWatchdogExpire | .syspllLockLoss | .mlinkFrame _ | .mlinkSecondMarker
  | .evtDetailSelect _ _ | .memInject _ _ | .memCntClr _ _ | .mStart _ | .mSupplyRemove | .mReadRequest
  | .integrationSecond _ _ | .calendarTick | .calendarTrim _ | .calendarStop | .muartGapTimeout | .calTimeRead _
  | .resetN _ | .vsysFail | .bootRomStart _ _ | .bootseal _ | .journalRestoreDone | .recoveryGo _ _ | .recoveryDone _
  | .listenOutputsZero _ | .listenRailRemove | .listenEntryCancel _ | .gpioWake _ | .journalCompact _
  | .journalCompactDone _ | .jnlCompactGo _ _ | .jnlCntClr _ _ | .registerWrite _ _ _ _ | .commitHoldSet _
  | .commitHoldRelease _ | .mirrorRefresh _ _ | .mirrorRefreshArrive | .fWriteApply | .glbCntClr _ _
  | .tstSelWrite _ _ _ | .tstCntClr _ _ | .jtagRegwin _ | .jtagTapReset | .audioPllRefReturn | .hubPowerGoodHigh
  | .restartRampEnd _ | .messageStopFadeEnd | .flashOperationDone _ | .metrologyReadTimeout | .pdieCooling _ _
  | .jtagUpdateIr _ _ _ => true

end Sys2Proof
end

