-- ==== Sys2Proof/Tests/Slice0.lean ====
section
/-!
SUPPORT. The model's own tests: ill-formed commands, worked examples of the spec, and for every statement with hypotheses a
state and operands that meet them.
-/
namespace Sys2Proof.Machine

set_option linter.unusedVariables false
set_option Elab.async false

/-! ### Ill-formed commands are refused -/

def badDesc : Desc := { (default : Desc) with op := 256 }
def badMsg : ZvMsg := { (default : ZvMsg) with seq := 2 ^ 32 }

/-- What a block measures, well-formed. -/
def goodInputs : BlockInputs := { (default : BlockInputs) with powers := List.replicate 8 default, slots := List.replicate 8 default }

theorem test_wf_block_good : goodInputs.wf = true := by decide

theorem test_wf_refuses_0 : ([
    .commitPoint { (default : BlockInputs) with powers := [] },
    .scheduleStage default (2 ^ 16),
    .linkSampleSubstitute 0,
    .jackInserted default (2 ^ 64),
    .jackRemoved default (2 ^ 64),
    .inputOverRange default (2 ^ 64) default,
    .inputThresholdUp default default (2 ^ 64) default,
    .inputThresholdDown default default (2 ^ 64) default,
    .sapFirstFrame default (2 ^ 20),
    .sapClockRestored default (2 ^ 20),
    .srcLocked default (2 ^ 20),
    .laneSilent default (2 ^ 64) default] : List Instr).all (fun c => !c.wf) = true := by decide +kernel

theorem test_wf_refuses_1 : ([
    .laneActive default (2 ^ 64) default,
    .lanePeak default (2 ^ 64) default,
    .routeFadeEnd (.sink 0x16),
    .sinkStartCrossing 0x60 (2 ^ 64) default,
    .sinkStartTimeout 0x60,
    .sinkStopCrossing 0x60 (2 ^ 64) default,
    .sinkStopTimeout 0x60,
    .sinkStopFadeEnd 0x60,
    .engineRenderDone default 16385 default,
    .netLinkUp default 11 default,
    .frameReceive default { (default : EthFrame) with etype := 65536 },
    .listenerFrame default { (default : AafFrame) with seq := 256 }] : List Instr).all (fun c => !c.wf) = true := by decide +kernel

theorem test_wf_refuses_2 : ([
    .talkerFrameSend default (2 ^ 64) default default,
    .zvDiscover badMsg,
    .zvAddress badMsg,
    .zvParam badMsg,
    .zvSchedule badMsg,
    .zvPriority badMsg,
    .zvHealth badMsg,
    .groupMuted default (2 ^ 64),
    .groupUnmuted default (2 ^ 64),
    .pwrSustainedTrip default (List.replicate 49 default),
    .pwrShortTrip default (List.replicate 49 default),
    .hpRemoved (2 ^ 64)] : List Instr).all (fun c => !c.wf) = true := by decide +kernel

theorem test_wf_refuses_3 : ([
    .detectorFrame { (default : FrameMeas) with ts := 2 ^ 64 },
    .gatherSegmentComplete [],
    .spiTransaction (2 ^ 32) default,
    .smbSetPointer (2 ^ 32) default,
    .smbSubmit badDesc default,
    .ringDisableAbort default default [65536],
    .doorbellRing default default default [⟨2 ^ 64, 0, []⟩],
    .descriptorFetch default (List.replicate 33 0) default,
    .laneSource default badDesc,
    .laneTrim default badDesc,
    .laneDetect default badDesc,
    .busInput default badDesc] : List Instr).all (fun c => !c.wf) = true := by decide +kernel

theorem test_wf_refuses_4 : ([
    .busCfg default badDesc,
    .sink default badDesc,
    .sinkDynamics default badDesc,
    .presetStore default badDesc,
    .presetApply default badDesc,
    .filterSwap default badDesc,
    .filterCoef default badDesc,
    .frontEndSync default badDesc,
    .regWrite default badDesc,
    .regWriteMasked default badDesc,
    .regWriteRun default badDesc,
    .generator default badDesc] : List Instr).all (fun c => !c.wf) = true := by decide +kernel

theorem test_wf_refuses_5 : ([
    .progLoad default badDesc,
    .progStart default badDesc,
    .engineMode default badDesc,
    .paramWrite default badDesc,
    .irLoad default badDesc,
    .runaheadSet default badDesc,
    .runaheadStatus default badDesc,
    .gatherStart default badDesc,
    .gatherStop default badDesc,
    .hostStreamStart default badDesc,
    .hostStreamStop default badDesc,
    .tetherGains default badDesc] : List Instr).all (fun c => !c.wf) = true := by decide +kernel

theorem test_wf_refuses_6 : ([
    .tetherMode default badDesc,
    .tetherFaultClear default badDesc,
    .tetherSelftest default badDesc,
    .messagePlay default badDesc,
    .messageStop default badDesc,
    .senseTrigger default badDesc,
    .senseInject default badDesc,
    .senseCalibrate default badDesc,
    .outputOffsetCal default badDesc,
    .outputClearFault default badDesc,
    .lockAcquire default badDesc,
    .lockRelease default badDesc] : List Instr).all (fun c => !c.wf) = true := by decide +kernel

theorem test_wf_refuses_7 : ([
    .lockDiscard default badDesc,
    .lockRenew default badDesc,
    .persist default badDesc,
    .journalRead default badDesc,
    .firmwareWrite default badDesc,
    .firmwareSelect default badDesc,
    .powerMode default badDesc,
    .messageStore default badDesc,
    .tetherImageStore default badDesc,
    .metrologyRead default badDesc,
    .nop default badDesc,
    .memSingleBitError default (2 ^ 32)] : List Instr).all (fun c => !c.wf) = true := by decide +kernel

theorem test_wf_refuses_8 : ([
    .memUncorrectable default (2 ^ 32) (.stage (.sink 0x16)),
    .stageResume (.sink 0x140),
    .sramScrub default (2 ^ 32) (.double (.stage (.sink 0x1F))),
    .dramScrub (2 ^ 32) (.double (.stage (.sink 0x1F))),
    .minuteClose (2 ^ 16),
    .calMeasureDone (List.replicate 11 default),
    .calCheckDone (List.replicate 11 default),
    .loLatchRead default (2 ^ 17),
    .powerOn (2 ^ 16) default,
    .vioGoodChange default (2 ^ 16),
    .railFault default (2 ^ 16),
    .sinkStartCrossing 0 (2 ^ 64) default] : List Instr).all (fun c => !c.wf) = true := by decide +kernel

theorem test_wf_refuses_9 : ([
    .sinkStopCrossing 0 (2 ^ 64) default,
    .memUncorrectable default 0 (.stage (.sink 0x16)),
    .memUncorrectable default (2 ^ 32) .unused,
    .sramScrub default 0 (.double (.stage (.sink 0x1F))),
    .sramScrub default (2 ^ 32) .good,
    .dramScrub 0 (.double (.stage (.sink 0x1F))),
    .dramScrub (2 ^ 32) .good,
    .frameReceive default { (default : EthFrame) with zv := some (256, default) },
    .frameReceive default { (default : EthFrame) with zv := some (1, badMsg) },
    .doorbellRing default default default [⟨0, 65536, []⟩],
    .commitPoint { goodInputs with arb := [(12, default)] },
    .commitPoint { goodInputs with chains := [(16, List.replicate 64 0)] },
    .commitPoint { goodInputs with sources := [(1024, List.replicate 16 default)] }] : List Instr).all (fun c => !c.wf) = true := by decide +kernel

theorem test_wf_refuses_10 : ([
    .listenerFrame default { (default : AafFrame) with count := 1 },
    .listenerFrame default { (default : AafFrame) with count := 1, chans := 1, data := [[]] },
    .commitPoint { goodInputs with chains := [(15, List.replicate 63 0)] },
    .commitPoint { goodInputs with sources := [(1023, List.replicate 15 default)] },
    .commitPoint { goodInputs with meas := [(2 ^ 17, default)] }] : List Instr).all (fun c => !c.wf) = true := by decide +kernel

/-- A MUART request with a payload of 65,536 bytes. -/
def badReq : MuartReq := { (default : MuartReq) with payload := List.replicate 65536 0 }

theorem test_wf_muart : badReq.wf = false := by
  have e : badReq.payload.length = 65536 := List.length_replicate
  unfold MuartReq.wf
  rw [e]
  decide

theorem test_wf_refuses_muart : Instr.wf (.status badReq) = false ∧
    Instr.wf (.read badReq) = false ∧
    Instr.wf (.ack badReq) = false ∧
    Instr.wf (.head badReq) = false ∧
    Instr.wf (.setTime badReq) = false ∧
    Instr.wf (.settings badReq) = false ∧
    Instr.wf (.calRead badReq) = false ∧
    Instr.wf (.calSet badReq) = false ∧
    Instr.wf (.calMeasure badReq) = false ∧
    Instr.wf (.calCommit badReq) = false ∧
    Instr.wf (.seal badReq) = false ∧
    Instr.wf (.calCheck badReq) = false :=
  ⟨test_wf_muart, test_wf_muart, test_wf_muart, test_wf_muart, test_wf_muart, test_wf_muart, test_wf_muart, test_wf_muart,
    test_wf_muart, test_wf_muart, test_wf_muart, test_wf_muart⟩

/-- Each field of a descriptor one past its bytes. -/
theorem test_wf_desc : ([⟨256, 0, 0, 0, 0, 0, 0, 0, []⟩, ⟨0, 256, 0, 0, 0, 0, 0, 0, []⟩, ⟨0, 0, 65536, 0, 0, 0, 0, 0, []⟩,
    ⟨0, 0, 0, 2 ^ 32, 0, 0, 0, 0, []⟩, ⟨0, 0, 0, 0, 2 ^ 64, 0, 0, 0, []⟩, ⟨0, 0, 0, 0, 0, 2 ^ 64, 0, 0, []⟩,
    ⟨0, 0, 0, 0, 0, 0, 2 ^ 32, 0, []⟩, ⟨0, 0, 0, 0, 0, 0, 0, 2 ^ 32, []⟩] : List Desc).all (fun d => !d.wf) = true := by decide

/-- Each field of a Zhevdom message one past its bytes, and a payload of 1,485 bytes. -/
theorem test_wf_message : ([⟨0, 256, 0, 0, 0, 0, []⟩, ⟨0, 0, 256, 0, 0, 0, []⟩, ⟨0, 0, 0, 65536, 0, 0, []⟩,
    ⟨0, 0, 0, 0, 65536, 0, []⟩, ⟨0, 0, 0, 0, 0, 2 ^ 32, []⟩, ⟨0, 0, 0, 0, 0, 0, List.replicate 1485 0⟩] : List ZvMsg).all
    (fun m => !m.wf) = true := by decide +kernel

/-- Each part of what a block measures out of its range. -/
theorem test_wf_block : ([{ (default : BlockInputs) with powers := [], slots := List.replicate 8 default },
    { (default : BlockInputs) with powers := List.replicate 8 default, slots := [] }] : List BlockInputs).all
    (fun m => !m.wf) = true := by decide

theorem test_wf_well_formed : Instr.wf (.laneTrim .cmd ⟨2, 0, 7, 5, 0, 0, 0, 0, []⟩) = true ∧ Instr.wf .hubReset = true := by
  decide

/-! ### Worked examples of the spec -/

/-- R33's example: staging ends at sample 14 of block 30,000, so the change takes effect at block 30,002. -/
theorem test_cutoff_late : (State.reset.modClk (fun c => { c with blk := 30000, smp := 14 })).nextOpen = 30002 := by decide

/-- R443's example: the release comes before sample 14 of block 30,000, so the changes take effect at block 30,001. -/
theorem test_cutoff_early : (State.reset.modClk (fun c => { c with blk := 30000, smp := 13 })).nextOpen = 30001 := by decide

/-- R443's example: MIX_GAIN[5][17] and MP_SINK[2] are at these addresses. -/
theorem test_addresses : R.MIX_GAIN 5 17 = 0xB2C4 ∧ R.MP_SINK 2 = 0xA808 ∧ pageOf (R.MIX_GAIN 5 17) = 44
    ∧ pageOf (R.MP_SINK 2) = 42 := by decide

/-- The worked program of chapter 5: its ten records. -/
def cabinets : List ProgRec :=
  [⟨0x1B, false, false, 2, 2, 0, 0x2000, 0, [], []⟩, ⟨0x04, false, false, 2, 2, 0, 0x2000, 10, [], []⟩, ⟨0x07, false, false, 2, 6, 0, 0x2000, 17, [], []⟩,
   ⟨0x06, false, false, 2, 2, 0, 0x2000, 16384, [], []⟩, ⟨0x05, false, false, 4, 4, 0, 0x2000, 512, [], []⟩, ⟨0x0A, false, false, 4, 4, 0, 0x2000, 48, [], []⟩,
   ⟨0x1A, false, false, 2, 2, 0, 0x2000, 48, [], []⟩, ⟨0x17, false, true, 6, 6, 0, 0x2000, 534928 + 9600, [], []⟩,
   ⟨0x19, false, false, 6, 6, 0, 0x2000, 0, [], []⟩, ⟨0x0F, false, false, 6, 0, 0, 0x2000, 600, [], []⟩]

/-- The costs per block that chapter 5 gives for them, and their total of 35,488 cycles (R149). -/
theorem test_program_costs : cabinets.map (fun r => (r.row.map r.cost).getD 0)
    = [128, 1056, 1248, 19488, 8608, 1056, 1312, 896, 1184, 512] := by decide

/-- The DRAM bytes per block of CONV and STEER in that program (R149). -/
theorem test_program_dram : cabinets.map (fun r => (r.row.map r.dramBytes).getD 0) = [0, 0, 0, 8320, 0, 0, 0, 1088, 0, 0] := by
  decide

/-- The check value that every description of this CRC-32 gives for the digits 1 to 9. -/
theorem test_crc32 : crc32 [0x31, 0x32, 0x33, 0x34, 0x35, 0x36, 0x37, 0x38, 0x39] = 0xCBF43926 := by decide +kernel

/-- The digest that FIPS 180-4 gives for "abc", its first eight bytes. -/
theorem test_sha256 : (sha256 [0x61, 0x62, 0x63]).take 8 = [0xBA, 0x78, 0x16, 0xBF, 0x8F, 0x01, 0xCF, 0xEA] := by decide +kernel

/-- No row of the table gives bits, so no word spells a command. -/
theorem test_decode : decodeTableWord 32 0x12345678 = none := rfl

/-! ### States that the witnesses use -/

set_option maxRecDepth 4000

set_option maxRecDepth 4000 in
/-- The CRC-32 of 252 erased bytes, from an independent computation. -/
theorem crc_of_erased_frame : crc32 (List.replicate 252 (0xFF : Byte)) = 0xA7340E2F := by
  simp [crc32, crcByte, crcBit]

/-- A part that runs with its link up. -/
def up : State :=
  { State.reset with
    regs := [(R.MEM_LINK_STS, 0x80000000)]
    link := { State.reset.link with fUp := true }
    power := { State.reset.power with hubUp := true, trans := none } }

/-- The same part with metrology fitted. -/
def upM : State := up.modRegs (fun _ => [(R.GLB_ORDER, 0), (R.MEM_LINK_STS, 0x80000000)])

/-- A calibration block in which everything but the name and the CRC is zero. -/
def calBlock : List Byte := [0x4C, 0x41, 0x43, 0x4D] ++ List.replicate 56 0 ++ [0x7f, 0xba, 0xb4, 0xf]

/-- A part whose M runs and has one written calibration slot. -/
def calibrated : State :=
  upM.modMetro (fun m => { m with on_ := true, run := none, sealed := false, otp := [[calBlock, calBlock, calBlock], [], [], []] })

set_option maxRecDepth 4000 in
theorem crc_of_calBlock : crc32 (calBlock.take 60) = BitVec.ofNat 32 (bytesAt calBlock 60 4) := by
  have h : calBlock.take 60 = [0x4C, 0x41, 0x43, 0x4D] ++ List.replicate 56 0 := by decide
  rw [h]
  simp [crc32, crcByte, crcBit]
  decide

set_option maxRecDepth 4000 in
theorem calibrated_voted : calibrated.metro.voted = some (0, calBlock, true) := by
  have h : calibrated.metro.slot = some 0 := by decide
  have e : voteBlock 16 calBlock calBlock calBlock = (calBlock, false) := by decide
  have q : (bytesAt calBlock 0 4 == 0x4D43414C) = true := by decide
  have g : calibrated.metro.otp.getD 0 [] = [calBlock, calBlock, calBlock] := rfl
  simp only [MetroX.voted, h, g, Option.map, List.getD_cons_zero, List.getD_cons_succ, e, q, crc_of_calBlock,
    Bool.not_false, Bool.and_self, decide_true]

/-- A player at the first frame of a message, over an erased partition. -/
def playing : State :=
  (up.setF R.TTH_PLAY_STS F.TTH_PLAY_STS_STATE 1).modPlayer (fun x => { x with samples := 504 })

/-- The same with the right CRC behind the erased frame. -/
def playingGood : State :=
  playing.modTth (fun y => { y with part := Mem.setMany 0xFF y.part 252 [0x2F, 0x0E, 0x34, 0xA7] })

set_option maxRecDepth 4000 in
theorem frame_of_playing : playing.partBytes (playing.tth.player.offset + 256 * (playing.tth.player.done / 504)) 252
    = List.replicate 252 0xFF := by decide

set_option maxRecDepth 4000 in
theorem frame_of_playingGood :
    playingGood.partBytes (playingGood.tth.player.offset + 256 * (playingGood.tth.player.done / 504)) 252
    = List.replicate 252 0xFF := by decide

/-- A sealed part whose H serves and reads descriptors: ring 0 runs, every agent holds every bit. -/
def serving : State :=
  (up.modRegs (fun _ => [(R.GLB_ORDER, 0), (R.CLK_BOOT_STS, F.CLK_BOOT_STS_JNL_DONE.mask), (R.CLK_BOOTSEAL, 1), (R.HIF_RING_STS 0, 1),
    (R.HIF_SMB_CFG, 0xFFFFFFFF), (R.PROT_WR 5 1, 0xFFFFFFFF), (R.PROT_AGENT 3, 0xFFFFFFFF), (R.PROT_AGENT 4, 0xFFFFFFFF), (R.PROT_AGENT 5, 0xFFFFFFFF),
    (R.MEM_LINK_STS, 0x80000000)])).modPower (fun p => { p with reading := true, mode := .run, trans := none })

/-- A part that serves Zhevdom with one controller entry, 11:22:33:44:55:66, that holds every bit. -/
def controlled : State :=
  serving.modRegs (fun r => ((r.set R.NET_ZV_CFG 0xFFFFFFFF).set (R.NET_ZV_CTRL_LO 0) 0x33445566).set (R.NET_ZV_CTRL_HI 0) 0xFFFF1122)

/-- The same without a controller entry. -/
def zhev : State := serving.modRegs (fun r => r.set R.NET_ZV_CFG 0xFFFFFFFF)

/-- A descriptor that has completed. -/
def doneFlight : InFlight :=
  ⟨0, 0, 0xF0, 7, false, false, none, false, false, none, some ⟨.done, false, false, false, 3, none⟩⟩

/-- A part with a completed descriptor of ring 0 and ring 1 running. -/
def answered : State :=
  (serving.modQueue .cmd (fun q => { q with flight := [doneFlight] })).setF (R.HIF_RING_STS 1) F.HIF_RING_STS_STATE 1

theorem serving_unprotected : ∀ u : Fin 200, serving.writeProtected (131072 * u.val) = false := by decide +kernel

/-- No unit that a message of one frame may use is protected, wherever the part puts the frame. -/
theorem messages_unprotected (j : Nat) : serving.rangeProtected (messageBase + framePlace j 1) 256 = false := by
  have hb : framePlace j 1 < 0x800000 := by
    unfold framePlace
    have : Config.messagePlace j 1 % ((partSize - framesBase) / 256 - 1 + 1) < (partSize - framesBase) / 256 - 1 + 1 :=
      Nat.mod_lt _ (by decide)
    have e : (partSize - framesBase) / 256 - 1 + 1 = 31994 + 6 := by decide
    have f : framesBase = 0x30000 := rfl
    omega
  unfold State.rangeProtected
  rw [List.any_eq_false]
  intro i hi
  have hi2 : i < 2 := by simpa using hi
  have hm : messageBase = 0xC00000 := rfl
  have hu : (messageBase + framePlace j 1) / 131072 + i < 200 := by omega
  simp [serving_unprotected ⟨_, hu⟩]

theorem admitted (x : Except (Nat × Nat) Prog) (p : Prog)
    (h : (match x with | .ok q => decide (q = p) | .error _ => false) = true) : x = .ok p := by
  cases x with
  | error e => cases h
  | ok q => exact congrArg _ (of_decide_eq_true h)

/-- The same with one record in the journal. -/
def journaled : State :=
  serving.modFlash (fun f => { f with j0 := { f.j0 with lower := ⟨true, 1, 1, true, [⟨1, 1, [0], .valid⟩]⟩ } })

/-- The same with a convolution running on engine 3. -/
def irState : State :=
  (serving.modEng 3 (fun x => { x with running := some ⟨9, [⟨0x06, false, false, 1, 1, 32, 0x2000, 64, [0], [0]⟩], [], 0, 0, 0, 0, 0⟩ }))

/-! ### Witnesses: hypotheses that can be met -/

theorem witness_HFLink_0 : ∃ (dir : LinkWay) (seq : Fin 256) (kind : FlitKind) (s : State),
    (s.power.hubUp = true) ∧ ((s.dirOf dir).rxSeq = seq.val) :=
  ⟨.hToF, 5, .sample, { up with link := { up.link with down := { up.link.down with rxSeq := 5 } } }, by decide⟩

theorem witness_HFLink_1 : ∃ (dir : LinkWay) (seq : Fin 256) (kind : FlitKind) (s : State),
    (s.power.hubUp = true) :=
  ⟨.fToH, 5, .sample, up, by decide⟩

theorem witness_HFLink_2 : ∃ (dir : LinkWay) (first : Fin 256) (s : State),
    ((s.dirOf dir).nak = some first.val) ∧ ((s.dirOf dir).kept.dropWhile (fun f => f.seq != first.val) ≠ []) :=
  ⟨.hToF, 7, { up with link := { up.link with down := { up.link.down with nak := some 7, kept := [⟨6, .sample⟩, ⟨7, .sample⟩] } } }, by decide⟩

theorem witness_HFLink_3 : ∃ (n : Nat) (s : State),
    (n ≠ 0) ∧ (s.link.fUp = true) :=
  ⟨3, up, by decide⟩

theorem witness_HFLink_5 : ∃ (d : Fin 2) (up : Bool) (s : State),
    (s.link.parSec.getD (2 * d.val + up.toNat) false = true) ∧ (s.rested (2 ^ 32 + (2 * d.val + up.toNat)) second3 =
        true) :=
  ⟨1, true, (up.modLink (fun l => { l with parSec := [false, false, false, true] })), by decide⟩

theorem witness_HFLink_6 : ∃ (d : Fin 2) (up : Bool) (s : State),
    (1024 < s.link.parBlk.getD (2 * d.val + up.toNat) 0) :=
  ⟨1, false, (up.modLink (fun l => { l with parBlk := [0, 0, 1025, 0] })), by decide⟩

theorem witness_HFLink_7 : ∃ (s : State),
    (s.link.fUp = true) :=
  ⟨up, by decide⟩

theorem witness_HFLink_8 : ∃ (s : State),
    (s.power.hubUp = true) ∧ (s.on R.MEM_LINK_STS F.MEM_LINK_STS_UP = true) :=
  ⟨up, by decide⟩

theorem witness_HFLink_9 : ∃ (s : State),
    (s.power.hubUp = true) :=
  ⟨up, by decide⟩

theorem witness_HFLink_10 : ∃ (s : State),
    (s.power.hubUp = true) ∧ (s.on R.MEM_LINK_STS F.MEM_LINK_STS_UP = false) ∧ (64 ≤ s.link.down.good) ∧
        (64 ≤ s.link.up.good) :=
  ⟨(up.modRegs (fun _ => [])).modLink (fun l => { l with down := { l.down with good := 64 }, up := { l.up with good := 64 } }), by decide⟩

theorem witness_HFLink_11 : ∃ (b : Nat) (s : State),
    (s.link.downAt = some b) ∧ (s.power.hubUp = true) ∧ (s.on R.MEM_LINK_STS F.MEM_LINK_STS_UP = false) ∧
        (b + 600 ≤ s.clk.blk) :=
  ⟨7, ((up.modRegs (fun _ => [])).modLink (fun l => { l with downAt := some 7 })).modClk (fun c => { c with blk := 607 }), by decide⟩

theorem witness_AudioPllAndArrayTime_0 : ∃ (s : State),
    (s.on R.CLK_APLL_STS F.CLK_APLL_STS_HOLDOVER = false) :=
  ⟨up, by decide⟩

theorem witness_AudioPllAndArrayTime_1 : ∃ (s : State),
    (s.on R.CLK_APLL_STS F.CLK_APLL_STS_HOLDOVER = true) :=
  ⟨up.setF R.CLK_APLL_STS F.CLK_APLL_STS_HOLDOVER 1, by decide⟩

theorem witness_AudioPllAndArrayTime_2 : ∃ (s : State),
    (s.power.mode ≠ .listen) ∧ (s.on R.CLK_APLL_STS F.CLK_APLL_STS_LOCK = false) :=
  ⟨up, by decide⟩

theorem witness_AudioPllAndArrayTime_3 : ∃ (s : State),
    (s.sap.ref ≠ 3) :=
  ⟨up.modSap (fun x => { x with ref := 0 }), by decide⟩

theorem witness_AudioPllAndArrayTime_4 : ∃ (p : Fin 2) (gm : BitVec 64) (hops : Nat) (off : Int) (s : State),
    (s.on R.ARR_PTP_CFG F.ARR_PTP_CFG_EN = true) ∧ (s.portUp p = true) ∧
        (s.on (R.NET_PORT_CFG p) F.NET_PORT_CFG_PTP_EN = true) ∧ (10000 < off.natAbs) :=
  ⟨1, 5, 1, 20000, (((up.setF R.ARR_PTP_CFG F.ARR_PTP_CFG_EN 1).setF (R.NET_PORT_CFG 1) F.NET_PORT_CFG_EN 1).setF (R.NET_PORT_CFG 1) F.NET_PORT_CFG_PTP_EN 1).setF (R.NET_PORT_STS 1) F.NET_PORT_STS_LINK 1, by decide⟩

theorem witness_AudioPllAndArrayTime_5 : ∃ (p : Fin 2) (gm : BitVec 64) (hops : Nat) (off : Int) (s : State),
    (s.on R.ARR_PTP_CFG F.ARR_PTP_CFG_EN = false) :=
  ⟨1, 5, 1, 20000, up.wr R.ARR_PTP_CFG 0, by decide⟩

theorem witness_AudioPllAndArrayTime_6 : ∃ (s : State),
    (s.ptpState = 2) ∧ (s.net.ptp.lastSync + 3 * s.syncInterval3 ≤ s.clk.now3) :=
  ⟨(up.setF R.ARR_PTP_STS F.ARR_PTP_STS_STATE 2).modClk (fun c => { c with now3 := 30000000000000 }), by decide⟩

theorem witness_AudioPllAndArrayTime_7 : ∃ (s : State),
    (s.ptpState = 3) ∧ (s.net.ptp.holdAt + 60 * second3 ≤ s.clk.now3) :=
  ⟨(up.setF R.ARR_PTP_STS F.ARR_PTP_STS_STATE 3).modClk (fun c => { c with now3 := 30000000000000 }), by decide⟩

theorem witness_AudioPllAndArrayTime_8 : ∃ (s : State),
    (s.on R.ARR_PTP_CFG F.ARR_PTP_CFG_EN = true) ∧ (s.fld R.ARR_PTP_CFG F.ARR_PTP_CFG_PRIO1 = 255) :=
  ⟨up.wr R.ARR_PTP_CFG 0xFFFFFFFF, by decide⟩

theorem witness_AudioPllAndArrayTime_9 : ∃ (s : State),
    (s.on R.ARR_PTP_CFG F.ARR_PTP_CFG_EN = true) ∧ (s.fld R.ARR_PTP_CFG F.ARR_PTP_CFG_PRIO1 ≠ 255) :=
  ⟨up.setF R.ARR_PTP_CFG F.ARR_PTP_CFG_EN 1, by decide⟩

theorem witness_AudioPllAndArrayTime_10 : ∃ (p : Fin 2) (d : Nat) (s : State),
    (s.on R.ARR_PTP_CFG F.ARR_PTP_CFG_EN = true) ∧ (s.portUp p = true) ∧
        (s.on (R.NET_PORT_CFG p) F.NET_PORT_CFG_PTP_EN = true) ∧ (d ≤ 65535) :=
  ⟨1, 400, (((up.setF R.ARR_PTP_CFG F.ARR_PTP_CFG_EN 1).setF (R.NET_PORT_CFG 1) F.NET_PORT_CFG_EN 1).setF (R.NET_PORT_CFG 1) F.NET_PORT_CFG_PTP_EN 1).setF (R.NET_PORT_STS 1) F.NET_PORT_STS_LINK 1, by decide⟩

theorem witness_AudioPllAndArrayTime_11 : ∃ (s : State),
    ((List.range 16).all (fun i => let x := s.net.bridle.getD i ⟨0, 0, 0⟩; x.cur (s.carrierP i) s.clk.now3 == x.target) = true) :=
  ⟨up, by decide⟩

theorem witness_FrontEndEdgesAndGain_0 : ∃ (n : Fin 8) (s : State),
    (s.on (R.AFE_IN_STS n) F.AFE_IN_STS_STEPPING = true) ∧ (s.fld (R.AFE_IN_GAIN n) F.AFE_IN_GAIN_CUR < s.gainTarget
        n) :=
  ⟨1, (up.setF (R.AFE_IN_STS 1) F.AFE_IN_STS_STEPPING 1).setF (R.AFE_IN_GAIN 1) F.AFE_IN_GAIN_GAIN 5, by decide⟩

theorem witness_FrontEndEdgesAndGain_1 : ∃ (n : Fin 8) (s : State),
    (s.on (R.AFE_IN_STS n) F.AFE_IN_STS_STEPPING = true) ∧ ((s.chan n).gainBy ≤ s.clk.now3) :=
  ⟨1, (up.setF (R.AFE_IN_STS 1) F.AFE_IN_STS_STEPPING 1).setF (R.AFE_IN_GAIN 1) F.AFE_IN_GAIN_GAIN 5, by decide⟩

theorem witness_FrontEndEdgesAndGain_2 : ∃ (j : Fin 2) (s : State),
    (s.bit R.AFE_MICBIAS_CFG j = true) :=
  ⟨0, up.wr R.AFE_MICBIAS_CFG 1, by decide⟩

theorem witness_FrontEndEdgesAndGain_3 : ∃ (k : Fin 4) (s : State),
    (s.captured k = true) ∧ (s.wireStuck k = false) :=
  ⟨2, (up.setF R.AFE_PDM_CFG F.AFE_PDM_CFG_CLK1_EN 1).setBit R.AFE_PDM_CFG 2 true, by decide⟩

theorem witness_FrontEndEdgesAndGain_4 : ∃ (k : Fin 4) (s : State),
    (s.wireStuck k = true) :=
  ⟨2, up.modFe (fun y => { y with stuck := [true, true, true, true] }), by decide⟩

theorem witness_FrontEndEdgesAndGain_5 : ∃ (j : Fin 2) (ts : Nat) (s : State),
    (s.on (R.AFE_JD_CFG j) F.AFE_JD_CFG_EN = true) ∧ (s.bit R.AFE_JD_STS j = false) :=
  ⟨1, 500, up.setF (R.AFE_JD_CFG 1) F.AFE_JD_CFG_EN 1, by decide⟩

theorem witness_FrontEndEdgesAndGain_6 : ∃ (j : Fin 2) (ts : Nat) (s : State),
    (s.on (R.AFE_JD_CFG j) F.AFE_JD_CFG_EN = true) ∧ (s.bit R.AFE_JD_STS j = true) :=
  ⟨1, 500, (up.setF (R.AFE_JD_CFG 1) F.AFE_JD_CFG_EN 1).setBit R.AFE_JD_STS 1 true, by decide⟩

theorem witness_FrontEndEdgesAndGain_7 : ∃ (s : State),
    (s.on R.FLT_SYNC_CTL F.FLT_SYNC_CTL_BALL_EN = true) ∧ (s.stage.changes.any (isSyncFrom .ball) = false) :=
  ⟨up.setF R.FLT_SYNC_CTL F.FLT_SYNC_CTL_BALL_EN 1, by decide⟩

theorem witness_FrontEndEdgesAndGain_8 : ∃ (s : State), s.stage.changes.any (isSyncFrom .ball) = true :=
  ⟨up.stageAt ⟨none, 9, rankPart, none, .feSync none .ball⟩, by decide⟩

theorem witness_InputChannelEvents_0 : ∃ (c : Fin 16) (s : State),
    (s.chanOn c = true) ∧ ((s.chan c).released = false) ∧ ((s.chan c).enAt + (if c.val < 8 then 60 else 2) ≤
        s.clk.blk) :=
  ⟨8, (up.setF (R.FLT_CH_CFG 8) F.FLT_CH_CFG_EN 1).modClk (fun c => { c with blk := 2 }), by decide⟩

theorem witness_InputChannelEvents_1 : ∃ (c : Fin 16) (s : State),
    (s.refilling c = true) :=
  ⟨8, ((up.setF (R.FLT_CH_CFG 8) F.FLT_CH_CFG_EN 1).setF (R.FLT_SETTLE 8) F.FLT_SETTLE_UNSETTLED 1).modChan 8 (fun x => { x with released := true }), by decide⟩

theorem witness_InputChannelEvents_2 : ∃ (c : Fin 16) (s : State),
    (s.fading c = true) ∧ (s.fadeOver c ≤ s.clk.blk) :=
  ⟨3, up.setF (R.FLT_BANK_STS 3) F.FLT_BANK_STS_FADING 1, by decide⟩

theorem witness_InputChannelEvents_3 : ∃ (c : Fin 16) (s : State),
    (s.fading c = true) ∧ (s.fadeOver c ≤ s.clk.blk) ∧ ((s.chan c).queued = none) :=
  ⟨3, up.setF (R.FLT_BANK_STS 3) F.FLT_BANK_STS_FADING 1, by decide⟩

theorem witness_InputChannelEvents_4 : ∃ (c : Fin 16) (k : Nat) (smp : Fin 16) (s : State),
    ((s.chan c).lastOvr = none) :=
  ⟨3, 10, 2, up, by decide⟩

theorem witness_InputChannelEvents_5 : ∃ (c : Fin 16) (k b : Nat) (smp : Fin 16) (s : State),
    ((s.chan c).lastOvr = some b) ∧ (k < b + s.fld R.FLT_EVT_CFG F.FLT_EVT_CFG_OVR_HOLDOFF) :=
  ⟨3, 11, 10, 2, (up.wr R.FLT_EVT_CFG 6000).modChan 3 (fun x => { x with lastOvr := some 10 }), by decide⟩

theorem witness_InputChannelEvents_6 : ∃ (n : Fin 8) (s : State),
    (s.on R.AFE_OVL_CFG F.AFE_OVL_CFG_AUTO_RST = true) ∧ ((s.chan n).released = true) ∧
        (s.on (R.AFE_IN_STS n) F.AFE_IN_STS_OVL_NOW = false) :=
  ⟨3, (up.setF R.AFE_OVL_CFG F.AFE_OVL_CFG_AUTO_RST 1).modChan 3 (fun x => { x with released := true }), by decide⟩

theorem witness_InputChannelEvents_7 : ∃ (n : Fin 8) (s : State),
    (s.on (R.AFE_IN_STS n) F.AFE_IN_STS_OVL_NOW = true) :=
  ⟨3, up.setF (R.AFE_IN_STS 3) F.AFE_IN_STS_OVL_NOW 1, by decide⟩

theorem witness_InputChannelEvents_8 : ∃ (c : Fin 16) (m : Fin 2) (k : Nat) (smp : Fin 16) (s : State),
    (s.comparing c m = true) ∧ (s.bit (R.FLT_THR_STS c) m = false) ∧
        (s.on (R.FLT_THR_LVL c m) F.FLT_THR_LVL_EVT_UP = true) :=
  ⟨3, 1, 7, 2, (up.wr (R.FLT_SETTLE 3) 0).wr (R.FLT_THR_LVL 3 1) 0xFFFFFFFF, by decide⟩

theorem witness_InputChannelEvents_9 : ∃ (c : Fin 16) (m : Fin 2) (k : Nat) (smp : Fin 16) (s : State),
    (s.comparing c m = true) ∧ (s.bit (R.FLT_THR_STS c) m = true) ∧
        (s.on (R.FLT_THR_LVL c m) F.FLT_THR_LVL_EVT_DOWN = false) :=
  ⟨3, 1, 7, 2, ((up.wr (R.FLT_SETTLE 3) 0).wr (R.FLT_THR_LVL 3 1) 0x01000000).setBit (R.FLT_THR_STS 3) 1 true, by decide⟩

theorem witness_SerialPorts_0 : ∃ (d : Fin 8) (rate : Nat) (s : State),
    ((s.dir d).phase = .watching) :=
  ⟨2, 384000, up.modDir 2 (fun x => { x with phase := .watching }), by decide⟩

theorem witness_SerialPorts_1 : ∃ (d : Fin 8) (rate : Nat) (s : State),
    ((s.dir d).phase = .watching) ∧ (rate < 1048576) :=
  ⟨2, 384000, up.modDir 2 (fun x => { x with phase := .watching }), by decide⟩

theorem witness_SerialPorts_2 : ∃ (d : Fin 8) (i : Fin 16) (b : Nat) (s : State),
    ((s.dir d).slots.getD i .off = .starting b) :=
  ⟨2, 3, 77, up.modDir 2 (fun x => { x with slots := List.replicate 16 (.starting 77) }), by decide⟩

theorem witness_SerialPorts_3 : ∃ (d : Fin 8) (i : Fin 16) (b : Nat) (s : State),
    ((s.dir d).slots.getD i .off = .starting b) ∧ (s.clk.now3 < b) :=
  ⟨2, 3, 77, up.modDir 2 (fun x => { x with slots := List.replicate 16 (.starting 77) }), by decide⟩

theorem witness_SerialPorts_4 : ∃ (d : Fin 8) (s : State),
    ((s.dir d).phase = .stopping) :=
  ⟨2, up.modDir 2 (fun x => { x with phase := .stopping }), by decide⟩

theorem witness_SerialPorts_5 : ∃ (d : Fin 8) (s : State),
    ((s.dir d).phase = .running) ∧ (s.master d = false) ∧ (s.on (R.SAP_STS d) F.SAP_STS_CLK_OK = true) :=
  ⟨2, (up.setF (R.SAP_STS 2) F.SAP_STS_CLK_OK 1).modDir 2 (fun x => { x with phase := .running }), by decide⟩

theorem witness_SerialPorts_6 : ∃ (d : Fin 8) (rate : Nat) (s : State),
    ((s.dir d).phase = .running) ∧ (s.master d = false) ∧ (s.on (R.SAP_STS d) F.SAP_STS_CLK_OK = false) :=
  ⟨2, 384000, up.modDir 2 (fun x => { x with phase := .running }), by decide⟩

theorem witness_SerialPorts_7 : ∃ (d : Fin 8) (n frame : Nat) (s : State),
    (((s.dir d).crossing.take n).flatten.isEmpty = false) :=
  ⟨2, 1, 50, up.modDir 2 (fun x => { x with crossing := [[(3, 0)]] }), by decide⟩

theorem witness_SerialPorts_8 : ∃ (d : Fin 8) (s : State),
    (s.on (R.SAP_STS d) F.SAP_STS_RUNNING = true) :=
  ⟨2, up.setF (R.SAP_STS 2) F.SAP_STS_RUNNING 1, by decide⟩

theorem witness_SerialPorts_9 : ∃ (d : Fin 8) (s : State),
    ((s.dir d).use = .bypass) ∧ (s.synchronous d = false) :=
  ⟨2, up.modDir 2 (fun x => { x with use := .bypass }), by decide⟩

theorem witness_LanesRoutesAndSinks_0 : ∃ (l : Fin 128) (k : Nat) (smp : Fin 16) (s : State),
    (s.on (R.MP_LANE_STS l) F.MP_LANE_STS_SILENT = false) :=
  ⟨3, 9, 2, up.wr (R.MP_LANE_STS 3) 0, by decide⟩

theorem witness_LanesRoutesAndSinks_1 : ∃ (l : Fin 128) (k : Nat) (smp : Fin 16) (s : State),
    (s.on (R.MP_LANE_STS l) F.MP_LANE_STS_SILENT = true) :=
  ⟨3, 9, 2, up.setF (R.MP_LANE_STS 3) F.MP_LANE_STS_SILENT 1, by decide⟩

theorem witness_LanesRoutesAndSinks_2 : ∃ (l : Fin 128) (k : Nat) (smp : Fin 16) (s : State),
    (s.on (R.MP_LANE_STS l) F.MP_LANE_STS_SILENT = true) ∧ ((s.route (.lane l)).cur.en = true) :=
  ⟨3, 9, 2, (up.setF (R.MP_LANE_STS 3) F.MP_LANE_STS_SILENT 1).setRoute (.lane 3) { up.route (.lane 3) with cur := ⟨0x10, true, false⟩ }, by decide⟩

theorem witness_LanesRoutesAndSinks_3 : ∃ (l : Fin 128) (k : Nat) (smp : Fin 16) (s : State),
    (s.on (R.MP_LANE_DET l) F.MP_LANE_DET_PK_EN = true) ∧ (s.mp.peaks.any (fun p => p.1 == l.val && decide (16 * k +
        smp.val < p.2 + 96000)) = false) :=
  ⟨3, 9, 2, up.setF (R.MP_LANE_DET 3) F.MP_LANE_DET_PK_EN 1, by decide⟩

theorem witness_LanesRoutesAndSinks_4 : ∃ (l : Fin 128) (k : Nat) (smp : Fin 16) (s : State),
    (s.on (R.MP_LANE_DET l) F.MP_LANE_DET_PK_EN = true) ∧ (s.mp.peaks.any (fun p => p.1 == l.val && decide (16 * k +
        smp.val < p.2 + 96000)) = true) :=
  ⟨3, 9, 2, (up.setF (R.MP_LANE_DET 3) F.MP_LANE_DET_PK_EN 1).modMp (fun y => { y with peaks := [(3, 100)] }), by decide⟩

theorem witness_LanesRoutesAndSinks_5 : ∃ (l : Fin 128) (s : State),
    ((s.route (.lane l)).split ≠ .fill) :=
  ⟨3, up, by decide⟩

theorem witness_LanesRoutesAndSinks_6 : ∃ (b : Fin 16) (i : Fin 32) (s : State),
    ((s.route (.input b i)).split ≠ .fill) :=
  ⟨3, 2, up, by decide⟩

theorem witness_LanesRoutesAndSinks_7 : ∃ (id : SinkId) (s : State),
    ((s.route (.sink id)).split ≠ .fill) :=
  ⟨3, up, by decide⟩

theorem witness_LanesRoutesAndSinks_8 : ∃ (l : Fin 128) (s : State),
    ((s.route (.lane l)).split = .fadeIn) ∧ ((s.route (.lane l)).queued = none) ∧
        ((s.route (.lane l)).cur.en = true) ∧ ((s.route (.lane l)).fadeAt + (s.route (.lane l)).fadeLen / 16 ≤
        s.clk.blk) :=
  ⟨3, up.setRoute (.lane 3) { up.route (.lane 3) with split := .fadeIn, cur := ⟨0x10, true, false⟩ }, by decide⟩

theorem witness_LanesRoutesAndSinks_9 : ∃ (l : Fin 128) (s : State),
    ((s.route (.lane l)).split = .fill) :=
  ⟨3, up.setRoute (.lane 3) { up.route (.lane 3) with split := .fill }, by decide⟩

theorem witness_LanesRoutesAndSinks_10 : ∃ (id : SinkId) (k a b : Nat) (smp : Fin 16) (s : State),
    ((s.sink id.val).phase = .starting a b) ∧ (a ≤ 16 * k + smp.val) ∧ (16 * k + smp.val < b) :=
  ⟨3, 4, 60, 90, 5, up.setSink 3 { up.sink 3 with phase := .starting 60 90 }, by decide⟩

theorem witness_LanesRoutesAndSinks_11 : ∃ (id : SinkId) (a b : Nat) (s : State),
    ((s.sink id.val).phase = .starting a b) ∧ (b ≤ s.sinkNow) :=
  ⟨3, 0, 0, up.setSink 3 { up.sink 3 with phase := .starting 0 0 }, by decide⟩

theorem witness_LanesRoutesAndSinks_12 : ∃ (id : SinkId) (k a b : Nat) (smp : Fin 16) (s : State),
    ((s.sink id.val).phase = .stopping a b) ∧ (a ≤ 16 * k + smp.val) ∧ (16 * k + smp.val < b) :=
  ⟨3, 4, 60, 90, 5, up.setSink 3 { up.sink 3 with phase := .stopping 60 90 }, by decide⟩

theorem witness_LanesRoutesAndSinks_13 : ∃ (id : SinkId) (a b : Nat) (s : State),
    ((s.sink id.val).phase = .stopping a b) ∧ (b ≤ s.sinkNow) :=
  ⟨3, 0, 0, up.setSink 3 { up.sink 3 with phase := .stopping 0 0 }, by decide⟩

theorem witness_LanesRoutesAndSinks_14 : ∃ (id : SinkId) (e : Nat) (s : State),
    ((s.sink id.val).phase = .stopFade e false) ∧ (e ≤ s.sinkNow) :=
  ⟨3, 0, up.setSink 3 { up.sink 3 with phase := .stopFade 0 false }, by decide⟩

theorem witness_SenseEvents_0 : ∃ (i : Fin 4) (s : State),
    (s.on (R.SNS_TMR i) F.SNS_TMR_EN = true) :=
  ⟨2, up.setF (R.SNS_TMR 2) F.SNS_TMR_EN 1, by decide⟩

theorem witness_SenseEvents_1 : ∃ (m : Fin 8) (centre : Bool) (s : State),
    (s.carrierRuns m = true) :=
  ⟨2, true, up.setF (R.PWR_STS 2) F.PWR_STS_STATE 4, by decide⟩

theorem witness_SenseEvents_3 : ∃ (c : Fin 2) (raw : Int) (v : Conv) (e : Nat) (cfg : Word) (re : Bool) (s : State),
    ((s.snsX c).conv = some v) ∧ (v.win3 + v.n * 15625 / 16 < s.clk.now3 + 31250) ∧ (v.what = .entry e cfg re) :=
  ⟨1, 5, ⟨.entry 0 0 false, 0, 16, false, 0⟩, 0, 0, false, up.modSns 1 (fun x => { x with conv := some ⟨.entry 0 0 false, 0, 16, false, 0⟩ }), by decide⟩

theorem witness_SenseEvents_4 : ∃ (s : State),
    (s.on R.SNS_REF F.SNS_REF_BUFEN = true) ∧ (s.sns.refAt + 12 ≤ s.clk.blk) :=
  ⟨(up.setF R.SNS_REF F.SNS_REF_BUFEN 1).modClk (fun c => { c with blk := 12 }), by decide⟩

theorem witness_OutputChannelSequence_0 : ∃ (m : Fin 8) (r : Nat) (s : State),
    (s.chState m = stDiag) ∧ ((s.outX m).since + 120 ≤ s.clk.blk) ∧ (s.loadClass m r = 2) ∧
        ((s.outX m).test = .start) :=
  ⟨2, 800, ((up.modOut 2 (fun x => { x with test := .start })).setCh 2 stDiag).modClk (fun c => { c with blk := 120 }), by decide⟩

theorem witness_OutputChannelSequence_1 : ∃ (m : Fin 8) (s : State),
    (s.chState m = stSoftstart) ∧ ((s.outX m).since + 240 ≤ s.clk.blk) :=
  ⟨2, (up.setCh 2 stSoftstart).modClk (fun c => { c with blk := 240 }), by decide⟩

theorem witness_OutputChannelSequence_2 : ∃ (c : Fin 16) (b : Nat) (s : State),
    (s.chState c = stStopping) ∧ ((s.outX c).stop = .search b) ∧ (c.val < 8) :=
  ⟨2, 9, (up.setCh 2 stStopping).modOut 2 (fun x => { x with stop := .search 9 }), by decide⟩

theorem witness_OutputChannelSequence_3 : ∃ (c : Fin 16) (b : Nat) (s : State),
    (s.chState c = stStopping) ∧ ((s.outX c).stop = .search b) ∧ (8 ≤ c.val) :=
  ⟨9, 9, (up.setCh 9 stStopping).modOut 9 (fun x => { x with stop := .search 9 }), by decide⟩

theorem witness_OutputChannelSequence_4 : ∃ (m : Fin 8) (s : State),
    (s.chState m = stStopping) ∧ ((s.outX m).stop = .nodes) ∧ ((s.outX m).since + 240 ≤ s.clk.blk) :=
  ⟨2, ((up.setCh 2 stStopping).modOut 2 (fun x => { x with stop := .nodes })).modClk (fun c => { c with blk := 240 }), by decide⟩

theorem witness_OutputChannelSequence_5 : ∃ (c : Fin 16) (s : State),
    (s.chState c = stRetryWait) ∧ ((s.outX c).retryAt ≤ s.clk.blk) ∧ (s.power.mode = .run) ∧ (c.val < 8) :=
  ⟨2, up.setCh 2 stRetryWait, by decide⟩

theorem witness_OutputChannelSequence_6 : ∃ (c : Fin 16) (s : State),
    (s.chState c = stReady) ∧ ((s.outX c).readyAt + tenSeconds3 ≤ s.clk.now3) ∧ ((s.outX c).ramp = .none) ∧
        ((s.outX c).rampEnd + tenSeconds3 ≤ s.clk.now3) :=
  ⟨2, (up.setCh 2 stReady).modClk (fun c => { c with now3 := 30000000000 }), by decide⟩

theorem witness_OutputChannelSequence_7 : ∃ (c : Fin 16) (b : Nat) (s : State),
    ((s.outX c).ramp = .hold b) :=
  ⟨2, 9, up.modOut 2 (fun x => { x with ramp := .hold 9 }), by decide⟩

theorem witness_OutputChannelSequence_8 : ∃ (c : Fin 16) (b : Nat) (s : State),
    ((s.outX c).ramp = .hold b) ∧ (b ≤ s.clk.now3) :=
  ⟨2, 0, up.modOut 2 (fun x => { x with ramp := .hold 0 }), by decide⟩

theorem witness_OutputChannelSequence_9 : ∃ (c : Fin 16) (k : Nat) (s : State),
    ((s.outX c).ramp = .rising k) ∧ (k + 64 ≤ s.clk.blk) :=
  ⟨2, 0, (up.modOut 2 (fun x => { x with ramp := .rising 0 })).modClk (fun c => { c with blk := 64 }), by decide⟩

theorem witness_OutputTrips_0 : ∃ (m : Fin 8) (s : State),
    ((s.outX m).ilimBlk ≠ some s.clk.blk) :=
  ⟨2, up, by decide⟩

theorem witness_OutputTrips_1 : ∃ (m : Fin 8) (s : State),
    ((s.outX m).ilimBlk = some s.clk.blk) :=
  ⟨2, up.modOut 2 (fun x => { x with ilimBlk := some 0 }), by decide⟩

theorem witness_OutputTrips_4 : ∃ (m : Fin 8) (s : State),
    (s.fld (R.PWR_CFG (s.owner m)) F.PWR_CFG_DC_THR ≠ 0) ∧ (s.chState (s.owner m) = stReady) :=
  ⟨2, (up.setF (R.PWR_CFG 2) F.PWR_CFG_DC_THR 1).setCh 2 stReady, by decide⟩

theorem witness_OutputTrips_5 : ∃ (e : Fin 8) (s : State),
    (armedForTrip (s.chState (8 + e)) = true) :=
  ⟨2, up.setCh 10 stReady, by decide⟩

theorem witness_OutputTrips_6 : ∃ (e : Fin 8) (s : State),
    (s.chState (8 + e) = stSoftstart) ∧ ((s.outX (8 + e)).since + 60 ≤ s.clk.blk) :=
  ⟨2, (up.setCh 10 stSoftstart).modClk (fun c => { c with blk := 60 }), by decide⟩

theorem witness_DieProtection_0 : ∃ (d : Fin 2) (s : State),
    (s.on (R.PWR_DIE_STS d) F.PWR_DIE_STS_WARN = false) :=
  ⟨1, up, by decide⟩

theorem witness_DieProtection_1 : ∃ (d : Fin 2) (s : State),
    (s.on (R.PWR_DIE_STS d) F.PWR_DIE_STS_FOLDBACK = false) :=
  ⟨1, up, by decide⟩

theorem witness_DieProtection_2 : ∃ (d : Fin 2) (s : State),
    (s.on (R.PWR_DIE_STS d) F.PWR_DIE_STS_SHUTDOWN = false) :=
  ⟨1, up, by decide⟩

theorem witness_DieProtection_3 : ∃ (d : Fin 2) (s : State),
    (s.on (R.PWR_DIE_STS d) F.PWR_DIE_STS_SHUTDOWN = true) ∧ (s.on R.PWR_THERM_CFG F.PWR_THERM_CFG_AUTO = true) :=
  ⟨1, (up.setF (R.PWR_DIE_STS 1) F.PWR_DIE_STS_SHUTDOWN 1).setF R.PWR_THERM_CFG F.PWR_THERM_CFG_AUTO 1, by decide⟩

theorem witness_DieProtection_4 : ∃ (d : Fin 2) (temp : Int) (s : State),
    (temp < 1200) :=
  ⟨1, -5, up, by decide⟩

theorem witness_DieProtection_7 : ∃ (rail : Fin 2) (s : State),
    (s.railBad rail = true) :=
  ⟨1, up.setBit R.PWR_PVDD_STS 2 true, by decide⟩

theorem witness_LineAndHeadphoneEvents_0 : ∃ (m : Fin 8) (trim : BitVec 16) (id : DescId) (k : Nat) (s : State),
    ((s.outX m).cal = some (id, k)) ∧ (k + 32 ≤ s.clk.blk) ∧ (s.chState m = stCal) :=
  ⟨2, 3, DescId.mk .cmd 1, 0, ((up.setCh 2 stCal).modOut 2 (fun x => { x with cal := some (DescId.mk .cmd 1, 0) })).modClk (fun c => { c with blk := 32 }), by decide⟩

theorem witness_LineAndHeadphoneEvents_1 : ∃ (j : Fin 5) (s : State),
    (s.loPhase j = .off) ∧ (s.on (loReg j) F.AFE_LO_CFG_EN = true) :=
  ⟨1, up.setF (loReg 1) F.AFE_LO_CFG_EN 1, by decide⟩

theorem witness_LineAndHeadphoneEvents_2 : ∃ (j : Fin 5) (s : State),
    (s.loPhase j = .ready) ∧ (s.on (loReg j) F.AFE_LO_CFG_EN = false) :=
  ⟨1, up.setLo 1 .ready, by decide⟩

theorem witness_LineAndHeadphoneEvents_3 : ∃ (j : Fin 5) (k : Nat) (s : State),
    (s.loPhase j = .up k) ∧ (k + 300 ≤ s.clk.blk) :=
  ⟨1, 0, (up.setLo 1 (.up 0)).modClk (fun c => { c with blk := 300 }), by decide⟩

theorem witness_LineAndHeadphoneEvents_6 : ∃ (s : State),
    (s.on R.AFE_HP_JD_CFG F.AFE_HP_JD_CFG_EN = true) ∧ (s.on R.AFE_HP_STS F.AFE_HP_STS_STATE = false) ∧
        (s.on R.AFE_HP_JD_CFG F.AFE_HP_JD_CFG_PROBE_EN = true) :=
  ⟨(up.setF R.AFE_HP_JD_CFG F.AFE_HP_JD_CFG_EN 1).setF R.AFE_HP_JD_CFG F.AFE_HP_JD_CFG_PROBE_EN 1, by decide⟩

theorem witness_LineAndHeadphoneEvents_7 : ∃ (zl zr : Nat) (s : State),
    (s.on R.AFE_HP_STS F.AFE_HP_STS_PROBING = true) :=
  ⟨32, 32, up.setF R.AFE_HP_STS F.AFE_HP_STS_PROBING 1, by decide⟩

theorem witness_LineAndHeadphoneEvents_8 : ∃ (ts : Nat) (s : State),
    (s.on R.AFE_HP_JD_CFG F.AFE_HP_JD_CFG_EN = true) ∧ (s.on R.AFE_HP_STS F.AFE_HP_STS_STATE = true) ∧
        (s.on R.AFE_HP_JD_CFG F.AFE_HP_JD_CFG_AUTO_EN = false) :=
  ⟨7, (up.wr R.AFE_HP_JD_CFG 0).setF R.AFE_HP_JD_CFG F.AFE_HP_JD_CFG_EN 1 |>.setF R.AFE_HP_STS F.AFE_HP_STS_STATE 1, by decide⟩

theorem witness_TetherVotesInputsAndServo_3 : ∃ (o : Fin 24) (w0 w1 w2 : BitVec 24) (s : State),
    (s.tth.test = none) :=
  ⟨2, 0, 0, 1, up, by decide⟩

theorem witness_TetherVotesInputsAndServo_4 : ∃ (o : Fin 24) (w0 w1 w2 : BitVec 24) (x : DescId × Nat) (s : State),
    (s.tth.test = some x) :=
  ⟨2, 0, 0, 1, (DescId.mk .cmd 1, 0), up.modTth (fun y => { y with test := some (DescId.mk .cmd 1, 0) }), by decide⟩

theorem witness_TetherVotesInputsAndServo_5 : ∃ (o : Fin 24) (w0 w1 w2 : BitVec 24) (s : State),
    (s.tth.test = none) :=
  ⟨2, 0, 0, 1, up, by decide⟩

theorem witness_TetherVotesInputsAndServo_6 : ∃ (code mask : Nat) (rest : List (Nat × Nat)) (s : State),
    (s.tth.requests = (code, mask) :: rest) ∧ (s.linkUp = true) :=
  ⟨2, 1, [], up.modTth (fun y => { y with requests := [(2, 1)] }), by decide⟩

theorem witness_TetherVotesInputsAndServo_7 : ∃ (s : State),
    (s.on R.TTH_PSAP_CFG F.TTH_PSAP_CFG_EN = true) ∧ (s.on (R.SAP_STS 6) F.SAP_STS_CLK_OK = true) :=
  ⟨(up.setF R.TTH_PSAP_CFG F.TTH_PSAP_CFG_EN 1).setF (R.SAP_STS 6) F.SAP_STS_CLK_OK 1, by decide⟩

theorem witness_TetherVotesInputsAndServo_8 : ∃ (m : Fin 8) (s : State),
    (s.on (R.TTH_SRV_STS m) F.TTH_SRV_STS_CLOSED = true) :=
  ⟨2, up.setF (R.TTH_SRV_STS 2) F.TTH_SRV_STS_CLOSED 1, by decide⟩

theorem witness_TetherVotesInputsAndServo_9 : ∃ (failed : BitVec 24) (id : DescId) (k : Nat) (s : State),
    (s.tth.test = some (id, k)) ∧ (k + 48 ≤ s.clk.blk) :=
  ⟨0, DescId.mk .cmd 1, 0, (up.modTth (fun y => { y with test := some (DescId.mk .cmd 1, 0) })).modClk (fun c => { c with blk := 48 }), by decide⟩

theorem witness_TetherVotesInputsAndServo_10 : ∃ (s : State),
    (s.on R.TTH_PRIO_BALL F.TTH_PRIO_BALL_EN = true) :=
  ⟨up.setF R.TTH_PRIO_BALL F.TTH_PRIO_BALL_EN 1, by decide⟩

theorem witness_MessagePlayer_0 : ∃ (s : State),
    s.playState = 1 ∧ s.tth.player.done < s.tth.player.samples ∧
      crc32 (s.partBytes (s.tth.player.offset + 256 * (s.tth.player.done / 504)) 252) ≠
        BitVec.ofNat 32 (s.partNat (s.tth.player.offset + 256 * (s.tth.player.done / 504) + 252) 4) :=
  ⟨playing, by decide, by decide, by
    rw [frame_of_playing, crc_of_erased_frame]; decide⟩

theorem witness_MessagePlayer_1 : ∃ (s : State),
    s.playState = 1 ∧ s.tth.player.done < s.tth.player.samples ∧
      crc32 (s.partBytes (s.tth.player.offset + 256 * (s.tth.player.done / 504)) 252) =
        BitVec.ofNat 32 (s.partNat (s.tth.player.offset + 256 * (s.tth.player.done / 504) + 252) 4) :=
  ⟨playingGood, by decide, by decide, by
    rw [frame_of_playingGood, crc_of_erased_frame]; decide⟩

theorem witness_MessagePlayer_2 : ∃ (s : State),
    (s.playState = 1) ∧ (s.tth.player.samples ≤ s.tth.player.done) ∧ (s.tth.player.left ≠ some 1) :=
  ⟨up.setF R.TTH_PLAY_STS F.TTH_PLAY_STS_STATE 1, by decide⟩

theorem witness_MessagePlayer_3 : ∃ (s : State),
    (s.playState = 1) ∧ (s.tth.player.samples ≤ s.tth.player.done) ∧ (s.tth.player.left = some 1) :=
  ⟨(up.setF R.TTH_PLAY_STS F.TTH_PLAY_STS_STATE 1).modPlayer (fun x => { x with left := some 1 }), by decide⟩

theorem witness_MessagePlayer_4 : ∃ (q : PlayReq) (s : State),
    (s.playState = 2) ∧ (s.tth.player.since + 1500000000 ≤ s.clk.now3) ∧ (s.tth.player.now = some q) :=
  ⟨⟨5, 0⟩, ((up.setF R.TTH_PLAY_STS F.TTH_PLAY_STS_STATE 2).modClk (fun c => { c with now3 := 1500000000 })).modPlayer (fun x => { x with now := some ⟨5, 0⟩ }), by decide⟩

theorem witness_MessagePlayer_5 : ∃ (s : State),
    (s.playState = 2) ∧ (s.tth.player.since + 1500000000 ≤ s.clk.now3) ∧ (s.tth.player.now = none) :=
  ⟨(up.setF R.TTH_PLAY_STS F.TTH_PLAY_STS_STATE 2).modClk (fun c => { c with now3 := 1500000000 }), by decide⟩

theorem witness_MessagePlayer_6 : ∃ (s : State),
    (s.playState = 3) ∧ (s.tth.player.since + 15000000 ≤ s.clk.now3) :=
  ⟨(up.setF R.TTH_PLAY_STS F.TTH_PLAY_STS_STATE 3).modClk (fun c => { c with now3 := 15000000 }), by decide⟩

theorem witness_QuietMode_0 : ∃ (s : State),
    (s.on R.MP_QUIET_CFG F.MP_QUIET_CFG_EN = true) ∧ (s.power.mode = .run) ∧ (s.power.trans = none) ∧
        (s.allSilent = true) ∧ (s.tthIdle16 = true) :=
  ⟨(up.setF R.MP_QUIET_CFG F.MP_QUIET_CFG_EN 1).modPower (fun p => { p with mode := .run }), by decide⟩

theorem witness_QuietMode_2 : ∃ (k : Nat) (s : State),
    (s.mp.quietAt = some k) ∧ (s.power.trans = some .quiet) ∧ (k + 4 ≤ s.clk.blk) :=
  ⟨0, ((up.modMp (fun y => { y with quietAt := some 0 })).modPower (fun p => { p with trans := some .quiet })).modClk (fun c => { c with blk := 4 }), by decide⟩

theorem witness_QuietMode_4 : ∃ (k : Nat) (s : State),
    (s.mp.quietAt = some k) ∧ (s.power.mode = .quiet) ∧ (s.power.trans = some .run) ∧ (k + 12 ≤ s.clk.blk) :=
  ⟨0, ((up.modMp (fun y => { y with quietAt := some 0 })).modPower (fun p => { p with mode := .quiet, trans := some .run })).modClk (fun c => { c with blk := 12 }), by decide⟩

theorem witness_ListenerEvents_0 : ∃ (err : BitVec 20) (s : State),
    (s.power.mode = .run) :=
  ⟨7, up, by decide⟩

theorem witness_ListenerEvents_1 : ∃ (f : FrameMeas) (s : State),
    (s.on R.AFE_LSN_STS F.AFE_LSN_STS_RUNNING = false) :=
  ⟨default, up, by decide⟩

theorem witness_ListenerEvents_2 : ∃ (f : FrameMeas) (s : State),
    (s.on R.AFE_LSN_STS F.AFE_LSN_STS_RUNNING = true) :=
  ⟨default, up.setF R.AFE_LSN_STS F.AFE_LSN_STS_RUNNING 1, by decide⟩

theorem witness_ListenerEvents_3 : ∃ (xs : List (BitVec 16)) (s : State),
    (s.on R.AFE_LSN_STS F.AFE_LSN_STS_RUNNING = true) ∧ (s.lsn.pcm = []) :=
  ⟨[], up.setF R.AFE_LSN_STS F.AFE_LSN_STS_RUNNING 1, by decide⟩

theorem witness_HostSideEvents_0 : ∃ (k : Fin 32) (s : State),
    (s.leaseOver k = true) :=
  ⟨3, (up.modLock 3 (fun x => { x with expires := some 0 })).wr (R.LCK_STS 3) 0x80000001, by decide⟩

theorem witness_HostSideEvents_1 : ∃ (r : Fin 16) (o : Origin) (s : State),
    (s.ringState r = ringDraining) ∧ (ringOrigin r = some o) ∧ (s.drained r o = true) :=
  ⟨0, .cmd, up.setF (R.HIF_RING_STS 0) F.HIF_RING_STS_STATE 2, by decide⟩

theorem witness_HostSideEvents_2 : ∃ (r : Fin 16) (s : State),
    (s.ringState r = ringDraining) ∧ (ringOrigin r = none) ∧ ((s.ringX r).entries.isEmpty = true) ∧
        ((s.ringX r).ready.isEmpty = true) :=
  ⟨6, up.setF (R.HIF_RING_STS 6) F.HIF_RING_STS_STATE 2, by decide⟩

theorem witness_HostSideEvents_3 : ∃ (s : State),
    (s.power.hubUp = true) :=
  ⟨up, by decide⟩

theorem witness_HostSideEvents_4 : ∃ (s : State),
    (s.on R.HIF_PCIE_STS F.HIF_PCIE_STS_LINK = true) :=
  ⟨up.setF R.HIF_PCIE_STS F.HIF_PCIE_STS_LINK 1, by decide⟩

theorem witness_HostSideEvents_5 : ∃ (bme msix fmask : Bool) (vmask : BitVec 16) (s : State),
    (s.isSealed = true) ∧ (s.host.msixPend = 0) :=
  ⟨true, true, false, 0, up.setF R.CLK_BOOTSEAL F.CLK_BOOTSEAL_SEAL 1, by decide⟩

theorem witness_HostSideEvents_6 : ∃ (k : Fin 16) (s : State),
    (s.vecDue k = true) :=
  ⟨2, (up.setF (R.HIF_VEC_STS 2) F.HIF_VEC_STS_ARMED 1).modHost (fun y => { y with vecs := List.replicate 16 ⟨some 0⟩ }) |>.modClk (fun c => { c with now3 := 30000000000 }), by decide⟩

theorem witness_HostSideEvents_10 : ∃ (s : State),
    ((s.incSat R.HIF_PCIE_ERR F.HIF_PCIE_ERR_DMA).ringState 0 = ringRunning) :=
  ⟨up.setF (R.HIF_RING_STS 0) F.HIF_RING_STS_STATE 1, by decide⟩

theorem witness_FlashJournalAndCalendar_0 : ∃ (o : FlashOp) (rest : List FlashOp) (s : State),
    (s.flash.ops = o :: rest) ∧ (s.flash.compacting = none) :=
  ⟨⟨none, .message 0 0 0 [], 0⟩, [], up.modFlash (fun f => { f with ops := [⟨none, .message 0 0 0 [], 0⟩] }), by decide⟩

theorem witness_FlashJournalAndCalendar_1 : ∃ (o : FlashOp) (rest : List FlashOp) (j : Fin 2) (s : State),
    (s.flash.ops = o :: rest) ∧ (o.job.isJournal = false) :=
  ⟨⟨none, .message 0 0 0 [], 0⟩, [], 0, up.modFlash (fun f => { f with ops := [⟨none, .message 0 0 0 [], 0⟩] }), by decide⟩

theorem witness_FlashJournalAndCalendar_2 : ∃ (o : FlashOp) (rest : List FlashOp) (s : State),
    (s.flash.ops = o :: rest) ∧ (s.flash.compacting = none) ∧ (o.began + flashLimit ≤ s.clk.blk) :=
  ⟨⟨none, .message 0 0 0 [], 0⟩, [], (up.modFlash (fun f => { f with ops := [⟨none, .message 0 0 0 [], 0⟩] })).modClk (fun c => { c with blk := flashLimit + 1 }), by decide⟩

theorem witness_FlashJournalAndCalendar_3 : ∃ (j : Fin 2) (s : State),
    (s.compactDue j = true) ∧ (s.regionOk j = true) ∧ (s.flash.compacting = none) ∧ (s.power.hubUp = true) ∧
        (s.flash.ops = []) :=
  ⟨1, up.modFlash (fun f => { f with wantCompact := [1] }), by decide⟩

theorem witness_FlashJournalAndCalendar_4 : ∃ (j : Fin 2) (s : State),
    (s.flash.compacting = some j.val) :=
  ⟨1, up.modFlash (fun f => { f with compacting := some 1 }), by decide⟩

theorem witness_FlashJournalAndCalendar_5 : ∃ (s : State),
    (s.metroFitted = true) ∧ (s.metro.going = true) ∧ (s.metro.on_ = false) :=
  ⟨upM.modMetro (fun m => { m with on_ := false, going := true }), by decide⟩

theorem witness_FlashJournalAndCalendar_6 : ∃ (s : State),
    (s.metroFitted = true) ∧ (s.metro.going = true) ∧ (s.metro.on_ = true) ∧ (s.power.hubUp = false) :=
  ⟨(upM.modMetro (fun m => { m with on_ := true, going := true })).modPower (fun p => { p with hubUp := false }), by decide⟩

theorem witness_FlashJournalAndCalendar_7 : ∃ (temp : Int) (s : State),
    (s.mOn = true) ∧ (s.metro.going = true) ∧ (s.metro.trimAt + trimTicks ≤ s.metro.ticks) :=
  ⟨25, (upM.modMetro (fun m => { m with on_ := true, run := none, sealed := false })).modMetro (fun m => { m with going := true, ticks := 65536 }), by decide⟩

theorem witness_FlashJournalAndCalendar_8 : ∃ (s : State),
    (s.metroFitted = true) ∧ (s.metro.going = true) ∧ (s.metro.on_ = false) :=
  ⟨upM.modMetro (fun m => { m with on_ := false, going := true }), by decide⟩

theorem witness_FlashJournalAndCalendar_9 : ∃ (s : State),
    (s.mOn = true) ∧ (s.power.hubUp = true) ∧ (s.mStale = false) :=
  ⟨upM.modMetro (fun m => { m with on_ := true, run := none, sealed := false }), by decide⟩

theorem witness_EngineRendering_0 : ∃ (n : Fin 8) (s : State),
    (s.renders n = true) ∧ ((s.engX n).busy = none) ∧ (s.rendersAhead n = false) ∧ (s.clk.blk = s.nextData n + 1) :=
  ⟨2, ((up.setF (R.ENG_STS 2) F.ENG_STS_MODE_ACT 1).modEng 2 (fun x => { x with next := 5, busy := none })).modClk (fun c => { c with blk := 6 }), by decide⟩

theorem witness_EngineRendering_1 : ∃ (n : Fin 8) (s : State),
    (s.renders n = true) ∧ ((s.engX n).busy = none) ∧ (s.rendersAhead n = true) ∧
        (s.nextData n + 2 ≤ s.clk.blk + (s.engX n).lead) ∧ (s.nextData n + 2 ≤ s.clk.blk + (s.engX n).margin) :=
  ⟨2, (((up.setF (R.ENG_STS 2) F.ENG_STS_MODE_ACT 1).setF (R.ENG_CTL 2) F.ENG_CTL_RUNAHEAD 1).modEng 2 (fun x => { x with next := 5, busy := none, lead := 9, margin := 9 })).modClk (fun c => { c with blk := 6 }), by decide⟩

theorem witness_EngineRendering_2 : ∃ (n : Fin 8) (words : Nat) (fx : List RecFx) (r : Rendered) (s : State),
    ((s.engX n).busy = some r) ∧ (r.parison = true) :=
  ⟨2, 7, [], ⟨5, true, 0, [], [], [], []⟩, up.modEng 2 (fun x => { x with busy := some ⟨5, true, 0, [], [], [], []⟩ }), by decide⟩

theorem witness_EngineRendering_3 : ∃ (n : Fin 8) (words : Nat) (fx : List RecFx) (r : Rendered) (s : State),
    ((s.engX n).busy = some r) ∧ (r.parison = false) ∧ (s.rendersAhead n = false) :=
  ⟨2, 7, [], ⟨5, false, 0, [], [], [], []⟩, up.modEng 2 (fun x => { x with busy := some ⟨5, false, 0, [], [], [], []⟩ }), by decide⟩

theorem witness_EngineRendering_5 : ∃ (g : Fin 16) (j : Nat) (s : State),
    (s.holdGroup g = true) ∧ (s.bit R.ARR_AG_SUM (16 + g) = false) ∧
        ((s.members g).any (fun l => decide (max 1 (s.fld (R.ARR_AG_CFG g) F.ARR_AG_CFG_N) < s.eng.runs.getD l 0))
        = true) :=
  ⟨2, 7, (((((up.setF (R.ARR_AG_CFG 2) F.ARR_AG_CFG_EN 1).setF (R.ARR_AG_CFG 2) F.ARR_AG_CFG_HOLD_TOGETHER 1).setF (R.ARR_AG_CFG 2) F.ARR_AG_CFG_N 1).setF (R.ARR_LANE_AG 0) F.ARR_LANE_AG_EN 1).setF (R.ARR_LANE_AG 0) F.ARR_LANE_AG_SLOT 2).modEngines (fun y => { y with runs := [5] }), by decide⟩

theorem witness_EngineRendering_6 : ∃ (g : Fin 16) (j : Nat) (s : State),
    (s.bit R.ARR_AG_SUM (16 + g) = true) ∧ ((s.members g).all (fun l => decide (12 ≤ s.eng.clean.getD l 0)) = true) :=
  ⟨2, 7, up.setBit R.ARR_AG_SUM 18 true, by decide⟩

theorem witness_NetworkPortEvents_0 : ∃ (p : Fin 2) (s : State),
    (s.on (R.NET_PORT_CFG p) F.NET_PORT_CFG_EN = true) ∧ (s.on (R.NET_PORT_STS p) F.NET_PORT_STS_LINK = false) :=
  ⟨1, (up.setF (R.NET_PORT_CFG 1) F.NET_PORT_CFG_EN 1), by decide⟩

theorem witness_NetworkPortEvents_2 : ∃ (data : BitVec 16) (s : State),
    (s.on R.NET_MDIO_CTL F.NET_MDIO_CTL_BUSY = true) ∧ (s.on R.NET_MDIO_CTL F.NET_MDIO_CTL_READ = true) :=
  ⟨7, (up.setF R.NET_MDIO_CTL F.NET_MDIO_CTL_BUSY 1).setF R.NET_MDIO_CTL F.NET_MDIO_CTL_READ 1, by decide⟩

theorem witness_NetworkPortEvents_3 : ∃ (p : Fin 3) (f : EthFrame) (s : State),
    (s.portUp p = false) :=
  ⟨1, default, up, by decide⟩

theorem witness_NetworkPortEvents_4 : ∃ (p : Fin 3) (f : EthFrame) (s : State),
    (s.portUp p = true) ∧ (f.good = false) :=
  ⟨1, { (default : EthFrame) with good := false }, (up.setF (R.NET_PORT_CFG 1) F.NET_PORT_CFG_EN 1).setF (R.NET_PORT_STS 1) F.NET_PORT_STS_LINK 1, by decide⟩

theorem witness_NetworkPortEvents_5 : ∃ (p : Fin 3) (f : EthFrame) (qs : List Nat) (s : State),
    (s.portUp p = true) ∧ (f.good = true) ∧ (f.etype ≠ 0x88F7) ∧ (f.zv = none) ∧
        ((((s.portCnt p 0).learn p f.src).useLearned f.dst).route6 p f = some qs) :=
  ⟨1, { (default : EthFrame) with good := true, dst := 0xFFFFFFFFFFFF }, [0, 2], (up.setF (R.NET_PORT_CFG 1) F.NET_PORT_CFG_EN 1).setF (R.NET_PORT_STS 1) F.NET_PORT_STS_LINK 1, by decide⟩

theorem witness_NetworkStreams_0 : ∃ (st : Fin 16) (f : AafFrame) (s : State),
    (s.on (R.NET_LS_CFG st) F.NET_LS_CFG_EN = true) ∧ ((s.incWrap (R.NET_LS_FRAMES st) F.NET_LS_FRAMES_COUNT).aafOk
        st f = true) :=
  ⟨2, ⟨.int24, 96, 8, 6, true, 0, 0, []⟩, up.setF (R.NET_LS_CFG 2) F.NET_LS_CFG_EN 1, by decide⟩

theorem witness_NetworkStreams_1 : ∃ (st : Fin 16) (f : AafFrame) (s : State),
    (s.on (R.NET_LS_CFG st) F.NET_LS_CFG_EN = true) ∧ ((s.incWrap (R.NET_LS_FRAMES st) F.NET_LS_FRAMES_COUNT).aafOk
        st f = false) :=
  ⟨2, ⟨.other, 96, 1, 6, true, 0, 0, []⟩, up.wr (R.NET_LS_CFG 2) 0xFFFFFFFF, by decide⟩

theorem witness_NetworkStreams_2 : ∃ (st : Fin 16) (s : State),
    (s.on (R.NET_LS_CFG st) F.NET_LS_CFG_EN = true) ∧ ((s.lsX st).lost = false) ∧
        ((s.lsX st).heard + 12 ≤ s.clk.blk) :=
  ⟨2, (up.wr (R.NET_LS_CFG 2) 0xFFFFFFFF).modClk (fun c => { c with blk := 12 }), by decide⟩

theorem witness_NetworkStreams_3 : ∃ (st : Fin 16) (k : Nat) (smp : Fin 16) (s : State),
    (s.on (R.NET_TK_CFG st) F.NET_TK_CFG_EN = true) :=
  ⟨2, 4, 3, up.wr (R.NET_TK_CFG 2) 0xFFFFFFFF, by decide⟩

theorem witness_NetworkStreams_4 : ∃ (st : Fin 16) (k : Nat) (smp : Fin 16) (s : State),
    (s.on (R.NET_TK_CFG st) F.NET_TK_CFG_EN = true) :=
  ⟨2, 4, 3, up.wr (R.NET_TK_CFG 2) 0xFFFFFFFF, by decide⟩

theorem witness_MemoryAndHubErrors_2 : ∃ (st : Fin 28) (addr : Nat) (find : ScrubFind) (s : State),
    (st.val ≠ 25) ∧ (st.val ≠ 26) :=
  ⟨3, 7, default, up, by decide⟩

theorem witness_MemoryAndHubErrors_3 : ∃ (addr : Nat) (find : ScrubFind) (s : State),
    (s.power.hubUp = true) ∧ (s.on R.MEM_SCRUB_CFG F.MEM_SCRUB_CFG_DRAM_EN = true) :=
  ⟨7, default, up.setF R.MEM_SCRUB_CFG F.MEM_SCRUB_CFG_DRAM_EN 1, by decide⟩

theorem witness_MemoryAndHubErrors_4 : ∃ (n : Fin 8) (k : Nat) (s : State),
    (s.missed n = some k) ∧ (((s.engMiss n k).engX n).misses < 3) :=
  ⟨2, 4, (up.setF (R.ENG_STS 2) F.ENG_STS_MODE_ACT 1).modClk (fun c => { c with blk := 6 }), by decide⟩

theorem witness_MemoryAndHubErrors_5 : ∃ (n : Fin 8) (k : Nat) (s : State),
    (s.missed n = some k) ∧ (3 ≤ ((s.engMiss n k).engX n).misses) :=
  ⟨2, 4, ((up.setF (R.ENG_STS 2) F.ENG_STS_MODE_ACT 1).modClk (fun c => { c with blk := 6 })).modEng 2 (fun x => { x with misses := 2 }), by decide⟩

theorem witness_MemoryAndHubErrors_7 : ∃ (l : Fin 128) (s : State),
    (s.err.stages.any (fun p => p.1 == Stg.lane l && decide (p.2 + 64 ≤ s.clk.blk)) = true) :=
  ⟨2, (up.modErr (fun y => { y with stages := [(Stg.lane 2, 0)] })).modClk (fun c => { c with blk := 64 }), by decide⟩

theorem witness_MemoryAndHubErrors_8 : ∃ (s : State),
    (s.power.hubUp = true) :=
  ⟨up, by decide⟩

theorem witness_MemoryAndHubErrors_9 : ∃ (s : State),
    (s.power.hubUp = true) :=
  ⟨up, by decide⟩

theorem witness_MemoryAndHubErrors_10 : ∃ (s : State),
    (s.power.hubUp = true) :=
  ⟨up, by decide⟩

theorem witness_MetrologyRunsAndLink_0 : ∃ (s : State),
    (s.metroFitted = true) ∧ (s.metro.on_ = true) :=
  ⟨upM.modMetro (fun m => { m with on_ := true, run := none, sealed := false }), by decide⟩

theorem witness_MetrologyRunsAndLink_1 : ∃ (cause : Fin 2) (s : State),
    (s.metroFitted = true) ∧ (s.metro.on_ = false) :=
  ⟨0, upM.modMetro (fun m => { m with on_ := false }), by decide⟩

theorem witness_MetrologyRunsAndLink_2 : ∃ (s : State), s.metroFitted = true ∧ s.metro.on_ = false :=
  ⟨upM.modMetro (fun m => { m with on_ := false }), by decide⟩

theorem witness_MetrologyRunsAndLink_3 : ∃ (s : State),
    (s.mOn = true) :=
  ⟨upM.modMetro (fun m => { m with on_ := true, run := none, sealed := false }), by decide⟩

theorem witness_MetrologyRunsAndLink_4 : ∃ (m : SecondMeas) (ver : Bool) (s : State),
    (s.mOn = true) :=
  ⟨default, true, upM.modMetro (fun m => { m with on_ := true, run := none, sealed := false }), by decide⟩

theorem witness_MetrologyRunsAndLink_5 : ∃ (vbak : Nat) (s : State),
    (s.mOn = true) :=
  ⟨3000, upM.modMetro (fun m => { m with on_ := true, run := none, sealed := false }), by decide⟩

theorem witness_MetrologyRunsAndLink_7 : ∃ (s : State),
    (s.mOn = true) ∧ (s.power.hubUp = true) ∧ (s.err.mBad ≠ 15) :=
  ⟨upM.modMetro (fun m => { m with on_ := true, run := none, sealed := false }), by decide⟩

theorem witness_MetrologyRunsAndLink_8 : ∃ (s : State),
    (s.mOn = true) ∧ (s.power.hubUp = true) ∧ (s.err.mBad = 15) :=
  ⟨(upM.modMetro (fun m => { m with on_ := true, run := none, sealed := false })).modErr (fun y => { y with mBad := 15 }), by decide⟩

theorem witness_MetrologyRunsAndLink_9 : ∃ (s : State),
    (s.mOn = true) ∧ (s.power.hubUp = true) ∧ (s.metro.frame = none) :=
  ⟨(upM.modMetro (fun m => { m with on_ := true, run := none, sealed := false })).modMetro (fun m => { m with frame := none }), by decide⟩

theorem witness_MetrologyRunsAndLink_10 : ∃ (id : DescId) (q n a t0 : Nat) (s : State),
    (s.mOn = true) ∧ (s.power.hubUp = true) ∧ (s.metro.read = some (id, q, n, a, t0)) ∧
        (((s.modMetro (fun m => { m with read := none })).metro.record q).isSome = true) :=
  ⟨DescId.mk .cmd 1, 0, 1, 0, 0, (upM.modMetro (fun m => { m with on_ := true, run := none, sealed := false })).modMetro (fun m => { m with read := some (DescId.mk .cmd 1, 0, 1, 0, 0), log := [default] }), by decide⟩

theorem witness_MetrologyRunsAndLink_11 : ∃ (id : DescId) (q n a t0 : Nat) (s : State),
    (s.mOn = true) ∧ (s.power.hubUp = true) ∧ (s.metro.read = some (id, q, n, a, t0)) ∧
        (((s.modMetro (fun m => { m with read := none })).metro.record q).isSome = false) :=
  ⟨DescId.mk .cmd 1, 0, 1, 0, 0, (upM.modMetro (fun m => { m with on_ := true, run := none, sealed := false })).modMetro (fun m => { m with read := some (DescId.mk .cmd 1, 0, 1, 0, 0), log := [] }), by decide⟩

theorem witness_MetrologyRunsAndLink_12 : ∃ (id : DescId) (q n a t0 : Nat) (s : State),
    (s.metro.read = some (id, q, n, a, t0)) ∧ (t0 + second3 / 10 ≤ s.clk.now3) :=
  ⟨DescId.mk .cmd 1, 0, 1, 0, 0, ((upM.modMetro (fun m => { m with on_ := true, run := none, sealed := false })).modMetro (fun m => { m with read := some (DescId.mk .cmd 1, 0, 1, 0, 0), log := [] })).modClk (fun c => { c with now3 := 300000000 }), by decide⟩

theorem witness_MuartRequests_0 : ∃ (r : MuartReq) (s : State),
    (s.mOn = true) ∧ (r.crcOk = true) ∧ (s.metro.run = none) ∧ (r.payload.length = 0) :=
  ⟨⟨true, true, List.replicate 0 0⟩, upM.modMetro (fun m => { m with on_ := true, run := none, sealed := false }), by decide⟩

theorem witness_MuartRequests_1 : ∃ (r : MuartReq) (s : State),
    (s.mOn = true) ∧ (r.crcOk = true) ∧ (s.metro.run = none) ∧ (r.payload.length = 6) ∧
        (1 ≤ bytesAt r.payload 4 2) ∧ (bytesAt r.payload 4 2 ≤ 16) ∧
        (((List.range (bytesAt r.payload 4 2)).filterMap (fun i => s.metro.record
        (bytesAt r.payload 0 4 + i))).length = bytesAt r.payload 4 2) :=
  ⟨⟨true, true, [0, 0, 0, 0, 1, 0]⟩, (upM.modMetro (fun m => { m with on_ := true, run := none, sealed := false })).modMetro (fun m => { m with log := [default] }), by decide⟩

theorem witness_MuartRequests_2 : ∃ (r : MuartReq) (s : State),
    (s.mOn = true) ∧ (r.crcOk = true) ∧ (s.metro.run = none) ∧ (r.payload.length = 6) ∧
        (16 < bytesAt r.payload 4 2) :=
  ⟨⟨true, true, [0, 0, 0, 0, 1, 1]⟩, upM.modMetro (fun m => { m with on_ := true, run := none, sealed := false }), by decide⟩

theorem witness_MuartRequests_3 : ∃ (r : MuartReq) (s : State),
    (s.mOn = true) ∧ (r.crcOk = true) ∧ (s.metro.run = none) ∧ (r.payload.length = 4) ∧
        (bytesAt r.payload 0 4 < s.metro.nextSeq) :=
  ⟨⟨true, true, [0, 0, 0, 0]⟩, (upM.modMetro (fun m => { m with on_ := true, run := none, sealed := false })).modMetro (fun m => { m with nextSeq := 1 }), by decide⟩

theorem witness_MuartRequests_4 : ∃ (r : MuartReq) (s : State),
    (s.mOn = true) ∧ (r.crcOk = true) ∧ (s.metro.run = none) ∧ (r.payload.length = 4) ∧
        (s.metro.nextSeq ≤ bytesAt r.payload 0 4) :=
  ⟨⟨true, true, [9, 0, 0, 0]⟩, upM.modMetro (fun m => { m with on_ := true, run := none, sealed := false }), by decide⟩

theorem witness_MuartRequests_5 : ∃ (r : MuartReq) (h : LegalRec) (l : List LegalRec) (s : State),
    (s.mOn = true) ∧ (r.crcOk = true) ∧ (s.metro.run = none) ∧ (r.payload.length = 0) ∧ (s.metro.log = h :: l) :=
  ⟨⟨true, true, []⟩, default, [], (upM.modMetro (fun m => { m with on_ := true, run := none, sealed := false })).modMetro (fun m => { m with log := [default] }), by decide⟩

theorem witness_MuartRequests_6 : ∃ r : MuartReq, r.crcOk = false := ⟨⟨true, false, []⟩, rfl⟩

theorem witness_MuartRequests_7 : ∃ (r : MuartReq) (s : State),
    (s.mOn = true) ∧ (r.crcOk = true) ∧ (s.metro.run = none) ∧ (r.payload.length = 2) ∧
        (bytesAt r.payload 0 1 ≤ 1) ∧ (bytesAt r.payload 1 1 ≤ 1) :=
  ⟨⟨true, true, List.replicate 2 0⟩, upM.modMetro (fun m => { m with on_ := true, run := none, sealed := false }), by decide⟩

theorem witness_MuartRequests_8 : ∃ (r : MuartReq) (s : State),
    (s.mOn = true) ∧ (r.crcOk = true) ∧ (s.metro.run = none) ∧ (r.payload.length = 6) ∧
        (time48Sec (bytesAt r.payload 0 6) < timeLimit) ∧ (s.metro.sealed = false) :=
  ⟨⟨true, true, List.replicate 6 0⟩, upM.modMetro (fun m => { m with on_ := true, run := none, sealed := false }), by decide⟩

theorem witness_MuartRequests_9 : ∃ (r : MuartReq) (s : State),
    (s.mOn = true) ∧ (r.crcOk = true) ∧ (s.metro.run = none) ∧ (r.payload.length = 6) ∧
        (timeLimit ≤ time48Sec (bytesAt r.payload 0 6)) :=
  ⟨⟨true, true, List.replicate 6 0xFF⟩, upM.modMetro (fun m => { m with on_ := true, run := none, sealed := false }), by decide⟩

theorem witness_MuartRequests_10 : ∃ (r : MuartReq) (i : Nat) (bs : List Byte) (ok : Bool) (s : State),
    s.mOn = true ∧ r.crcOk = true ∧ s.metro.run = none ∧ r.payload.length = 0 ∧ s.metro.voted = some (i, bs, ok) :=
  ⟨⟨true, true, []⟩, 0, calBlock, true, calibrated, by decide, rfl, rfl, rfl, calibrated_voted⟩

theorem witness_MuartCalibration_0 : ∃ (r : MuartReq) (s : State),
    (s.mOn = true) ∧ (r.crcOk = true) ∧ (s.metro.run = none) ∧ (r.payload.length = 14) ∧ (r.ver = true) ∧
        (s.metro.sealed = false) ∧ (1000 ≤ (calVals ([0, 0, 0, 0] ++ r.payload)).sens) ∧
        ((calVals ([0, 0, 0, 0] ++ r.payload)).sens ≤ 200000) :=
  ⟨⟨true, true, [0xE8, 3, 0, 0, 0, 0, 0, 0, 0, 0, 0, 0, 0, 0]⟩, upM.modMetro (fun m => { m with on_ := true, run := none, sealed := false }), by decide⟩

theorem witness_MuartCalibration_1 : ∃ (r : MuartReq) (s : State),
    (s.mOn = true) ∧ (r.crcOk = true) ∧ (r.ver = false) :=
  ⟨⟨false, true, []⟩, upM.modMetro (fun m => { m with on_ := true, run := none, sealed := false }), by decide⟩

theorem witness_MuartCalibration_2 : ∃ (r : MuartReq) (s : State),
    (s.mOn = true) ∧ (r.crcOk = true) ∧ (r.ver = true) ∧ (s.metro.sealed = true) :=
  ⟨⟨true, true, []⟩, (upM.modMetro (fun m => { m with on_ := true, run := none, sealed := false })).modMetro (fun m => { m with sealed := true }), by decide⟩

theorem witness_MuartCalibration_3 : ∃ (r : MuartReq) (s : State),
    (s.mOn = true) ∧ (r.crcOk = true) ∧ (s.metro.run = none) ∧ (r.payload.length = 2) ∧ (r.ver = true) ∧
        (s.metro.sealed = false) :=
  ⟨⟨true, true, List.replicate 2 0⟩, upM.modMetro (fun m => { m with on_ := true, run := none, sealed := false }), by decide⟩

theorem witness_MuartCalibration_4 : ∃ (r : MuartReq) (s : State),
    (s.mOn = true) ∧ (r.crcOk = true) ∧ (s.metro.run = none) ∧ (r.payload.length = 2) ∧ (r.ver = true) :=
  ⟨⟨true, true, List.replicate 2 0⟩, upM.modMetro (fun m => { m with on_ := true, run := none, sealed := false }), by decide⟩

theorem witness_MuartCalibration_5 : ∃ (vals : List Nat) (run : CalRun) (s : State),
    s.mOn = true ∧ s.metro.run = some run ∧ run.check = false ∧ vals.isEmpty = false ∧
        maxOf 0 vals - minOf 0 vals ≤ 10 ∧
      (((run.level : Int) - levelMean vals) * 10).natAbs ≤ 3000 :=
  ⟨[9400], ⟨false, 9400, 0⟩, (upM.modMetro (fun m => { m with on_ := true, run := none, sealed := false })).modMetro (fun m => { m with run := some ⟨false, 9400, 0⟩ }), by decide, by decide,
    by decide, by decide, by decide, by
      have h : levelMean [9400] = 9400 := Nat.le_antisymm (Nat.max_le.mpr ⟨Nat.le_refl _, Nat.min_le_left _ _⟩)
          (Nat.le_max_left _ _)
      rw [h]; decide⟩

theorem witness_MuartCalibration_6 : ∃ (vals : List Nat) (run : CalRun) (s : State),
    (s.mOn = true) ∧ (s.metro.run = some run) ∧ (run.check = false) ∧ (vals.isEmpty = false) ∧
        (10 < maxOf 0 vals - minOf 0 vals) :=
  ⟨[9400, 9420], ⟨false, 9400, 0⟩, (upM.modMetro (fun m => { m with on_ := true, run := none, sealed := false })).modMetro (fun m => { m with run := some ⟨false, 9400, 0⟩ }), by decide⟩

theorem witness_MuartCalibration_7 : ∃ (vals : List Nat) (run : CalRun) (s : State),
    (s.mOn = true) ∧ (s.metro.run = some run) ∧ (run.check = true) ∧ (vals.isEmpty = false) :=
  ⟨[9400], ⟨true, 9400, 0⟩, (upM.modMetro (fun m => { m with on_ := true, run := none, sealed := false })).modMetro (fun m => { m with run := some ⟨true, 9400, 0⟩ }), by decide⟩

theorem witness_MuartCalibration_8 : ∃ (r : MuartReq) (v : CalVals) (i : Nat) (s : State),
    (s.mOn = true) ∧ (r.crcOk = true) ∧ (s.metro.run = none) ∧ (r.payload.length = 0) ∧ (r.ver = true) ∧
        (s.metro.sealed = false) ∧ (s.metro.staged = some v) ∧ (s.metro.slot = some i) ∧ (i < 3) :=
  ⟨⟨true, true, []⟩, default, 0, calibrated.modMetro (fun m => { m with staged := some default }), by decide⟩

theorem witness_MuartCalibration_9 : ∃ (r : MuartReq) (s : State),
    (s.mOn = true) ∧ (r.crcOk = true) ∧ (s.metro.run = none) ∧ (r.payload.length = 0) ∧ (r.ver = true) ∧
        (s.metro.sealed = false) ∧ (s.metro.staged = none) :=
  ⟨⟨true, true, []⟩, (upM.modMetro (fun m => { m with on_ := true, run := none, sealed := false })).modMetro (fun m => { m with staged := none }), by decide⟩

theorem witness_MuartCalibration_10 : ∃ (r : MuartReq) (i : Nat) (bs : List Byte) (s : State),
    s.mOn = true ∧ r.crcOk = true ∧ s.metro.run = none ∧ r.payload.length = 0 ∧ r.ver = true ∧
        s.metro.sealed = false ∧
      s.metro.voted = some (i, bs, true) :=
  ⟨⟨true, true, []⟩, 0, calBlock, calibrated, by decide, rfl, rfl, rfl, rfl, rfl, calibrated_voted⟩

theorem witness_SerialManagement_0 : ∃ (addr n : Nat) (cut : Bool) (s : State),
    (s.served = true) :=
  ⟨7, 1, false,  up.setF R.CLK_BOOTSEAL F.CLK_BOOTSEAL_SEAL 1, by decide⟩

theorem witness_SerialManagement_1 : ∃ (addr : Nat) (ws : List Word) (cut : Bool) (s : State),
    (s.served = true) :=
  ⟨7, [], false, up.setF R.CLK_BOOTSEAL F.CLK_BOOTSEAL_SEAL 1, by decide⟩

theorem witness_SerialManagement_2 : ∃ (p : Nat) (s : State),
    (s.smbUp = true) :=
  ⟨7, ((up.setF R.CLK_BOOTSEAL F.CLK_BOOTSEAL_SEAL 1).setF R.HIF_SMB_CFG F.HIF_SMB_CFG_EN 1), by decide⟩

theorem witness_SerialManagement_3 : ∃ (p : Nat) (s : State),
    (s.smbUp = true) ∧ (s.on R.HIF_SMB_CFG F.HIF_SMB_CFG_PEC_EN = true) :=
  ⟨7, ((up.setF R.CLK_BOOTSEAL F.CLK_BOOTSEAL_SEAL 1).setF R.HIF_SMB_CFG F.HIF_SMB_CFG_EN 1).setF R.HIF_SMB_CFG F.HIF_SMB_CFG_PEC_EN 1, by decide⟩

theorem witness_SerialManagement_4 : ∃ (s : State),
    (s.smbUp = true) :=
  ⟨((up.setF R.CLK_BOOTSEAL F.CLK_BOOTSEAL_SEAL 1).setF R.HIF_SMB_CFG F.HIF_SMB_CFG_EN 1), by decide⟩

theorem witness_SerialManagement_5 : ∃ (s : State),
    (s.smbUp = true) :=
  ⟨((up.setF R.CLK_BOOTSEAL F.CLK_BOOTSEAL_SEAL 1).setF R.HIF_SMB_CFG F.HIF_SMB_CFG_EN 1), by decide⟩

theorem witness_SerialManagement_6 : ∃ (s : State),
    (s.smbUp = true) :=
  ⟨((up.setF R.CLK_BOOTSEAL F.CLK_BOOTSEAL_SEAL 1).setF R.HIF_SMB_CFG F.HIF_SMB_CFG_EN 1), by decide⟩

theorem witness_SerialManagement_7 : ∃ (s : State),
    (s.smbUp = true) ∧ (s.host.smbAlert = true) :=
  ⟨(((up.setF R.CLK_BOOTSEAL F.CLK_BOOTSEAL_SEAL 1).setF R.HIF_SMB_CFG F.HIF_SMB_CFG_EN 1)).modHost (fun y => { y with smbAlert := true }), by decide⟩

theorem witness_SerialManagement_8 : ∃ (f : InFlight) (c : Completion) (s : State),
    (s.postable .smbus = some (f, c)) ∧ (silent f c = false) :=
  ⟨doneFlight, ⟨.done, false, false, false, 3, none⟩, serving.modQueue .smbus (fun q => { q with flight := [doneFlight] }), by decide +kernel⟩

theorem witness_SerialManagement_9 : ∃ (s : State),
    (s.linkUp = true) ∧ (s.power.hubUp = true) ∧ (s.snap = none) :=
  ⟨up, by decide⟩

theorem witness_SerialManagement_10 : ∃ (a : Nat) (m v : Word) (rest : List (Nat × Word × Word)) (s : State),
    (s.stage.toF = (a, m, v) :: rest) :=
  ⟨0x9000, 0, 0, [], up.modStage (fun y => { y with toF := [(0x9000, 0, 0)] }), by decide⟩

theorem witness_CounterClears_0 : ∃ (a : Agent) (v : Word) (s : State),
    (s.accepts a (R.ENG_GLB_CTL) (withBits v F.ENG_GLB_CTL_CNT_CLR) = true) :=
  ⟨13, 1, up, by decide⟩

theorem witness_CounterClears_1 : ∃ (a : Agent) (v : Word) (s : State),
    (s.accepts a (R.NET_GLB_CTL) (withBits v F.NET_GLB_CTL_CNT_CLR) = true) :=
  ⟨13, 1, up, by decide⟩

theorem witness_CounterClears_2 : ∃ (a : Agent) (v : Word) (s : State),
    (s.accepts a (R.LCK_GLB_CTL) (withBits v F.LCK_GLB_CTL_CNT_CLR) = true) :=
  ⟨13, 1, up, by decide⟩

theorem witness_CounterClears_3 : ∃ (a : Agent) (v : Word) (s : State),
    (s.accepts a (R.HIF_GLB_CTL) (withBits v F.HIF_GLB_CTL_CNT_CLR) = true) :=
  ⟨13, 1, up, by decide⟩

theorem witness_CounterClears_4 : ∃ (a : Agent) (v : Word) (s : State),
    (s.accepts a (R.MEM_CTL) (withBits v F.MEM_CTL_CNT_CLR) = true) :=
  ⟨13, 1, up, by decide⟩

theorem witness_CounterClears_5 : ∃ (a : Agent) (v : Word) (s : State),
    (s.accepts a (R.JNL_CTL) (withBits v F.JNL_CTL_CNT_CLR) = true) :=
  ⟨13, 1, up, by decide⟩

theorem witness_CounterClears_6 : ∃ (a : Agent) (v : Word) (s : State),
    (s.accepts a (R.GLB_CTL) (withBits v F.GLB_CTL_CNT_CLR) = true) :=
  ⟨13, 0, up, by decide⟩

theorem witness_CounterClears_7 : ∃ (a : Agent) (v : Word) (s : State),
    (s.accepts a (R.TST_CTL) (withBits v F.TST_CTL_CNT_CLR) = true) :=
  ⟨13, 1, up, by decide⟩

theorem witness_CounterClears_8 : ∃ (a : Agent) (v : Word) (s : State),
    (s.accepts a (R.MP_GLB_CTL) (withBits v F.MP_GLB_CTL_CNT_CLR) = true) :=
  ⟨13, 1, up, by decide⟩

theorem witness_CounterClears_9 : ∃ (a : Agent) (v : Word) (s : State),
    (s.accepts a (R.FLT_GLB_CTL) (withBits v F.FLT_GLB_CTL_CNT_CLR) = true) :=
  ⟨13, 1, up, by decide⟩

theorem witness_CounterClears_10 : ∃ (a : Agent) (v : Word) (s : State),
    (s.accepts a (R.TTH_CTL) (withBits v F.TTH_CTL_CNT_CLR) = true) :=
  ⟨13, 1, up, by decide⟩

theorem witness_CounterClears_11 : ∃ (a : Agent) (v : Word) (s : State),
    (s.accepts a (R.SNS_GLB_CTL) (withBits v F.SNS_GLB_CTL_CNT_CLR) = true) :=
  ⟨13, 1, up, by decide⟩

theorem witness_CounterClears_12 : ∃ (a : Agent) (v : Word) (s : State),
    (s.accepts a (R.PWR_GLB_CFG) (withBits v F.PWR_GLB_CFG_CNT_CLR) = true) :=
  ⟨13, 1, up, by decide⟩

theorem witness_FrontEndWrites_0 : ∃ (a : Agent) (n : Fin 8) (v : Word) (s : State),
    (s.accepts a (R.AFE_IN_CFG n) (v) = true) :=
  ⟨13, 2, 1, up, by decide⟩

theorem witness_FrontEndWrites_1 : ∃ (a : Agent) (n : Fin 8) (v : Word) (s : State),
    (s.accepts a (R.AFE_IN_GAIN n) (v) = true) :=
  ⟨13, 2, 1, up, by decide⟩

theorem witness_FrontEndWrites_2 : ∃ (a : Agent) (i : Fin 128) (v : Word) (s : State),
    (s.accepts a (R.FLT_COEF_WIN i) v = true) :=
  ⟨13, 3, 9, up, by decide⟩

theorem witness_FrontEndWrites_3 : ∃ (a : Agent) (v : Word) (s : State),
    (s.accepts a (R.FLT_SYNC_CTL) (withBits v F.FLT_SYNC_CTL_SW_SYNC) = true) :=
  ⟨13, 1, up, by decide⟩

theorem witness_FrontEndWrites_4 : ∃ (a : Agent) (v : Word) (s : State),
    (s.accepts a (R.FLT_SYNC_AT_LO) (v) = true) :=
  ⟨13, 1, up, by decide⟩

theorem witness_FrontEndWrites_5 : ∃ (a : Agent) (v : Word) (s : State),
    (s.accepts a (R.FLT_SYNC_AT_HI) (v) = true) :=
  ⟨13, 1, up, by decide⟩

theorem witness_FrontEndWrites_6 : ∃ (a : Agent) (c : Fin 16) (v : Word) (s : State),
    (s.accepts a (R.FLT_SWAP c) (withBits v F.FLT_SWAP_GO) = true) :=
  ⟨13, 2, 1, up, by decide⟩

theorem witness_SerialPortWrites_0 : ∃ (a : Agent) (d : Fin 8) (v : Word) (s : State),
    (s.accepts a (R.SAP_CFG d) (withBits v F.SAP_CFG_EN) = true) :=
  ⟨13, 2, 1, up, by decide⟩

theorem witness_SerialPortWrites_1 : ∃ (a : Agent) (d : Fin 8) (v : Word) (s : State),
    (s.accepts a (R.SAP_CFG d) (v.setFld F.SAP_CFG_EN 0) = true) :=
  ⟨13, 2, 1, up, by decide⟩

theorem witness_SerialPortWrites_2 : ∃ (a : Agent) (d : Fin 8) (v : Word) (s : State),
    (s.accepts a (R.SAP_CFG d) (v.setFld F.SAP_CFG_HOLD 0) = true) :=
  ⟨13, 2, 1, up, by decide⟩

theorem witness_SerialPortWrites_3 : ∃ (a : Agent) (d : Fin 8) (v : Word) (s : State),
    (s.accepts a (R.SAP_CFG d) (v) = true) :=
  ⟨13, 2, 1, up, by decide⟩

theorem witness_SerialPortWrites_4 : ∃ (d : Fin 8) (rate : Nat) (s : State),
    ((s.sapTracked d rate).on (R.SAP_STS d) F.SAP_STS_LOCK = true) :=
  ⟨2, 384000, up.setF (R.SAP_STS 2) F.SAP_STS_LOCK 1, by decide⟩

theorem witness_SerialPortWrites_5 : ∃ (st : Fin 16) (rate : Nat) (s : State),
    ((s.listenerTracked st).mp.lsLocked.contains st.val = true) :=
  ⟨2, 384000, up.modMp (fun y => { y with lsLocked := [2] }), by decide⟩

theorem witness_SerialPortWrites_6 : ∃ (d : Fin 8) (s : State),
    ((s.dir d).use = .track) ∧ (s.on (R.SAP_STS d) F.SAP_STS_LOCK = true) :=
  ⟨2, (up.setF (R.SAP_STS 2) F.SAP_STS_LOCK 1).modDir 2 (fun x => { x with use := .track }), by decide⟩

theorem witness_SerialPortWrites_7 : ∃ (st : Fin 16) (s : State),
    (s.mp.lsLocked.contains st.val = true) :=
  ⟨2, up.modMp (fun y => { y with lsLocked := [2] }), by decide⟩

theorem witness_EngineNetworkOutputWrites_0 : ∃ (a : Agent) (v : Word) (s : State),
    (s.accepts a (R.MP_PRESET_CTL) (withBits v F.MP_PRESET_CTL_GO) = true) :=
  ⟨13, 1, up, by decide⟩

theorem witness_EngineNetworkOutputWrites_1 : ∃ (a : Agent) (n : Fin 8) (v : Word) (s : State),
    (s.accepts a (R.ENG_CTL n) (v) = true) :=
  ⟨13, 2, 1, up, by decide⟩

theorem witness_EngineNetworkOutputWrites_2 : ∃ (a : Agent) (v : Word) (s : State),
    (s.accepts a (R.ARB_CTL) (withBits v F.ARB_CTL_SNAP) = true) :=
  ⟨13, 1, up, by decide⟩

theorem witness_EngineNetworkOutputWrites_3 : ∃ (a : Agent) (v : Word) (s : State),
    (s.accepts a (R.NET_MDIO_CTL) (withBits v F.NET_MDIO_CTL_GO) = true) :=
  ⟨13, 1, up, by decide⟩

theorem witness_EngineNetworkOutputWrites_4 : ∃ (a : Agent) (m : Fin 8) (v : Word) (s : State),
    (s.accepts a (R.PWR_CTL m) (withBits v F.PWR_CTL_CLR_FAULT) = true) :=
  ⟨13, 2, 1, up, by decide⟩

theorem witness_EngineNetworkOutputWrites_5 : ∃ (a : Agent) (m : Fin 8) (v : Word) (s : State),
    (s.accepts a (R.PWR_CTL m) (withBits v F.PWR_CTL_DIAG_GO) = true) :=
  ⟨13, 2, 1, up, by decide⟩

theorem witness_EngineNetworkOutputWrites_6 : ∃ (a : Agent) (e : Fin 8) (v : Word) (s : State),
    (s.accepts a (R.EXT_CFG e) (withBits v F.EXT_CFG_CLR_FAULT) = true) :=
  ⟨13, 2, 1, up, by decide⟩

theorem witness_EngineNetworkOutputWrites_7 : ∃ (a : Agent) (v : Word) (s : State),
    (s.accepts a (R.TTH_GWIN_DATA) (v) = true) :=
  ⟨13, 1, up, by decide⟩

theorem witness_EngineNetworkOutputWrites_8 : ∃ (a : Agent) (o : Fin 24) (v : Word) (s : State),
    (s.accepts a (R.TTH_OUT_CFG o) (withBits v F.TTH_OUT_CFG_CLR_FAULT) = true) :=
  ⟨13, 2, 1, up, by decide⟩

theorem witness_EngineNetworkOutputWrites_9 : ∃ (a : Agent) (v : Word) (s : State),
    (s.accepts a (R.TTH_PLAY_CTL) (withBits v F.TTH_PLAY_CTL_GO) = true) :=
  ⟨13, 1, up, by decide⟩

theorem witness_EngineNetworkOutputWrites_10 : ∃ (a : Agent) (v : Word) (s : State),
    (s.accepts a (R.TTH_PLAY_CTL) (withBits v F.TTH_PLAY_CTL_STOP) = true) :=
  ⟨13, 1, up, by decide⟩

theorem witness_EngineNetworkOutputWrites_11 : ∃ (a : Agent) (freq : Bool) (v : Word) (s : State),
    (s.accepts a (if freq then R.TTH_TONE_FREQ else R.TTH_TONE_CFG) (v) = true) :=
  ⟨13, true, 1, up, by decide⟩

theorem witness_EngineNetworkOutputWrites_12 : ∃ (a : Agent) (m : Fin 8) (v : Word) (s : State),
    (s.accepts a (R.TTH_SRV_CFG m) (withBits v F.TTH_SRV_CFG_CLOSE) = true) :=
  ⟨13, 2, 1, up, by decide⟩

theorem witness_EngineNetworkOutputWrites_13 : ∃ (a : Agent) (v : Word) (s : State),
    (s.accepts a (R.TTH_CTL) (v) = true) :=
  ⟨13, 1, up, by decide⟩

theorem witness_ListenerAndSenseWrites_0 : ∃ (a : Agent) (v : Word) (s : State),
    (s.accepts a (R.AFE_GTH_CFG) (withBits v F.AFE_GTH_CFG_GO) = true) :=
  ⟨13, 1, up, by decide⟩

theorem witness_ListenerAndSenseWrites_1 : ∃ (a : Agent) (v : Word) (s : State),
    (s.accepts a (R.AFE_GTH_CFG) (withBits v F.AFE_GTH_CFG_STOP) = true) :=
  ⟨13, 1, up, by decide⟩

theorem witness_ListenerAndSenseWrites_2 : ∃ (a : Agent) (c : Fin 2) (v : Word) (s : State),
    (s.accepts a (R.SNS_TRIG c) (withBits v F.SNS_TRIG_SW) = true) :=
  ⟨13, 1, 1, up, by decide⟩

theorem witness_ListenerAndSenseWrites_3 : ∃ (a : Agent) (c : Fin 2) (v : Word) (s : State),
    (s.accepts a (R.SNS_CFG c) (withBits v F.SNS_CFG_PAUSE) = true) :=
  ⟨13, 1, 1, up, by decide⟩

theorem witness_ListenerAndSenseWrites_4 : ∃ (a : Agent) (c : Fin 2) (v : Word) (s : State),
    (s.accepts a (R.SNS_CFG c) (v.setFld F.SNS_CFG_PAUSE 0) = true) :=
  ⟨13, 1, 1, up, by decide⟩

theorem witness_ListenerAndSenseWrites_5 : ∃ (a : Agent) (c : Fin 2) (v : Word) (s : State),
    (s.accepts a (R.SNS_CFG c) (v.setFld F.SNS_CFG_EN 0) = true) :=
  ⟨13, 1, 1, up, by decide⟩

theorem witness_ListenerAndSenseWrites_6 : ∃ (a : Agent) (c : Fin 2) (v : Word) (s : State),
    (s.accepts a (R.SNS_INJ c) (v.setFld ⟨31, 1⟩ 1) = true) :=
  ⟨13, 1, 1, up, by decide⟩

theorem witness_ListenerAndSenseWrites_7 : ∃ (a : Agent) (c : Fin 2) (v : Word) (s : State),
    (s.accepts a (R.SNS_CAL_CTL c) (withBits v F.SNS_CAL_CTL_GO) = true) :=
  ⟨13, 1, 1, up, by decide⟩

theorem witness_ListenerAndSenseWrites_8 : ∃ (a : Agent) (on : Bool) (s : State),
    (s.accepts a (R.SNS_REF) (s.asRead a R.SNS_REF F.SNS_REF_BUFEN on.toNat) = true) :=
  ⟨13, true, up, by decide⟩

theorem witness_ListenerAndSenseWrites_9 : ∃ (a : Agent) (v : Word) (s : State),
    (s.accepts a (R.SNS_CAL_GAIN) (v) = true) :=
  ⟨13, 1, up, by decide⟩

theorem witness_ListenerAndSenseWrites_10 : ∃ (a : Agent) (v : Word) (s : State),
    (s.accepts a (R.SNS_CAL_OFS) (v) = true) :=
  ⟨13, 1, up, by decide⟩

theorem witness_ListenerAndSenseWrites_11 : ∃ (a : Agent) (v : Word) (s : State),
    (s.accepts a (R.SNS_TDAC_SW) (v) = true) :=
  ⟨13, 1, up, by decide⟩

theorem witness_HostLockAndSystemWrites_0 : ∃ (a : Agent) (r : Fin 16) (s : State),
    (s.accepts a (R.HIF_RING_CTL r) (s.asRead a (R.HIF_RING_CTL r) F.HIF_RING_CTL_EN 1) = true) :=
  ⟨13, 1, up, by decide⟩

theorem witness_HostLockAndSystemWrites_1 : ∃ (a : Agent) (r : Fin 16) (s : State),
    (s.accepts a (R.HIF_RING_CTL r) (0) = true) :=
  ⟨13, 1, up, by decide⟩

theorem witness_HostLockAndSystemWrites_2 : ∃ (a : Agent) (r : Fin 16) (tags : List Nat) (s : State),
    (s.windowOk a (R.HIF_RING_CTL r) = true) ∧ (s.refusedBits (R.HIF_RING_CTL r) (s.rd (R.HIF_RING_CTL r))
        F.HIF_RING_CTL_ABORT.mask = 0) :=
  ⟨13, 1, [], up, by decide⟩

theorem witness_HostLockAndSystemWrites_3 : ∃ (a : Agent) (o : Fin 64) (s : State),
    (s.accepts a (R.LCK_OWNER_RST) (withBits (BitVec.ofNat 32 o.val) F.LCK_OWNER_RST_GO) = true) :=
  ⟨13, 1, up, by decide⟩

theorem witness_HostLockAndSystemWrites_4 : ∃ (a : Agent) (v : Word) (s : State),
    (s.accepts a (R.MEM_EVT_DET_SEL) (v) = true) :=
  ⟨13, 1, up, by decide⟩

theorem witness_HostLockAndSystemWrites_5 : ∃ (a : Agent) (v : Word) (s : State),
    (s.accepts a (R.MEM_INJ) (withBits v F.MEM_INJ_GO) = true) :=
  ⟨13, 1, up, by decide⟩

theorem witness_HostLockAndSystemWrites_6 : ∃ (a : Agent) (v : Word) (s : State),
    (s.accepts a (R.JNL_CTL) (withBits v F.JNL_CTL_COMPACT) = true) :=
  ⟨13, 1, up, by decide⟩

theorem witness_HostLockAndSystemWrites_7 : ∃ (a : Agent) (v : Word) (s : State),
    (s.accepts a (R.CLK_RECOVERY) (withBits v F.CLK_RECOVERY_GO) = true) :=
  ⟨13, 1, up, by decide⟩

theorem witness_HostLockAndSystemWrites_8 : ∃ (a : Agent) (s : State),
    (s.accepts a (R.GLB_COMMIT_CTL) (F.GLB_COMMIT_CTL_HOLD.mask) = true) :=
  ⟨13, up, by decide⟩

theorem witness_HostLockAndSystemWrites_9 : ∃ (a : Agent) (s : State),
    (s.accepts a (R.GLB_COMMIT_CTL) (0) = true) ∧ (s.on R.GLB_COMMIT_CTL F.GLB_COMMIT_CTL_HOLD = true) :=
  ⟨13, up.setF R.GLB_COMMIT_CTL F.GLB_COMMIT_CTL_HOLD 1, by decide⟩

theorem witness_HostLockAndSystemWrites_10 : ∃ (a : Agent) (v : Word) (s : State),
    (s.accepts a (R.GLB_CTL) (withBits v F.GLB_CTL_REFRESH) = true) :=
  ⟨13, 1, up, by decide⟩

theorem witness_HostLockAndSystemWrites_11 : ∃ (a : Agent) (k : Fin 3) (v : Word) (s : State),
    (s.accepts a (R.TST_SEL k) (v) = true) :=
  ⟨13, 1, 1, up, by decide⟩

theorem witness_ReadsAndJtag_4 : ∃ (w : BitVec 50) (s : State),
    (s.fld R.TST_JTAG F.TST_JTAG_IR ≠ irRegwin) :=
  ⟨0, up, by decide⟩

theorem witness_ReadsAndJtag_5 : ∃ (w : BitVec 50) (s : State),
    (s.fld R.TST_JTAG F.TST_JTAG_IR = irRegwin) ∧ (w.getLsbD 49 = false) :=
  ⟨0, up.setF R.TST_JTAG F.TST_JTAG_IR 0x20, by decide⟩

theorem witness_ReadsAndJtag_6 : ∃ (w : BitVec 50) (s : State),
    (s.fld R.TST_JTAG F.TST_JTAG_IR = irRegwin) ∧ (w.getLsbD 49 = true) :=
  ⟨0x3FFFFFFFFFFFF, up.setF R.TST_JTAG F.TST_JTAG_IR 0x20, by decide⟩

theorem witness_PathCommands_0 : ∃ (o : Origin) (d : Desc) (s : State),
    (s.takes o 0x01 d = true) ∧ (d.target < 128) ∧ ((s.begun o 0x01 d).sourceOk d.target (Word.fld (BitVec.ofNat 32
        d.inl) F.MP_LANE_SRC_SRC) = true) ∧ (d.payLen = 0) ∧ (d.inlIn (rwsMask (R.MP_LANE_SRC d.target)).toNat =
        true) :=
  ⟨.param 0, ⟨1, 0, 7, 5, 0, 0, 0, 0, []⟩, serving, by decide +kernel⟩

theorem witness_PathCommands_1 : ∃ (o : Origin) (d : Desc) (s : State),
    (s.takes o 0x02 d = true) ∧ (d.target < 128) ∧ (d.payLen = 0) ∧
        (d.inlIn (rwsMask (R.MP_LANE_TRIM d.target)).toNat = true) :=
  ⟨.param 0, ⟨2, 0, 7, 5, 0, 0, 0, 0, []⟩, serving, by decide +kernel⟩

theorem witness_PathCommands_2 : ∃ (o : Origin) (d : Desc) (s : State),
    (s.takes o 0x03 d = true) ∧ (d.target < 128) ∧ (d.payLen = 0) ∧
        (d.inlIn (rwsMask (R.MP_LANE_DET d.target)).toNat = true) :=
  ⟨.param 0, ⟨3, 0, 7, 5, 0, 0, 0, 0, []⟩, serving, by decide +kernel⟩

theorem witness_PathCommands_3 : ∃ (o : Origin) (d : Desc) (s : State),
    (s.takes o 0x04 d = true) ∧ (d.target < 512) ∧ (d.payLen = 0) ∧
        (d.inlIn (rwsMask (R.MIX_GAIN (d.target / 32) (d.target % 32))).toNat = true) :=
  ⟨.param 0, ⟨4, 0, 7, 77, 0, 0, 0, 0, []⟩, serving, by decide +kernel⟩

theorem witness_PathCommands_4 : ∃ (o : Origin) (d : Desc) (s : State),
    (s.takes o 0x05 d = true) ∧ (d.target < 16) ∧ (d.payLen = 0) ∧
        (d.inlIn (rwsMask (R.MIX_BUS_CFG d.target)).toNat = true) :=
  ⟨.param 0, ⟨5, 0, 7, 5, 0, 0, 0, 0, []⟩, serving, by decide +kernel⟩

theorem witness_PathCommands_5 : ∃ (o : Origin) (d : Desc) (s : State),
    (s.takes o 0x06 d = true) ∧ (sinkKnown d.target = true) ∧ (sinkSelOk (BitVec.ofNat 32 d.inl) = true) ∧
        (d.payLen = 0) ∧ (d.inlIn (rwsMask (R.MP_SINK d.target)).toNat = true) :=
  ⟨.param 0, ⟨6, 0, 7, 5, 0, 0, 0, 0, []⟩, serving, by decide +kernel⟩

theorem witness_PathCommands_6 : ∃ (o : Origin) (d : Desc) (bs : List Byte) (s : State),
    (s.takes o 0x07 d = true) ∧ ((s.begun o 0x07 d).payloadOf o d = bs) ∧ (d.target < 22) ∧ (d.inl = 0) ∧
        (bs.length = 8) ∧ ((BitVec.ofNat 32 (natAt bs 0) : Word) &&& rwsMask (R.MP_COMP d.target) = BitVec.ofNat 32
        (natAt bs 0)) ∧ ((BitVec.ofNat 32 (natAt bs 4) : Word) &&& rwsMask (R.MP_LIM d.target) = BitVec.ofNat 32
        (natAt bs 4)) :=
  ⟨.param 0, ⟨7, 0, 7, 5, 0, 0, 8, 0, [0, 0, 0, 0, 0, 0, 0, 0]⟩, [0, 0, 0, 0, 0, 0, 0, 0], serving, by decide +kernel⟩

theorem witness_PathCommands_7 : ∃ (o : Origin) (d : Desc) (s : State),
    (s.takes o 0x09 d = true) ∧ (d.target < 16) ∧ (d.payLen = 0) ∧ (d.inl = 0) :=
  ⟨.param 0, ⟨9, 0, 7, 5, 0, 0, 0, 0, []⟩, serving, by decide +kernel⟩

theorem witness_PathCommands_8 : ∃ (o : Origin) (d : Desc) (s : State),
    (s.takes o 0x0A d = true) ∧ (d.target < 16) ∧ (d.payLen = 0) ∧ (d.inlIn 7 = true) :=
  ⟨.param 0, ⟨10, 0, 7, 5, 0, 0, 0, 3, []⟩, serving, by decide +kernel⟩

theorem witness_PathCommands_9 : ∃ (o : Origin) (d : Desc) (s : State),
    (s.takes o 0x0C d = true) ∧ (d.target = 0) ∧ (d.payLen = 0) ∧ (d.inlIn 0xFFFF = true) :=
  ⟨.param 0, ⟨12, 0, 7, 0, 0, 0, 0, 3, []⟩, serving, by decide +kernel⟩

theorem witness_PathCommands_10 : ∃ (o : Origin) (d : Desc) (bs : List Byte) (s : State),
    (s.takes o 0x08 d = true) ∧ ((s.begun o 0x08 d).payloadOf o d = bs) ∧ (1 ≤ d.target) ∧ (d.target ≤ 15) ∧
        (d.inl = 0) ∧ (presetLen bs.length = true) :=
  ⟨.param 0, ⟨8, 0, 7, 5, 0, 0, 8, 0, [0, 16, 0, 0, 1, 0, 0, 0]⟩, [0, 16, 0, 0, 1, 0, 0, 0], serving, by decide +kernel⟩

theorem witness_PathCommands_11 : ∃ (o : Origin) (d : Desc) (bs : List Byte) (s : State),
    (s.takes o 0x0B d = true) ∧ ((s.begun o 0x0B d).payloadOf o d = bs) ∧ (d.target < 32) ∧ (d.inl = 0) ∧
        (bs.length = 8 * (s.begun o 0x0B d).quarterN (d.target % 16)) ∧
        ((s.begun o 0x0B d).bankInUse (d.target % 16) (d.target / 16 == 1) = false) :=
  ⟨.param 0, ⟨11, 0, 7, 16, 0, 0, 512, 0, List.replicate 512 0⟩, List.replicate 512 0, serving, by decide +kernel⟩

theorem witness_PathCommands_12 : ∃ (o : Origin) (d : Desc) (bs : List Byte) (s : State),
    (s.takes o 0x0B d = true) ∧ ((s.begun o 0x0B d).payloadOf o d = bs) ∧ (d.target < 32) ∧ (d.inl = 0) ∧
        (bs.length = 8 * (s.begun o 0x0B d).quarterN (d.target % 16)) ∧
        ((s.begun o 0x0B d).bankInUse (d.target % 16) (d.target / 16 == 1) = true) :=
  ⟨.param 0, ⟨11, 0, 7, 0, 0, 0, 512, 0, List.replicate 512 0⟩, List.replicate 512 0, serving, by decide +kernel⟩

theorem witness_ParameterCommandsAndReading_0 : ∃ (o : Origin) (d : Desc) (s : State),
    (s.takes o 0x20 d = true) ∧ (d.payLen = 0) ∧ ((s.begun o 0x20 d).regsRefused o [d.target] = none) :=
  ⟨.param 0, ⟨32, 0, 7, (R.MP_LANE_TRIM 5), 0, 0, 0, 0, []⟩, serving, by decide +kernel⟩

theorem witness_ParameterCommandsAndReading_1 : ∃ (o : Origin) (d : Desc) (bs : List Byte) (s : State),
    (s.takes o 0x21 d = true) ∧ ((s.begun o 0x21 d).payloadOf o d = bs) ∧ (d.inl = 0) ∧ (bs.length = 8) ∧
        ((s.begun o 0x21 d).regsRefused o [d.target] = none) :=
  ⟨.param 0, ⟨33, 0, 7, (R.MP_LANE_TRIM 5), 0, 0, 8, 0, [0, 0, 0, 0, 0, 0, 0, 0]⟩, [0, 0, 0, 0, 0, 0, 0, 0], serving, by decide +kernel⟩

theorem witness_ParameterCommandsAndReading_2 : ∃ (o : Origin) (d : Desc) (bs : List Byte) (s : State),
    (s.takes o 0x22 d = true) ∧ ((s.begun o 0x22 d).payloadOf o d = bs) ∧ (d.inl = 0) ∧ (4 ≤ bs.length) ∧
        (bs.length ≤ 1024) ∧ (bs.length % 4 = 0) ∧ ((s.begun o 0x22 d).regsRefused o { d with op := 0x22 }.regs =
        none) :=
  ⟨.param 0, ⟨34, 0, 7, (R.MP_LANE_TRIM 5), 0, 0, 8, 0, [0, 0, 0, 0, 0, 0, 0, 0]⟩, [0, 0, 0, 0, 0, 0, 0, 0], serving, by decide +kernel⟩

theorem witness_ParameterCommandsAndReading_3 : ∃ (o : Origin) (d : Desc) (bs : List Byte) (s : State),
    (s.takes o 0x28 d = true) ∧ ((s.begun o 0x28 d).payloadOf o d = bs) ∧ (d.target < 16) ∧ (d.inl = 0) ∧
        (bs.length = 16) ∧ (genOk bs = true) :=
  ⟨.param 0, ⟨40, 0, 7, 3, 0, 0, 16, 0, [1, 0, 0, 0, 128, 62, 0, 0, 0, 0, 0, 0, 0, 0, 0, 0]⟩, [1, 0, 0, 0, 128, 62, 0, 0, 0, 0, 0, 0, 0, 0, 0, 0], serving, by decide +kernel⟩

theorem witness_ParameterCommandsAndReading_4 : ∃ (o : Origin) (d : Desc) (s : State),
    (s.takes o 0xF0 d = true) ∧ (d.target = 0) ∧ (d.payLen = 0) ∧ (d.inl = 0) :=
  ⟨.param 0, ⟨240, 0, 7, 0, 0, 0, 0, 0, []⟩, serving, by decide +kernel⟩

theorem witness_ParameterCommandsAndReading_5 : ∃ (mgmt : Bool) (bytes payload : List Byte) (s : State),
    (s.reads = true) ∧ (s.ringHasDesc (if mgmt then 3 else 0) = true) ∧
        (s.canBegin (if mgmt then .mcmd else .cmd) (descOf (if s.ringLocal (if mgmt then 3 else 0)
        then Mem.getMany 0 s.window (s.ringAddr (if mgmt then 3 else 0) (s.ringHead (if mgmt then 3 else 0)))
        32 else fitBytes 32 bytes) payload).fence = true) :=
  ⟨true, [], [], (serving.setF (R.HIF_RING_STS 3) F.HIF_RING_STS_STATE 1).setF (R.HIF_RING_IDX 3) F.HIF_RING_IDX_TAIL 1, by decide +kernel⟩

theorem witness_ParameterCommandsAndReading_6 : ∃ (d : Desc) (pecOk : Bool) (s : State),
    (s.smbUp = true) ∧ (pecOk = true ∨ s.on R.HIF_SMB_CFG F.HIF_SMB_CFG_PEC_EN = false) ∧
        (s.on R.HIF_SMB_STS F.HIF_SMB_STS_BUSY = false) ∧ (s.reads = true) :=
  ⟨⟨240, 0, 7, 0, 0, 0, 0, 0, []⟩, true, serving, by decide +kernel⟩

theorem witness_ParameterCommandsAndReading_7 : ∃ (d : Desc) (pecOk : Bool) (s : State),
    (s.smbUp = true) ∧ (pecOk = true ∨ s.on R.HIF_SMB_CFG F.HIF_SMB_CFG_PEC_EN = false) ∧
        (s.on R.HIF_SMB_STS F.HIF_SMB_STS_BUSY = true) :=
  ⟨⟨240, 0, 7, 0, 0, 0, 0, 0, []⟩, true, serving.setF R.HIF_SMB_STS F.HIF_SMB_STS_BUSY 1, by decide +kernel⟩

theorem witness_EngineCommands_0 : ∃ (o : Origin) (d : Desc) (bs : List Byte) (p : Prog) (s : State),
    (s.takes o 0x40 d = true) ∧ ((s.begun o 0x40 d).payloadOf o d = bs) ∧ (d.target < 8) ∧ (d.inl = 0) ∧
        (0 < bs.length) ∧ ((s.begun o 0x40 d).swapping d.target = false) ∧
        (admission ((s.begun o 0x40 d).limits d.target) bs = .ok p) :=
  ⟨.param 0, ⟨64, 0, 7, 3, 0, 0, 100, 0, [73, 65, 78, 83, 1, 0, 1, 0, 100, 0, 0, 0, 9, 0, 0, 0, 96, 0, 0, 0, 4, 0, 0, 0, 0, 0, 0, 0, 0, 0, 0, 0, 0, 0, 0, 0, 0, 0, 0, 0, 0, 0, 0, 0, 0, 0, 0, 0, 0, 0, 0, 0, 0, 0, 0, 0, 0, 0, 0, 0, 115, 243, 100, 18, 29, 0, 4, 0, 1, 0, 0, 0, 0, 0, 0, 0, 0, 0, 0, 0, 0, 0, 0, 0, 0, 32, 0, 0, 0, 0, 0, 0, 0, 0, 0, 0, 0, 0, 0, 0]⟩, [73, 65, 78, 83, 1, 0, 1, 0, 100, 0, 0, 0, 9, 0, 0, 0, 96, 0, 0, 0, 4, 0, 0, 0, 0, 0, 0, 0, 0, 0, 0, 0, 0, 0, 0, 0, 0, 0, 0, 0, 0, 0, 0, 0, 0, 0, 0, 0, 0, 0, 0, 0, 0, 0, 0, 0, 0, 0, 0, 0, 115, 243, 100, 18, 29, 0, 4, 0, 1, 0, 0, 0, 0, 0, 0, 0, 0, 0, 0, 0, 0, 0, 0, 0, 0, 32, 0, 0, 0, 0, 0, 0, 0, 0, 0, 0, 0, 0, 0, 0], ⟨9, [⟨0x1D, false, false, 1, 0, 4, 0x2000, 0, [0], []⟩], [0], 64, 129, 0, 419, 0⟩, serving, by first | decide +kernel | exact admitted _ _ (by decide +kernel) | rfl, by first | decide +kernel | exact admitted _ _ (by decide +kernel) | rfl, by first | decide +kernel | exact admitted _ _ (by decide +kernel) | rfl, by first | decide +kernel | exact admitted _ _ (by decide +kernel) | rfl, by first | decide +kernel | exact admitted _ _ (by decide +kernel) | rfl, by first | decide +kernel | exact admitted _ _ (by decide +kernel) | rfl, by first | decide +kernel | exact admitted _ _ (by decide +kernel) | rfl⟩

theorem witness_EngineCommands_1 : ∃ (o : Origin) (d : Desc) (bs : List Byte) (i e : Nat) (s : State),
    (s.takes o 0x40 d = true) ∧ ((s.begun o 0x40 d).payloadOf o d = bs) ∧ (d.target < 8) ∧ (d.inl = 0) ∧
        (0 < bs.length) ∧ ((s.begun o 0x40 d).swapping d.target = false) ∧
        (admission ((s.begun o 0x40 d).limits d.target) bs = .error (i, e)) :=
  ⟨.param 0, ⟨64, 0, 7, 3, 0, 0, 1, 0, [1]⟩, [1], 0x1FF, 1, serving, by first | decide +kernel | exact admitted _ _ (by decide +kernel) | rfl, by first | decide +kernel | exact admitted _ _ (by decide +kernel) | rfl, by first | decide +kernel | exact admitted _ _ (by decide +kernel) | rfl, by first | decide +kernel | exact admitted _ _ (by decide +kernel) | rfl, by first | decide +kernel | exact admitted _ _ (by decide +kernel) | rfl, by first | decide +kernel | exact admitted _ _ (by decide +kernel) | rfl, by first | decide +kernel | exact admitted _ _ (by decide +kernel) | rfl⟩

theorem witness_EngineCommands_2 : ∃ (o : Origin) (d : Desc) (p : Prog) (s : State),
    (s.takes o 0x41 d = true) ∧ (d.target < 8) ∧ (d.payLen = 0) ∧
        (((s.begun o 0x41 d).engX d.target).staged = some p) ∧ (p.id = d.inl) ∧
        ((s.begun o 0x41 d).swapping d.target = false) :=
  ⟨.param 0, ⟨65, 0, 7, 3, 0, 0, 0, 9, []⟩, ⟨9, [⟨0x1D, false, false, 1, 0, 4, 0x2000, 0, [0], []⟩], [0], 64, 129, 0, 419, 0⟩, serving.modEng 3 (fun x => { x with staged := some ⟨9, [⟨0x1D, false, false, 1, 0, 4, 0x2000, 0, [0], []⟩], [0], 64, 129, 0, 419, 0⟩ }), by decide +kernel⟩

theorem witness_EngineCommands_3 : ∃ (o : Origin) (d : Desc) (s : State),
    (s.takes o 0x42 d = true) ∧ (d.target < 8) ∧ (d.payLen = 0) ∧ (d.inl < 2) :=
  ⟨.param 0, ⟨66, 0, 7, 3, 0, 0, 0, 1, []⟩, serving, by decide +kernel⟩

theorem witness_EngineCommands_4 : ∃ (o : Origin) (d : Desc) (bs : List Byte) (s : State),
    (s.takes o 0x43 d = true) ∧ ((s.begun o 0x43 d).payloadOf o d = bs) ∧ (d.target < 8) ∧ (d.inl = 0) ∧
        (16 ≤ bs.length) ∧ ((s.begun o 0x43 d).paramOk d.target bs = true) :=
  ⟨.param 0, ⟨67, 0, 7, 3, 0, 0, 20, 0, [9, 0, 0, 0, 0, 0, 0, 0, 0, 0, 0, 0, 1, 0, 0, 0, 5, 0, 0, 0]⟩, [9, 0, 0, 0, 0, 0, 0, 0, 0, 0, 0, 0, 1, 0, 0, 0, 5, 0, 0, 0], serving, by decide +kernel⟩

theorem witness_EngineCommands_5 : ∃ (o : Origin) (d : Desc) (bs : List Byte) (t : State) (s : State),
    (s.takes o 0x44 d = true) ∧ ((s.begun o 0x44 d).payloadOf o d = bs) ∧ (d.target < 8) ∧ (d.inl = 0) ∧
        ((s.begun o 0x44 d).irLoad d.target bs = (.done, t)) :=
  ⟨.param 0, ⟨68, 0, 7, 3, 0, 0, 272, 0, [9, 0, 0, 0, 0, 0, 1, 0, 0, 0, 0, 0, 64, 0, 0, 0, 0, 0, 0, 0, 0, 0, 0, 0, 0, 0, 0, 0, 0, 0, 0, 0, 0, 0, 0, 0, 0, 0, 0, 0, 0, 0, 0, 0, 0, 0, 0, 0, 0, 0, 0, 0, 0, 0, 0, 0, 0, 0, 0, 0, 0, 0, 0, 0, 0, 0, 0, 0, 0, 0, 0, 0, 0, 0, 0, 0, 0, 0, 0, 0, 0, 0, 0, 0, 0, 0, 0, 0, 0, 0, 0, 0, 0, 0, 0, 0, 0, 0, 0, 0, 0, 0, 0, 0, 0, 0, 0, 0, 0, 0, 0, 0, 0, 0, 0, 0, 0, 0, 0, 0, 0, 0, 0, 0, 0, 0, 0, 0, 0, 0, 0, 0, 0, 0, 0, 0, 0, 0, 0, 0, 0, 0, 0, 0, 0, 0, 0, 0, 0, 0, 0, 0, 0, 0, 0, 0, 0, 0, 0, 0, 0, 0, 0, 0, 0, 0, 0, 0, 0, 0, 0, 0, 0, 0, 0, 0, 0, 0, 0, 0, 0, 0, 0, 0, 0, 0, 0, 0, 0, 0, 0, 0, 0, 0, 0, 0, 0, 0, 0, 0, 0, 0, 0, 0, 0, 0, 0, 0, 0, 0, 0, 0, 0, 0, 0, 0, 0, 0, 0, 0, 0, 0, 0, 0, 0, 0, 0, 0, 0, 0, 0, 0, 0, 0, 0, 0, 0, 0, 0, 0, 0, 0, 0, 0, 0, 0, 0, 0, 0, 0, 0, 0, 0, 0, 0, 0, 0, 0, 0, 0, 0, 0, 0, 0, 0, 0, 0, 0, 0, 0, 0, 0]⟩, [9, 0, 0, 0, 0, 0, 1, 0, 0, 0, 0, 0, 64, 0, 0, 0, 0, 0, 0, 0, 0, 0, 0, 0, 0, 0, 0, 0, 0, 0, 0, 0, 0, 0, 0, 0, 0, 0, 0, 0, 0, 0, 0, 0, 0, 0, 0, 0, 0, 0, 0, 0, 0, 0, 0, 0, 0, 0, 0, 0, 0, 0, 0, 0, 0, 0, 0, 0, 0, 0, 0, 0, 0, 0, 0, 0, 0, 0, 0, 0, 0, 0, 0, 0, 0, 0, 0, 0, 0, 0, 0, 0, 0, 0, 0, 0, 0, 0, 0, 0, 0, 0, 0, 0, 0, 0, 0, 0, 0, 0, 0, 0, 0, 0, 0, 0, 0, 0, 0, 0, 0, 0, 0, 0, 0, 0, 0, 0, 0, 0, 0, 0, 0, 0, 0, 0, 0, 0, 0, 0, 0, 0, 0, 0, 0, 0, 0, 0, 0, 0, 0, 0, 0, 0, 0, 0, 0, 0, 0, 0, 0, 0, 0, 0, 0, 0, 0, 0, 0, 0, 0, 0, 0, 0, 0, 0, 0, 0, 0, 0, 0, 0, 0, 0, 0, 0, 0, 0, 0, 0, 0, 0, 0, 0, 0, 0, 0, 0, 0, 0, 0, 0, 0, 0, 0, 0, 0, 0, 0, 0, 0, 0, 0, 0, 0, 0, 0, 0, 0, 0, 0, 0, 0, 0, 0, 0, 0, 0, 0, 0, 0, 0, 0, 0, 0, 0, 0, 0, 0, 0, 0, 0, 0, 0, 0, 0, 0, 0, 0, 0, 0, 0, 0, 0, 0, 0, 0, 0, 0, 0, 0, 0, 0, 0, 0, 0, 0, 0, 0, 0, 0, 0], ((irState.begun (.param 0) 0x44 ⟨68, 0, 7, 3, 0, 0, 272, 0, [9, 0, 0, 0, 0, 0, 1, 0, 0, 0, 0, 0, 64, 0, 0, 0, 0, 0, 0, 0, 0, 0, 0, 0, 0, 0, 0, 0, 0, 0, 0, 0, 0, 0, 0, 0, 0, 0, 0, 0, 0, 0, 0, 0, 0, 0, 0, 0, 0, 0, 0, 0, 0, 0, 0, 0, 0, 0, 0, 0, 0, 0, 0, 0, 0, 0, 0, 0, 0, 0, 0, 0, 0, 0, 0, 0, 0, 0, 0, 0, 0, 0, 0, 0, 0, 0, 0, 0, 0, 0, 0, 0, 0, 0, 0, 0, 0, 0, 0, 0, 0, 0, 0, 0, 0, 0, 0, 0, 0, 0, 0, 0, 0, 0, 0, 0, 0, 0, 0, 0, 0, 0, 0, 0, 0, 0, 0, 0, 0, 0, 0, 0, 0, 0, 0, 0, 0, 0, 0, 0, 0, 0, 0, 0, 0, 0, 0, 0, 0, 0, 0, 0, 0, 0, 0, 0, 0, 0, 0, 0, 0, 0, 0, 0, 0, 0, 0, 0, 0, 0, 0, 0, 0, 0, 0, 0, 0, 0, 0, 0, 0, 0, 0, 0, 0, 0, 0, 0, 0, 0, 0, 0, 0, 0, 0, 0, 0, 0, 0, 0, 0, 0, 0, 0, 0, 0, 0, 0, 0, 0, 0, 0, 0, 0, 0, 0, 0, 0, 0, 0, 0, 0, 0, 0, 0, 0, 0, 0, 0, 0, 0, 0, 0, 0, 0, 0, 0, 0, 0, 0, 0, 0, 0, 0, 0, 0, 0, 0, 0, 0, 0, 0, 0, 0, 0, 0, 0, 0, 0, 0, 0, 0, 0, 0, 0, 0, 0, 0, 0, 0, 0, 0]⟩).irLoad 3 [9, 0, 0, 0, 0, 0, 1, 0, 0, 0, 0, 0, 64, 0, 0, 0, 0, 0, 0, 0, 0, 0, 0, 0, 0, 0, 0, 0, 0, 0, 0, 0, 0, 0, 0, 0, 0, 0, 0, 0, 0, 0, 0, 0, 0, 0, 0, 0, 0, 0, 0, 0, 0, 0, 0, 0, 0, 0, 0, 0, 0, 0, 0, 0, 0, 0, 0, 0, 0, 0, 0, 0, 0, 0, 0, 0, 0, 0, 0, 0, 0, 0, 0, 0, 0, 0, 0, 0, 0, 0, 0, 0, 0, 0, 0, 0, 0, 0, 0, 0, 0, 0, 0, 0, 0, 0, 0, 0, 0, 0, 0, 0, 0, 0, 0, 0, 0, 0, 0, 0, 0, 0, 0, 0, 0, 0, 0, 0, 0, 0, 0, 0, 0, 0, 0, 0, 0, 0, 0, 0, 0, 0, 0, 0, 0, 0, 0, 0, 0, 0, 0, 0, 0, 0, 0, 0, 0, 0, 0, 0, 0, 0, 0, 0, 0, 0, 0, 0, 0, 0, 0, 0, 0, 0, 0, 0, 0, 0, 0, 0, 0, 0, 0, 0, 0, 0, 0, 0, 0, 0, 0, 0, 0, 0, 0, 0, 0, 0, 0, 0, 0, 0, 0, 0, 0, 0, 0, 0, 0, 0, 0, 0, 0, 0, 0, 0, 0, 0, 0, 0, 0, 0, 0, 0, 0, 0, 0, 0, 0, 0, 0, 0, 0, 0, 0, 0, 0, 0, 0, 0, 0, 0, 0, 0, 0, 0, 0, 0, 0, 0, 0, 0, 0, 0, 0, 0, 0, 0, 0, 0, 0, 0, 0, 0, 0, 0, 0, 0, 0, 0, 0, 0]).2, irState, by decide +kernel⟩

theorem witness_EngineCommands_6 : ∃ (o : Origin) (d : Desc) (bs : List Byte) (s : State),
    (s.takes o 0x45 d = true) ∧ ((s.begun o 0x45 d).payloadOf o d = bs) ∧ (d.target = 0) ∧ (d.inl = 0) ∧
        (bs.length = 8) ∧ (bytesAt bs 0 1 ≤ 7) ∧ (2 ≤ bytesAt bs 2 1) ∧ (bytesAt bs 2 1 ≤ bytesAt bs 1 1) ∧
        (bytesAt bs 1 1 ≤ 48) ∧ ((bs.drop 3).all (fun b => b == 0) = true) ∧
        ((s.begun o 0x45 d).fld (R.ENG_STS (bytesAt bs 0 1)) F.ENG_STS_MODE_ACT = 0) :=
  ⟨.param 0, ⟨69, 0, 7, 0, 0, 0, 8, 0, [3, 8, 4, 0, 0, 0, 0, 0]⟩, [3, 8, 4, 0, 0, 0, 0, 0], serving.setF (R.ENG_STS 3) F.ENG_STS_MODE_ACT 0, by decide +kernel⟩

theorem witness_EngineCommands_7 : ∃ (o : Origin) (d : Desc) (bs : List Byte) (s : State),
    (s.takes o 0x46 d = true) ∧ ((s.begun o 0x46 d).payloadOf o d = bs) ∧ (d.target = 0) ∧ (d.inl = 0) ∧
        (bs.length = 2) ∧ (bytesAt bs 0 1 < 8) ∧ (bytesAt bs 1 1 < 2) :=
  ⟨.param 0, ⟨70, 0, 7, 0, 0, 0, 2, 0, [3, 1]⟩, [3, 1], serving, by decide +kernel⟩

theorem witness_StreamSenseOutputCommands_0 : ∃ (o : Origin) (d : Desc) (s : State),
    (s.takes o 0x50 d = true) ∧ (d.target = 0) ∧ (d.payLen = 0) ∧ (d.inlIn 1 = true) ∧
        ((s.begun o 0x50 d).ringState 5 = ringRunning) ∧ ((s.begun o 0x50 d).on R.AFE_LSN_CFG F.AFE_LSN_CFG_EN =
        true) :=
  ⟨.param 0, ⟨80, 0, 7, 0, 0, 0, 0, 1, []⟩, (serving.setF (R.HIF_RING_STS 5) F.HIF_RING_STS_STATE 1).setF R.AFE_LSN_CFG F.AFE_LSN_CFG_EN 1, by decide +kernel⟩

theorem witness_StreamSenseOutputCommands_1 : ∃ (o : Origin) (d : Desc) (s : State),
    (s.takes o 0x50 d = true) ∧ (d.target = 0) ∧ (d.payLen = 0) ∧ (d.inlIn 1 = true) ∧
        ((s.begun o 0x50 d).on R.AFE_LSN_CFG F.AFE_LSN_CFG_EN = false) :=
  ⟨.param 0, ⟨80, 0, 7, 0, 0, 0, 0, 1, []⟩, serving, by decide +kernel⟩

theorem witness_StreamSenseOutputCommands_2 : ∃ (o : Origin) (d : Desc) (s : State),
    (s.takes o 0x51 d = true) ∧ (d.target = 0) ∧ (d.payLen = 0) ∧ (d.inl = 0) :=
  ⟨.param 0, ⟨81, 0, 7, 0, 0, 0, 0, 0, []⟩, serving, by decide +kernel⟩

theorem witness_StreamSenseOutputCommands_3 : ∃ (o : Origin) (d : Desc) (s : State),
    (s.takes o 0x52 d = true) ∧ (6 ≤ d.target) ∧ (d.target ≤ 13) ∧ (d.payLen = 0) ∧ (d.inl = 0) :=
  ⟨.param 0, ⟨82, 0, 7, 7, 0, 0, 0, 0, []⟩, serving, by decide +kernel⟩

theorem witness_StreamSenseOutputCommands_4 : ∃ (o : Origin) (d : Desc) (s : State),
    (s.takes o 0x53 d = true) ∧ (6 ≤ d.target) ∧ (d.target ≤ 13) ∧ (d.payLen = 0) ∧ (d.inl = 0) :=
  ⟨.param 0, ⟨83, 0, 7, 7, 0, 0, 0, 0, []⟩, serving, by decide +kernel⟩

theorem witness_StreamSenseOutputCommands_5 : ∃ (o : Origin) (d : Desc) (s : State),
    (s.takes o 0x70 d = true) ∧ (d.target < 2) ∧ (d.payLen = 0) ∧ (d.inl = 0) :=
  ⟨.param 0, ⟨112, 0, 7, 1, 0, 0, 0, 0, []⟩, serving, by decide +kernel⟩

theorem witness_StreamSenseOutputCommands_6 : ∃ (o : Origin) (d : Desc) (bs : List Byte) (s : State),
    (s.takes o 0x71 d = true) ∧ ((s.begun o 0x71 d).payloadOf o d = bs) ∧ (d.target = 0) ∧ (d.inl = 0) ∧
        (bs.length = 4) ∧ (bytesAt bs 0 1 < 2) ∧ (bytesAt bs 1 1 < 32) ∧ (bytesAt bs 2 1 < 8) ∧
        (bytesAt bs 3 1 ≤ 10) ∧ ((s.begun o 0x71 d).injFull (bytesAt bs 0 1) = false) :=
  ⟨.param 0, ⟨113, 0, 7, 0, 0, 0, 4, 0, [1, 2, 3, 4]⟩, [1, 2, 3, 4], serving, by decide +kernel⟩

theorem witness_StreamSenseOutputCommands_7 : ∃ (o : Origin) (d : Desc) (bs : List Byte) (s : State),
    (s.takes o 0x72 d = true) ∧ ((s.begun o 0x72 d).payloadOf o d = bs) ∧ (d.target = 0) ∧ (d.inl = 0) ∧
        (calOk bs = true) :=
  ⟨.param 0, ⟨114, 0, 7, 0, 0, 0, 12, 0, [1, 2, 3, 4, 1, 0, 0, 0, 5, 0, 0, 0]⟩, [1, 2, 3, 4, 1, 0, 0, 0, 5, 0, 0, 0], serving, by decide +kernel⟩

theorem witness_StreamSenseOutputCommands_8 : ∃ (o : Origin) (d : Desc) (s : State),
    (s.takes o 0x80 d = true) ∧ (d.target < 8) ∧ (d.payLen = 0) ∧ (d.inl = 0) :=
  ⟨.param 0, ⟨128, 0, 7, 3, 0, 0, 0, 0, []⟩, serving, by decide +kernel⟩

theorem witness_StreamSenseOutputCommands_9 : ∃ (o : Origin) (d : Desc) (s : State),
    (s.takes o 0x81 d = true) ∧ (d.target < 16) ∧ (d.payLen = 0) ∧ (d.inl = 0) :=
  ⟨.param 0, ⟨129, 0, 7, 3, 0, 0, 0, 0, []⟩, serving, by decide +kernel⟩

theorem witness_TetherCommands_0 : ∃ (o : Origin) (d : Desc) (bs : List Byte) (s : State),
    (s.takes o 0x60 d = true) ∧ ((s.begun o 0x60 d).payloadOf o d = bs) ∧ (d.inl = 0) ∧ (4 ≤ bs.length) ∧
        (bs.length % 4 = 0) ∧ (d.target + (wordsOf bs).length ≤ 1152) ∧
        ((wordsOf bs).all (fun w => decide (w.toNat < 2 ^ 18)) = true) :=
  ⟨.param 0, ⟨96, 0, 7, 5, 0, 0, 4, 0, [100, 0, 0, 0]⟩, [100, 0, 0, 0], serving, by decide +kernel⟩

theorem witness_TetherCommands_1 : ∃ (o : Origin) (d : Desc) (s : State),
    (s.takes o 0x61 d = true) ∧ (d.target = 0) ∧ (d.payLen = 0) ∧ (d.inl / 2 ^ 24 < 8) ∧
        ((s.begun o 0x61 d).modeBad (d.inl % 2 ^ 24) (d.inl / 2 ^ 24) = false) :=
  ⟨.param 0, ⟨97, 0, 7, 0, 0, 0, 0, 1, []⟩, serving, by decide +kernel⟩

theorem witness_TetherCommands_2 : ∃ (o : Origin) (d : Desc) (s : State),
    (s.takes o 0x62 d = true) ∧ (d.target = 0) ∧ (d.payLen = 0) ∧ (d.inl < 2 ^ 24) :=
  ⟨.param 0, ⟨98, 0, 7, 0, 0, 0, 0, 5, []⟩, serving, by decide +kernel⟩

theorem witness_TetherCommands_3 : ∃ (o : Origin) (d : Desc) (s : State),
    (s.takes o 0x63 d = true) ∧ (d.target = 0) ∧ (d.payLen = 0) ∧ (d.inl = 0) :=
  ⟨.param 0, ⟨99, 0, 7, 0, 0, 0, 0, 0, []⟩, serving, by decide +kernel⟩

theorem witness_TetherCommands_4 : ∃ (o : Origin) (d : Desc) (s : State),
    (s.takes o 0x64 d = true) ∧ (d.target = 0) ∧ (d.payLen = 0) ∧ (d.inlIn 0xFF03FF = true) ∧
        (((s.begun o 0x64 d).dirEntry (d.inl % 1024)).isNone = false) ∧ ((s.begun o 0x64 d).playRoom = true) :=
  ⟨.param 0, ⟨100, 0, 7, 0, 0, 0, 0, 131077, []⟩, serving.modTth (fun y => { y with part := Mem.setMany 0xFF y.part 0x20050 [0, 0, 3, 0, 8, 0, 0, 0, 0, 0, 0, 0, 217, 102, 7, 67] }), by decide +kernel⟩

theorem witness_TetherCommands_5 : ∃ (o : Origin) (d : Desc) (s : State),
    (s.takes o 0x65 d = true) ∧ (d.target = 0) ∧ (d.payLen = 0) ∧ (d.inl = 0) :=
  ⟨.param 0, ⟨101, 0, 7, 0, 0, 0, 0, 0, []⟩, serving, by decide +kernel⟩

theorem witness_LockCommands_0 : ∃ (o : Origin) (d : Desc) (w : Nat) (s : State),
    (s.takes o 0xA0 d = true) ∧ (d.target < 28) ∧ (d.payLen = 0) ∧ (d.inl ≤ leaseMax) ∧ (originOwner o = some w) ∧
        ((s.begun o 0xA0 d).lockOf w = none) ∧ ((s.begun o 0xA0 d).lockHeld d.target = false) ∧
        ((s.begun o 0xA0 d).on (R.LCK_STS d.target) F.LCK_STS_ABANDONED = false) :=
  ⟨.param 0, ⟨160, 0, 7, 3, 0, 0, 0, 100, []⟩, 0x30, serving, by decide +kernel⟩

theorem witness_LockCommands_1 : ∃ (o : Origin) (d : Desc) (w : Nat) (s : State),
    (s.takes o 0xA0 d = true) ∧ (d.target < 28) ∧ (d.payLen = 0) ∧ (d.inl ≤ leaseMax) ∧ (originOwner o = some w) ∧
        ((s.begun o 0xA0 d).lockOf w = none) ∧ ((s.begun o 0xA0 d).lockHeld d.target = true) :=
  ⟨.param 0, ⟨160, 0, 7, 3, 0, 0, 0, 100, []⟩, 0x30, (serving.setF (R.LCK_STS 3) F.LCK_STS_HELD 1).setF (R.LCK_STS 3) F.LCK_STS_OWNER 5, by decide +kernel⟩

theorem witness_LockCommands_2 : ∃ (o : Origin) (d : Desc) (s : State),
    (s.takes o 0xA1 d = true) ∧ (d.target < 32) ∧ (d.payLen = 0) ∧ (d.inl = 0) ∧
        (((originOwner o).bind (s.begun o 0xA1 d).lockOf) = some d.target) ∧
        ((s.begun o 0xA1 d).seqTooLong d.target = false) ∧ (((s.begun o 0xA1 d).lock d.target).failed = false) :=
  ⟨.param 0, ⟨161, 0, 7, 3, 0, 0, 0, 0, []⟩, (((serving.setF (R.LCK_STS 3) F.LCK_STS_HELD 1).setF (R.LCK_STS 3) F.LCK_STS_STATE lockOpen).setF (R.LCK_STS 3) F.LCK_STS_OWNER 0x30), by decide +kernel⟩

theorem witness_LockCommands_3 : ∃ (o : Origin) (d : Desc) (s : State),
    (s.takes o 0xA2 d = true) ∧ (d.target < 32) ∧ (d.payLen = 0) ∧ (d.inl = 0) ∧
        (((originOwner o).bind (s.begun o 0xA2 d).lockOf) = some d.target) :=
  ⟨.param 0, ⟨162, 0, 7, 3, 0, 0, 0, 0, []⟩, (((serving.setF (R.LCK_STS 3) F.LCK_STS_HELD 1).setF (R.LCK_STS 3) F.LCK_STS_STATE lockOpen).setF (R.LCK_STS 3) F.LCK_STS_OWNER 0x30), by decide +kernel⟩

theorem witness_LockCommands_4 : ∃ (o : Origin) (d : Desc) (s : State),
    (s.takes o 0xA2 d = true) ∧ (d.target < 32) ∧ (d.payLen = 0) ∧ (d.inl = 0) ∧
        ((originOwner o).bind (s.begun o 0xA2 d).lockOf ≠ some d.target) :=
  ⟨.param 0, ⟨162, 0, 7, 4, 0, 0, 0, 0, []⟩, (((serving.setF (R.LCK_STS 3) F.LCK_STS_HELD 1).setF (R.LCK_STS 3) F.LCK_STS_STATE lockOpen).setF (R.LCK_STS 3) F.LCK_STS_OWNER 0x30), by decide +kernel⟩

theorem witness_LockCommands_5 : ∃ (o : Origin) (d : Desc) (s : State),
    (s.takes o 0xA3 d = true) ∧ (d.target < 32) ∧ (d.payLen = 0) ∧ (d.inl ≤ leaseMax) ∧
        (((originOwner o).bind (s.begun o 0xA3 d).lockOf) = some d.target) :=
  ⟨.param 0, ⟨163, 0, 7, 3, 0, 0, 0, 50, []⟩, (((serving.setF (R.LCK_STS 3) F.LCK_STS_HELD 1).setF (R.LCK_STS 3) F.LCK_STS_STATE lockOpen).setF (R.LCK_STS 3) F.LCK_STS_OWNER 0x30), by decide +kernel⟩

theorem witness_ManagementCommands_0 : ∃ (o : Origin) (d : Desc) (s : State),
    (s.takes o 0xC0 d = true) ∧ (d.payLen = 0) ∧ (d.inl = 0) ∧ (d.target ≤ 8) ∧
        ((s.begun o 0xC0 d).journalShut = false) :=
  ⟨.health 0, ⟨192, 0, 7, 0, 0, 0, 0, 0, []⟩, serving, by decide +kernel⟩

theorem witness_ManagementCommands_1 : ∃ (o : Origin) (d : Desc) (s : State),
    (s.takes o 0xC0 d = true) ∧ (d.payLen = 0) ∧ (d.inl = 0) ∧ (d.target = 0xFFFFFFFF) ∧
        ((s.begun o 0xC0 d).journalShut = false) :=
  ⟨.health 0, ⟨192, 0, 7, 4294967295, 0, 0, 0, 0, []⟩, serving, by decide +kernel⟩

theorem witness_ManagementCommands_2 : ∃ (o : Origin) (d : Desc) (r : JRec) (s : State),
    (s.takes o 0xC1 d = true) ∧ (d.inl = 0) ∧ (d.target ≤ 0xFFFE) ∧ (d.payLen ≤ 4096) ∧
        ((s.begun o 0xC1 d).flash.view d.target = .record r) ∧ (r.size ≤ d.payLen) :=
  ⟨.health 0, ⟨193, 0, 7, 1, 0, 0, 64, 0, List.replicate 64 0⟩, ⟨1, 1, [0], .valid⟩, journaled, by first | decide +kernel | exact admitted _ _ (by decide +kernel) | rfl, by first | decide +kernel | exact admitted _ _ (by decide +kernel) | rfl, by first | decide +kernel | exact admitted _ _ (by decide +kernel) | rfl, by first | decide +kernel | exact admitted _ _ (by decide +kernel) | rfl, by first | decide +kernel | exact admitted _ _ (by decide +kernel) | rfl, by first | decide +kernel | exact admitted _ _ (by decide +kernel) | rfl⟩

theorem witness_ManagementCommands_3 : ∃ (o : Origin) (d : Desc) (bs : List Byte) (s : State),
    (s.takes o 0xC2 d = true) ∧ ((s.begun o 0xC2 d).payloadOf o d = bs) ∧ (d.target < 2) ∧ (d.inl % 65536 = 0) ∧
        (d.inl < 0x400000) ∧ (1 ≤ bs.length) ∧ (bs.length ≤ 65536) ∧
        ((s.begun o 0xC2 d).fld R.CLK_BOOT_STS F.CLK_BOOT_STS_IMG ≠ d.target) ∧
        ((s.begun o 0xC2 d).rangeProtected (bootBase d.target + d.inl) 65536 = false) :=
  ⟨.health 0, ⟨194, 0, 7, 1, 0, 0, 1, 65536, [1]⟩, [1], serving, by decide +kernel⟩

theorem witness_ManagementCommands_4 : ∃ (o : Origin) (d : Desc) (s : State),
    (s.takes o 0xC3 d = true) ∧ (d.target < 2) ∧ (d.payLen = 0) ∧ (d.inl = 0) ∧
        ((s.begun o 0xC3 d).journalShut = false) :=
  ⟨.health 0, ⟨195, 0, 7, 1, 0, 0, 0, 0, []⟩, serving, by decide +kernel⟩

theorem witness_ManagementCommands_5 : ∃ (o : Origin) (d : Desc) (s : State),
    (s.takes o 0xC4 d = true) ∧ (d.target = 1) ∧ (d.payLen = 0) ∧ (d.inl = 0) ∧
        ((s.begun o 0xC4 d).power.trans = none) ∧ ((s.begun o 0xC4 d).power.mode = .run) ∧
        ((s.begun o 0xC4 d).tthIdle16 = true) :=
  ⟨.health 0, ⟨196, 0, 7, 1, 0, 0, 0, 0, []⟩, serving, by decide +kernel⟩

theorem witness_ManagementCommands_6 : ∃ (o : Origin) (d : Desc) (s : State),
    (s.takes o 0xC4 d = true) ∧ (d.target < 4) ∧ (d.payLen = 0) ∧ (d.inl = 0) ∧
        ((s.begun o 0xC4 d).power.trans = none) ∧ (modeCode (s.begun o 0xC4 d).power.mode = d.target) :=
  ⟨.health 0, ⟨196, 0, 7, 0, 0, 0, 0, 0, []⟩, serving, by decide +kernel⟩

theorem witness_ManagementCommands_7 : ∃ (o : Origin) (d : Desc) (bs : List Byte) (s : State),
    (s.takes o 0xC5 d = true) ∧ ((s.begun o 0xC5 d).payloadOf o d = bs) ∧ (d.target < 1024) ∧ (d.inl = 0) ∧
        (messageOk bs = true) ∧ ((s.begun o 0xC5 d).messageBusy d.target = false) ∧
        ((s.begun o 0xC5 d).rangeProtected (messageBase + framePlace d.target (frameCount (natAt bs 0)))
        (256 * frameCount (natAt bs 0)) = false) ∧ ((s.begun o 0xC5 d).rangeProtected (messageBase + 0x20000 + 16 *
        d.target) 16 = false) :=
  ⟨.health 0, ⟨197, 0, 7, 3, 0, 0, 13, 0, [2, 0, 0, 0, 0, 0, 0, 0, 0, 0, 0, 0, 0]⟩, [2, 0, 0, 0, 0, 0, 0, 0, 0, 0, 0, 0, 0], serving, by decide +kernel, by decide +kernel, by decide +kernel, by decide +kernel,
    by decide +kernel, by decide +kernel, by
      have e : ∀ a n, (serving.begun (.health 0)
          0xC5 ⟨197, 0, 7, 3, 0, 0, 13, 0, [2, 0, 0, 0, 0, 0, 0, 0, 0, 0, 0, 0, 0]⟩).rangeProtected a n =
          serving.rangeProtected a n := fun _ _ => rfl
      exact (e _ _).trans (messages_unprotected _), by decide +kernel⟩

theorem witness_ManagementCommands_8 : ∃ (o : Origin) (d : Desc) (bs : List Byte) (s : State),
    (s.takes o 0xC6 d = true) ∧ ((s.begun o 0xC6 d).payloadOf o d = bs) ∧ (d.target = 0) ∧ (d.inl = 0) ∧
        (tthImageOk bs = true) ∧ ((s.begun o 0xC6 d).rangeProtected (messageBase + 0x10000 *
        (s.begun o 0xC6 d).tthTarget) bs.length = false) :=
  ⟨.health 0, ⟨198, 0, 7, 0, 0, 0, 40, 0, [84, 72, 69, 76, 0, 0, 0, 0, 1, 0, 0, 0, 0, 0, 0, 0, 0, 0, 0, 0, 0, 0, 0, 0, 0, 0, 0, 0, 57, 216, 58, 2, 0, 0, 0, 0, 0, 0, 0, 0]⟩, [84, 72, 69, 76, 0, 0, 0, 0, 1, 0, 0, 0, 0, 0, 0, 0, 0, 0, 0, 0, 0, 0, 0, 0, 0, 0, 0, 0, 57, 216, 58, 2, 0, 0, 0, 0, 0, 0, 0, 0], serving, by decide +kernel⟩

theorem witness_ManagementCommands_9 : ∃ (o : Origin) (d : Desc) (s : State),
    (s.takes o 0xC7 d = true) ∧ (d.inl = 0) ∧ (d.payLen % 64 = 0) ∧ (64 ≤ d.payLen) ∧ (d.payLen ≤ 65536) ∧
        ((s.begun o 0xC7 d).metro.read = none) :=
  ⟨.health 0, ⟨199, 0, 7, 5, 0, 0, 64, 0, List.replicate 64 0⟩, serving, by decide +kernel⟩

theorem witness_SuppliesAndReset_0 : ∃ (vsys : Nat) (testen : Bool) (s : State),
    (s.power.mode = .off) ∧ (4400 < vsys) :=
  ⟨5000, false, up.modPower (fun p => { p with mode := .off }), by decide⟩

theorem witness_SuppliesAndReset_1 : ∃ (s : State),
    (s.power.mode ≠ .off) :=
  ⟨up, by decide⟩

theorem witness_SuppliesAndReset_2 : ∃ (testen : Bool) (s : State),
    (s.power.mode ≠ .off) ∧ (s.power.mode ≠ .shelf) :=
  ⟨true, up.modPower (fun p => { p with mode := .run }), by decide⟩

theorem witness_SuppliesAndReset_3 : ∃ (testen : Bool) (s : State),
    (s.power.mode = .shelf) :=
  ⟨true, up.modPower (fun p => { p with mode := .shelf }), by decide⟩

theorem witness_SuppliesAndReset_5 : ∃ (i : Fin 16) (mv : Nat) (s : State),
    (s.on (R.CLK_RAIL i) F.CLK_RAIL_ON = true) :=
  ⟨3, 900, up.setF (R.CLK_RAIL 3) F.CLK_RAIL_ON 1, by decide⟩

theorem witness_SuppliesAndReset_6 : ∃ (s : State),
    (s.leaving = false) ∧ (s.power.hubUp = true) :=
  ⟨up, by decide⟩

theorem witness_SuppliesAndReset_7 : ∃ (s : State),
    (s.leaving = true) :=
  ⟨up.modPower (fun p => { p with trans := some .listen }), by decide⟩

theorem witness_BootAndSeal_0 : ∃ (errA errB : Bool) (s : State),
    (s.mayBoot = true) :=
  ⟨false, false, State.reset.modTest (fun x => { x with testen := false }), by decide +kernel⟩

theorem witness_BootAndSeal_1 : ∃ (a : Agent) (s : State),
    (s.accepts a R.CLK_BOOTSEAL 1 = true) ∧ (s.isSealed = false) :=
  ⟨13, up, by decide⟩

theorem witness_BootAndSeal_2 : ∃ (a : Agent) (addr : BitVec 17) (v : Word) (s : State),
    (s.accepts a addr.toNat v = true) :=
  ⟨13, 0x1014, 5, up, by decide⟩

theorem witness_BootAndSeal_3 : ∃ (s : State),
    (s.power.hubUp = true) ∧ (s.isSealed = true) ∧ (s.on R.CLK_BOOT_STS F.CLK_BOOT_STS_JNL_DONE = false) ∧
        (s.fld R.CLK_BOOT_STS F.CLK_BOOT_STS_IMG ≠ 2) ∧ (s.stage.toF = []) ∧
        (s.stage.changes.all (fun c => c.rank != rankRestore) = true) :=
  ⟨serving.setF R.CLK_BOOT_STS F.CLK_BOOT_STS_JNL_DONE 0, by decide⟩

theorem witness_BootAndSeal_4 : ∃ (off : Nat) (bs : List Byte) (o : FlashOp) (rest : List FlashOp) (s : State),
    (s.flash.ops = o :: rest) ∧ (o.job = .recovery off bs) :=
  ⟨0, [1], ⟨none, .recovery 0 [1], 0⟩, [], up.modFlash (fun f => { f with ops := [⟨none, .recovery 0 [1], 0⟩] }), by decide⟩

theorem witness_BootAndSeal_5 : ∃ (off : Nat) (bs : List Byte) (o : FlashOp) (rest : List FlashOp) (s : State),
    (s.flash.ops = o :: rest) ∧ (o.job = .recovery off bs) :=
  ⟨0, [1], ⟨none, .recovery 0 [1], 0⟩, [], up.modFlash (fun f => { f with ops := [⟨none, .recovery 0 [1], 0⟩] }), by decide⟩

theorem witness_ListenAndWake_0 : ∃ (idx : Nat) (s : State),
    (s.entering = true) ∧ (s.power.step = 2) ∧ (s.outputsZero = true) ∧
        (s.power.trans ≠ some .listen ∨ s.on R.CLK_MODE_CTL F.CLK_MODE_CTL_LISTEN_PARK = false) :=
  ⟨7, (up.modPower (fun p => { p with trans := some .listen, step := 2 })).setF R.CLK_MODE_CTL F.CLK_MODE_CTL_LISTEN_PARK 0, by decide +kernel⟩

theorem witness_ListenAndWake_1 : ∃ (idx : Nat) (s : State),
    (s.power.trans = some .listen) ∧ (s.power.step = 2) ∧ (s.outputsZero = true) ∧
        (s.on R.CLK_MODE_CTL F.CLK_MODE_CTL_LISTEN_PARK = true) :=
  ⟨7, (up.modPower (fun p => { p with trans := some .listen, step := 2 })).setF R.CLK_MODE_CTL F.CLK_MODE_CTL_LISTEN_PARK 1, by decide +kernel⟩

theorem witness_ListenAndWake_2 : ∃ (s : State),
    (s.power.trans = some .listen) ∧ (s.power.step = 3) ∧ (s.power.stepAt + 180000000 ≤ s.clk.now3) ∧
        (s.flash.ops = []) ∧ (s.flash.compacting = none) :=
  ⟨(up.modPower (fun p => { p with trans := some .listen, step := 3 })).modClk (fun c => { c with now3 := 180000000 }), by decide⟩

theorem witness_ListenAndWake_3 : ∃ (s : State),
    (s.power.trans = some .shelf) ∧ (s.power.step = 3) ∧ (s.power.stepAt + 180000000 ≤ s.clk.now3) ∧
        (s.flash.ops = []) ∧ (s.flash.compacting = none) :=
  ⟨(up.modPower (fun p => { p with trans := some .shelf, step := 3 })).modClk (fun c => { c with now3 := 180000000 }), by decide⟩

theorem witness_ListenAndWake_4 : ∃ (src : Fin 4) (s : State),
    (s.power.trans = some .listen) :=
  ⟨1, up.modPower (fun p => { p with trans := some .listen }), by decide⟩

theorem witness_ListenAndWake_5 : ∃ (k : Fin 4) (s : State),
    (s.bit R.CLK_WAKE_CFG k = true) ∧ (s.power.mode = .listen) ∧ (s.power.trans = none) :=
  ⟨2, (up.modPower (fun p => { p with mode := .listen, trans := none })).setBit R.CLK_WAKE_CFG 2 true, by decide⟩

theorem witness_ListenAndWake_6 : ∃ (idx : Nat) (s : State),
    (s.power.mode = .listen) ∧ (s.power.trans = some .run) ∧ (s.power.step = 0) ∧
        (s.power.since + 18000000 ≤ s.clk.now3) :=
  ⟨5, (up.modPower (fun p => { p with mode := .listen, trans := some .run })).modClk (fun c => { c with now3 := 18000000 }), by decide⟩

theorem witness_ListenAndWake_7 : ∃ (s : State),
    (s.power.hubUp = true) ∧ (s.power.mode = .listen) ∧ (s.power.trans = some .run) ∧ (s.power.step = 3) ∧
        (s.power.since + 210000000 ≤ s.clk.now3) :=
  ⟨(up.modPower (fun p => { p with mode := .listen, trans := some .run, step := 3 })).modClk (fun c => { c with now3 := 210000000 }), by decide⟩

theorem witness_Zhevdom_0 : ∃ (m : ZvMsg) (i : Nat) (s : State),
    (s.zvTake 1 m = .accept (some i)) ∧ ((s.net.zv.seen.getD i []).find? (fun x => x.seq == m.seq) = none) :=
  ⟨⟨0x112233445566, 1, 0, 0xFFFF, 0, 9, []⟩, 0, controlled, by first | decide +kernel | exact admitted _ _ (by decide +kernel) | rfl, by first | decide +kernel | exact admitted _ _ (by decide +kernel) | rfl⟩

theorem witness_Zhevdom_1 : ∃ (m : ZvMsg) (s : State),
    (s.zvTake 1 m = .accept none) :=
  ⟨⟨0x112233445566, 1, 0, 0xFFFF, 0, 9, []⟩, zhev, by first | decide +kernel | exact admitted _ _ (by decide +kernel) | rfl⟩

theorem witness_Zhevdom_2 : ∃ (i : Nat) (mac : Mac) (seq : Nat) (e : Option Nat) (at_ : Nat) (s : State),
    (s.net.zv.disc[i]? = some (mac, seq, e, at_)) :=
  ⟨0, 5, 9, none, 3, up.modZv (fun z => { z with disc := [(5, 9, none, 3)] }), by decide⟩

theorem witness_Zhevdom_3 : ∃ (m : ZvMsg) (i : Nat) (s : State),
    (s.zvTake 2 m = .accept (some i)) ∧ ((s.net.zv.seen.getD i []).find? (fun x => x.seq == m.seq) = none) ∧
        (m.payload.length = 10) ∧ (bytesAt m.payload 0 8 = (s.zvNote i m.seq).getPair R.GLB_DIE_ID_LO
        R.GLB_DIE_ID_HI) ∧ (addrOk (bytesAt m.payload 8 2) = true) :=
  ⟨⟨0x112233445566, 1, 0, 0xFFFF, 0, 9, [0, 0, 0, 0, 0, 0, 0, 0, 5, 0]⟩, 0, controlled.modRegs (fun r => (R.GLB_DIE_ID_LO, 0) :: (R.GLB_DIE_ID_HI, 0) :: r), by first | decide +kernel | exact admitted _ _ (by decide +kernel) | rfl, by first | decide +kernel | exact admitted _ _ (by decide +kernel) | rfl, by first | decide +kernel | exact admitted _ _ (by decide +kernel) | rfl, by first | decide +kernel | exact admitted _ _ (by decide +kernel) | rfl, by first | decide +kernel | exact admitted _ _ (by decide +kernel) | rfl⟩

theorem witness_Zhevdom_4 : ∃ (m : ZvMsg) (i : Fin 8) (s : State),
    (s.zvTake 3 m = .accept (some i.val)) ∧ ((s.net.zv.seen.getD i []).find? (fun x => x.seq == m.seq) = none) ∧
        (32 ≤ m.payload.length) ∧ (((s.zvNote i m.seq).queue (.param i)).flight.length +
        (s.zvNote i m.seq).zvWaiting (.param i) < paramMax) :=
  ⟨⟨0x112233445566, 1, 0, 0xFFFF, 0, 9, List.replicate 32 0⟩, 0, controlled, by first | decide +kernel | exact admitted _ _ (by decide +kernel) | rfl, by first | decide +kernel | exact admitted _ _ (by decide +kernel) | rfl, by first | decide +kernel | exact admitted _ _ (by decide +kernel) | rfl, by first | decide +kernel | exact admitted _ _ (by decide +kernel) | rfl⟩

theorem witness_Zhevdom_5 : ∃ (m : ZvMsg) (i : Nat) (s : State),
    (m.flags.testBit 0 = false) ∧ (s.zvTake 6 m = .accept (some i)) ∧
        ((s.net.zv.seen.getD i []).find? (fun x => x.seq == m.seq) = none) ∧ (i < 8) ∧ (m.payload = []) :=
  ⟨⟨0x112233445566, 1, 0, 0xFFFF, 0, 9, []⟩, 0, controlled, by first | decide +kernel | exact admitted _ _ (by decide +kernel) | rfl, by first | decide +kernel | exact admitted _ _ (by decide +kernel) | rfl, by first | decide +kernel | exact admitted _ _ (by decide +kernel) | rfl, by first | decide +kernel | exact admitted _ _ (by decide +kernel) | rfl, by first | decide +kernel | exact admitted _ _ (by decide +kernel) | rfl⟩

theorem witness_Zhevdom_6 : ∃ (m : ZvMsg) (i : Fin 8) (s : State),
    (m.flags.testBit 0 = false) ∧ (s.zvTake 6 m = .accept (some i.val)) ∧
        ((s.net.zv.seen.getD i []).find? (fun x => x.seq == m.seq) = none) ∧ (32 ≤ m.payload.length) ∧
        ((s.zvNote i m.seq).on (R.NET_ZV_CTRL_HI i) F.NET_ZV_CTRL_HI_MGMT = true) :=
  ⟨⟨0x112233445566, 1, 0, 0xFFFF, 0, 9, List.replicate 32 0⟩, 0, controlled, by first | decide +kernel | exact admitted _ _ (by decide +kernel) | rfl, by first | decide +kernel | exact admitted _ _ (by decide +kernel) | rfl, by first | decide +kernel | exact admitted _ _ (by decide +kernel) | rfl, by first | decide +kernel | exact admitted _ _ (by decide +kernel) | rfl, by first | decide +kernel | exact admitted _ _ (by decide +kernel) | rfl⟩

theorem witness_Zhevdom_7 : ∃ (s : State),
    (s.on R.NET_ZV_CFG F.NET_ZV_CFG_EN = true) ∧ (s.fld R.NET_ZV_HEALTH F.NET_ZV_HEALTH_PERIOD ≠ 0) ∧
        (s.net.zv.healthAt + s.fld R.NET_ZV_HEALTH F.NET_ZV_HEALTH_PERIOD * second3 ≤ s.clk.now3) :=
  ⟨(controlled.setF R.NET_ZV_HEALTH F.NET_ZV_HEALTH_PERIOD 1).modClk (fun c => { c with now3 := 10000000000000 }), by decide⟩

theorem witness_Zhevdom_8 : ∃ (m : ZvMsg) (i : Nat) (s : State),
    (s.zvTake 5 m = .accept (some i)) ∧ ((s.net.zv.seen.getD i []).find? (fun x => x.seq == m.seq) = none) ∧
        (m.payload.length = 16) ∧ (bytesAt m.payload 0 1 ≤ 1) :=
  ⟨⟨0x112233445566, 1, 0, 0xFFFF, 0, 9, List.replicate 16 0⟩, 0, controlled, by first | decide +kernel | exact admitted _ _ (by decide +kernel) | rfl, by first | decide +kernel | exact admitted _ _ (by decide +kernel) | rfl, by first | decide +kernel | exact admitted _ _ (by decide +kernel) | rfl, by first | decide +kernel | exact admitted _ _ (by decide +kernel) | rfl⟩

theorem witness_Zhevdom_9 : ∃ (m : ZvMsg) (i : Nat) (x : ZvSeen) (s : State),
    (s.zvTake 1 m = .accept (some i)) ∧ ((s.net.zv.seen.getD i []).find? (fun x => x.seq == m.seq) = some x) ∧
        (x.reply = none) :=
  ⟨⟨0x112233445566, 1, 0, 0xFFFF, 0, 9, []⟩, 0, ⟨9, none⟩, controlled.zvNote 0 9, by first | decide +kernel | exact admitted _ _ (by decide +kernel) | rfl, by first | decide +kernel | exact admitted _ _ (by decide +kernel) | rfl, by first | decide +kernel | exact admitted _ _ (by decide +kernel) | rfl⟩

theorem witness_Zhevdom_10 : ∃ (m : ZvMsg) (i : Nat) (s : State),
    (s.zvTake 4 m = .accept (some i)) ∧ ((s.net.zv.seen.getD i []).find? (fun x => x.seq == m.seq) = none) ∧
        (m.payload.length = 32) :=
  ⟨⟨0x112233445566, 1, 0, 0xFFFF, 0, 9, List.replicate 32 0⟩, 0, controlled, by first | decide +kernel | exact admitted _ _ (by decide +kernel) | rfl, by first | decide +kernel | exact admitted _ _ (by decide +kernel) | rfl, by first | decide +kernel | exact admitted _ _ (by decide +kernel) | rfl⟩

theorem witness_Zhevdom_11 : ∃ (e : SchedEntry) (s : State), 1 ≤ e.action ∧ e.action ≤ 4 ∧
    e.k ≤ s.clk.blk + schedAhead ∧ e.argsOk = true ∧
      s.schedFind e.ctrl e.id = none ∧ s.net.zv.sched.length < schedMax ∧ s.schedOpen e ≤ e.k :=
  ⟨⟨0, 5, 7, 100, 1, [], 9⟩, up, by decide +kernel⟩

theorem witness_Zhevdom_12 : ∃ (i : Fin 8) (id : Nat) (e : SchedEntry) (s : State),
    (s.schedFind i id = some e) ∧ (e.k < s.schedOpen e) :=
  ⟨0, 7, ⟨0, 5, 7, 1, 1, [], 9⟩, (up.modZv (fun z => { z with sched := [⟨0, 5, 7, 1, 1, [], 9⟩] })).modClk (fun c => { c with blk := 3 }), by decide +kernel⟩

theorem witness_Zhevdom_13 : ∃ (i : Fin 8) (id : Nat) (e : SchedEntry) (s : State),
    (s.schedFind i id = some e) ∧ (s.schedOpen e ≤ e.k) :=
  ⟨0, 7, ⟨0, 5, 7, 100, 1, [], 9⟩, up.modZv (fun z => { z with sched := [⟨0, 5, 7, 100, 1, [], 9⟩] }), by decide +kernel⟩

theorem witness_CompletionsAndBoundaries_0 : ∃ (f : InFlight) (c : Completion) (s : State),
    (s.postable .cmd = some (f, c)) ∧ (silent f c = false) ∧ (s.ringRoom 1 = true) :=
  ⟨doneFlight, ⟨.done, false, false, false, 3, none⟩, answered, by decide +kernel⟩

theorem witness_CompletionsAndBoundaries_1 : ∃ (f : InFlight) (c : Completion) (s : State),
    (s.postable .cmd = some (f, c)) ∧ (silent f c = false) ∧ (s.ringRoom 1 = false) :=
  ⟨doneFlight, ⟨.done, false, false, false, 3, none⟩, answered.setF (R.HIF_RING_STS 1) F.HIF_RING_STS_STATE 0, by decide +kernel⟩

theorem witness_CompletionsAndBoundaries_2 : ∃ (f : InFlight) (c : Completion) (s : State),
    (s.postable .cmd = some (f, c)) ∧ (silent f c = true) :=
  ⟨{ doneFlight with noCpl := true }, ⟨.done, false, false, false, 3, none⟩, answered.modQueue .cmd (fun q => { q with flight := q.flight.map (fun g => { g with noCpl := true }) }), by decide +kernel⟩

theorem witness_CompletionsAndBoundaries_3 : ∃ (f : InFlight) (c : Completion) (s : State),
    (s.postable .mcmd = some (f, c)) ∧ (silent f c = false) ∧ (s.ringRoom 4 = true) :=
  ⟨doneFlight, ⟨.done, false, false, false, 3, none⟩, (answered.modQueue .mcmd (fun q => { q with flight := [doneFlight] })).setF (R.HIF_RING_STS 4) F.HIF_RING_STS_STATE 1, by decide +kernel⟩

theorem witness_CompletionsAndBoundaries_4 : ∃ (i : Fin 8) (f : InFlight) (c : Completion) (s : State),
    (s.postable (.param i) = some (f, c)) ∧ (silent f c = true) :=
  ⟨0, { doneFlight with noCpl := true }, ⟨.done, false, false, false, 3, none⟩, answered.modQueue (.param 0) (fun q => { q with flight := [{ doneFlight with noCpl := true }] }), by decide +kernel⟩

theorem witness_CompletionsAndBoundaries_5 : ∃ (m : BlockInputs) (s : State),
    (s.clk.run = true) :=
  ⟨default, up.modClk (fun c => { c with run := true }), by decide⟩

theorem witness_CompletionsAndBoundaries_6 : ∃ (s : State),
    (s.clk.reload = true) ∧ (s.clk.run = true) ∧ (s.clk.smp = 0) ∧ (s.net.ptp.step = false) ∧
        (s.power.hubUp = true) :=
  ⟨up.modClk (fun c => { c with reload := true, run := true, smp := 0 }), by decide⟩

theorem witness_CompletionsAndBoundaries_7 : ∃ (s : State),
    (s.on R.TTH_STS F.TTH_STS_READY = false) ∧ (s.power.mode ≠ .off) ∧ (s.power.mode ≠ .shelf) :=
  ⟨up.modPower (fun p => { p with mode := .run }), by decide⟩

theorem witness_EmptyQueueTicks_0 : ∃ (s : State), s.pending = [] ∧ s.clk.run = true ∧ s.clk.smp < 15 :=
  ⟨up.modClk (fun c => { c with run := true, smp := 3 }), by decide⟩

theorem witness_EmptyQueueTicks_1 : ∃ (s : State), s.pending = [] ∧ s.clk.run = true ∧ 15 ≤ s.clk.smp :=
  ⟨up.modClk (fun c => { c with run := true, smp := 15 }), by decide⟩

theorem witness_EmptyQueueTicks_2 : ∃ (s : State), s.pending = [] ∧ s.clk.run = false :=
  ⟨up.modClk (fun c => { c with run := false }), by decide⟩

theorem witness_StepKeepsTheInvariant_0 : ∃ (s t : State), s.Inv ∧ step s = .next t :=
  ⟨State.reset, _, ⟨by decide, by decide⟩, rfl⟩

theorem witness_ExecLeavesTheQueue_0 : ∃ (c : Instr) (s t : State), s.Inv ∧ exec c s = .next t :=
  ⟨.jtagTapReset, State.reset, _, ⟨by decide, by decide⟩, rfl⟩

theorem witness_QueuedCommandsAllRun_0 : ∃ (s : State), s.Inv ∧ s.pending.length = 2 :=
  ⟨State.reset.withRest [.jtagTapReset, .hubReset], ⟨by decide, by decide⟩, by decide⟩

theorem witness_SealedFieldsStay_0 : ∃ (ag x be : Nat) (v : Word) (s : State), s.isSealed = true ∧ rwbMask x ≠ 0 :=
  ⟨3, R.PROT_AGENT 4, 15, 5, serving, by decide⟩

theorem witness_RefusedWritesTouchOnlyTheRecord_0 : ∃ (ag x be : Nat) (v : Word)
    (s : State), s.mayWrite ag x = false :=
  ⟨3, R.MP_LANE_TRIM 5, 15, 5, serving, by decide⟩

theorem witness_WindowBytes_1 : ∃ (a b : Nat) (us vs : List Byte) (s : State), a + us.length ≤ b ∨ b + vs.length ≤ a
    :=
  ⟨0, 2, [1, 2], [3], up, by decide⟩

theorem witness_LockAcquireOrder_0 : ∃ (o : Origin) (d : Desc) (w : Nat) (s : State), s.takes o 0xA0 d = true ∧
    d.payLen = 0 ∧ d.inl ≤ leaseMax ∧
    originOwner o = some w ∧ 28 ≤ d.target ∧ d.target < 32 :=
  ⟨.param 0, ⟨160, 0, 7, 28, 0, 0, 0, 100, []⟩, 0x30, serving, by decide +kernel⟩

theorem witness_LockAcquireOrder_1 : ∃ (o : Origin) (d : Desc) (w : Nat) (s : State), s.takes o 0xA0 d = true ∧
    d.payLen = 0 ∧ d.inl ≤ leaseMax ∧
    originOwner o = some w ∧ d.target < 28 ∧ (s.begun o 0xA0 d).lockOf w ≠ none :=
  ⟨.param 0, ⟨160, 0, 7, 4, 0, 0, 0, 100, []⟩, 0x30, ((serving.setF (R.LCK_STS 3) F.LCK_STS_HELD 1).setF (R.LCK_STS 3) F.LCK_STS_STATE lockOpen).setF (R.LCK_STS 3) F.LCK_STS_OWNER 0x30,
    by decide +kernel⟩

theorem witness_LockAcquireOrder_2 : ∃ (o : Origin) (d : Desc) (w : Nat) (s : State), s.takes o 0xA0 d = true ∧
    d.payLen = 0 ∧ d.inl ≤ leaseMax ∧
    originOwner o = some w ∧ d.target < 28 ∧ (s.begun o 0xA0 d).lockOf w = none ∧
        (s.begun o 0xA0 d).lockHeld d.target = true :=
  ⟨.param 0, ⟨160, 0, 7, 3, 0, 0, 0, 100, []⟩, 0x30, (serving.setF (R.LCK_STS 3) F.LCK_STS_HELD 1).setF (R.LCK_STS 3) F.LCK_STS_OWNER 5,
    by decide +kernel⟩

theorem witness_LockAcquireOrder_3 : ∃ (o : Origin) (d : Desc) (w : Nat) (s : State), s.shaped = true ∧ w < 64 ∧
    s.takes o 0xA0 d = true ∧ d.payLen = 0 ∧ d.inl ≤ leaseMax ∧
    originOwner o = some w ∧ d.target < 28 ∧ (s.begun o 0xA0 d).lockOf w = none ∧
        (s.begun o 0xA0 d).lockHeld d.target = false :=
  ⟨.param 0, ⟨160, 0, 7, 3, 0, 0, 0, 100, []⟩, 0x30, serving, by decide +kernel⟩

theorem witness_LockAcquireOrder_4 : ∃ (k lease : Nat) (s : State), s.shaped = true ∧ k < 32 :=
  ⟨31, 5, up, by decide⟩

theorem witness_LockAcquireOrder_5 : ∃ (k e : Nat) (s : State), (s.lock k).expires = some e :=
  ⟨3, 7, up.modLock 3 (fun l => { l with expires := some 7 }), by decide⟩

theorem witness_CompletionRecord_1 : ∃ (s : State) (f : InFlight) (c : Completion), s.postable .cmd = some (f, c) ∧
    f.noCpl = true ∧ c.status = .done :=
  ⟨answered.modQueue .cmd (fun q => { q with flight := [{ doneFlight with noCpl := true }] }), { doneFlight with noCpl := true },
    ⟨.done, false, false, false, 3, none⟩, by decide +kernel⟩

theorem witness_CompletionRecord_2 : ∃ (s : State) (f : InFlight) (c : Completion), s.postable .cmd = some (f, c) ∧
    (f.noCpl = false ∨ c.status ≠ .done) ∧ s.ringRoom 1 = true :=
  ⟨answered, doneFlight, ⟨.done, false, false, false, 3, none⟩, by decide +kernel⟩

theorem witness_CompletionRecord_3 : ∃ (s : State) (f : InFlight) (c : Completion), s.postable .mcmd = some (f, c) ∧
    (f.noCpl = false ∨ c.status ≠ .done) ∧ s.ringRoom 4 = true :=
  ⟨(answered.modQueue .mcmd (fun q => { q with flight := [doneFlight] })).setF (R.HIF_RING_STS 4) F.HIF_RING_STS_STATE 1, doneFlight,
    ⟨.done, false, false, false, 3, none⟩, by decide +kernel⟩

theorem witness_CompletionRecord_4 : ∃ (s : State) (f : InFlight) (c : Completion), s.postable .mcmd = some (f, c) ∧
    f.noCpl = true ∧ c.status = .done :=
  ⟨answered.modQueue .mcmd (fun q => { q with flight := [{ doneFlight with noCpl := true }] }), { doneFlight with noCpl := true },
    ⟨.done, false, false, false, 3, none⟩, by decide +kernel⟩

theorem witness_CompletionRecord_5 : ∃ (s : State) (o : Origin) (i w : Nat)
    (f : InFlight), originIdx o < s.host.queues.length ∧ (s.queue o).flight = [f] ∧ f.ord = i ∧ f.cpl = none ∧
    f.want = some w :=
  ⟨serving.modQueue .cmd (fun q => { q with flight := [{ doneFlight with cpl := none, want := some 9 }] }), .cmd, 0, 9, { doneFlight with cpl := none, want := some 9 }, by decide +kernel⟩

theorem witness_DuplicateMessages_0 : ∃ (m : ZvMsg) (i : Nat) (x : ZvSeen) (ty fl own : Nat) (bs : List Byte)
    (s : State), s.zvTake 1 m = .accept (some i) ∧
    (s.net.zv.seen.getD i []).find? (fun z => z.seq == m.seq) = some x ∧ x.reply = some (ty, fl, own, bs) :=
  ⟨⟨0x112233445566, 1, 0, 0xFFFF, 0, 9, []⟩, 0, ⟨9, some (1, 1, 3, [5])⟩, 1, 1, 3, [5],
    controlled.modZv (fun z => { z with seen := z.seen.set 0 [⟨9, some (1, 1, 3, [5])⟩] }), rfl, rfl, rfl⟩

theorem witness_DuplicateMessages_1 : ∃ (m : ZvMsg) (i : Nat) (x : ZvSeen) (ty fl own : Nat) (bs : List Byte)
    (s : State), s.zvTake 2 m = .accept (some i) ∧
    (s.net.zv.seen.getD i []).find? (fun z => z.seq == m.seq) = some x ∧ x.reply = some (ty, fl, own, bs) :=
  ⟨⟨0x112233445566, 1, 0, 0xFFFF, 0, 9, []⟩, 0, ⟨9, some (1, 1, 3, [5])⟩, 1, 1, 3, [5],
    controlled.modZv (fun z => { z with seen := z.seen.set 0 [⟨9, some (1, 1, 3, [5])⟩] }), rfl, rfl, rfl⟩

theorem witness_DuplicateMessages_2 : ∃ (m : ZvMsg) (i : Nat) (x : ZvSeen) (ty fl own : Nat) (bs : List Byte)
    (s : State), s.zvTake 3 m = .accept (some i) ∧
    (s.net.zv.seen.getD i []).find? (fun z => z.seq == m.seq) = some x ∧ x.reply = some (ty, fl, own, bs) :=
  ⟨⟨0x112233445566, 1, 0, 0xFFFF, 0, 9, []⟩, 0, ⟨9, some (1, 1, 3, [5])⟩, 1, 1, 3, [5],
    controlled.modZv (fun z => { z with seen := z.seen.set 0 [⟨9, some (1, 1, 3, [5])⟩] }), rfl, rfl, rfl⟩

theorem witness_DuplicateMessages_3 : ∃ (m : ZvMsg) (i : Nat) (x : ZvSeen) (ty fl own : Nat) (bs : List Byte)
    (s : State), s.zvTake 4 m = .accept (some i) ∧
    (s.net.zv.seen.getD i []).find? (fun z => z.seq == m.seq) = some x ∧ x.reply = some (ty, fl, own, bs) :=
  ⟨⟨0x112233445566, 1, 0, 0xFFFF, 0, 9, []⟩, 0, ⟨9, some (1, 1, 3, [5])⟩, 1, 1, 3, [5],
    controlled.modZv (fun z => { z with seen := z.seen.set 0 [⟨9, some (1, 1, 3, [5])⟩] }), rfl, rfl, rfl⟩

theorem witness_DuplicateMessages_4 : ∃ (m : ZvMsg) (i : Nat) (x : ZvSeen) (ty fl own : Nat) (bs : List Byte)
    (s : State), s.zvTake 5 m = .accept (some i) ∧
    (s.net.zv.seen.getD i []).find? (fun z => z.seq == m.seq) = some x ∧ x.reply = some (ty, fl, own, bs) :=
  ⟨⟨0x112233445566, 1, 0, 0xFFFF, 0, 9, []⟩, 0, ⟨9, some (1, 1, 3, [5])⟩, 1, 1, 3, [5],
    controlled.modZv (fun z => { z with seen := z.seen.set 0 [⟨9, some (1, 1, 3, [5])⟩] }), rfl, rfl, rfl⟩

theorem witness_DuplicateMessages_5 : ∃ (m : ZvMsg) (i : Nat) (x : ZvSeen) (ty fl own : Nat) (bs : List Byte)
    (s : State), m.flags.testBit 0 = false ∧ s.zvTake 6 m = .accept (some i) ∧
    (s.net.zv.seen.getD i []).find? (fun z => z.seq == m.seq) = some x ∧ x.reply = some (ty, fl, own, bs) :=
  ⟨⟨0x112233445566, 1, 0, 0xFFFF, 0, 9, []⟩, 0, ⟨9, some (1, 1, 3, [5])⟩, 1, 1, 3, [5],
    controlled.modZv (fun z => { z with seen := z.seen.set 0 [⟨9, some (1, 1, 3, [5])⟩] }), by decide +kernel, rfl,
        rfl, rfl⟩

theorem witness_DuplicateMessages_6 : ∃ (i : Nat) (s : State), i < s.net.zv.seen.length := ⟨7, up, by decide⟩

theorem witness_DuplicateMessages_7 : ∃ (i : Nat) (s : State), i < s.net.zv.seen.length := ⟨7, up, by decide⟩

theorem witness_CommitCutoff_1 : ∃ (s : State) (act : Act), s.governed [act] = [] := ⟨up, .tthSelftest, by decide⟩

theorem witness_CommitCutoff_2 : ∃ (s : State) (act : Act) (d : Desc), s.governed [act] = [] ∧
    d.want = none := ⟨up, .tthSelftest, default, by decide⟩

theorem witness_CommitCutoff_3 : ∃ (s : State) (act : Act) (d : Desc) (k : Nat), s.governed [act] = [] ∧
    d.want = some k ∧
    s.nextOpen ≤ k := ⟨up, .tthSelftest, { (default : Desc) with flags := 4, block := 90 }, 90, by decide⟩

theorem witness_CommitCutoff_4 : ∃ (s : State) (ag : Nat), s.on R.GLB_COMMIT_CTL F.GLB_COMMIT_CTL_HOLD = true ∧
    ag ≤ 2 ∧ s.stage.held.length < 256 := ⟨up.setF R.GLB_COMMIT_CTL F.GLB_COMMIT_CTL_HOLD 1, 2, by decide⟩

theorem witness_CommitCutoff_5 : ∃ (s : State) (ag : Nat), s.on R.GLB_COMMIT_CTL F.GLB_COMMIT_CTL_HOLD = true ∧
    ag ≤ 2 ∧ 256 ≤ s.stage.held.length :=
    ⟨(up.setF R.GLB_COMMIT_CTL F.GLB_COMMIT_CTL_HOLD 1).modStage (fun y => { y with held := List.replicate 256 (0, 0) }), 2, by decide +kernel⟩

theorem witness_SamplesRoundAndStay_1 : ∃ (n : Int) (d : Nat), 0 < d ∧ (2 * qMax + 1) * d ≤ 2 * n :=
  ⟨2 ^ 32 - 1, 2, by decide⟩

theorem witness_SamplesRoundAndStay_2 : ∃ (n : Int) (d : Nat), 0 < d ∧ 2 * n < (2 * qMin - 1) * d :=
  ⟨-2 ^ 32 - 2, 2, by decide⟩

theorem witness_SamplesRoundAndStay_3 : ∃ (n : Int) (d : Nat), 0 < d ∧ (2 * qMin - 1) * d ≤ 2 * n ∧
    2 * n < (2 * qMax + 1) * d := ⟨-2 ^ 32 - 1, 2, by decide⟩

/-! ### Samples (R63, R117, R119, R141, R162, R187) -/

/-- Round half to even: 2.5, 3.5, -2.5 and -3.5 units. -/
theorem test_requant_ties : [5, 7, -5, -7].map (fun n => (requant ⟨n, 2⟩ tagC).int) = [2, 4, -2, -4] := by decide

/-- A half above the largest code rounds to 2^31 and saturates with O; a half below the smallest rounds to it without. -/
theorem test_requant_limits : [2 ^ 32 - 1, -2 ^ 32 - 1, -2 ^ 32 - 2].map (fun n => requant ⟨n, 2⟩ tagU) =
    [⟨0x7FFFFFFF, 3⟩, ⟨0x80000000, 1⟩, ⟨0x80000000, 3⟩] := by decide

/-- Two inputs of a bus: the sum saturates with O; an input of no weight gives its P alone. -/
theorem test_bus_sum : sumSmp [(Frac.one, ⟨0x60000000, tagC⟩), (Frac.one, ⟨0x60000000, 0⟩), (Frac.zero, ⟨1, tagU ||| tagP⟩)] =
    ⟨0x7FFFFFFF, tagC ||| tagO ||| tagP⟩ := by decide

/-- Four inputs of a SUMMER on two outputs at gains 1, 1, 0 and −1/2 in Q2.30. -/
def summer : ProgRec := { typ := 0x14, bypass := false, dram := false, m := 4, n := 2, plen := 16, poff := 0, arg := 0, ins := [0, 1, 2, 3], outs := [0, 1] }

theorem test_summer_groups : ((recOut summer (fun j => ([0x40000000, 0x40000000, 0, 0xE0000000] : List Word).getD j 0) []
    [[⟨100, 0⟩], [⟨20, tagC⟩], [⟨7, tagU⟩], [⟨6, 0⟩]] RecMem.reset 0).2).map (fun b => smpAt b 0) =
    [⟨120, tagC⟩, ⟨0xFFFFFFFD, 0⟩] := by decide

/-- A CONV record at gain 1/2: its slot 1 holds taps 1 and 1/2, and its slot 0 is empty (R164). -/
def conv : ProgRec := { typ := 0x06, bypass := false, dram := true, m := 1, n := 1, plen := 32, poff := 0, arg := 64, ins := [0], outs := [0] }

theorem test_conv_slots : [1, 0].map (fun (active : Word) =>
      ((recOut conv (fun j => if j = 0 then 0x20000000 else active) [(1, 0, [0x40000000, 0x20000000])]
        [[⟨100, tagC⟩, ⟨40, 0⟩]] RecMem.reset 0).2).map (fun b => b.take 2)) =
    [[[⟨50, tagC⟩, ⟨45, 0⟩]], [[⟨0, tagC⟩, ⟨0, 0⟩]]] := by decide

/-- A sample of a talker is rounded to 24 bits, a tie to the even code, and saturated. -/
theorem test_talker_words : [0x180, 0x280, 0x7FFFFFFF].map (fun v => talkerWord ⟨v, tagC⟩) = [2, 2, 0x7FFFFF] := by decide

/-- A missing sample at the multiplexer of a member lane conceals its data block (R235). -/
theorem test_member_conceals :
    RouteX.conceals ⟨⟨0x80, true, false⟩, ⟨0, false, false⟩, 0, 0, 0, .none, none⟩ [(0x80, [⟨0, 0⟩, ⟨0, tagC⟩])] 5 = true ∧
    RouteX.conceals ⟨⟨0x80, true, false⟩, ⟨0, false, false⟩, 0, 0, 0, .none, none⟩ [(0x81, [⟨0, tagC⟩])] 5 = false := by decide

end Sys2Proof.Machine
end

section
/-!
PROOFS. The scope: a step on an empty queue, the state after reset, and the reload of the block counter.
-/
namespace Sys2Proof.Machine

/-! ### A step on an empty queue -/

theorem step_of_pending_nil {s : State} (h : s.pending = []) : step s = .next s.tick := by
  simp only [step, h]

theorem State.tick_of_run_of_lt {s : State} (hr : s.clk.run = true) (hs : s.clk.smp < 15) :
    s.tick = s.modClk (fun y => { y with smp := y.smp + 1, now3 := y.now3 + 31250 }) := by
  rw [State.tick, if_pos hr, if_pos hs]

/-- The last sample of a block waits for its COMMIT_POINT. -/
theorem State.tick_of_run_of_le {s : State} (hr : s.clk.run = true) (hs : 15 ≤ s.clk.smp) : s.tick = s := by
  rw [State.tick, if_pos hr, if_neg (Nat.not_lt.mpr hs)]

theorem State.tick_of_not_run {s : State} (hr : s.clk.run = false) :
    s.tick = s.modClk (fun y => { y with now3 := y.now3 + 31250 }) := by
  rw [State.tick, if_neg (Bool.eq_false_iff.mp hr)]

/-- Settles O46: a step on an empty queue is a tick, and a tick has three cases. -/
theorem emptyQueueTicks : Obligations.EmptyQueueTicks := by
  refine ⟨fun s hp hr hs => ?_, fun s hp hr hs => ?_, fun s hp hr => ?_⟩
  · rw [step_of_pending_nil hp, State.tick_of_run_of_lt hr hs, State.modClk]
  · rw [step_of_pending_nil hp, State.tick_of_run_of_le hr hs]
  · rw [step_of_pending_nil hp, State.tick_of_not_run hr, State.modClk]

/-! ### The state after reset -/

/-- No register and no byte has been written, so every file and memory is the empty one. -/
theorem State.reset_canonical : State.reset.canonical = true := by decide

theorem State.reset_shaped : State.reset.shaped = true := by decide

/-- Settles O48: both halves of the invariant are finite facts about `State.reset`. -/
theorem resetIsWellFormed : Obligations.ResetIsWellFormed :=
  ⟨⟨State.reset_canonical, State.reset_shaped⟩, rfl⟩

/-! ### The reload of the block counter (R181, R233) -/

/-- The last part of a reload to block b: run-ahead clusters restart (R233), entries whose block was skipped are applied
(R199), and what is due at b takes effect (R33). -/
def State.afterReload (s : State) (b : Nat) : State :=
  let t := State.aheadRestart b (List.range 8) s
  (State.schedSkipped b t.net.zv.sched t).commitDue b

/-- The counter takes the block index of array time (R181). -/
def State.reloadClock (s : State) : State :=
  s.modClk (fun y => { y with blk := s.reloadTo, slips := 0, reload := false })

/-- A reload that is due without a step of array time, on a part whose hub is up: the samples on their way are renumbered
between the counter and what follows it. -/
theorem execBlockCounterReload_of_due {s : State} (hl : s.clk.reload = true) (hr : s.clk.run = true) (h0 : s.clk.smp = 0)
    (hp : s.net.ptp.step = false) (hu : s.power.hubUp = true) :
    execBlockCounterReload s = .next (((s.reloadClock.renumber s.clk.blk s.reloadTo).modPtp
      (fun x => { x with step := false })).afterReload s.reloadTo) := by
  have hup : ((s.reloadClock.renumber s.clk.blk s.reloadTo).modPtp
      (fun x => { x with step := false })).power.hubUp = true := hu
  rw [State.reloadClock] at hup ⊢
  simp only [execBlockCounterReload, hl, hr, h0, hp, hup, beq_self_eq_true, Bool.and_self, if_true, if_false,
    Bool.false_eq_true, State.afterReload]

theorem State.aheadRestart_of_none_ahead {s : State} (b : Nat) :
    ∀ {ns : List Nat}, (∀ n ∈ ns, s.rendersAhead n = false) → State.aheadRestart b ns s = s
  | [], _ => rfl
  | n :: ns, h => by
    have hn : s.rendersAhead n = false := h n List.mem_cons_self
    simp only [State.aheadRestart, hn, Bool.false_eq_true, if_false]
    exact State.aheadRestart_of_none_ahead b (fun m hm => h m (List.mem_cons_of_mem n hm))

theorem State.commitDue_of_no_changes {s : State} (h : s.stage.changes = []) (k : Nat) : s.commitDue k = s := by
  have hs : s.modStage (fun y => { y with changes := [] }) = s := by
    rw [State.modStage, ← h]
  simp only [State.commitDue, h, List.filter_nil, sortBy, parted, List.foldl_nil, List.map_nil, List.append_nil, hs,
    State.slipAll, State.lateAll, State.paramAll]

/-- With no cluster ahead, no schedule entry and no change, nothing is left to do after a reload. -/
theorem State.afterReload_of_idle {s : State} (ha : ∀ n ∈ List.range 8, s.rendersAhead n = false)
    (he : s.net.zv.sched = []) (hc : s.stage.changes = []) (b : Nat) : s.afterReload b = s := by
  simp only [State.afterReload, State.aheadRestart_of_none_ahead b ha, he, State.schedSkipped,
    State.commitDue_of_no_changes hc]

/-- An idle part whose counter stands at block 7 where array time is at block 9, with a reload due and data block 6 on its
way through H. -/
def reloading : State :=
  { State.reset with
    clk := ⟨9 * 500000, 7, 0, true, 2, true⟩
    power := { State.reset.power with hubUp := true }
    sig := { SigX.reset with plans := [⟨6, [], [], [], [], []⟩] } }

/-- The same part as the statement of O44 leaves it before `afterReload`: the counter alone has moved. -/
def reloadedClock : State := reloading.reloadClock.modPtp (fun x => { x with step := false })

/-- The same part as the model leaves it before `afterReload`: the data block on its way has moved with the counter. -/
def reloadedSamples : State :=
  (reloading.reloadClock.renumber reloading.clk.blk reloading.reloadTo).modPtp (fun x => { x with step := false })

theorem reloadedClock_plans : reloadedClock.sig.plans.map Plan.k = [6] := by decide

theorem reloadedSamples_plans : reloadedSamples.sig.plans.map Plan.k = [8] := by decide

/-- Refutes O44: its clause on BLOCK_COUNTER_RELOAD leaves out that the samples on their way are counted on from the new
number (log entry 69, `State.renumber`). In `reloading` the model carries data block 6 over as data block 8; the statement
keeps the number 6. -/
theorem not_completionsAndBoundaries : ¬ Obligations.CompletionsAndBoundaries := by
  rintro ⟨-, -, -, -, -, -, hreload, -⟩
  have hstated : execBlockCounterReload reloading = .next (reloadedClock.afterReload reloading.reloadTo) :=
    hreload reloading rfl rfl rfl rfl rfl
  have hmodel : execBlockCounterReload reloading = .next (reloadedSamples.afterReload reloading.reloadTo) :=
    execBlockCounterReload_of_due rfl rfl rfl rfl rfl
  rw [State.afterReload_of_idle (by decide) rfl rfl] at hstated hmodel
  have heq : reloadedSamples = reloadedClock := Host.Outcome.next.inj (hmodel.symm.trans hstated)
  have hplans : reloadedSamples.sig.plans.map Plan.k = [6] := heq ▸ reloadedClock_plans
  rw [reloadedSamples_plans] at hplans
  exact absurd hplans (by decide)

end Sys2Proof.Machine
end

section
/-!
PROOFS. The block at which a staged change takes effect, and the hold batch.
-/
namespace Sys2Proof.Machine

/-! ### The cutoff of a staged change (R33, R36) -/

/-- The AT_BLOCK index of a descriptor is no setting of a cluster. -/
theorem State.governed_setWant (s : State) (id : DescId) (w : Option Nat) (acts : List Act) :
    (s.setWant id w).governed acts = s.governed acts := rfl

theorem State.openFor_of_governed_nil {s : State} {acts : List Act} (h : s.governed acts = []) :
    s.openFor acts = s.nextOpen := by
  rw [State.openFor, h, State.marginOf, List.foldl_nil, Nat.add_sub_cancel]

/-- A change that governs no cluster squashes nothing. -/
theorem State.stageAct_of_governed_nil {s : State} {c : Staged} (h : s.governed [c.act] = []) :
    s.stageAct c = s.stageAt c := by
  rw [State.stageAct, h, State.squashAll]

theorem State.stageAt_changes (s : State) (c : Staged) : (s.stageAt c).stage.changes = s.stage.changes ++ [c] := rfl

theorem State.setWant_stage (s : State) (id : DescId) (w : Option Nat) : (s.setWant id w).stage = s.stage := rfl

/-- A descriptor that concerns no engine adds its change at the end, for the later of its own block and the first one open. -/
theorem State.stageDesc_changes_of_governed_nil {s : State} {act : Act} (h : s.governed [act] = []) (id : DescId) (d : Desc) :
    (s.stageDesc id d act).stage.changes =
      s.stage.changes ++ [⟨some id, max (d.want.getD 0) s.nextOpen, originRank id.org, none, act⟩] := by
  have hw : (s.setWant id d.want).governed [act] = [] := (s.governed_setWant id d.want [act]).trans h
  rw [State.stageDesc, State.stageAct_of_governed_nil hw, State.stageAt_changes, State.setWant_stage,
    State.openFor_of_governed_nil h]

/-! ### The hold batch (R443) -/

theorem State.stageWrite_of_hold {s : State} {ag : Nat} (hh : s.on R.GLB_COMMIT_CTL F.GLB_COMMIT_CTL_HOLD = true)
    (hag : ag ≤ 2) (a : Nat) (v : Word) :
    s.stageWrite ag a v = if s.stage.held.length < holdMax then s.modStage (fun y => { y with held := y.held ++ [(a, v)] })
      else s.setF R.GLB_STS F.GLB_STS_HOLD_OVF 1 := by
  rw [State.stageWrite, hh, decide_eq_true hag, Bool.and_self, if_pos rfl]

/-- Settles O59: the cutoff by the sample, a change with and without a block of its own, and the two ends of a hold batch. -/
theorem commitCutoff : Obligations.CommitCutoff := by
  refine ⟨fun _ => rfl, fun _ _ => State.openFor_of_governed_nil, fun s id act d hg hw => ?_, fun s id act d k hg hw hk => ?_,
    fun s ag x v hh hag hlen => ?_, fun s ag x v hh hag hlen => ?_⟩
  · rw [State.stageDesc_changes_of_governed_nil hg, hw, Option.getD_none, Nat.zero_max]
  · rw [State.stageDesc_changes_of_governed_nil hg, hw, Option.getD_some, max_eq_left hk]
  · exact (State.stageWrite_of_hold hh hag x v).trans (if_pos hlen)
  · exact (State.stageWrite_of_hold hh hag x v).trans (if_neg (Nat.not_lt.mpr hlen))

end Sys2Proof.Machine
end

section
/-!
PROOFS. The samples of a data block: requantisation, sums and tags, and what moving the samples on changes.
-/
namespace Sys2Proof

/-! ### Requantisation (R63, R117, R141) -/

/-- Above an odd code k lies every value from half a unit on: the tie goes to the even code k + 1. -/
theorem Frac.lt_round_iff {n k : Int} {d : Nat} (hd : 0 < d) (hk : k % 2 = 1) :
    k < Frac.round ⟨n, d⟩ ↔ (2 * k + 1) * d ≤ 2 * n := by
  obtain ⟨hhi, hlo, htie⟩ := Frac.round_near n d hd
  have hd0 : (0 : Int) < d := Int.natCast_pos.mpr hd
  generalize Frac.round ⟨n, d⟩ = r at *
  have hexp : (2 * k + 1) * (d : Int) = 2 * (k * d) + d := by ring
  rw [hexp]
  constructor
  · intro hkr
    have hmul : (k + 1) * (d : Int) ≤ r * d := Int.mul_le_mul_of_nonneg_right hkr hd0.le
    rw [Int.add_mul, Int.one_mul] at hmul
    omega
  · intro hn
    by_contra hrk
    have hmul : r * (d : Int) ≤ k * d := Int.mul_le_mul_of_nonneg_right (Int.not_lt.mp hrk) hd0.le
    have heven : r % 2 = 0 := htie (.inr (by omega))
    have hrd : r * (d : Int) = k * d := by omega
    have hreq : r = k := Int.eq_of_mul_eq_mul_right hd0.ne' hrd
    omega

theorem satSmp_above {x : Int} {t : Tag} (h : qMax < x) : satSmp x t = ⟨0x7FFFFFFF, t ||| tagO⟩ := if_pos h

theorem satSmp_below {x : Int} {t : Tag} (h : x < qMin) : satSmp x t = ⟨0x80000000, t ||| tagO⟩ := by
  have hmax : ¬ qMax < x := by
    unfold qMin at h
    unfold qMax
    omega
  rw [satSmp, if_neg hmax, if_pos h]

theorem toInt_ofInt_of_code {x : Int} (hmin : qMin ≤ x) (hmax : x ≤ qMax) : (BitVec.ofInt 32 x).toInt = x := by
  unfold qMin at hmin
  unfold qMax at hmax
  rw [BitVec.toInt_ofInt]
  exact Int.bmod_eq_of_le (by omega) (by omega)

theorem requant_above {n : Int} {d : Nat} (hd : 0 < d) (t : Tag) (h : (2 * qMax + 1) * d ≤ 2 * n) :
    requant ⟨n, d⟩ t = ⟨0x7FFFFFFF, t ||| tagO⟩ :=
  satSmp_above ((Frac.lt_round_iff hd (by decide)).mpr h)

theorem requant_below {n : Int} {d : Nat} (hd : 0 < d) (t : Tag) (h : 2 * n < (2 * qMin - 1) * d) :
    requant ⟨n, d⟩ t = ⟨0x80000000, t ||| tagO⟩ := by
  have hround : ¬ qMin - 1 < Frac.round ⟨n, d⟩ := fun hlt =>
    absurd ((Frac.lt_round_iff hd (by decide)).mp hlt) (Int.not_le.mpr h)
  exact satSmp_below (by omega)

/-- Between the limits the code is the rounded value, and the tags stay. -/
theorem requant_inside {n : Int} {d : Nat} (hd : 0 < d) (t : Tag) (hlo : (2 * qMin - 1) * d ≤ 2 * n)
    (hhi : 2 * n < (2 * qMax + 1) * d) : (requant ⟨n, d⟩ t).tag = t ∧ (requant ⟨n, d⟩ t).int = Frac.round ⟨n, d⟩ := by
  have hmin : qMin - 1 < Frac.round ⟨n, d⟩ := (Frac.lt_round_iff hd (by decide)).mpr hlo
  have hmax : ¬ qMax < Frac.round ⟨n, d⟩ := fun hlt =>
    absurd ((Frac.lt_round_iff hd (by decide)).mp hlt) (Int.not_le.mpr hhi)
  rw [requant, satSmp_inside _ t (by omega) (by omega)]
  exact ⟨rfl, toInt_ofInt_of_code (by omega) (by omega)⟩

/-- Between the limits the code is the nearest one, the even one at a tie. -/
theorem requant_nearest {n : Int} {d : Nat} (hd : 0 < d) (t : Tag) (hlo : (2 * qMin - 1) * d ≤ 2 * n)
    (hhi : 2 * n < (2 * qMax + 1) * d) :
    (requant ⟨n, d⟩ t).tag = t ∧ 2 * ((requant ⟨n, d⟩ t).int * d - n).natAbs ≤ d ∧
      (2 * ((requant ⟨n, d⟩ t).int * d - n).natAbs = d → (requant ⟨n, d⟩ t).int % 2 = 0) := by
  obtain ⟨htag, hint⟩ := requant_inside hd t hlo hhi
  obtain ⟨hup, hdown, htie⟩ := Frac.round_near n d hd
  rw [hint]
  exact ⟨htag, by omega, fun h => htie (by omega)⟩

/-! ### Sums (R119, R145) -/

/-- An exact code requantises to itself. -/
theorem satSmp_int (x : Smp) (t : Tag) : satSmp x.int t = ⟨x.v, t⟩ := by
  have hmin : qMin ≤ x.int := BitVec.le_toInt x.v
  have hmax : x.int < 2 ^ 31 := BitVec.toInt_lt
  rw [satSmp_inside _ t hmin (by unfold qMax; omega), Smp.int, BitVec.ofInt_toInt]

theorem Frac.round_ofInt (x : Int) : Frac.round ⟨x, 1⟩ = x := by
  obtain ⟨hup, hdown, -⟩ := Frac.round_near x 1 Nat.one_pos
  omega

/-! ### A status bit -/

/-- A field of one bit set: every other bit stays. -/
theorem Word.setFld_one {f : Fld} (hw : f.w = 1) (v : Word) : v.setFld f 1 = v ||| f.mask := by
  have hone : BitVec.ofNat f.w 1 = BitVec.allOnes f.w := by rw [hw]; rfl
  rw [Word.setFld, hone, ← Fld.mask]
  ext i hi
  simp only [BitVec.getElem_or, BitVec.getElem_and, BitVec.getElem_not]
  cases f.mask[i] <;> simp

namespace Machine

theorem sumExact_unity (x : Smp) : sumExact [(Frac.one, x)] = ⟨x.int, 1⟩ := by
  simp [sumExact, Frac.add, Frac.mul, Frac.one, Frac.zero, Frac.ofInt]

theorem sumTag_unity (x : Smp) : sumTag [(Frac.one, x)] = x.tag := by
  simp [sumTag, Frac.one]

theorem sumSmp_unity (x : Smp) : sumSmp [(Frac.one, x)] = x := by
  rw [sumSmp, sumExact_unity, sumTag_unity, requant, Frac.round_ofInt, satSmp_int]

/-- The tags that one term gives to a sum. -/
def termTag (p : Frac × Smp) : Tag := if p.1.num = 0 then p.2.tag &&& tagP else p.2.tag

theorem foldl_or_getLsbD (j : Nat) : ∀ (terms : List (Frac × Smp)) (t : Tag),
    (terms.foldl (fun t p => t ||| termTag p) t).getLsbD j = (t.getLsbD j || terms.any (fun p => (termTag p).getLsbD j))
  | [], t => by rw [List.foldl_nil, List.any_nil, Bool.or_false]
  | p :: ps, t => by
    rw [List.foldl_cons, foldl_or_getLsbD j ps, BitVec.getLsbD_or, List.any_cons, Bool.or_assoc]

/-- A tag of a sum is the OR over its terms. -/
theorem sumTag_getLsbD (terms : List (Frac × Smp)) (j : Nat) :
    (sumTag terms).getLsbD j = terms.any (fun p => (termTag p).getLsbD j) :=
  (foldl_or_getLsbD j terms 0).trans (by rw [BitVec.ofNat_eq_ofNat, BitVec.getLsbD_zero, Bool.false_or])

theorem tagP_getLsbD (j : Nat) : tagP.getLsbD j = decide (j = 3) := by
  rw [show tagP = BitVec.twoPow 4 3 from rfl, BitVec.getLsbD_twoPow]
  simp [eq_comm]

/-- Of a term of no weight P alone counts. -/
theorem termTag_getLsbD (p : Frac × Smp) (j : Nat) :
    (termTag p).getLsbD j = ((decide (p.1.num ≠ 0) || decide (j = 3)) && p.2.tag.getLsbD j) := by
  unfold termTag
  split <;> rename_i hw
  · rw [BitVec.getLsbD_and, tagP_getLsbD, Bool.and_comm]
    simp [hw]
  · simp [hw]

theorem sumTag_weighted (terms : List (Frac × Smp)) {j : Nat} (hj : j < 3) :
    (sumTag terms).getLsbD j = terms.any (fun p => decide (p.1.num ≠ 0) && p.2.tag.getLsbD j) := by
  have hne : decide (j = 3) = false := decide_eq_false (by omega)
  simp only [sumTag_getLsbD, termTag_getLsbD, hne, Bool.or_false]

theorem sumTag_parison (terms : List (Frac × Smp)) :
    (sumTag terms).getLsbD 3 = terms.any (fun p => p.2.tag.getLsbD 3) := by
  simp only [sumTag_getLsbD, termTag_getLsbD, decide_true, Bool.or_true, Bool.true_and]

/-! ### What moving the samples on changes (R31, R41) -/

/-- The status bits that the samples set: OVR of a lane, SAT of a bus, CLIP of a sink. -/
def sampleBit (a j : Nat) : Prop :=
  (∃ l, a = R.MP_LANE_STS l) ∧ F.MP_LANE_STS_OVR.mask.getLsbD j = true ∨
    (∃ b, a = R.MIX_BUS_STS b) ∧ F.MIX_BUS_STS_SAT.mask.getLsbD j = true ∨
    (∃ i, a = R.MP_DYN_STS i) ∧ F.MP_DYN_STS_CLIP.mask.getLsbD j = true

/-- The second state differs from the first in status bits that the samples have set, in the front end, the engines and the
samples on their way, and in what was sent, and in nothing else. -/
structure State.SamplesMoved (s t : State) : Prop where
  rest : t = { s with regs := t.regs, fe := t.fe, eng := t.eng, sig := t.sig, out := t.out }
  bits : ∀ a j, (t.rd a).getLsbD j = (s.rd a).getLsbD j ∨ (t.rd a).getLsbD j = true ∧ sampleBit a j
  sent : ∃ l, t.out = l ++ s.out

theorem State.SamplesMoved.refl (s : State) : s.SamplesMoved s := ⟨rfl, fun _ _ => .inl rfl, [], rfl⟩

theorem State.SamplesMoved.trans {s t u : State} (h : s.SamplesMoved t) (k : t.SamplesMoved u) : s.SamplesMoved u := by
  obtain ⟨hrest, hbits, l, hl⟩ := h
  obtain ⟨krest, kbits, m, hm⟩ := k
  refine ⟨by rw [krest, hrest], fun a j => ?_, m ++ l, by rw [hm, hl, List.append_assoc]⟩
  rcases kbits a j with he | hset
  · rw [he]
    exact hbits a j
  · exact .inr hset

theorem State.SamplesMoved.setBit {s t : State} (h : s.SamplesMoved t) {a : Nat} {f : Fld} (hw : f.w = 1)
    (hf : ∀ j, f.mask.getLsbD j = true → sampleBit a j) : s.SamplesMoved (t.setF a f 1) := by
  refine h.trans ⟨rfl, fun b j => ?_, [], rfl⟩
  by_cases hb : a = b
  · subst hb
    rw [State.rd_setF_same, Word.setFld_one hw, BitVec.getLsbD_or]
    cases hm : f.mask.getLsbD j with
    | false => exact .inl (Bool.or_false _)
    | true => exact .inr ⟨Bool.or_true _, hf j hm⟩
  · exact .inl (by rw [State.rd_setF_ne _ _ _ _ _ hb])

theorem State.SamplesMoved.setAny {f : Fld} (hw : f.w = 1) {s : State} : ∀ (as : List Nat) {t : State},
    (∀ a ∈ as, ∀ j, f.mask.getLsbD j = true → sampleBit a j) → s.SamplesMoved t → s.SamplesMoved (State.setAny f as t)
  | [], _, _, h => h
  | a :: as, _, hf, h => State.SamplesMoved.setAny hw as (fun b hb => hf b (List.mem_cons_of_mem a hb))
      (h.setBit hw (hf a List.mem_cons_self))

theorem State.SamplesMoved.setOvr {s t : State} (h : s.SamplesMoved t) {α : Type} (l : List α) (g : α → Nat) :
    s.SamplesMoved (State.setAny F.MP_LANE_STS_OVR (l.map (fun x => R.MP_LANE_STS (g x))) t) := by
  refine State.SamplesMoved.setAny rfl _ (fun a ha j hj => ?_) h
  obtain ⟨x, -, hx⟩ := List.mem_map.mp ha
  exact .inl ⟨⟨g x, hx.symm⟩, hj⟩

theorem State.SamplesMoved.setSat {s t : State} (h : s.SamplesMoved t) {α : Type} (l : List α) (g : α → Nat) :
    s.SamplesMoved (State.setAny F.MIX_BUS_STS_SAT (l.map (fun x => R.MIX_BUS_STS (g x))) t) := by
  refine State.SamplesMoved.setAny rfl _ (fun a ha j hj => ?_) h
  obtain ⟨x, -, hx⟩ := List.mem_map.mp ha
  exact .inr (.inl ⟨⟨g x, hx.symm⟩, hj⟩)

theorem State.SamplesMoved.setClip {s t : State} (h : s.SamplesMoved t) (l : List Nat) :
    s.SamplesMoved (State.setAny F.MP_DYN_STS_CLIP (l.map R.MP_DYN_STS) t) := by
  refine State.SamplesMoved.setAny rfl _ (fun a ha j hj => ?_) h
  obtain ⟨x, -, hx⟩ := List.mem_map.mp ha
  exact .inr (.inr ⟨⟨x, hx.symm⟩, hj⟩)

theorem State.SamplesMoved.modSig {s t : State} (h : s.SamplesMoved t) (f : SigX → SigX) : s.SamplesMoved (t.modSig f) :=
  h.trans ⟨rfl, fun _ _ => .inl rfl, [], rfl⟩

theorem State.SamplesMoved.modChan {s t : State} (h : s.SamplesMoved t) (c : Nat) (f : FeChan → FeChan) :
    s.SamplesMoved (t.modChan c f) :=
  h.trans ⟨rfl, fun _ _ => .inl rfl, [], rfl⟩

theorem State.SamplesMoved.laneRun {s t : State} (h : s.SamplesMoved t) (l : Nat) (c : Bool) : s.SamplesMoved (t.laneRun l c) :=
  h.trans ⟨rfl, fun _ _ => .inl rfl, [], rfl⟩

theorem State.SamplesMoved.emit {s t : State} (h : s.SamplesMoved t) (o : Output) : s.SamplesMoved (t.emit o) :=
  h.trans ⟨rfl, fun _ _ => .inl rfl, [o], rfl⟩

theorem State.SamplesMoved.emitAll {s : State} : ∀ (os : List Output) {t : State}, s.SamplesMoved t →
    s.SamplesMoved (State.emitAll os t)
  | [], _, h => h
  | o :: os, _, h => State.SamplesMoved.emitAll os (h.emit o)

theorem State.SamplesMoved.feKeep (d : Nat) {s : State} : ∀ (l : List (Nat × List Word)) {t : State}, s.SamplesMoved t →
    s.SamplesMoved (State.feKeep d l t)
  | [], _, h => h
  | _ :: rest, _, h => State.SamplesMoved.feKeep d rest (h.modChan _ _)

theorem State.SamplesMoved.muxRuns (lanes : List (Nat × RouteX)) (srcs : Bufs) (d : Nat) {s : State} :
    ∀ (ls : List Nat) {t : State}, s.SamplesMoved t → s.SamplesMoved (State.muxRuns lanes srcs d ls t)
  | [], _, h => h
  | _ :: ls, _, h => State.SamplesMoved.muxRuns lanes srcs d ls (h.laneRun _ _)

theorem State.laneStage_moves (s : State) (m : BlockInputs) (d : Nat) : s.SamplesMoved (s.laneStage m d) :=
  .muxRuns _ _ _ _ (.feKeep _ _ (((State.SamplesMoved.refl s).modSig _).setOvr _ _))

theorem State.sinkStage_moves (s : State) (p : Plan) : s.SamplesMoved (s.sinkStage p) :=
  .emitAll _ (((((State.SamplesMoved.refl s).modSig _).setClip _).setSat _ _).setOvr _ _)

theorem State.dataPath_moves (s : State) (k : Nat) (m : BlockInputs) : s.SamplesMoved (s.dataPath k m) := by
  unfold State.dataPath
  split
  · exact .refl s
  · split
    · exact .feKeep _ _ (.refl s)
    · dsimp only
      split
      · exact (s.laneStage_moves m (k - 1)).trans (State.sinkStage_moves _ _)
      · exact s.laneStage_moves m (k - 1)

/-- Settles O60: rounding and saturation, sums and their tags, and what the data path moves. -/
theorem samplesRoundAndStay : Obligations.SamplesRoundAndStay := by
  refine ⟨fun _ _ t hd => requant_above hd t, fun _ _ t hd => requant_below hd t, fun _ _ t hd => requant_nearest hd t,
    sumSmp_unity, fun terms => ⟨fun _ => sumTag_weighted terms, sumTag_parison terms⟩,
    fun s k m a j => (s.dataPath_moves k m).bits a j, fun s k m => ?_⟩
  obtain ⟨hrest, -, hsent⟩ := s.dataPath_moves k m
  refine ⟨?_, ?_, ?_, ?_, ?_, ?_, ?_, ?_, ?_, ?_, ?_, ?_, hsent⟩ <;> rw [hrest]

end Machine
end Sys2Proof
end

section
/-!
PROOFS. The H-F link and the links of the power dies.
-/
namespace Sys2Proof.Machine

/-! ### One direction of the link (R19) -/

@[simp] theorem State.dirOf_modDirOf (s : State) (w : LinkWay) (f : LinkDir → LinkDir) :
    (s.modDirOf w f).dirOf w = f (s.dirOf w) := by
  cases w <;> rfl

@[simp] theorem State.modDirOf_regs (s : State) (w : LinkWay) (f : LinkDir → LinkDir) : (s.modDirOf w f).regs = s.regs := by
  cases w <;> rfl

@[simp] theorem State.modDirOf_fld (s : State) (w : LinkWay) (f : LinkDir → LinkDir) (a : Nat) (g : Fld) :
    (s.modDirOf w f).fld a g = s.fld a g := by
  cases w <;> rfl

@[simp] theorem State.modDirOf_out (s : State) (w : LinkWay) (f : LinkDir → LinkDir) : (s.modDirOf w f).out = s.out := by
  cases w <;> rfl

theorem State.dirOf_of_link_eq {s t : State} (h : t.link = s.link) (w : LinkWay) : t.dirOf w = s.dirOf w := by
  unfold State.dirOf
  rw [h]

/-- The sender's part leaves the receiver's sequence number. -/
@[simp] theorem LinkDir.sent_rxSeq (d : LinkDir) (f : Flit) : (d.sent f).rxSeq = d.rxSeq := by
  unfold LinkDir.sent
  split <;> rfl

/-- The flit that the receiver expects. -/
theorem execFlitReceived_expected {dir : LinkWay} {seq : Fin 256} {kind : FlitKind} {s : State}
    (hup : s.power.hubUp = true) (hseq : (s.dirOf dir).rxSeq = seq.val) :
    execFlitReceived dir seq true kind s = .next (s.modDirOf dir (fun _ =>
      { (s.dirOf dir).sent ⟨seq.val, kind⟩ with
        rxSeq := (((s.dirOf dir).sent ⟨seq.val, kind⟩).rxSeq + 1) % 256, nak := none
        good := ((s.dirOf dir).sent ⟨seq.val, kind⟩).good + 1 })) := by
  simp [execFlitReceived, hup, hseq]

/-- A flit whose CRC is wrong. -/
theorem execFlitReceived_damaged {dir : LinkWay} {seq : Fin 256} {kind : FlitKind} {s : State}
    (hup : s.power.hubUp = true) :
    execFlitReceived dir seq false kind s = .next ((s.modDirOf dir (fun _ =>
      { (s.dirOf dir).sent ⟨seq.val, kind⟩ with nak := some ((s.dirOf dir).sent ⟨seq.val, kind⟩).rxSeq, good := 0 })).emit
        (.nak dir ((s.dirOf dir).sent ⟨seq.val, kind⟩).rxSeq)) := by
  simp [execFlitReceived, hup]

/-- The sender has put flits back for sending, and counts the replay. -/
def State.replayed (s : State) (dir : LinkWay) (fs : List Flit) : State :=
  (((s.modDirOf dir (fun x => { x with nak := none, resend := fs })).incSat R.MEM_LINK_CNT F.MEM_LINK_CNT_REPLAY).worst
    1).emit (.flits dir (fs.map (·.seq)))

theorem State.replayed_dirOf (s : State) (dir : LinkWay) (fs : List Flit) :
    (s.replayed dir fs).dirOf dir = { s.dirOf dir with nak := none, resend := fs } :=
  (State.dirOf_of_link_eq rfl dir).trans (s.dirOf_modDirOf dir _)

theorem State.replayed_count (s : State) (dir : LinkWay) (fs : List Flit) :
    (s.replayed dir fs).fld R.MEM_LINK_CNT F.MEM_LINK_CNT_REPLAY =
      min (s.fld R.MEM_LINK_CNT F.MEM_LINK_CNT_REPLAY + 1) 0xFFFF := by
  rw [State.replayed, State.emit_fld, State.worst_fld _ _ _ _ (by decide) (by decide),
    State.fld_incSat_same _ _ _ (by decide), State.modDirOf_fld]
  rfl

theorem State.replayed_out (s : State) (dir : LinkWay) (fs : List Flit) :
    (s.replayed dir fs).out = .flits dir (fs.map (·.seq)) :: s.out :=
  congrArg _ (s.modDirOf_out dir _)

theorem execLinkReplay_of_kept {dir : LinkWay} {first : Fin 256} {s : State}
    (hnak : (s.dirOf dir).nak = some first.val)
    (hkept : (s.dirOf dir).kept.dropWhile (fun f => f.seq != first.val) ≠ []) :
    execLinkReplay dir first s = .next (s.replayed dir ((s.dirOf dir).kept.dropWhile (fun f => f.seq != first.val))) :=
  congrArg Host.Outcome.next (if_pos ⟨hnak, hkept⟩)

/-! ### Substituted samples and replaced words (R21, R23, R24, R373) -/

/-- So many samples are counted, the first ones of a block with an event. -/
def State.substituted (s : State) (n : Nat) : State :=
  if s.link.substSeen then s.addSat R.MEM_LINK_CNT F.MEM_LINK_CNT_SUBST n else
    (((s.addSat R.MEM_LINK_CNT F.MEM_LINK_CNT_SUBST n).modLink
      (fun y => { y with substSeen := true })).degradedCount).raiseF 0x0201 0x0E01

theorem execLinkSampleSubstitute_of_up {n : Nat} {s : State} (hn : n ≠ 0) (hup : s.link.fUp = true) :
    execLinkSampleSubstitute n s = .next (s.substituted n) :=
  congrArg Host.Outcome.next (if_neg (by simp [hn, hup]))

/-- The event changes neither the count nor the link's end at F nor what is staged. -/
theorem State.substituted_effect (n : Nat) {s : State} (hup : s.link.fUp = true) :
    (s.substituted n).fld R.MEM_LINK_CNT F.MEM_LINK_CNT_SUBST = min (s.fld R.MEM_LINK_CNT F.MEM_LINK_CNT_SUBST + n) 0xFFFF ∧
      (s.substituted n).link.substSeen = true ∧ (s.substituted n).link.fUp = true ∧ (s.substituted n).stage = s.stage := by
  have hcount := s.fld_addSat_same R.MEM_LINK_CNT F.MEM_LINK_CNT_SUBST n (by decide)
  unfold State.substituted
  split
  · exact ⟨hcount, ‹_›, hup, rfl⟩
  · rw [State.raiseF_fld _ _ _ _ _ _ (by decide), State.degradedCount_fld _ _ _ (by decide) (by decide) (by decide),
      State.raiseF_link, State.degradedCount_link, State.raiseF_stage, State.degradedCount_stage]
    exact ⟨hcount, rfl, hup, rfl⟩

/-- The counter of a power die's link lies neither in the HIF_ page nor at MEM_STS. -/
theorem State.worst_fld_linkCnt (s : State) (level : Nat) (d : Fin 2) (g : Fld) :
    (s.worst level).fld (R.PWR_LINK_CNT d) g = s.fld (R.PWR_LINK_CNT d) g := by
  refine State.worst_fld _ _ _ _ ?_ ?_ <;> simp only [R.PWR_LINK_CNT, R.MEM_STS] <;> omega

/-! ### The link goes down and comes up (R22, R373, R276) -/

/-- H has declared the link down and counted the outage. -/
def State.linkDeclaredDown (s : State) : State :=
  ((s.setF R.MEM_LINK_STS F.MEM_LINK_STS_UP 0).incSat R.MEM_LINK_STS F.MEM_LINK_STS_DOWN).modLink
    (fun y => { y with downAt := some s.clk.blk, up := { y.up with good := 0 }, down := { y.down with good := 0 } })

theorem State.linkDeclaredDown_up (s : State) : s.linkDeclaredDown.fld R.MEM_LINK_STS F.MEM_LINK_STS_UP = 0 := by
  rw [State.linkDeclaredDown, State.modLink_fld, State.fld_incSat_apart _ _ _ _ (by decide) (by decide),
    State.fld_setF_same _ _ _ _ (by decide)]
  rfl

theorem State.linkDeclaredDown_count (s : State) : s.linkDeclaredDown.fld R.MEM_LINK_STS F.MEM_LINK_STS_DOWN =
    min (s.fld R.MEM_LINK_STS F.MEM_LINK_STS_DOWN + 1) (2 ^ F.MEM_LINK_STS_DOWN.w - 1) := by
  rw [State.linkDeclaredDown, State.modLink_fld, State.fld_incSat_same _ _ _ (by decide),
    State.fld_setF_apart _ _ _ _ _ (by decide) (by decide)]

theorem execHLinkDown_of_up {s : State} (hhub : s.power.hubUp = true)
    (hup : s.on R.MEM_LINK_STS F.MEM_LINK_STS_UP = true) :
    execHLinkDown s = .next (s.linkDeclaredDown.raise 0x0203 0x0E01) :=
  congrArg Host.Outcome.next (if_pos (by rw [hhub, hup]; rfl))

/-- H's end of the link is up, its mirror is being refreshed, and F has taken its own end up. -/
def State.linkRestored (s : State) : State :=
  ((s.setF R.MEM_LINK_STS F.MEM_LINK_STS_UP 1).setF R.GLB_MIRROR_STS F.GLB_MIRROR_STS_REFRESHING 1).modLink
    (fun y => { y with fUp := true, downAt := none })

theorem State.linkRestored_up (s : State) : s.linkRestored.fld R.MEM_LINK_STS F.MEM_LINK_STS_UP = 1 := by
  rw [State.linkRestored, State.modLink_fld, State.fld_setF_ne _ _ _ _ _ _ (by decide), State.fld_setF_same _ _ _ _ (by decide)]
  rfl

theorem State.linkRestored_refreshing (s : State) :
    s.linkRestored.fld R.GLB_MIRROR_STS F.GLB_MIRROR_STS_REFRESHING = 1 := by
  rw [State.linkRestored, State.modLink_fld, State.fld_setF_same _ _ _ _ (by decide)]
  rfl

/-- A link that has come up at both ends: Tether and the collector take F's return, and what happened is raised, the end of
an outage where b is set. -/
def State.linkComesUp (s : State) (b : Bool) : State :=
  (if b then s.tthLinkBack.spaceReturn.raise 0x0204 0x0E01 else s.tthLinkBack.spaceReturn).bootEvents

/-- The registers outside the HIF_ and TTH_ pages stay. -/
theorem State.linkComesUp_fld (s : State) (b : Bool) (a : Nat) (g : Fld)
    (ha : a < 0x2000 ∨ 0x3000 ≤ a ∧ (a < 0xC000 ∨ 0xD000 ≤ a)) : (s.linkComesUp b).fld a g = s.fld a g := by
  have hback : s.tthLinkBack.spaceReturn.fld a g = s.fld a g := by
    rw [State.spaceReturn_fld _ _ _ (by omega), State.tthLinkBack_fld _ _ _ (by omega)]
  rw [State.linkComesUp, State.bootEvents_fld _ _ _ (by omega)]
  split
  · rw [State.raise_fld _ _ _ _ _ _ (by omega), hback]
  · exact hback

theorem State.linkComesUp_link (s : State) (b : Bool) : (s.linkComesUp b).link = s.link := by
  have hback : s.tthLinkBack.spaceReturn.link = s.link := by rw [State.spaceReturn_link, State.tthLinkBack_link]
  rw [State.linkComesUp, State.bootEvents_link]
  split
  · rw [State.raise_link, hback]
  · exact hback

theorem execDieLinkUp_of_trained {s : State} (hhub : s.power.hubUp = true)
    (hup : s.on R.MEM_LINK_STS F.MEM_LINK_STS_UP = false) (hdn : 64 ≤ s.link.down.good) (hgood : 64 ≤ s.link.up.good) :
    execDieLinkUp s = .next (s.linkRestored.linkComesUp s.link.downAt.isSome) :=
  congrArg Host.Outcome.next (if_pos (by simp [hhub, hup, hdn, hgood]))

theorem execLinkRetrainTimeout_of_due {s : State} {b : Nat} (hb : s.link.downAt = some b) (hhub : s.power.hubUp = true)
    (hup : s.on R.MEM_LINK_STS F.MEM_LINK_STS_UP = false) (hdue : b + 600 ≤ s.clk.blk) :
    execLinkRetrainTimeout s = .next (s.hubReset 5) := by
  simp [execLinkRetrainTimeout, hb, hhub, hup, hdue]

theorem State.hubReset_cause (s : State) (cause : Nat) :
    (s.hubReset cause).fld R.MEM_RST_CAUSE F.MEM_RST_CAUSE_CAUSE = cause % 16 := by
  rw [State.hubReset, State.modPower_fld, State.fld_incSat_apart _ _ _ _ (by decide) (by decide),
    State.fld_setF_same _ _ _ _ (by decide)]
  rfl

/-- Settles O1: each row of the links in turn. -/
theorem hFLink : Obligations.HFLink := by
  refine ⟨fun dir seq kind s hup hseq => ?_, fun dir seq kind s hup => ?_, fun dir first s hnak hkept => ?_,
    fun n s hn hup => ?_, fun d up s => ?_, fun d up s hsec hrest => ?_, fun d up s hmany => ?_, fun s hup => ?_,
    fun s hhub hup => ?_, fun s hhub => ?_, fun s hhub hup hdn hgood => ?_, fun b s hb hhub hup hdue => ?_⟩
  · refine ⟨_, execFlitReceived_expected hup hseq, rfl, ?_⟩
    rw [State.dirOf_modDirOf, LinkDir.sent_rxSeq, hseq]
    exact ⟨rfl, rfl, State.modDirOf_regs _ _ _, State.modDirOf_out _ _ _⟩
  · refine ⟨_, execFlitReceived_damaged hup, rfl, ?_⟩
    rw [State.dirOf_of_link_eq (State.emit_link _ _), State.dirOf_modDirOf, LinkDir.sent_rxSeq]
    exact ⟨rfl, rfl, congrArg _ (State.modDirOf_out _ _ _), State.modDirOf_regs _ _ _⟩
  · refine ⟨_, execLinkReplay_of_kept hnak hkept, rfl, ?_⟩
    rw [State.replayed_dirOf]
    exact ⟨rfl, rfl, State.replayed_count _ _ _, State.replayed_out _ _ _⟩
  · exact ⟨_, execLinkSampleSubstitute_of_up hn hup, rfl, State.substituted_effect n hup⟩
  · refine ⟨_, rfl, rfl, rfl, rfl, ?_, rfl⟩
    rw [State.modLink_fld, State.worst_fld_linkCnt]
    cases up <;> exact State.fld_incSat_same _ _ _ (by decide)
  · exact ⟨_, congrArg Host.Outcome.next (if_pos (by rw [parLink, hsec, hrest]; rfl)), rfl⟩
  · exact ⟨_, congrArg Host.Outcome.next (if_pos hmany), rfl⟩
  · exact ⟨_, congrArg Host.Outcome.next (if_pos hup), rfl⟩
  · refine ⟨_, execHLinkDown_of_up hhub hup, rfl, ?_⟩
    rw [State.raise_fld _ _ _ _ _ _ (by decide), State.raise_fld _ _ _ _ _ _ (by decide), State.raise_link, State.raise_mirror]
    exact ⟨s.linkDeclaredDown_up, s.linkDeclaredDown_count, rfl, rfl, rfl, rfl⟩
  · exact ⟨_, congrArg Host.Outcome.next (if_pos hhub), rfl⟩
  · refine ⟨_, execDieLinkUp_of_trained hhub hup hdn hgood, rfl, ?_⟩
    rw [State.linkComesUp_fld _ _ _ _ (by decide), State.linkComesUp_fld _ _ _ _ (by decide), State.linkComesUp_link]
    exact ⟨s.linkRestored_up, s.linkRestored_refreshing, rfl, rfl⟩
  · exact ⟨_, execLinkRetrainTimeout_of_due hb hhub hup hdue, rfl, rfl, rfl, rfl, s.hubReset_cause 5, rfl, rfl, rfl⟩

end Sys2Proof.Machine
end

section
/-!
PROOFS. Commands: what a descriptor that the part takes stages, or runs at once.
-/
namespace Sys2Proof.Machine

/-! ### Checks of the command table (R352) -/

theorem need_eq_ok {α : Type} {b : Bool} {st : Status} {x : Except Status α} {a : α} (hb : b = true) (hx : x = .ok a) :
    need b st x = .ok a := by
  rw [need, if_pos hb, hx]

theorem layoutWrite_eq_ok {d : Desc} {a : Nat} (hp : d.payLen = 0) (hi : d.inlIn (rwsMask a).toNat = true) :
    layoutWrite d a = .ok (.reg a (BitVec.ofNat 32 d.inl) true) := if_pos ⟨hp, hi⟩

/-- A row of a change or a timed operation whose own checks pass. -/
theorem State.next_stages {s : State} {op : Nat} {o : Origin} {d : Desc} {act : Act} (ht : s.takes o op d = true)
    (ha : (s.begun o op d).changeOf o { d with op := op } ((s.begun o op d).payloadOf o d) = .ok act)
    (hk : opKind op ≠ some .oper := by decide) (hr : op ≠ 0xA1 := by decide) :
    (.next (s.opRow op o d) : Out) = .next (s.stages o op d act) :=
  congrArg _ (s.opRow_stages op o d act ht hk hr ha)

/-- A row of an operation of rings 0 and PARAM. -/
theorem State.next_oper {s t : State} {op : Nat} {o : Origin} {d : Desc} (ht : s.takes o op d = true)
    (ho : (s.begun o op d).cmdOper (s.readId o) { d with op := op } ((s.begun o op d).payloadOf o d) = t)
    (hk : opKind op = some .oper := by decide) (hn : op ≠ 0xF0 := by decide) (hm : mgmtOp op = false := by decide) :
    (.next (s.opRow op o d) : Out) = .next t := by
  rw [s.opRow_runs op o d ht hk, State.operOf, if_neg hn, hm, if_neg Bool.false_ne_true, ho]

/-- Settles O33: each opcode's own checks pass, so it stages its change or does its operation. -/
theorem pathCommands : Obligations.PathCommands := by
  refine ⟨fun o d s ht htgt hsrc hp hi => ?_, fun o d s ht htgt hp hi => ?_, fun o d s ht htgt hp hi => ?_,
    fun o d s ht htgt hp hi => ?_, fun o d s ht htgt hp hi => ?_, fun o d s ht hsink hsel hp hi => ?_,
    fun o d bs s ht hbs htgt hi hlen hc hl => ?_, fun o d s ht htgt hp hi => ?_, fun o d s ht htgt hp hi => ?_,
    fun o d s ht htgt hp hi => ?_, fun o d bs s ht hbs hlo hhi hi hlen => ?_, fun o d bs s ht hbs htgt hi hlen hfree => ?_,
    fun o d bs s ht hbs htgt hi hlen hused => ?_⟩
  · exact State.next_stages ht (need_eq_ok (by simp [htgt, hsrc]) (layoutWrite_eq_ok hp hi))
  · exact State.next_stages ht (need_eq_ok (by simp [htgt]) (layoutWrite_eq_ok hp hi))
  · exact State.next_stages ht (need_eq_ok (by simp [htgt]) (layoutWrite_eq_ok hp hi))
  · exact State.next_stages ht (need_eq_ok (by simp [htgt]) (layoutWrite_eq_ok hp hi))
  · exact State.next_stages ht (need_eq_ok (by simp [htgt]) (layoutWrite_eq_ok hp hi))
  · exact State.next_stages ht (need_eq_ok (by simp [hsink, hsel]) (layoutWrite_eq_ok hp hi))
  · subst hbs
    exact State.next_stages ht (need_eq_ok (by simp [htgt, hi, hlen, hc, hl]) rfl)
  · exact State.next_stages ht (need_eq_ok (by simp [htgt, Desc.plain, hp, hi]) rfl)
  · exact State.next_stages ht (need_eq_ok (by simpa [Desc.inlIn, htgt, hp] using hi) rfl)
  · exact State.next_stages ht (need_eq_ok (by simpa [Desc.inlIn, htgt, hp] using hi) rfl)
  · subst hbs
    exact State.next_oper ht (if_pos (by simp [hlo, hhi, hi, hlen]))
  · subst hbs
    exact State.next_oper ht ((if_pos (by simp [htgt, hi, hlen])).trans
      (if_neg (Bool.eq_false_iff.mp hfree)))
  · subst hbs
    exact State.next_oper ht ((if_pos (by simp [htgt, hi, hlen])).trans (if_pos hused))

/-! ### Register writes by command, and how a descriptor is read -/

theorem State.regWrite_eq_ok {s : State} {o : Origin} {d : Desc} {ok : Bool} {act : Act} (hok : ok = true)
    (hr : s.regsRefused o d.regs = none) : s.regWrite o d ok act = .ok act := by
  rw [State.regWrite, hr]
  exact need_eq_ok hok rfl

/-- A transfer on a served port whose PEC is right, or not asked for, acts (R334). -/
theorem State.smbPec_of_ok {s : State} {pecOk : Bool} (hup : s.smbUp = true)
    (hpec : pecOk = true ∨ s.on R.HIF_SMB_CFG F.HIF_SMB_CFG_PEC_EN = false) (f : State → State) : s.smbPec pecOk f = f s := by
  have hgood : (s.on R.HIF_SMB_CFG F.HIF_SMB_CFG_PEC_EN && !pecOk) = false := by
    rcases hpec with h | h <;> simp [h]
  rw [State.smbPec, hup, hgood]
  rfl

/-- Settles O34: register writes, NOP, and the two ways in which the part takes a descriptor. -/
theorem parameterCommandsAndReading : Obligations.ParameterCommandsAndReading := by
  refine ⟨fun o d s ht hp hr => ?_, fun o d bs s ht hbs hi hlen hr => ?_, fun o d bs s ht hbs hi hlo hhi hmod hr => ?_,
    fun o d bs s ht hbs htgt hi hlen hgen => ?_, fun o d s ht htgt hp hi => ?_,
    fun mgmt bytes payload s hreads hdesc hbegin => ?_, fun d pecOk s hup hpec hbusy hreads => ?_,
    fun d pecOk s hup hpec hbusy => ?_⟩
  · exact State.next_stages ht (State.regWrite_eq_ok (beq_iff_eq.mpr hp) hr)
  · subst hbs
    exact State.next_stages ht (State.regWrite_eq_ok (by simp [hi, hlen]) hr)
  · subst hbs
    exact State.next_stages ht (State.regWrite_eq_ok (by simp [hi, hlo, hhi, hmod]) hr)
  · subst hbs
    exact State.next_stages ht (need_eq_ok (by simp [htgt, hi, hlen, hgen]) rfl)
  · refine congrArg Host.Outcome.next ((s.opRow_runs 0xF0 o d ht (by decide)).trans ((if_pos rfl).trans ?_))
    exact if_pos (by simp [Desc.plain, htgt, hp, hi])
  · exact congrArg _ (if_pos (by rw [hreads, hdesc, hbegin]; rfl))
  · refine congrArg _ ((State.smbPec_of_ok hup hpec _).trans ?_)
    rw [hbusy, hreads]
    rfl
  · refine congrArg _ ((State.smbPec_of_ok hup hpec _).trans ?_)
    rw [hbusy]
    rfl

/-! ### The engines -/

/-- RUNAHEAD_SET of a cluster in STOP with a lead and a margin in range (R209). -/
theorem State.raSet_done {s : State} {bs : List Byte} (hlen : bs.length = 8) (hn : bytesAt bs 0 1 ≤ 7)
    (hm : 2 ≤ bytesAt bs 2 1) (hh : bytesAt bs 2 1 ≤ bytesAt bs 1 1) (hmax : bytesAt bs 1 1 ≤ 48)
    (hzero : (bs.drop 3).all (fun b => b == 0) = true)
    (hstop : s.fld (R.ENG_STS (bytesAt bs 0 1)) F.ENG_STS_MODE_ACT = 0) :
    s.raSet bs = (.done, s.modEng (bytesAt bs 0 1) (fun x => { x with lead := bytesAt bs 1 1, margin := bytesAt bs 2 1 })) := by
  have hrest : ¬ (bs.drop 3).any (fun b => b != 0) = true := by
    rw [List.any_eq_not_all_not]
    simpa using hzero
  have hform : ¬ (bs.length ≠ 8 ∨ 7 < bytesAt bs 0 1 ∨ bytesAt bs 1 1 < 2 ∨ 48 < bytesAt bs 1 1 ∨ bytesAt bs 2 1 < 2 ∨
      bytesAt bs 1 1 < bytesAt bs 2 1 ∨ (bs.drop 3).any (fun b => b != 0) = true) := by
    simp only [not_or]
    exact ⟨not_not.mpr hlen, by omega, by omega, by omega, by omega, by omega, hrest⟩
  rw [State.raSet, if_neg hform, if_neg (not_not.mpr hstop)]

/-- Settles O35: admission and its failure, the staged changes of an engine, and the operations that run at once. -/
theorem engineCommands : Obligations.EngineCommands := by
  refine ⟨fun o d bs p s ht hbs htgt hi hlen hswap hadm => ?_, fun o d bs i e s ht hbs htgt hi hlen hswap hadm => ?_,
    fun o d p s ht htgt hp hstaged hid hswap => ?_, fun o d s ht htgt hp hi => ?_, fun o d bs s ht hbs htgt hi hlen hok => ?_,
    fun o d bs t s ht hbs htgt hi hload => ?_, fun o d bs s ht hbs htgt hi hlen hn hm hh hmax hzero hstop => ?_,
    fun o d bs s ht hbs htgt hi hlen hn hclr => ?_⟩
  · subst hbs
    refine State.next_oper ht ((if_pos (by simp [htgt, hi, hlen])).trans ?_)
    simp [State.progLoad, hswap, hadm, endsWith]
  · subst hbs
    refine State.next_oper ht ((if_pos (by simp [htgt, hi, hlen])).trans ?_)
    simp [State.progLoad, hswap, hadm, endsWith]
  · refine State.next_stages ht (need_eq_ok (by simp [htgt, hp]) ?_)
    simp [hstaged, hid, hswap, need]
  · exact State.next_stages ht (need_eq_ok (by simp [htgt, hp, hi]) rfl)
  · subst hbs
    exact State.next_stages ht (need_eq_ok (by simp [htgt, hi, hlen, hok]) rfl)
  · subst hbs
    refine State.next_oper ht ((if_pos (by simp [htgt, hi])).trans ?_)
    exact congrArg (endsWith _) hload
  · subst hbs
    refine State.next_oper ht ((if_pos (by simp [htgt, hi])).trans ?_)
    rw [State.raSet_done hlen hn hm hh hmax hzero hstop]
    rfl
  · subst hbs
    exact State.next_oper ht (if_pos (by simp [htgt, hi, hlen, hn, hclr]))

/-! ### Streams, sense converters and outputs -/

/-- Settles O36: the handover, the converters, and the staged changes of streams and outputs. -/
theorem streamSenseOutputCommands : Obligations.StreamSenseOutputCommands := by
  refine ⟨fun o d s ht htgt hp hi hring hen => ?_, fun o d s ht htgt hp hi hen => ?_, fun o d s ht htgt hp hi => ?_,
    fun o d s ht hlo hhi hp hi => ?_, fun o d s ht hlo hhi hp hi => ?_, fun o d s ht htgt hp hi => ?_,
    fun o d bs s ht hbs htgt hi hlen hc hch hk hn hroom => ?_, fun o d bs s ht hbs htgt hi hcal => ?_,
    fun o d s ht htgt hp hi => ?_, fun o d s ht htgt hp hi => ?_⟩
  · refine State.next_oper ht ((if_pos (by simpa [Desc.inlIn, htgt, hp] using hi)).trans ?_)
    exact if_pos (by rw [hring, hen]; rfl)
  · refine State.next_oper ht ((if_pos (by simpa [Desc.inlIn, htgt, hp] using hi)).trans ?_)
    exact if_neg (by rw [hen, Bool.and_false]; exact Bool.false_ne_true)
  · exact State.next_oper ht (if_pos (by simp [Desc.plain, htgt, hp, hi]))
  · exact State.next_stages ht (need_eq_ok (by simp [Desc.plain, hlo, hhi, hp, hi]) rfl)
  · exact State.next_stages ht (need_eq_ok (by simp [Desc.plain, hlo, hhi, hp, hi]) rfl)
  · exact State.next_oper ht (if_pos (by simp [Desc.plain, htgt, hp, hi]))
  · subst hbs
    refine State.next_oper ht
      ((if_pos (by simp [htgt, hi, hlen, hc, hch, hk, hn])).trans ?_)
    exact if_neg (Bool.eq_false_iff.mp hroom)
  · subst hbs
    exact State.next_stages ht (need_eq_ok (by simp [htgt, hi, hcal]) rfl)
  · exact State.next_stages ht (need_eq_ok (by simp [Desc.plain, htgt, hp, hi]) rfl)
  · exact State.next_stages ht (need_eq_ok (by simp [Desc.plain, htgt, hp, hi]) rfl)

/-! ### Tether -/

/-- Settles O37: the staged changes of Tether, and a message that joins the queue. -/
theorem tetherCommands : Obligations.TetherCommands := by
  refine ⟨fun o d bs s ht hbs hi hlen hmod hfit hword => ?_, fun o d s ht htgt hp hcode hmode => ?_,
    fun o d s ht htgt hp hi => ?_, fun o d s ht htgt hp hi => ?_, fun o d s ht htgt hp hi hdir hroom => ?_,
    fun o d s ht htgt hp hi => ?_⟩
  · subst hbs
    exact State.next_stages ht (need_eq_ok (by simp only [hi, hlen, hmod, hfit, hword]; rfl) rfl)
  · exact State.next_stages ht (need_eq_ok (by simp only [htgt, hp, hcode, hmode]; rfl) rfl)
  · exact State.next_stages ht (need_eq_ok (by simpa [htgt, hp] using hi) rfl)
  · exact State.next_stages ht (need_eq_ok (by simp [Desc.plain, htgt, hp, hi]) rfl)
  · refine State.next_oper ht ((if_pos (by simpa [Desc.inlIn, htgt, hp] using hi)).trans ?_)
    exact (if_neg (Bool.eq_false_iff.mp hdir)).trans (if_pos hroom)
  · exact State.next_oper ht (if_pos (by simp [Desc.plain, htgt, hp, hi]))

end Sys2Proof.Machine
end

section
/-!
PROOFS. Window writes of the front end: what the immediate part of an accepted write runs.
-/
namespace Sys2Proof.Machine

/-! ### Places in an array of registers -/

theorem regIdx_self {f : Nat → Nat} (hf : Function.Injective f) {n i : Nat} (hi : i < n) : regIdx f n (f i) = some i := by
  refine List.find?_range_eq_some.mpr ⟨beq_self_eq_true _, List.mem_range.mpr hi, fun j hj => ?_⟩
  simpa using hf.ne (Nat.ne_of_lt hj)

theorem regIdx_eq_none {f : Nat → Nat} {n a : Nat} (h : ∀ i < n, f i ≠ a) : regIdx f n a = none :=
  List.find?_range_eq_none.mpr fun i hi => by simpa using h i hi

/-! ### The hooks of the pages AFE_ and FLT_ -/

theorem State.hook_afe {s : State} {x : Nat} {old wo w1 v : Word} (hlo : 0x7000 ≤ x) (hhi : x < 0x8000) :
    s.hook x old wo w1 v = s.hookAfe x old wo := by
  unfold State.hook
  rw [if_neg (by omega), if_neg (by omega), if_neg (by omega), if_neg (by omega), if_neg (by omega), if_pos hhi]

theorem State.hook_flt {s : State} {x : Nat} {old wo w1 v : Word} (hlo : 0x9000 ≤ x) (hhi : x < 0xA000) :
    s.hook x old wo w1 v = s.hookFlt x old wo v := by
  unfold State.hook
  rw [if_neg (by omega), if_neg (by omega), if_neg (by omega), if_neg (by omega), if_neg (by omega), if_neg (by omega),
    if_neg (by omega), if_pos hhi]

theorem afeInCfg_injective : Function.Injective R.AFE_IN_CFG := fun i j h => by
  simp only [R.AFE_IN_CFG] at h
  omega

theorem afeInGain_injective : Function.Injective R.AFE_IN_GAIN := fun i j h => by
  simp only [R.AFE_IN_GAIN] at h
  omega

theorem fltCoefWin_injective : Function.Injective R.FLT_COEF_WIN := fun i j h => by
  simp only [R.FLT_COEF_WIN] at h
  omega

/-- The MODE or SE of an input, where the word changed (R53). -/
theorem State.hook_afeInCfg (s : State) (n : Fin 8) (old wo w1 v : Word) :
    s.hook (R.AFE_IN_CFG n) old wo w1 v = if old = s.rd (R.AFE_IN_CFG n) then s else s.modeChanged n := by
  have hx : R.AFE_IN_CFG n = 0x7000 + 4 * n := rfl
  rw [State.hook_afe (by omega) (by omega), State.hookAfe, if_neg (by rw [hx, R.AFE_LSN_CFG]; omega),
    if_neg (by rw [hx, R.AFE_ALM_BAND]; omega), if_neg (by rw [hx, R.AFE_PDM_CFG]; omega),
    if_neg (by rw [hx, R.AFE_GTH_CFG]; omega), regIdx_self afeInCfg_injective n.isLt]

/-- The gain of an input (R54). -/
theorem State.hook_afeInGain (s : State) (n : Fin 8) (old wo w1 v : Word) :
    s.hook (R.AFE_IN_GAIN n) old wo w1 v = s.gainWritten n := by
  have hx : R.AFE_IN_GAIN n = 0x7020 + 4 * n := rfl
  have hcfg : regIdx R.AFE_IN_CFG 8 (R.AFE_IN_GAIN n) = none :=
    regIdx_eq_none fun i hi => by rw [hx, R.AFE_IN_CFG]; omega
  rw [State.hook_afe (by omega) (by omega), State.hookAfe, if_neg (by rw [hx, R.AFE_LSN_CFG]; omega),
    if_neg (by rw [hx, R.AFE_ALM_BAND]; omega), if_neg (by rw [hx, R.AFE_PDM_CFG]; omega),
    if_neg (by rw [hx, R.AFE_GTH_CFG]; omega), hcfg, regIdx_self afeInGain_injective n.isLt]

/-- The trigger of a SYNC, and a SYNC that is armed or was (R72). -/
theorem State.hook_fltSyncCtl (s : State) (old wo w1 v : Word) (hgo : hit wo F.FLT_SYNC_CTL_SW_SYNC = true) :
    s.hook R.FLT_SYNC_CTL old wo w1 v =
      if old.fld F.FLT_SYNC_CTL_ARM = 1 ∨ s.swSync.on R.FLT_SYNC_CTL F.FLT_SYNC_CTL_ARM = true then s.swSync.armSync
      else s.swSync := by
  rw [State.hook_flt (by decide) (by decide), State.hookFlt, if_neg (by decide), if_pos rfl, if_pos hgo]

/-- A half of FLT_SYNC_AT moves an armed SYNC (R72). -/
theorem State.hook_fltSyncAt (s : State) (x : Nat) (old wo w1 v : Word) (hx : x = R.FLT_SYNC_AT_LO ∨ x = R.FLT_SYNC_AT_HI) :
    s.hook x old wo w1 v = if s.on R.FLT_SYNC_CTL F.FLT_SYNC_CTL_ARM then s.armSync else s := by
  have hplace : x = 0x9620 ∨ x = 0x9624 := hx
  rw [State.hook_flt (by omega) (by omega), State.hookFlt, if_neg (by rw [R.FLT_GLB_CTL]; omega),
    if_neg (by rw [R.FLT_SYNC_CTL]; omega), if_pos hx]

/-! ### Accepted writes of the front end -/

/-- An accepted write of a register of F without staged fields: the word, and then what the write runs. -/
theorem State.next_frontHook {s t : State} {ag x : Nat} {v : Word} (h : s.accepts ag x v = true)
    (hx : onFront x = true ∧ rwsMask x = 0 ∧ nowMask x ≠ 0) (hwin : regIdx R.FLT_COEF_WIN 128 x = none)
    (ht : (s.written x v).hook x (s.rd x) (woMask x &&& v) (w1cMask x &&& v) v = t) :
    (.next (s.writeThrough ag x v) : Out) = .next t := by
  obtain ⟨hfront, hrws, hnow⟩ := hx
  exact congrArg _ ((s.writeThrough_hook ag x v h hrws hnow hwin (by simp [hfront])).trans ht)

theorem afeInCfg_front : ∀ n : Fin 8,
    onFront (R.AFE_IN_CFG n) = true ∧ rwsMask (R.AFE_IN_CFG n) = 0 ∧ nowMask (R.AFE_IN_CFG n) ≠ 0 := by
  decide

theorem afeInGain_front : ∀ n : Fin 8,
    onFront (R.AFE_IN_GAIN n) = true ∧ rwsMask (R.AFE_IN_GAIN n) = 0 ∧ nowMask (R.AFE_IN_GAIN n) ≠ 0 := by
  decide

theorem fltCoefWin_front : ∀ i : Fin 128,
    onFront (R.FLT_COEF_WIN i) = true ∧ rwsMask (R.FLT_COEF_WIN i) = 0 ∧ nowMask (R.FLT_COEF_WIN i) ≠ 0 := by
  decide

theorem fltSwap_staged : ∀ c : Fin 16, rwsMask (R.FLT_SWAP c) ≠ 0 ∧ nowMask (R.FLT_SWAP c) ≠ 0 := by
  decide

/-- The coefficient window lies above 0x9400 and below 0x9600. -/
theorem regIdx_fltCoefWin_eq_none {x : Nat} (hx : x < 0x9400 ∨ 0x9600 ≤ x) : regIdx R.FLT_COEF_WIN 128 x = none :=
  regIdx_eq_none fun i hi => by rw [R.FLT_COEF_WIN]; omega

theorem State.applyNow_fltCoefWin (s : State) (i : Fin 128) (m v : Word) :
    s.applyNow (R.FLT_COEF_WIN i) m v = s.coefWinWrite i v := by
  rw [State.applyNow, regIdx_self fltCoefWin_injective i.isLt]

/-- An accepted write of a register with immediate and staged fields. -/
theorem State.writeThrough_staged {s : State} {ag x : Nat} {v : Word} (h : s.accepts ag x v = true)
    (hx : rwsMask x ≠ 0 ∧ nowMask x ≠ 0) :
    s.writeThrough ag x v = State.drainF ((s.writeNow x (nowMask x) v).stageWrite ag x v).stage.toF.length
      ((s.writeNow x (nowMask x) v).stageWrite ag x v) := by
  obtain ⟨hrws, hnow⟩ := hx
  rw [s.writeThrough_eq ag x v h, if_neg hrws, if_neg hnow]

/-- The word that carries the trigger of a SYNC hits it. -/
theorem hit_swSync (v : Word) : hit (woMask R.FLT_SYNC_CTL &&& withBits v F.FLT_SYNC_CTL_SW_SYNC) F.FLT_SYNC_CTL_SW_SYNC = true :=
  hit_withBits _ _ _ rfl (by decide) (withBits_fld v _ rfl (by decide))

/-- Settles O27: five registers of F run their hooks, a coefficient goes to its window, and a swap is staged. -/
theorem frontEndWrites : Obligations.FrontEndWrites := by
  refine ⟨fun a n v s h => ?_, fun a n v s h => ?_, fun a i v s h => ?_, fun a v s h => ?_, fun a v s h => ?_,
    fun a v s h => ?_, fun a c v s h => ?_⟩
  · exact State.next_frontHook h (afeInCfg_front n) (regIdx_fltCoefWin_eq_none (by rw [R.AFE_IN_CFG]; omega))
      (State.hook_afeInCfg _ n _ _ _ v)
  · exact State.next_frontHook h (afeInGain_front n) (regIdx_fltCoefWin_eq_none (by rw [R.AFE_IN_GAIN]; omega))
      (State.hook_afeInGain _ n _ _ _ v)
  · obtain ⟨hfront, hrws, hnow⟩ := fltCoefWin_front i
    exact congrArg _ ((s.writeThrough_front a _ v h hfront hrws hnow).trans (State.applyNow_fltCoefWin _ i _ v))
  · exact State.next_frontHook h (by decide) (regIdx_fltCoefWin_eq_none (by decide))
      (State.hook_fltSyncCtl _ _ _ _ _ (hit_swSync v))
  · exact State.next_frontHook h (by decide) (regIdx_fltCoefWin_eq_none (by decide))
      (State.hook_fltSyncAt _ _ _ _ _ v (.inl rfl))
  · exact State.next_frontHook h (by decide) (regIdx_fltCoefWin_eq_none (by decide))
      (State.hook_fltSyncAt _ _ _ _ _ v (.inr rfl))
  · exact congrArg _ (State.writeThrough_staged h (fltSwap_staged c))

end Sys2Proof.Machine
end

section
/-!
PROOFS. Window writes of the serial ports, and the trackers of directions and listeners.
-/
namespace Sys2Proof.Machine

/-! ### Accepted writes of SAP_CFG (R91, R93, R94, R96) -/

theorem State.hook_sap {s : State} {x : Nat} {old wo w1 v : Word} (hlo : 0x6000 ≤ x) (hhi : x < 0x7000) :
    s.hook x old wo w1 v = s.hookSap x old v := by
  unfold State.hook
  rw [if_neg (by omega), if_neg (by omega), if_neg (by omega), if_neg (by omega), if_pos hhi]

theorem State.hook_sapCfg (s : State) (d : Fin 8) (old wo w1 v : Word) :
    s.hook (R.SAP_CFG d) old wo w1 v = s.sapCfgWritten d old := by
  have hx : R.SAP_CFG d = 0x6000 + 0x100 * d := rfl
  have hd : (R.SAP_CFG d - 0x6000) / 0x100 = d := by omega
  rw [State.hook_sap (by omega) (by omega), State.hookSap, hd, if_pos rfl]

theorem sapCfg_front : ∀ d : Fin 8,
    onFront (R.SAP_CFG d) = true ∧ rwsMask (R.SAP_CFG d) = 0 ∧ nowMask (R.SAP_CFG d) ≠ 0 := by
  decide

/-- The four commands that write SAP_CFG differ only in the word. -/
theorem State.next_sapCfg {s : State} {ag : Nat} {d : Fin 8} {v : Word} (h : s.accepts ag (R.SAP_CFG d) v = true) :
    (.next (s.writeThrough ag (R.SAP_CFG d) v) : Out) =
      .next ((s.written (R.SAP_CFG d) v).sapCfgWritten d (s.rd (R.SAP_CFG d))) :=
  State.next_frontHook h (sapCfg_front d) (regIdx_fltCoefWin_eq_none (by rw [R.SAP_CFG]; omega))
    (State.hook_sapCfg _ d _ _ _ v)

/-! ### Trackers that lose lock (R101, R102) -/

@[simp] theorem State.modDir_fld (s : State) (d : Nat) (f : SapDir → SapDir) (x : Nat) (g : Fld) :
    (s.modDir d f).fld x g = s.fld x g := rfl

@[simp] theorem State.modDir_mp (s : State) (d : Nat) (f : SapDir → SapDir) : (s.modDir d f).mp = s.mp := rfl

theorem State.sapUnlock_lock (s : State) (d : Nat) : (s.sapUnlock d).fld (R.SAP_STS d) F.SAP_STS_LOCK = 0 := by
  rw [State.sapUnlock, State.modDir_fld, State.fld_setF_same _ _ _ _ (by decide)]
  rfl

@[simp] theorem State.sapUnlock_mp (s : State) (d : Nat) : (s.sapUnlock d).mp = s.mp := by
  rw [State.sapUnlock, State.modDir_mp, State.setF_mp]

/-- The tracker of a direction that is locked in TRACK mode drops lock. -/
theorem State.sapTrackLost_of_locked {s : State} {d : Nat} (huse : (s.dir d).use = .track)
    (hlock : s.on (R.SAP_STS d) F.SAP_STS_LOCK = true) :
    s.sapTrackLost d = (s.sapUnlock d).raiseF 0x0407 (sapSource d) := by
  rw [State.sapTrackLost, huse, hlock]
  exact if_pos rfl

theorem State.listenerTrackLost_of_locked {s : State} {st : Nat} (hlock : s.mp.lsLocked.contains st = true) :
    s.listenerTrackLost st =
      (s.modMp (fun y => { y with lsLocked := y.lsLocked.filter (fun x => x != st) })).raise 0x0407 (0x600 + st) :=
  if_pos hlock

/-- Settles O28: four words of SAP_CFG through one hook, then lock and loss of lock for both kinds of tracker. -/
theorem serialPortWrites : Obligations.SerialPortWrites := by
  refine ⟨fun a d v s h => State.next_sapCfg h, fun a d v s h => State.next_sapCfg h,
    fun a d v s h => State.next_sapCfg h, fun a d v s h => State.next_sapCfg h, fun d rate s hlock => ?_,
    fun st rate s hlock => ?_, fun d s huse hlock => ?_, fun st s hlock => ?_⟩
  · exact congrArg Host.Outcome.next (if_pos hlock)
  · exact congrArg Host.Outcome.next (if_pos hlock)
  · refine ⟨s.sapTrackLost d, rfl, rfl, ?_⟩
    rw [State.sapTrackLost_of_locked huse hlock, State.raiseF_fld _ _ _ _ _ _ (by rw [R.SAP_STS]; omega), State.raiseF_mp]
    exact ⟨s.sapUnlock_lock d, s.sapUnlock_mp d⟩
  · refine ⟨s.listenerTrackLost st, rfl, rfl, ?_⟩
    rw [State.listenerTrackLost_of_locked hlock, State.raise_mp, State.raise_fe]
    exact ⟨rfl, rfl⟩

end Sys2Proof.Machine
end

section
/-!
PROOFS. The part enters and leaves QUIET (R136, R137, R419).
-/
namespace Sys2Proof.Machine

theorem execQuietRequest_of_idle {s : State} (hen : s.on R.MP_QUIET_CFG F.MP_QUIET_CFG_EN = true)
    (hmode : s.power.mode = .run) (htrans : s.power.trans = none) (hsilent : s.allSilent = true)
    (htether : s.tthIdle16 = true) : execQuietRequest s = .next (s.quietBegin 1) :=
  congrArg _ (if_pos (by rw [hen, hmode, htrans, hsilent, htether]; rfl))

/-- The entry ends four blocks after the boundary that follows its trigger. -/
theorem execQuietEntered_of_due {k : Nat} {s : State} (hat : s.mp.quietAt = some k) (htrans : s.power.trans = some .quiet)
    (hdue : k + 4 ≤ s.clk.blk) :
    execQuietEntered s = .next ((((((((State.park (List.range 16) s).transEnd .quiet).setF R.CLK_MODE_STS
      F.CLK_MODE_STS_OUT_READY 0).modMp (fun y => { y with quietAt := none })).incSat R.MP_QUIET_STS
      F.MP_QUIET_STS_COUNT).histEntry .run .quiet s.power.cause).raise 0x0106 0x3FF).modeChangedEvent .run .quiet
      s.power.cause) := by
  rw [execQuietEntered, hat]
  exact congrArg _ (if_pos ⟨htrans, hdue⟩)

/-- The outputs are ready twelve blocks after the boundary that follows the wake. -/
theorem execOutReady_of_due {k : Nat} {s : State} (hat : s.mp.quietAt = some k) (hmode : s.power.mode = .quiet)
    (htrans : s.power.trans = some .run) (hdue : k + 12 ≤ s.clk.blk) :
    execOutReady s = .next (((((State.resumeAll (List.range 8) (State.unpark (List.range 16)
      ((s.transEnd .run).setF R.CLK_MODE_STS F.CLK_MODE_STS_OUT_READY 1))).modMp
      (fun m => { m with quietAt := none, quietFade := [] })).histEntry .quiet .run s.power.cause).raise 0x0107
      0x3FF).modeChangedEvent .quiet .run s.power.cause) := by
  rw [execOutReady, hat]
  exact congrArg _ (if_pos ⟨hmode, htrans, hdue⟩)

/-- Settles O14: the request, the end of the entry and the end of the wake where they are due; the others hold by definition. -/
theorem quietMode : Obligations.QuietMode :=
  ⟨fun _ hen hmode htrans hsilent htether => execQuietRequest_of_idle hen hmode htrans hsilent htether, fun _ => rfl,
    fun _ _ hat htrans hdue => execQuietEntered_of_due hat htrans hdue, fun _ _ => rfl,
    fun _ _ hat hmode htrans hdue => execOutReady_of_due hat hmode htrans hdue⟩

end Sys2Proof.Machine
end

section
/-!
PROOFS. Window writes of the main path, the engines, the network, the outputs and Tether.
-/
namespace Sys2Proof.Machine

/-! ### What leaves the writes on their way to F alone -/

@[simp] theorem State.written_stage (s : State) (x : Nat) (v : Word) : (s.written x v).stage = s.stage := by
  unfold State.written
  split <;> rfl

@[simp] theorem State.modEng_stage (s : State) (n : Nat) (f : EngX → EngX) : (s.modEng n f).stage = s.stage := rfl

@[simp] theorem State.squash_stage (s : State) (n k0 : Nat) : (s.squash n k0).stage = s.stage := by
  unfold State.squash
  dsimp only
  split
  · rfl
  · rw [State.modEng_stage]
    split
    · split <;> rfl
    · rfl

@[simp] theorem State.squashAll_stage (k0 : Nat) (ns : List Nat) (s : State) : (State.squashAll k0 ns s).stage = s.stage := by
  induction ns generalizing s with
  | nil => rfl
  | cons n ns ih => rw [State.squashAll, ih, State.squash_stage]

@[simp] theorem State.stageAct_toF (s : State) (c : Staged) : (s.stageAct c).stage.toF = s.stage.toF := by
  rw [State.stageAct, State.squashAll_stage, State.stageAt, State.modStage_stage]

@[simp] theorem State.stagePreset_toF (s : State) (p : Nat) : (s.stagePreset p).stage.toF = s.stage.toF :=
  s.stageAct_toF _

/-! ### Accepted writes that run their hook -/

/-- An accepted write of a register of H without staged fields: the word, and then what the write runs. -/
theorem State.next_hubHook {s t : State} {ag x : Nat} {v : Word} (h : s.accepts ag x v = true)
    (hx : rwsMask x = 0 ∧ nowMask x ≠ 0) (hwin : regIdx R.FLT_COEF_WIN 128 x = none)
    (ht : (s.written x v).hook x (s.rd x) (woMask x &&& v) (w1cMask x &&& v) v = t)
    (htoF : t.stage.toF = (s.written x v).stage.toF) :
    (.next (s.writeThrough ag x v) : Out) = .next t := by
  obtain ⟨hrws, hnow⟩ := hx
  have hempty : t.stage.toF = [] := by rw [htoF, State.written_stage, s.accepts_toF ag x v h]
  exact congrArg _ ((s.writeThrough_hook ag x v h hrws hnow hwin (fun _ => by rw [ht, hempty])).trans ht)

/-- A word that carries a trigger of its register hits it. -/
theorem hit_trigger {x : Nat} {f : Fld} (hf : f.w = 1 ∧ f.lo < 32 ∧ (woMask x).fld f = 1) (v : Word) :
    hit (woMask x &&& withBits v f) f = true := by
  obtain ⟨hw, hl, hwo⟩ := hf
  exact hit_withBits _ _ _ hw hwo (withBits_fld v f hw hl)

/-! ### The hooks of the pages MP_, ENG_, NET_ and TTH_ -/

theorem State.hook_mp {s : State} {x : Nat} {old wo w1 v : Word} (hlo : 0xA000 ≤ x) (hhi : x < 0xC000) :
    s.hook x old wo w1 v = s.hookMp x wo := by
  unfold State.hook
  rw [if_neg (by omega), if_neg (by omega), if_neg (by omega), if_neg (by omega), if_neg (by omega), if_neg (by omega),
    if_neg (by omega), if_neg (by omega), if_pos hhi]

theorem State.hook_tth {s : State} {x : Nat} {old wo w1 v : Word} (hlo : 0xC000 ≤ x) (hhi : x < 0xD000) :
    s.hook x old wo w1 v = s.hookTth x old wo v := by
  unfold State.hook
  rw [if_neg (by omega), if_neg (by omega), if_neg (by omega), if_neg (by omega), if_neg (by omega), if_neg (by omega),
    if_neg (by omega), if_neg (by omega), if_neg (by omega), if_pos hhi]

theorem State.hook_eng {s : State} {x : Nat} {old wo w1 v : Word} (hlo : 0xE000 ≤ x) (hhi : x < 0xF000) :
    s.hook x old wo w1 v = s.hookEng x wo w1 := by
  unfold State.hook
  rw [if_neg (by omega), if_neg (by omega), if_neg (by omega), if_neg (by omega), if_neg (by omega), if_neg (by omega),
    if_neg (by omega), if_neg (by omega), if_neg (by omega), if_neg (by omega), if_neg (by omega), if_pos hhi]

theorem State.hook_net {s : State} {x : Nat} {old wo w1 v : Word} (hlo : 0x4000 ≤ x) (hhi : x < 0x6000) :
    s.hook x old wo w1 v = s.hookNet x old wo := by
  unfold State.hook
  rw [if_neg (by omega), if_neg (by omega), if_neg (by omega), if_pos hhi]

/-- The trigger of a preset (R135). -/
theorem State.hook_mpPresetCtl (s : State) (old wo w1 v : Word) (hgo : hit wo F.MP_PRESET_CTL_GO = true) :
    s.hook R.MP_PRESET_CTL old wo w1 v = s.stagePreset (s.fld R.MP_PRESET_CTL F.MP_PRESET_CTL_INDEX) := by
  rw [State.hook_mp (by decide) (by decide), State.hookMp, if_neg (by decide), if_pos rfl, if_pos hgo]

/-- The snapshot of the arbiter (R174). -/
theorem State.hook_arbCtl (s : State) (old wo w1 v : Word) (hsnap : hit wo F.ARB_CTL_SNAP = true) :
    s.hook R.ARB_CTL old wo w1 v = s.arbSnap (hit wo F.ARB_CTL_CLR) := by
  rw [State.hook_eng (by decide) (by decide), State.hookEng, if_neg (by decide), if_pos rfl, if_pos hsnap]

/-- The start of an MDIO frame (R175). -/
theorem State.hook_netMdioCtl (s : State) (old wo w1 v : Word) (hgo : hit wo F.NET_MDIO_CTL_GO = true) :
    s.hook R.NET_MDIO_CTL old wo w1 v = s.mdioGo := by
  rw [State.hook_net (by decide) (by decide), State.hookNet, if_neg (by decide), if_pos rfl, if_pos hgo]

/-- The data of the gain window (R265). -/
theorem State.hook_tthGwinData (s : State) (old wo w1 v : Word) :
    s.hook R.TTH_GWIN_DATA old wo w1 v = s.gwinWrite v := by
  rw [State.hook_tth (by decide) (by decide), State.hookTth, if_pos rfl]

/-- The trigger that clears the counters of Tether. -/
theorem State.hook_tthCtl (s : State) (old wo w1 v : Word) :
    s.hook R.TTH_CTL old wo w1 v = if hit wo F.TTH_CTL_CNT_CLR then s.tthCntClr else s := by
  rw [State.hook_tth (by decide) (by decide), State.hookTth, if_neg (by decide), if_neg (by decide), if_pos rfl]

/-- Either register of the tone starts the pattern again (R288). -/
theorem State.hook_tthTone (s : State) (x : Nat) (old wo w1 v : Word) (hx : x = R.TTH_TONE_CFG ∨ x = R.TTH_TONE_FREQ) :
    s.hook x old wo w1 v = s.toneRestart := by
  have hplace : x = 0xC73C ∨ x = 0xC738 := hx
  rw [State.hook_tth (by omega) (by omega), State.hookTth, if_neg (by rw [R.TTH_GWIN_DATA]; omega),
    if_neg (by rw [R.TTH_GWIN_ADDR]; omega), if_neg (by rw [R.TTH_CTL]; omega), if_neg (by rw [R.TTH_RAMP]; omega),
    if_pos hx]

/-- The player takes its request before it stops (R285). -/
theorem State.hook_tthPlayCtl (s : State) (old wo w1 v : Word) :
    s.hook R.TTH_PLAY_CTL old wo w1 v =
      if hit wo F.TTH_PLAY_CTL_STOP then
        (if hit wo F.TTH_PLAY_CTL_GO then
          s.playGo (s.fld R.TTH_PLAY_CTL F.TTH_PLAY_CTL_MSG) (s.fld R.TTH_PLAY_CTL F.TTH_PLAY_CTL_REPEAT) else s).playStop
      else if hit wo F.TTH_PLAY_CTL_GO then
        s.playGo (s.fld R.TTH_PLAY_CTL F.TTH_PLAY_CTL_MSG) (s.fld R.TTH_PLAY_CTL F.TTH_PLAY_CTL_REPEAT) else s := by
  rw [State.hook_tth (by decide) (by decide), State.hookTth, if_neg (by decide), if_neg (by decide), if_neg (by decide),
    if_neg (by decide), if_neg (by decide), if_pos rfl]

theorem tthSrvCfg_injective : Function.Injective R.TTH_SRV_CFG := fun i j h => by
  simp only [R.TTH_SRV_CFG] at h
  omega

/-- The trigger that closes a servo (R291). -/
theorem State.hook_tthSrvCfg (s : State) (m : Fin 8) (old wo w1 v : Word) (hclose : hit wo F.TTH_SRV_CFG_CLOSE = true) :
    s.hook (R.TTH_SRV_CFG m) old wo w1 v = s.servoClose m := by
  have hx : R.TTH_SRV_CFG m = 0xC400 + 0x40 * m := rfl
  have hout : regIdx R.TTH_OUT_CFG 24 (R.TTH_SRV_CFG m) = none :=
    regIdx_eq_none fun i hi => by rw [hx, R.TTH_OUT_CFG]; omega
  rw [State.hook_tth (by omega) (by omega), State.hookTth, if_neg (by rw [hx, R.TTH_GWIN_DATA]; omega),
    if_neg (by rw [hx, R.TTH_GWIN_ADDR]; omega), if_neg (by rw [hx, R.TTH_CTL]; omega),
    if_neg (by rw [hx, R.TTH_RAMP]; omega), if_neg (by rw [hx, R.TTH_TONE_CFG, R.TTH_TONE_FREQ]; omega),
    if_neg (by rw [hx, R.TTH_PLAY_CTL]; omega), hout, regIdx_self tthSrvCfg_injective m.isLt]
  exact if_pos hclose

/-! ### The registers' dies, fields and triggers -/

theorem engCtl_staged : ∀ n : Fin 8, rwsMask (R.ENG_CTL n) ≠ 0 ∧ nowMask (R.ENG_CTL n) ≠ 0 := by
  decide

theorem pwrCtl_staged : ∀ m : Fin 8, rwsMask (R.PWR_CTL m) ≠ 0 ∧ nowMask (R.PWR_CTL m) ≠ 0 := by
  decide

theorem extCfg_staged : ∀ e : Fin 8, rwsMask (R.EXT_CFG e) ≠ 0 ∧ nowMask (R.EXT_CFG e) ≠ 0 := by
  decide

theorem tthOutCfg_staged : ∀ o : Fin 24, rwsMask (R.TTH_OUT_CFG o) ≠ 0 ∧ nowMask (R.TTH_OUT_CFG o) ≠ 0 := by
  decide

theorem tthSrvCfg_front : ∀ m : Fin 8,
    onFront (R.TTH_SRV_CFG m) = true ∧ rwsMask (R.TTH_SRV_CFG m) = 0 ∧ nowMask (R.TTH_SRV_CFG m) ≠ 0 := by
  decide

theorem tthSrvCfg_close : ∀ m : Fin 8, F.TTH_SRV_CFG_CLOSE.w = 1 ∧ F.TTH_SRV_CFG_CLOSE.lo < 32 ∧
    (woMask (R.TTH_SRV_CFG m)).fld F.TTH_SRV_CFG_CLOSE = 1 := by
  decide

theorem tthTone_front : ∀ freq : Bool,
    let x := if freq then R.TTH_TONE_FREQ else R.TTH_TONE_CFG
    (onFront x = true ∧ rwsMask x = 0 ∧ nowMask x ≠ 0) ∧ 0x9600 ≤ x ∧ (x = R.TTH_TONE_CFG ∨ x = R.TTH_TONE_FREQ) := by
  decide

/-- Settles O29: nine registers run their hooks, and the four with staged fields stage them. -/
theorem engineNetworkOutputWrites : Obligations.EngineNetworkOutputWrites := by
  refine ⟨fun a v s h => ?_, fun a n v s h => ?_, fun a v s h => ?_, fun a v s h => ?_, fun a m v s h => ?_,
    fun a m v s h => ?_, fun a e v s h => ?_, fun a v s h => ?_, fun a o v s h => ?_, fun a v s h => ?_,
    fun a v s h => ?_, fun a freq v s h => ?_, fun a m v s h => ?_, fun a v s h => ?_⟩
  · exact State.next_hubHook h (by decide) (regIdx_fltCoefWin_eq_none (by decide))
      (State.hook_mpPresetCtl _ _ _ _ _ (hit_trigger (by decide) v)) (State.stagePreset_toF _ _)
  · exact congrArg _ (State.writeThrough_staged h (engCtl_staged n))
  · exact State.next_hubHook h (by decide) (regIdx_fltCoefWin_eq_none (by decide))
      (State.hook_arbCtl _ _ _ _ _ (hit_trigger (by decide) v)) (by rw [State.arbSnap_stage])
  · exact State.next_hubHook h (by decide) (regIdx_fltCoefWin_eq_none (by decide))
      (State.hook_netMdioCtl _ _ _ _ _ (hit_trigger (by decide) v)) (by rw [State.mdioGo_stage])
  · exact congrArg _ (State.writeThrough_staged h (pwrCtl_staged m))
  · exact congrArg _ (State.writeThrough_staged h (pwrCtl_staged m))
  · exact congrArg _ (State.writeThrough_staged h (extCfg_staged e))
  · exact State.next_frontHook h (by decide) (regIdx_fltCoefWin_eq_none (by decide)) (State.hook_tthGwinData _ _ _ _ v)
  · exact congrArg _ (State.writeThrough_staged h (tthOutCfg_staged o))
  · refine State.next_frontHook h (by decide) (regIdx_fltCoefWin_eq_none (by decide)) ?_
    rw [State.hook_tthPlayCtl, if_pos (hit_trigger (f := F.TTH_PLAY_CTL_GO) (by decide) v)]
  · exact State.next_frontHook h (by decide) (regIdx_fltCoefWin_eq_none (by decide))
      ((State.hook_tthPlayCtl _ _ _ _ _).trans (if_pos (hit_trigger (by decide) v)))
  · obtain ⟨hfront, hplace, htone⟩ := tthTone_front freq
    exact State.next_frontHook h hfront (regIdx_fltCoefWin_eq_none (.inr hplace)) (State.hook_tthTone _ _ _ _ _ _ htone)
  · exact State.next_frontHook h (tthSrvCfg_front m) (regIdx_fltCoefWin_eq_none (by rw [R.TTH_SRV_CFG]; omega))
      (State.hook_tthSrvCfg _ m _ _ _ _ (hit_trigger (tthSrvCfg_close m) v))
  · exact State.next_frontHook h (by decide) (regIdx_fltCoefWin_eq_none (by decide)) (State.hook_tthCtl _ _ _ _ _)

end Sys2Proof.Machine
end

section
/-!
PROOFS. Zhevdom messages that repeat a number which their controller entry keeps (R194).
-/
namespace Sys2Proof.Machine

/-! ### The numbers that the controller entries keep -/

theorem getD_modify_same {α : Type} {l : List α} {i : Nat} (f : α → α) (d : α) (hi : i < l.length) :
    (l.modify i f).getD i d = f (l.getD i d) := by
  simp [List.getD_eq_getElem?_getD, hi]

theorem getD_modify_ne {α : Type} (l : List α) {i j : Nat} (f : α → α) (d : α) (hj : j ≠ i) :
    (l.modify i f).getD j d = l.getD j d := by
  rw [List.getD_eq_getElem?_getD, List.getElem?_modify_ne _ _ hj.symm, List.getD_eq_getElem?_getD]

/-- Noting a number touches the list of one entry. -/
theorem State.zvNote_seen (s : State) (i seq : Nat) :
    (s.zvNote i seq).net.zv.seen = s.net.zv.seen.modify i (fun l => (⟨seq, none⟩ :: l).take 64) := rfl

/-- Sending a reply to a message of an entry touches the list of that entry. -/
theorem State.zvReply_seen (s : State) (i seq ty fl : Nat) (dst : Mac) (bs : List Byte) :
    (s.zvReply (some i) seq dst ty fl bs).net.zv.seen = s.net.zv.seen.modify i (fun l => l.map (fun x =>
      if x.seq = seq ∧ x.reply.isNone then { x with reply := some (ty, fl, s.net.zv.seq, bs) } else x)) := rfl

/-! ### A number that stands in the list -/

/-- Whatever a message of the TYPE would do, a repeated one counts and has its stored reply sent once more. -/
theorem State.next_zvAccept_of_repeated {s : State} {typ i ty fl own : Nat} {m : ZvMsg} {x : ZvSeen} {bs : List Byte}
    {f : Option Nat → State → State} (htake : s.zvTake typ m = .accept (some i))
    (hseen : (s.net.zv.seen.getD i []).find? (fun z => z.seq == m.seq) = some x)
    (hreply : x.reply = some (ty, fl, own, bs)) :
    (.next (s.zvAccept typ m f) : Out) =
      .next ((s.incSat R.NET_ZV_CNT F.NET_ZV_CNT_DUP).emit (.zv m.src ty fl own bs)) := by
  simp only [State.zvAccept, htake, hseen, hreply]

/-- A HEALTH message that asks meets the acceptance of its TYPE. -/
theorem execZvHealth_of_request {m : ZvMsg} (s : State) (hrequest : m.flags.testBit 0 = false) :
    ∃ f, execZvHealth m s = .next (s.zvAccept 6 m f) :=
  ⟨_, congrArg Host.Outcome.next (if_neg (by rw [hrequest]; decide))⟩

/-- Settles O58: each TYPE goes through the same acceptance, and the list of an entry changes in that entry alone. -/
theorem duplicateMessages : Obligations.DuplicateMessages := by
  refine ⟨fun _ _ _ _ _ _ _ _ htake hseen hreply => State.next_zvAccept_of_repeated htake hseen hreply,
    fun _ _ _ _ _ _ _ _ htake hseen hreply => State.next_zvAccept_of_repeated htake hseen hreply,
    fun _ _ _ _ _ _ _ _ htake hseen hreply => State.next_zvAccept_of_repeated htake hseen hreply,
    fun _ _ _ _ _ _ _ _ htake hseen hreply => State.next_zvAccept_of_repeated htake hseen hreply,
    fun _ _ _ _ _ _ _ _ htake hseen hreply => State.next_zvAccept_of_repeated htake hseen hreply,
    fun m _ _ _ _ _ _ s hrequest htake hseen hreply => ?_, fun i seq s hi => ⟨?_, fun j hj => ?_⟩,
    fun i seq ty fl dst bs s hi => ?_⟩
  · obtain ⟨f, hf⟩ := execZvHealth_of_request s hrequest
    exact hf.trans (State.next_zvAccept_of_repeated htake hseen hreply)
  · rw [State.zvNote_seen, getD_modify_same _ _ hi]
  · rw [State.zvNote_seen, getD_modify_ne _ _ _ hj]
  · rw [State.zvReply_seen, getD_modify_same _ _ hi]

end Sys2Proof.Machine
end

section
/-!
PROOFS. Network ports, the switch and its learned addresses (R175, R176).
-/
namespace Sys2Proof.Machine

/-! ### A port comes up (R175) -/

/-- A one-bit field as a number. -/
theorem State.on_toNat (s : State) (a : Nat) (f : Fld) (hw : f.w = 1) : (s.on a f).toNat = s.fld a f := by
  have hlt := s.fld_lt a f
  rw [hw] at hlt
  have h01 : s.fld a f = 0 ∨ s.fld a f = 1 := by omega
  rw [State.on_eq]
  obtain h | h := h01 <;> rw [h] <;> rfl

/-- The status register of a port whose link has come up at 1,000 Mb/s in full duplex. -/
def State.portLinked (s : State) (p : Nat) : State :=
  ((s.setF (R.NET_PORT_STS p) F.NET_PORT_STS_AN_DONE (s.on (R.NET_PORT_CFG p) F.NET_PORT_CFG_AN_EN).toNat).setF
    (R.NET_PORT_STS p) F.NET_PORT_STS_LINK 1).setF (R.NET_PORT_STS p) F.NET_PORT_STS_LINK_CHG 1

theorem State.portLinked_link (s : State) (p : Nat) :
    (s.portLinked p).fld (R.NET_PORT_STS p) F.NET_PORT_STS_LINK = 1 := by
  rw [State.portLinked, State.fld_setF_apart _ _ _ _ _ (by decide) (by decide), State.fld_setF_same _ _ _ _ (by decide)]
  rfl

theorem State.portLinked_linkChg (s : State) (p : Nat) :
    (s.portLinked p).fld (R.NET_PORT_STS p) F.NET_PORT_STS_LINK_CHG = 1 := by
  rw [State.portLinked, State.fld_setF_same _ _ _ _ (by decide)]
  rfl

theorem State.portLinked_anDone (s : State) (p : Nat) :
    (s.portLinked p).fld (R.NET_PORT_STS p) F.NET_PORT_STS_AN_DONE = s.fld (R.NET_PORT_CFG p) F.NET_PORT_CFG_AN_EN := by
  rw [State.portLinked, State.fld_setF_apart _ _ _ _ _ (by decide) (by decide),
    State.fld_setF_apart _ _ _ _ _ (by decide) (by decide), State.fld_setF_same _ _ _ _ (by decide),
    State.on_toNat _ _ _ rfl]
  exact Nat.mod_eq_of_lt (s.fld_lt _ _)

/-- Auto-negotiation, where it is enabled, agrees with 1,000 Mb/s in full duplex. -/
theorem execNetLinkUp_of_full {p : Fin 2} {s : State} (hen : s.on (R.NET_PORT_CFG p) F.NET_PORT_CFG_EN = true)
    (hlink : s.on (R.NET_PORT_STS p) F.NET_PORT_STS_LINK = false) :
    execNetLinkUp p 1000 true s = .next ((s.portLinked p).raise 0x0701 (0x620 + p)) := by
  have hagrees : (s.on (R.NET_PORT_CFG p) F.NET_PORT_CFG_AN_EN && ((1000 : Nat) != 1000 || !true)) = false :=
    Bool.and_false _
  rw [execNetLinkUp, if_neg (by simp [hen, hlink]), hagrees]
  rfl

/-! ### MDIO frames (R175) -/

theorem execMdioDone_of_read {data : BitVec 16} {s : State} (hbusy : s.on R.NET_MDIO_CTL F.NET_MDIO_CTL_BUSY = true)
    (hread : s.on R.NET_MDIO_CTL F.NET_MDIO_CTL_READ = true) :
    execMdioDone data s = .next ((s.setF R.NET_MDIO_CTL F.NET_MDIO_CTL_BUSY 0).setF R.NET_MDIO_DATA
      F.NET_MDIO_DATA_DATA data.toNat) :=
  congrArg Host.Outcome.next ((if_pos hbusy).trans (if_pos hread))

/-! ### Frames that arrive (R176) -/

theorem execFrameReceive_of_down {p : Fin 3} {f : EthFrame} {s : State} (hup : s.portUp p = false) :
    execFrameReceive p f s = .next s :=
  congrArg Host.Outcome.next (if_pos (by rw [hup]; rfl))

theorem execFrameReceive_of_bad {p : Fin 3} {f : EthFrame} {s : State} (hup : s.portUp p = true) (hbad : f.good = false) :
    execFrameReceive p f s = .next (s.portCnt p 1) :=
  congrArg Host.Outcome.next ((if_neg (by rw [hup]; decide)).trans (if_pos (by rw [hbad]; rfl)))

/-- A good frame that has a route and carries no Zhevdom message goes to the ports of its route. -/
theorem execFrameReceive_of_routed {p : Fin 3} {f : EthFrame} {qs : List Nat} {s : State} (hup : s.portUp p = true)
    (hgood : f.good = true) (htype : f.etype ≠ 0x88F7) (hzv : f.zv = none)
    (hroute : (((s.portCnt p 0).learn p f.src).useLearned f.dst).route6 p f = some qs) :
    execFrameReceive p f s = .next (State.egressAll f qs (((s.portCnt p 0).learn p f.src).useLearned f.dst)) := by
  rw [execFrameReceive, if_neg (by rw [hup]; decide), if_neg (by rw [hgood]; decide)]
  simp only [if_neg htype, hroute, hzv]

/-- Settles O19: a port up and down, the end of an MDIO read, the three fates of a frame, and the ageing of an address. -/
theorem networkPortEvents : Obligations.NetworkPortEvents := by
  refine ⟨fun p s hen hlink => ?_, fun p s => rfl, fun data s hbusy hread => execMdioDone_of_read hbusy hread,
    fun p f s hup => execFrameReceive_of_down hup, fun p f s hup hbad => execFrameReceive_of_bad hup hbad,
    fun p f qs s hup hgood htype hzv hroute => execFrameReceive_of_routed hup hgood htype hzv hroute,
    fun m s => ⟨_, rfl, rfl, rfl, rfl, rfl⟩⟩
  have hplace : R.NET_PORT_STS p < 0x2000 ∨ 0x3000 ≤ R.NET_PORT_STS p := by
    rw [R.NET_PORT_STS]
    omega
  refine ⟨_, execNetLinkUp_of_full hen hlink, rfl, ?_⟩
  rw [State.raise_fld _ _ _ _ _ _ hplace, State.raise_fld _ _ _ _ _ _ hplace, State.raise_fld _ _ _ _ _ _ hplace,
    State.raise_net]
  exact ⟨s.portLinked_link p, s.portLinked_linkChg p, s.portLinked_anDone p, rfl⟩

end Sys2Proof.Machine
end

section
/-!
PROOFS. Listener and talker streams (R182, R184, R186, R187).
-/
namespace Sys2Proof.Machine

/-! ### Listeners (R182, R184, R186) -/

theorem execListenerFrame_of_ok {st : Fin 16} {f : AafFrame} {s : State}
    (hen : s.on (R.NET_LS_CFG st) F.NET_LS_CFG_EN = true)
    (hok : (s.incWrap (R.NET_LS_FRAMES st) F.NET_LS_FRAMES_COUNT).aafOk st f = true) :
    execListenerFrame st f s = .next ((s.incWrap (R.NET_LS_FRAMES st) F.NET_LS_FRAMES_COUNT).frameTaken st f) :=
  congrArg Host.Outcome.next ((if_pos hen).trans (if_pos hok))

theorem execListenerFrame_of_bad {st : Fin 16} {f : AafFrame} {s : State}
    (hen : s.on (R.NET_LS_CFG st) F.NET_LS_CFG_EN = true)
    (hbad : (s.incWrap (R.NET_LS_FRAMES st) F.NET_LS_FRAMES_COUNT).aafOk st f = false) :
    execListenerFrame st f s = .next ((s.incWrap (R.NET_LS_FRAMES st) F.NET_LS_FRAMES_COUNT).setF
      (R.NET_LS_STS st) F.NET_LS_STS_FMT_ERR 1) :=
  congrArg Host.Outcome.next ((if_pos hen).trans (if_neg (by rw [hbad]; decide)))

/-- The listener of a stream has been marked as lost, before the event. -/
def State.listenerLost (s : State) (st : Nat) : State :=
  ((s.setF (R.NET_LS_STS st) F.NET_LS_STS_LOST 1).setF (R.NET_LS_STS st) F.NET_LS_STS_ACTIVE 0).modLs st
    (fun x => { x with lost := true })

@[simp] theorem State.modLs_fld (s : State) (st : Nat) (f : ListenerX → ListenerX) (a : Nat) (g : Fld) :
    (s.modLs st f).fld a g = s.fld a g := rfl

theorem State.listenerLost_lost (s : State) (st : Nat) :
    (s.listenerLost st).fld (R.NET_LS_STS st) F.NET_LS_STS_LOST = 1 := by
  rw [State.listenerLost, State.modLs_fld, State.fld_setF_apart _ _ _ _ _ (by decide) (by decide),
    State.fld_setF_same _ _ _ _ (by decide)]
  rfl

theorem State.listenerLost_active (s : State) (st : Nat) :
    (s.listenerLost st).fld (R.NET_LS_STS st) F.NET_LS_STS_ACTIVE = 0 := by
  rw [State.listenerLost, State.modLs_fld, State.fld_setF_same _ _ _ _ (by decide)]
  rfl

/-- Twelve blocks without a valid frame. -/
theorem execStreamLost_of_silent {st : Fin 16} {s : State} (hen : s.on (R.NET_LS_CFG st) F.NET_LS_CFG_EN = true)
    (hlost : (s.lsX st).lost = false) (hheard : (s.lsX st).heard + 12 ≤ s.clk.blk) :
    execStreamLost st s = .next ((s.listenerLost st).raise 0x0706 (0x600 + st)) :=
  congrArg Host.Outcome.next (if_pos ⟨hen, hlost, hheard⟩)

/-! ### Talkers (R187) -/

theorem execTalkerFrameSend_of_room {st : Fin 16} {k : Nat} {smp : Fin 16} {s : State}
    (hen : s.on (R.NET_TK_CFG st) F.NET_TK_CFG_EN = true) :
    execTalkerFrameSend st k smp true s = .next (
      let ts := BitVec.ofNat 32 (s.stampOf k smp + (s.rd (R.NET_TK_OFS st)).toNat)
      (((s.incWrap (R.NET_TK_FRAMES st) F.NET_TK_FRAMES_COUNT).wr (R.NET_TK_TS st) ts).setF (R.NET_TK_STS st)
        F.NET_TK_STS_ACTIVE 1).emit (.talker st ts)) :=
  congrArg Host.Outcome.next ((if_pos hen).trans (if_pos rfl))

theorem execTalkerFrameSend_of_full {st : Fin 16} {k : Nat} {smp : Fin 16} {s : State}
    (hen : s.on (R.NET_TK_CFG st) F.NET_TK_CFG_EN = true) :
    execTalkerFrameSend st k smp false s = .next (s.incSat (R.NET_TK_ERR st) F.NET_TK_ERR_DROP) :=
  congrArg Host.Outcome.next ((if_pos hen).trans (if_neg Bool.false_ne_true))

/-- Settles O20: a frame of a listener by its format, the loss of a stream, and a talker's frame by the room in the queue. -/
theorem networkStreams : Obligations.NetworkStreams := by
  refine ⟨fun st f s hen hok => execListenerFrame_of_ok hen hok, fun st f s hen hbad => execListenerFrame_of_bad hen hbad,
    fun st s hen hlost hheard => ?_, fun st k smp s hen => execTalkerFrameSend_of_room hen, fun st k smp s hen => ?_⟩
  · have hplace : R.NET_LS_STS st < 0x2000 ∨ 0x3000 ≤ R.NET_LS_STS st := by
      rw [R.NET_LS_STS]
      omega
    refine ⟨_, execStreamLost_of_silent hen hlost hheard, rfl, ?_⟩
    rw [State.raise_fld _ _ _ _ _ _ hplace, State.raise_fld _ _ _ _ _ _ hplace, State.raise_mp]
    exact ⟨s.listenerLost_lost st, s.listenerLost_active st, rfl⟩
  · exact ⟨_, execTalkerFrameSend_of_full hen, rfl, State.fld_incSat_same _ _ _ (by decide), State.incSat_out _ _ _,
      State.incSat_net _ _ _⟩

end Sys2Proof.Machine
end

section
/-!
PROOFS. The sequence of an output channel: load test, soft start, stop, retry and restart ramp (R244, R245, R246, R252,
R253).
-/
namespace Sys2Proof.Machine

/-! ### Load test and soft start (R244, R253) -/

/-- A start goes on to the soft start where the reading is that of a normal load. -/
theorem execLoadTestDone_of_start_normal {m : Fin 8} {r : Nat} {s : State} (hdiag : s.chState m = stDiag)
    (hdue : (s.outX m).since + 120 ≤ s.clk.blk) (hnormal : s.loadClass m r = 2) (hstart : (s.outX m).test = .start) :
    execLoadTestDone m r s = .next (((s.setF (R.PWR_DIAG m) F.PWR_DIAG_R (min r 0xFFFF)).setF (R.PWR_DIAG m)
      F.PWR_DIAG_CLASS 2).softstart m) := by
  rw [execLoadTestDone, if_pos ⟨hdiag, hdue⟩]
  simp only [hnormal, hstart, if_true]

theorem execSoftstartEnd_of_due {m : Fin 8} {s : State} (hsoft : s.chState m = stSoftstart)
    (hdue : (s.outX m).since + 240 ≤ s.clk.blk) :
    execSoftstartEnd m s = .next ((s.raiseF 0x0801 (0x400 + m.val)).enterReady m) :=
  congrArg Host.Outcome.next (if_pos ⟨hsoft, hdue⟩)

/-! ### The stop (R245, R255) -/

/-- At zero gain the search of a stop is over: a power channel goes on to hold its nodes, an EXT channel has stopped. -/
theorem execPwrStopGainZero_of_search {c : Fin 16} {b : Nat} {s : State} (hstop : s.chState c = stStopping)
    (hsearch : (s.outX c).stop = .search b) :
    execPwrStopGainZero c s = .next (if c.val < 8 then s.modOut c (fun x => { x with stop := .nodes, since := s.clk.blk })
      else s.chStopped c) := by
  rw [execPwrStopGainZero, if_pos hstop, hsearch]

theorem execPwrStopped_of_due {m : Fin 8} {s : State} (hstop : s.chState m = stStopping)
    (hnodes : (s.outX m).stop = .nodes) (hdue : (s.outX m).since + 240 ≤ s.clk.blk) :
    execPwrStopped m s = .next (s.chStopped m) :=
  congrArg Host.Outcome.next (if_pos ⟨hstop, hnodes, hdue⟩)

/-! ### Retries (R252) -/

/-- The retry of a power channel begins with a load test. -/
theorem execRetryAttempt_of_power {c : Fin 16} {s : State} (hwait : s.chState c = stRetryWait)
    (hdue : (s.outX c).retryAt ≤ s.clk.blk) (hrun : s.power.mode = .run) (hpower : c.val < 8) :
    execRetryAttempt c s = .next (((s.modOut c (fun x => { x with attempt := true, fault := true, test := .retry })).setCh
      c stDiag).injectLoad c) :=
  congrArg Host.Outcome.next ((if_pos ⟨hwait, hdue, hrun⟩).trans (if_pos hpower))

theorem execRetryCountReset_of_due {c : Fin 16} {s : State} (hready : s.chState c = stReady)
    (hsince : (s.outX c).readyAt + tenSeconds3 ≤ s.clk.now3) (hramp : (s.outX c).ramp = .none)
    (hend : (s.outX c).rampEnd + tenSeconds3 ≤ s.clk.now3) :
    execRetryCountReset c s = .next ((s.setRetryCnt c 0).modOut c (fun x => { x with attempt := false })) :=
  congrArg Host.Outcome.next (if_pos ⟨hready, hsince, hramp, hend⟩)

/-! ### The restart ramp (R246) -/

/-- The hold of a ramp ends at a crossing, or when it has run out. -/
theorem execRestartRampStart_of_hold {c : Fin 16} {crossing : Bool} {b : Nat} {s : State}
    (hhold : (s.outX c).ramp = .hold b) (hover : crossing = true ∨ b ≤ s.clk.now3) :
    execRestartRampStart c crossing s = .next (s.modOut c (fun x => { x with ramp := .rising s.clk.blk })) := by
  simp only [execRestartRampStart, hhold, if_pos hover]

theorem execRestartRampEnd_of_due {c : Fin 16} {k : Nat} {s : State} (hrising : (s.outX c).ramp = .rising k)
    (hdue : k + 64 ≤ s.clk.blk) :
    execRestartRampEnd c s = .next ((s.modOut c (fun x => { x with ramp := .none, rampEnd := s.clk.now3 })).servoShow
      c) := by
  simp only [execRestartRampEnd, hrising, if_pos hdue]

/-- Settles O8: each row of the sequence where it is due, the stop by the kind of channel, the ramp by what ends its hold. -/
theorem outputChannelSequence : Obligations.OutputChannelSequence :=
  ⟨fun _ _ _ => execLoadTestDone_of_start_normal, fun _ _ => execSoftstartEnd_of_due,
    fun _ _ _ hstop hsearch hpower =>
      (execPwrStopGainZero_of_search hstop hsearch).trans (congrArg Host.Outcome.next (if_pos hpower)),
    fun _ _ _ hstop hsearch hext =>
      (execPwrStopGainZero_of_search hstop hsearch).trans (congrArg Host.Outcome.next (if_neg (Nat.not_lt.mpr hext))),
    fun _ _ => execPwrStopped_of_due, fun _ _ => execRetryAttempt_of_power, fun _ _ => execRetryCountReset_of_due,
    fun _ _ _ hhold => execRestartRampStart_of_hold hhold (.inl rfl),
    fun _ _ _ hhold hout => execRestartRampStart_of_hold hhold (.inr hout),
    fun _ _ _ => execRestartRampEnd_of_due⟩

end Sys2Proof.Machine
end

section
/-!
PROOFS. Current limits, trips and faults of output channels (R251, R252, R255, R256).
-/
namespace Sys2Proof.Machine

/-! ### The current limit (R251) -/

@[simp] theorem State.modOut_fld (s : State) (c : Nat) (f : OutX → OutX) (a : Nat) (g : Fld) :
    (s.modOut c f).fld a g = s.fld a g := rfl

theorem State.fld_setF_ilim (s : State) (m : Nat) :
    (s.setF (R.PWR_STS m) F.PWR_STS_ILIM 1).fld (R.PWR_STS m) F.PWR_STS_ILIM = 1 := by
  rw [State.fld_setF_same _ _ _ _ (by decide)]
  rfl

theorem pwrSts_ne_pwrCnt (m : Nat) : R.PWR_STS m ≠ R.PWR_CNT m := by
  simp only [R.PWR_STS, R.PWR_CNT]
  omega

/-- The registers of the power channels lie above the HIF_ page, which the event collector writes. -/
theorem pwrSts_above_hif (m : Nat) : R.PWR_STS m < 0x2000 ∨ 0x3000 ≤ R.PWR_STS m := by
  rw [R.PWR_STS]
  omega

theorem pwrCnt_above_hif (m : Nat) : R.PWR_CNT m < 0x2000 ∨ 0x3000 ≤ R.PWR_CNT m := by
  rw [R.PWR_CNT]
  omega

/-- The first current limit of a block has been shown and counted, before the event. -/
def State.limitCounted (s : State) (m : Nat) : State :=
  ((s.setF (R.PWR_STS m) F.PWR_STS_ILIM 1).incSat (R.PWR_CNT m) F.PWR_CNT_ILIM).modOut m
    (fun x => { x with ilimBlk := some s.clk.blk })

theorem State.limitCounted_ilim (s : State) (m : Nat) :
    (s.limitCounted m).fld (R.PWR_STS m) F.PWR_STS_ILIM = 1 := by
  rw [State.limitCounted, State.modOut_fld, State.fld_incSat_ne _ _ _ _ _ (pwrSts_ne_pwrCnt m).symm,
    State.fld_setF_ilim]

theorem State.limitCounted_count (s : State) (m : Nat) : (s.limitCounted m).fld (R.PWR_CNT m) F.PWR_CNT_ILIM =
    min (s.fld (R.PWR_CNT m) F.PWR_CNT_ILIM + 1) (2 ^ F.PWR_CNT_ILIM.w - 1) := by
  rw [State.limitCounted, State.modOut_fld, State.fld_incSat_same _ _ _ (by decide),
    State.fld_setF_ne _ _ _ _ _ _ (pwrSts_ne_pwrCnt m)]

theorem execPwrCurrentLimit_of_first {m : Fin 8} {s : State} (hfirst : (s.outX m).ilimBlk ≠ some s.clk.blk) :
    execPwrCurrentLimit m s = .next ((s.limitCounted m).raiseFLimited second3 0x0804 (0x400 + m.val)) := by
  simp only [execPwrCurrentLimit, if_neg hfirst, State.limitCounted]

/-- A further current limit in a block is not counted. -/
theorem execPwrCurrentLimit_of_again {m : Fin 8} {s : State} (hagain : (s.outX m).ilimBlk = some s.clk.blk) :
    execPwrCurrentLimit m s = .next ((s.setF (R.PWR_STS m) F.PWR_STS_ILIM 1).raiseFLimited second3 0x0804
      (0x400 + m.val)) := by
  simp only [execPwrCurrentLimit, if_pos hagain]

/-! ### Faults (R251, R255, R256) -/

theorem execPwrDcFault_of_ready {m : Fin 8} {s : State} (hthr : s.fld (R.PWR_CFG (s.owner m)) F.PWR_CFG_DC_THR ≠ 0)
    (hready : s.chState (s.owner m) = stReady) :
    execPwrDcFault m s = .next (((s.setF (R.PWR_STS (s.owner m)) F.PWR_STS_DC 1).dropOut (s.owner m) stLatched).raiseF
      0x0806 (0x400 + s.owner m)) :=
  congrArg Host.Outcome.next (if_pos ⟨hthr, .inl hready⟩)

/-- The fault bits of an EXT channel that runs, and their event, come before its trip. -/
theorem execExtFault_of_armed {e : Fin 8} {s : State} (harmed : armedForTrip (s.chState (8 + e)) = true) :
    execExtFault e s = .next ((((s.setF (R.EXT_STS e) F.EXT_STS_FLT_NOW 1).setF (R.EXT_STS e) F.EXT_STS_FAULT 1).raiseF
      0x080A (0x408 + e.val)).trip (8 + e)) :=
  congrArg Host.Outcome.next (if_pos harmed)

theorem execExtReady_of_due {e : Fin 8} {s : State} (hsoft : s.chState (8 + e) = stSoftstart)
    (hdue : (s.outX (8 + e)).since + 60 ≤ s.clk.blk) : execExtReady e s = .next (s.enterReady (8 + e)) :=
  congrArg Host.Outcome.next (if_pos ⟨hsoft, hdue⟩)

/-- Settles O9: a limit by whether it is the first of its block, the two trips by definition, and the faults where the
channel runs. -/
theorem outputTrips : Obligations.OutputTrips := by
  refine ⟨fun m s hfirst => ⟨_, execPwrCurrentLimit_of_first hfirst, rfl, ?_, ?_, State.raiseFLimited_outs _ _ _ _ _⟩,
    fun m s hagain => ⟨_, execPwrCurrentLimit_of_again hagain, rfl, ?_, ?_, State.raiseFLimited_outs _ _ _ _ _⟩,
    fun _ _ _ => rfl, fun _ _ _ => rfl, fun _ _ => execPwrDcFault_of_ready, fun _ _ => execExtFault_of_armed,
    fun _ _ => execExtReady_of_due⟩
  · rw [State.raiseFLimited_fld _ _ _ _ _ _ _ (pwrSts_above_hif m), State.limitCounted_ilim]
  · rw [State.raiseFLimited_fld _ _ _ _ _ _ _ (pwrCnt_above_hif m), State.limitCounted_count]
  · rw [State.raiseFLimited_fld _ _ _ _ _ _ _ (pwrSts_above_hif m), State.fld_setF_ilim]
  · rw [State.raiseFLimited_rd _ _ _ _ _ _ (pwrCnt_above_hif m), State.rd_setF_ne _ _ _ _ _ (pwrSts_ne_pwrCnt m)]

end Sys2Proof.Machine
end

section
/-!
PROOFS. Supplies, RESET_N and the power of the hub (R274, R279, R406, R407, R408, R410, R411).
-/
namespace Sys2Proof.Machine

/-! ### VSYS and RESET_N (R407, R408, R411) -/

theorem execPowerOn_of_off {vsys : Nat} {testen : Bool} {s : State} (hoff : s.power.mode = .off) (hstart : 4400 < vsys) :
    execPowerOn vsys testen s = .next (State.railsShow (List.range 16) (((s.cold.modTest
      (fun _ => { TestX.reset with testen := testen })).setF R.CLK_SUPPLY_STS F.CLK_SUPPLY_STS_VSYS (vsys / 10)).setF
      R.CLK_SUPPLY_STS F.CLK_SUPPLY_STS_VSYS_OK 1)) :=
  congrArg Host.Outcome.next (if_pos ⟨hoff, hstart⟩)

theorem execVsysFail_of_on {s : State} (hon : s.power.mode ≠ .off) :
    execVsysFail s = .next (((s.flashCut.cold.modPower (fun y => y.down .off)).modClk
      (fun y => { y with run := false })).modMetro (fun y => { y.drop with onVbak := true })) :=
  congrArg Host.Outcome.next (if_neg hon)

/-- A part that is on is reset in place: what `resetByPin` leaves out, the losses of lock and HUB_PWR_OK stay. -/
theorem execResetN_of_on {testen : Bool} {s : State} (hon : s.power.mode ≠ .off) (hshelf : s.power.mode ≠ .shelf) :
    execResetN testen s = .next (State.railsShow (List.range 16) (((((((s.flashCut.cold.modTest
      (fun _ => { TestX.reset with testen := testen })).modRegs
      (fun _ => s.flashCut.regs.resetWhere resetByPin)).wr R.CLK_SYSPLL_STS
      (s.flashCut.rd R.CLK_SYSPLL_STS &&& F.CLK_SYSPLL_STS_LOSS.mask)).setF R.MEM_RST_CAUSE
      F.MEM_RST_CAUSE_CAUSE 1).incSat R.MEM_RST_CAUSE F.MEM_RST_CAUSE_COUNT).setF R.TTH_TKO_CAUSE
      F.TTH_TKO_CAUSE_HUB_PWR_OK (s.fld R.TTH_TKO_CAUSE F.TTH_TKO_CAUSE_HUB_PWR_OK)).modPower
      (fun p => { p with trans := none, cause := 8, rstCause := 1, rstBlk := s.clk.blk }))) := by
  simp only [execResetN, if_neg hon, beq_eq_false_iff_ne.mpr hshelf, Bool.false_eq_true, if_false]

/-- RESET_N ends SHELF: the part starts cold on its way to RUN. -/
theorem execResetN_of_shelf {testen : Bool} {s : State} (hshelf : s.power.mode = .shelf) :
    execResetN testen s = .next (State.railsShow (List.range 16) (((((s.flashCut.cold.modTest
      (fun _ => { TestX.reset with testen := testen })).setF R.MEM_RST_CAUSE F.MEM_RST_CAUSE_CAUSE 1).incSat
      R.MEM_RST_CAUSE F.MEM_RST_CAUSE_COUNT).setF R.CLK_SUPPLY_STS F.CLK_SUPPLY_STS_VSYS_OK 1).modPower
      (fun p => { p with trans := some .run, cause := 8, rstCause := 1, rstBlk := s.clk.blk }))) := by
  have hon : s.power.mode ≠ .off := by
    rw [hshelf]
    decide
  simp only [execResetN, if_neg hon, beq_iff_eq.mpr hshelf, if_true]

/-! ### VIO and a rail that falls out of regulation (R406, R410) -/

/-- The register of the supplies shows VIO: whether it is good, and its voltage in steps of 10 mV. -/
def State.vioShown (s : State) (good : Bool) (mv : Nat) : State :=
  (s.setF R.CLK_SUPPLY_STS F.CLK_SUPPLY_STS_VIO_OK good.toNat).setF R.CLK_SUPPLY_STS F.CLK_SUPPLY_STS_VIO
    (min 4095 (mv / 10))

theorem State.vioShown_vioOk (s : State) (good : Bool) (mv : Nat) :
    (s.vioShown good mv).fld R.CLK_SUPPLY_STS F.CLK_SUPPLY_STS_VIO_OK = good.toNat := by
  rw [State.vioShown, State.fld_setF_apart _ _ _ _ _ (by decide) (by decide), State.fld_setF_same _ _ _ _ (by decide)]
  exact Nat.mod_eq_of_lt good.toNat_lt

theorem State.vioShown_vio (s : State) (good : Bool) (mv : Nat) :
    (s.vioShown good mv).fld R.CLK_SUPPLY_STS F.CLK_SUPPLY_STS_VIO = min 4095 (mv / 10) := by
  rw [State.vioShown, State.fld_setF_same _ _ _ _ (by decide)]
  exact Nat.mod_eq_of_lt (Nat.lt_succ_of_le (Nat.min_le_left _ _))

/-- The register of a rail shows its fault, and the voltage to which the rail has fallen in mV. -/
def State.railFaulted (s : State) (i mv : Nat) : State :=
  ((s.setF (R.CLK_RAIL i) F.CLK_RAIL_FAULT 1).setF (R.CLK_RAIL i) F.CLK_RAIL_PG 0).setF (R.CLK_RAIL i) F.CLK_RAIL_MV
    (min 65535 mv)

theorem State.railFaulted_fault (s : State) (i mv : Nat) :
    (s.railFaulted i mv).fld (R.CLK_RAIL i) F.CLK_RAIL_FAULT = 1 := by
  rw [State.railFaulted, State.fld_setF_apart _ _ _ _ _ (by decide) (by decide),
    State.fld_setF_apart _ _ _ _ _ (by decide) (by decide), State.fld_setF_same _ _ _ _ (by decide)]
  rfl

theorem State.railFaulted_pg (s : State) (i mv : Nat) : (s.railFaulted i mv).fld (R.CLK_RAIL i) F.CLK_RAIL_PG = 0 := by
  rw [State.railFaulted, State.fld_setF_apart _ _ _ _ _ (by decide) (by decide),
    State.fld_setF_same _ _ _ _ (by decide)]
  rfl

theorem State.railFaulted_mv (s : State) (i mv : Nat) :
    (s.railFaulted i mv).fld (R.CLK_RAIL i) F.CLK_RAIL_MV = min 65535 mv := by
  rw [State.railFaulted, State.fld_setF_same _ _ _ _ (by decide)]
  exact Nat.mod_eq_of_lt (Nat.lt_succ_of_le (Nat.min_le_left _ _))

theorem execRailFault_of_on {i : Fin 16} {mv : Nat} {s : State} (hon : s.on (R.CLK_RAIL i) F.CLK_RAIL_ON = true) :
    execRailFault i mv s = .next (s.railFaulted i mv) :=
  congrArg Host.Outcome.next (if_pos hon)

/-! ### The supply of the hub (R274, R279) -/

/-- Outside a transition that removes the supply, its loss latches POWER (cause 3) and resets a hub that is up. -/
theorem execHubPowerGoodLow_of_staying {s : State} (hstay : s.leaving = false) (hup : s.power.hubUp = true) :
    execHubPowerGoodLow s = .next (((s.setF R.TTH_TKO_CAUSE F.TTH_TKO_CAUSE_HUB_PWR_OK 0).latchCause 3 allOuts
      s.nextSample).hubReset 4) :=
  congrArg Host.Outcome.next ((if_neg (Bool.eq_false_iff.mp hstay)).trans (if_pos hup))

theorem execHubPowerGoodLow_of_leaving {s : State} (hleave : s.leaving = true) :
    execHubPowerGoodLow s = .next (s.setF R.TTH_TKO_CAUSE F.TTH_TKO_CAUSE_HUB_PWR_OK 0) :=
  congrArg Host.Outcome.next (if_pos hleave)

theorem State.fld_setF_hubPwrOk (s : State) :
    (s.setF R.TTH_TKO_CAUSE F.TTH_TKO_CAUSE_HUB_PWR_OK 1).fld R.TTH_TKO_CAUSE F.TTH_TKO_CAUSE_HUB_PWR_OK = 1 := by
  rw [State.fld_setF_same _ _ _ _ (by decide)]
  rfl

/-- Settles O40: VSYS and RESET_N by the mode they meet, the supply of the hub by whether a transition removes it, and the
fields in which VIO, a rail and the hub's supply show. -/
theorem suppliesAndReset : Obligations.SuppliesAndReset :=
  ⟨fun _ _ _ => execPowerOn_of_off, fun _ => execVsysFail_of_on, fun _ _ => execResetN_of_on,
    fun _ _ => execResetN_of_shelf,
    fun good mv s => ⟨s.vioShown good mv, rfl, rfl, s.vioShown_vioOk good mv, s.vioShown_vio good mv, rfl, rfl⟩,
    fun i mv s hon => ⟨s.railFaulted i mv, execRailFault_of_on hon, rfl, s.railFaulted_fault i mv, s.railFaulted_pg i mv,
      s.railFaulted_mv i mv, rfl, rfl⟩,
    fun _ => execHubPowerGoodLow_of_staying, fun _ => execHubPowerGoodLow_of_leaving,
    fun s => ⟨_, rfl, rfl, s.fld_setF_hubPwrOk, State.setF_out _ _ _ _, State.setF_power _ _ _ _⟩⟩

end Sys2Proof.Machine
end

section
/-!
PROOFS. Window writes of the gather buffer and of the sense converters (R309, R317, R320, R321, R324, R325, R326, R330).
-/
namespace Sys2Proof.Machine

/-! ### The hooks of the gather buffer and of the page SNS_ -/

/-- The handover starts before it stops, where one word asks for both (R309). -/
theorem State.hook_afeGthCfg (s : State) (old wo w1 v : Word) :
    s.hook R.AFE_GTH_CFG old wo w1 v =
      if hit wo F.AFE_GTH_CFG_STOP then
        (if hit wo F.AFE_GTH_CFG_GO then s.gatherStart (s.fld R.AFE_GTH_CFG F.AFE_GTH_CFG_FMT) else s).gatherStop
      else if hit wo F.AFE_GTH_CFG_GO then s.gatherStart (s.fld R.AFE_GTH_CFG F.AFE_GTH_CFG_FMT) else s := by
  rw [State.hook_afe (by decide) (by decide), State.hookAfe, if_neg (by decide), if_neg (by decide), if_neg (by decide),
    if_pos rfl]

theorem State.hook_sns {s : State} {x : Nat} {old wo w1 v : Word} (hlo : 0x8000 ≤ x) (hhi : x < 0x9000) :
    s.hook x old wo w1 v = s.hookSns x old wo v := by
  unfold State.hook
  rw [if_neg (by omega), if_neg (by omega), if_neg (by omega), if_neg (by omega), if_neg (by omega), if_neg (by omega),
    if_pos hhi]

/-- The offset of the entry that SNS_CAL_ADDR shows (R325). -/
theorem State.hook_snsCalOfs (s : State) (old wo w1 v : Word) : s.hook R.SNS_CAL_OFS old wo w1 v = s.calOfsWritten v := by
  rw [State.hook_sns (by decide) (by decide), State.hookSns, if_pos rfl]

/-- The gain of the entry that SNS_CAL_ADDR shows (R325). -/
theorem State.hook_snsCalGain (s : State) (old wo w1 v : Word) :
    s.hook R.SNS_CAL_GAIN old wo w1 v = s.calGainWritten v := by
  rw [State.hook_sns (by decide) (by decide), State.hookSns, if_neg (by decide), if_pos rfl]

/-- The reference buffer (R324). -/
theorem State.hook_snsRef (s : State) (old wo w1 v : Word) : s.hook R.SNS_REF old wo w1 v = s.refWritten old := by
  rw [State.hook_sns (by decide) (by decide), State.hookSns, if_neg (by decide), if_neg (by decide), if_pos rfl]

/-- The control registers of converter c lie in the page apart from those that the converters share. -/
theorem State.hook_snsControl (s : State) (c : Fin 2) {x : Nat} {old wo w1 v : Word} (hlo : 0x8200 + 0x400 * c ≤ x)
    (hhi : x < 0x8220 + 0x400 * c) :
    s.hook x old wo w1 v =
      if x = R.SNS_CFG c then s.snsCfgWritten c old
      else if x = R.SNS_TRIG c then (if hit wo F.SNS_TRIG_SW then s.snsSoftware c else s)
      else if x = R.SNS_INJ c then (if wo.getLsbD 31 then s.injGo c else s)
      else if x = R.SNS_CAL_CTL c then (if hit wo F.SNS_CAL_CTL_GO then s.calGo c else s)
      else s := by
  have hc : (if x < 0x8400 then 0 else 1) = c.val := by split <;> omega
  rw [State.hook_sns (by omega) (by omega), State.hookSns, if_neg (by rw [R.SNS_CAL_OFS]; omega),
    if_neg (by rw [R.SNS_CAL_GAIN]; omega), if_neg (by rw [R.SNS_REF]; omega), if_neg (by rw [R.SNS_GLB_CTL]; omega), hc]

/-- The enable and the pause of a converter (R317, R320). -/
theorem State.hook_snsCfg (s : State) (c : Fin 2) (old wo w1 v : Word) :
    s.hook (R.SNS_CFG c) old wo w1 v = s.snsCfgWritten c old := by
  rw [s.hook_snsControl c (by rw [R.SNS_CFG]) (by rw [R.SNS_CFG]; omega), if_pos rfl]

/-- The software trigger of a converter (R317). -/
theorem State.hook_snsTrig (s : State) (c : Fin 2) (old wo w1 v : Word) (hsw : hit wo F.SNS_TRIG_SW = true) :
    s.hook (R.SNS_TRIG c) old wo w1 v = s.snsSoftware c := by
  have hx : R.SNS_TRIG c = 0x8208 + 0x400 * c := rfl
  rw [s.hook_snsControl c (by omega) (by omega), if_neg (by rw [hx, R.SNS_CFG]; omega), if_pos rfl, if_pos hsw]

/-- The injection of a conversion (R321). -/
theorem State.hook_snsInj (s : State) (c : Fin 2) (old wo w1 v : Word) (hgo : wo.getLsbD 31 = true) :
    s.hook (R.SNS_INJ c) old wo w1 v = s.injGo c := by
  have hx : R.SNS_INJ c = 0x820C + 0x400 * c := rfl
  rw [s.hook_snsControl c (by omega) (by omega), if_neg (by rw [hx, R.SNS_CFG]; omega),
    if_neg (by rw [hx, R.SNS_TRIG]; omega), if_pos rfl, if_pos hgo]

/-- A step of the calibration of a converter (R326). -/
theorem State.hook_snsCalCtl (s : State) (c : Fin 2) (old wo w1 v : Word) (hgo : hit wo F.SNS_CAL_CTL_GO = true) :
    s.hook (R.SNS_CAL_CTL c) old wo w1 v = s.calGo c := by
  have hx : R.SNS_CAL_CTL c = 0x8218 + 0x400 * c := rfl
  rw [s.hook_snsControl c (by omega) (by omega), if_neg (by rw [hx, R.SNS_CFG]; omega),
    if_neg (by rw [hx, R.SNS_TRIG]; omega), if_neg (by rw [hx, R.SNS_INJ]; omega), if_pos rfl, if_pos hgo]

/-! ### The converters' registers: their die, fields and triggers -/

theorem snsTrig_front : ∀ c : Fin 2,
    onFront (R.SNS_TRIG c) = true ∧ rwsMask (R.SNS_TRIG c) = 0 ∧ nowMask (R.SNS_TRIG c) ≠ 0 := by
  decide

theorem snsCfg_front : ∀ c : Fin 2,
    onFront (R.SNS_CFG c) = true ∧ rwsMask (R.SNS_CFG c) = 0 ∧ nowMask (R.SNS_CFG c) ≠ 0 := by
  decide

theorem snsInj_front : ∀ c : Fin 2,
    onFront (R.SNS_INJ c) = true ∧ rwsMask (R.SNS_INJ c) = 0 ∧ nowMask (R.SNS_INJ c) ≠ 0 := by
  decide

theorem snsCalCtl_front : ∀ c : Fin 2,
    onFront (R.SNS_CAL_CTL c) = true ∧ rwsMask (R.SNS_CAL_CTL c) = 0 ∧ nowMask (R.SNS_CAL_CTL c) ≠ 0 := by
  decide

theorem snsTrig_sw : ∀ c : Fin 2,
    F.SNS_TRIG_SW.w = 1 ∧ F.SNS_TRIG_SW.lo < 32 ∧ (woMask (R.SNS_TRIG c)).fld F.SNS_TRIG_SW = 1 := by
  decide

theorem snsInj_go : ∀ c : Fin 2,
    F.SNS_INJ_GO.w = 1 ∧ F.SNS_INJ_GO.lo < 32 ∧ (woMask (R.SNS_INJ c)).fld F.SNS_INJ_GO = 1 := by
  decide

theorem snsCalCtl_go : ∀ c : Fin 2,
    F.SNS_CAL_CTL_GO.w = 1 ∧ F.SNS_CAL_CTL_GO.lo < 32 ∧ (woMask (R.SNS_CAL_CTL c)).fld F.SNS_CAL_CTL_GO = 1 := by
  decide

/-- The bit that the injection looks at is the trigger GO that the word carries. -/
theorem snsInj_goBit (c : Fin 2) (v : Word) :
    (woMask (R.SNS_INJ c) &&& v.setFld F.SNS_INJ_GO 1).getLsbD 31 = true := by
  have hgo : hit (woMask (R.SNS_INJ c) &&& v.setFld F.SNS_INJ_GO 1) F.SNS_INJ_GO = true := by
    rw [Word.setFld_one rfl]
    exact hit_trigger (snsInj_go c) v
  rw [hit, fld_one _ _ rfl, beq_iff_eq] at hgo
  exact Bool.toNat_eq_one.mp hgo

/-! ### Accepted writes of the gather buffer and the converters -/

theorem State.next_afeGthCfg {s t : State} {ag : Nat} {v : Word} (h : s.accepts ag R.AFE_GTH_CFG v = true)
    (ht : (s.written R.AFE_GTH_CFG v).hook R.AFE_GTH_CFG (s.rd R.AFE_GTH_CFG) (woMask R.AFE_GTH_CFG &&& v)
      (w1cMask R.AFE_GTH_CFG &&& v) v = t) :
    (.next (s.writeThrough ag R.AFE_GTH_CFG v) : Out) = .next t :=
  State.next_frontHook h (by decide) (regIdx_fltCoefWin_eq_none (by decide)) ht

/-- Pause, resume and disable differ only in the word. -/
theorem State.next_snsCfg {s : State} {ag : Nat} {c : Fin 2} {v : Word} (h : s.accepts ag (R.SNS_CFG c) v = true) :
    (.next (s.writeThrough ag (R.SNS_CFG c) v) : Out) =
      .next ((s.written (R.SNS_CFG c) v).snsCfgWritten c (s.rd (R.SNS_CFG c))) :=
  State.next_frontHook h (snsCfg_front c) (regIdx_fltCoefWin_eq_none (by rw [R.SNS_CFG]; omega))
    (State.hook_snsCfg _ c _ _ _ v)

/-- Settles O30: the gather buffer by the triggers of its word, each converter through the hook of its register, and the
shared registers of the page; the test switches run nothing. -/
theorem listenerAndSenseWrites : Obligations.ListenerAndSenseWrites := by
  refine ⟨fun a v s h => ?_, fun a v s h => ?_, fun a c v s h => ?_, fun a c v s h => State.next_snsCfg h,
    fun a c v s h => State.next_snsCfg h, fun a c v s h => State.next_snsCfg h, fun a c v s h => ?_,
    fun a c v s h => ?_, fun a on s h => ?_, fun a v s h => ?_, fun a v s h => ?_, fun a v s h => ?_⟩
  · refine State.next_afeGthCfg h ?_
    rw [State.hook_afeGthCfg, if_pos (hit_trigger (f := F.AFE_GTH_CFG_GO) (by decide) v)]
  · exact State.next_afeGthCfg h ((State.hook_afeGthCfg _ _ _ _ _).trans (if_pos (hit_trigger (by decide) v)))
  · exact State.next_frontHook h (snsTrig_front c) (regIdx_fltCoefWin_eq_none (by rw [R.SNS_TRIG]; omega))
      (State.hook_snsTrig _ c _ _ _ _ (hit_trigger (snsTrig_sw c) v))
  · exact State.next_frontHook h (snsInj_front c) (regIdx_fltCoefWin_eq_none (by rw [R.SNS_INJ]; omega))
      (State.hook_snsInj _ c _ _ _ _ (snsInj_goBit c v))
  · exact State.next_frontHook h (snsCalCtl_front c) (regIdx_fltCoefWin_eq_none (by rw [R.SNS_CAL_CTL]; omega))
      (State.hook_snsCalCtl _ c _ _ _ _ (hit_trigger (snsCalCtl_go c) v))
  · exact State.next_frontHook h (by decide) (regIdx_fltCoefWin_eq_none (by decide)) (State.hook_snsRef _ _ _ _ _)
  · exact State.next_frontHook h (by decide) (regIdx_fltCoefWin_eq_none (by decide)) (State.hook_snsCalGain _ _ _ _ v)
  · exact State.next_frontHook h (by decide) (regIdx_fltCoefWin_eq_none (by decide)) (State.hook_snsCalOfs _ _ _ _ v)
  · exact State.next_frontHook h (by decide) (regIdx_fltCoefWin_eq_none (by decide)) (State.hook_sns (by decide) (by decide))

end Sys2Proof.Machine
end

section
/-!
PROOFS. Into LISTEN or SHELF, and out again (R298, R305, R307, R419, R420, R421, R422, R423).
-/
namespace Sys2Proof.Machine

/-! ### The entry (R298, R421, R422, R423) -/

/-- An entry that runs ends in LISTEN or in SHELF. -/
theorem State.entering_of_trans {s : State} (h : s.power.trans = some .listen ∨ s.power.trans = some .shelf) :
    s.entering = true := by
  rcases h with h | h <;> rw [State.entering, h] <;> rfl

/-- At zero outputs, an entry that parks nothing stops the channels and lines and opens the switch window. -/
theorem execListenOutputsZero_of_unparked {idx : Nat} {s : State} (hentering : s.entering = true)
    (hstep : s.power.step = 2) (hzero : s.outputsZero = true)
    (hpark : s.power.trans ≠ some .listen ∨ s.on R.CLK_MODE_CTL F.CLK_MODE_CTL_LISTEN_PARK = false) :
    execListenOutputsZero idx s = .next ((((State.loDownAll (List.range 5) (State.stopAll
      ((List.range 16).filter (fun c => s.chState c != stParked)) s)).switchWindow idx true).modPower
      (fun p => { p with step := 3, stepAt := s.clk.now3 }))) := by
  have hnone : (s.power.trans == some .listen && s.on R.CLK_MODE_CTL F.CLK_MODE_CTL_LISTEN_PARK) = false := by
    rcases hpark with h | h
    · rw [beq_eq_false_iff_ne.mpr h, Bool.false_and]
    · rw [h, Bool.and_false]
  simp only [execListenOutputsZero, hentering, hstep, hzero, hnone, beq_self_eq_true, Bool.and_self, if_true,
    Bool.false_eq_true, if_false]

/-- With LISTEN_PARK, an entry into LISTEN parks PWR channels first, and the others stop. -/
theorem execListenOutputsZero_of_parked {idx : Nat} {s : State} (htrans : s.power.trans = some .listen)
    (hstep : s.power.step = 2) (hzero : s.outputsZero = true)
    (hpark : s.on R.CLK_MODE_CTL F.CLK_MODE_CTL_LISTEN_PARK = true) :
    execListenOutputsZero idx s = .next ((((State.loDownAll (List.range 5) (State.stopAll
      ((List.range 16).filter (fun c => (State.park (List.range 8) s).chState c != stParked)) (State.park
      (List.range 8) s))).switchWindow idx true).modPower (fun p => { p with step := 3, stepAt := s.clk.now3 }))) := by
  simp only [execListenOutputsZero, State.entering_of_trans (.inl htrans), htrans, hstep, hzero, hpark, beq_self_eq_true,
    Bool.and_self, if_true]

/-- 60 ms after the zero, and once flash is idle, the rails go. -/
theorem execListenRailRemove_of_due {s : State} (hentering : s.entering = true) (hstep : s.power.step = 3)
    (hdue : s.power.stepAt + 180000000 ≤ s.clk.now3) (hops : s.flash.ops = []) (hcompact : s.flash.compacting = none) :
    execListenRailRemove s = .next (if s.power.trans = some .listen then s.intoListen else s.intoShelf) := by
  refine congrArg Host.Outcome.next (if_pos ?_)
  rw [hentering, hstep, decide_eq_true hdue, hops, hcompact]
  rfl

theorem State.entryCancel_of_listen {s : State} (htrans : s.power.trans = some .listen) (cause : Nat) :
    s.entryCancel cause = (State.unpark (List.range 8) (((s.transEnd .run).incSat R.CLK_MODE_CNT
      F.CLK_MODE_CNT_CANCEL).modPower (fun y => { y with reading := true }))).modeChangedEvent .listen .run cause := by
  rw [State.entryCancel, htrans]

/-! ### The wake (R305, R307, R419, R420) -/

/-- A part that rests in LISTEN takes a wake source as its request. -/
theorem State.wakeRequest_of_listen {s : State} (hmode : s.power.mode = .listen) (htrans : s.power.trans = none)
    (cause : Nat) :
    s.wakeRequest cause = (s.modPower (fun y => { y with trans := some .run, cause := cause, since := s.clk.now3 })).setF
      R.CLK_WAKE_STS F.CLK_WAKE_STS_SRC (wakeSrc cause) :=
  if_pos ⟨hmode, htrans⟩

theorem execGpioWake_of_listen {k : Fin 4} {s : State} (hcfg : s.bit R.CLK_WAKE_CFG k = true)
    (hmode : s.power.mode = .listen) (htrans : s.power.trans = none) :
    execGpioWake k s = .next (((s.setF R.CLK_WAKE_STS F.CLK_WAKE_STS_GPIO (2 ^ k.val)).modPower
      (fun y => { y with trans := some .run, cause := 6, since := s.clk.now3 })).setF R.CLK_WAKE_STS
      F.CLK_WAKE_STS_SRC (wakeSrc 6)) := by
  have hwakes : (s.bit R.CLK_WAKE_CFG k && (s.power.mode == .listen || s.power.trans == some .listen)) = true := by
    rw [hcfg, hmode]
    rfl
  rw [execGpioWake, if_pos hwakes]
  exact congrArg Host.Outcome.next (State.wakeRequest_of_listen
    (s := s.setF R.CLK_WAKE_STS F.CLK_WAKE_STS_GPIO (2 ^ k.val)) hmode htrans 6)

theorem execWakeOutputsReady_of_due {idx : Nat} {s : State} (hmode : s.power.mode = .listen)
    (htrans : s.power.trans = some .run) (hstep : s.power.step = 0) (hdue : s.power.since + 18000000 ≤ s.clk.now3) :
    execWakeOutputsReady idx s = .next (State.railsShow (List.range 16) ((State.startAll (List.range 16)
      (State.unpark (List.range 8) (s.modPower (fun y => { y with step := 3 })).pllLocks)).switchWindow idx false)) :=
  congrArg Host.Outcome.next (if_pos ⟨hmode, htrans, hstep, hdue⟩)

theorem State.woken_of_started {s : State} (htrans : s.power.trans = some .run) (hstep : s.power.step = 3) :
    s.woken = true := by
  rw [State.woken, htrans, hstep]
  rfl

/-- What the end of a wake leaves: RUN with its history and event, the rails, and the reference that was selected. -/
def State.hubBack (s : State) : State :=
  State.railsShow (List.range 16) (((s.spaceReturn.histEntry .listen .run s.power.cause).modeChangedEvent .listen .run
    s.power.cause).transEnd .run).refResume

theorem execHubReady_of_due {s : State} (hup : s.power.hubUp = true) (hmode : s.power.mode = .listen)
    (hwoken : s.woken = true) (hdue : s.power.since + 210000000 ≤ s.clk.now3) :
    execHubReady s = .next (if s.hubBack.on R.AFE_LSN_CFG F.AFE_LSN_CFG_AUTO_HO && s.hubBack.ringState 5 == ringRunning then
      s.hubBack.gatherStart (s.hubBack.fld R.AFE_GTH_CFG F.AFE_GTH_CFG_FMT) else s.hubBack) := by
  refine congrArg Host.Outcome.next (if_pos ?_)
  rw [hup, hmode, hwoken, decide_eq_true hdue]
  rfl

/-- Settles O42: the entry by whether it parks and by where it goes, and each step of the wake where it is due. -/
theorem listenAndWake : Obligations.ListenAndWake := by
  refine ⟨fun _ _ => execListenOutputsZero_of_unparked, fun _ _ => execListenOutputsZero_of_parked,
    fun s htrans hstep hdue hops hcompact => ?_, fun s htrans hstep hdue hops hcompact => ?_, fun src s htrans => ?_,
    fun _ _ => execGpioWake_of_listen, fun _ _ => execWakeOutputsReady_of_due,
    fun s hup hmode htrans hstep hdue => ?_⟩
  · exact (execListenRailRemove_of_due (State.entering_of_trans (.inl htrans)) hstep hdue hops hcompact).trans
      (congrArg Host.Outcome.next (if_pos htrans))
  · exact (execListenRailRemove_of_due (State.entering_of_trans (.inr htrans)) hstep hdue hops hcompact).trans
      (congrArg Host.Outcome.next (if_neg (by rw [htrans]; decide)))
  · exact ⟨_, congrArg Host.Outcome.next (if_pos htrans), State.entryCancel_of_listen htrans _⟩
  · exact ⟨_, execHubReady_of_due hup hmode (State.woken_of_started htrans hstep) hdue, rfl⟩

end Sys2Proof.Machine
end

section
/-!
PROOFS. Runs of waiting commands, the bytes of the local ring window, and the completion record.
-/
namespace Sys2Proof.Machine

/-! ### Every command answers a next state (R437, R351) -/

theorem execSapShadowApply_answers (d : Fin 8) (n frame : Nat) (s : State) :
    ∃ t, execSapShadowApply d n frame s = .next t := by
  dsimp only [execSapShadowApply]
  split <;> exact ⟨_, rfl⟩

theorem execCompletionPost_answers (o : Origin) (s : State) : ∃ t, execCompletionPost o s = .next t := by
  cases o <;> exact ⟨_, rfl⟩

/-- Every meaning is written as a next state but two, which decide between next states first. -/
theorem exec_answers (c : Instr) (s : State) : ∃ t, exec c s = .next t := by
  cases c with
  | completionPost o => exact execCompletionPost_answers o s
  | sapShadowApply d n frame => exact execSapShadowApply_answers d n frame s
  | _ => exact ⟨_, rfl⟩

/-! ### A run carries out the queue -/

theorem step_of_pending_cons {s : State} {c : Instr} {rest : List Instr} (h : s.pending = c :: rest) :
    step s = exec c (s.withRest rest) := by
  simp only [step, h]

theorem State.Keeps.pending_eq {s : State} {q : List Instr} (h : s.Keeps q) : s.pending = q := by
  obtain ⟨hpending, -⟩ := h
  exact hpending

theorem State.withRest_keeps {s : State} {q : List Instr} (h : s.Keeps q) (rest : List Instr) :
    (s.withRest rest).Keeps rest := by
  obtain ⟨-, hforms, hlengths⟩ := h
  exact ⟨rfl, hforms, hlengths⟩

/-- A step takes the front command and keeps the forms of the data. -/
theorem State.Keeps.step_cons {s : State} {c : Instr} {rest : List Instr} (h : s.Keeps (c :: rest)) :
    ∃ t, step s = .next t ∧ t.Keeps rest := by
  obtain ⟨t, ht⟩ := exec_answers c (s.withRest rest)
  exact ⟨t, (step_of_pending_cons h.pending_eq).trans ht, exec_keeps c _ (s.withRest_keeps h rest) t ht⟩

/-- A run of n + 1 steps is a step that goes on and a run of n. -/
theorem run_succ_of_next {M : Host.Core} {n : Nat} {s t : M.State} (h : M.step s = .next t) :
    M.run (n + 1) s = M.run n t := by
  rw [Host.Core.run, h]

theorem runsTo_succ {n : Nat} {s t u : State} (h : step s = .next t) (hrun : RunsTo n t u) : RunsTo (n + 1) s u :=
  (run_succ_of_next (M := core) h).trans hrun

/-- As many steps as commands wait carry them all out. -/
theorem State.Keeps.runs_queue : ∀ {q : List Instr} {s : State}, s.Keeps q → ∃ t, RunsTo q.length s t ∧ t.Keeps []
  | [], s, h => ⟨s, rfl, h⟩
  | _ :: _, _, h => by
    obtain ⟨t, hstep, ht⟩ := h.step_cons
    obtain ⟨u, hrun, hu⟩ := ht.runs_queue
    exact ⟨u, runsTo_succ hstep hrun, hu⟩

/-- Settles O51, by induction on the queue: each step answers, drops the front command and keeps the forms. -/
theorem queuedCommandsAllRun : Obligations.QueuedCommandsAllRun := by
  intro s hs
  obtain ⟨t, hrun, ht⟩ := (State.Keeps.of_inv hs).runs_queue
  exact ⟨t, hrun, ht.pending_eq, ht.inv⟩

/-! ### Bytes of the local ring window (R335) -/

/-- The bytes of a write read back, and every other byte reads as before. -/
theorem Mem.get_setMany (d : Byte) (m : Mem) (a y : Nat) (bs : List Byte) :
    Mem.get d (Mem.setMany d m a bs) y =
      if h : a ≤ y ∧ y < a + bs.length then bs[y - a]'(by omega) else Mem.get d m y := by
  split
  case isTrue h =>
    obtain ⟨hlo, hhi⟩ := h
    have hin := Mem.get_setMany_in d bs m a (y - a) (by omega)
    rw [Nat.add_sub_cancel' hlo] at hin
    rw [hin, List.getD_eq_getElem]
  case isFalse h => exact Mem.get_setMany_out d bs m a y (by omega)

/-- Writes that do not overlap may come in either order. -/
theorem Mem.get_setMany_comm (d : Byte) (m : Mem) {a b : Nat} {us vs : List Byte}
    (h : a + us.length ≤ b ∨ b + vs.length ≤ a) (y : Nat) :
    Mem.get d (Mem.setMany d (Mem.setMany d m a us) b vs) y = Mem.get d (Mem.setMany d (Mem.setMany d m b vs) a us) y := by
  by_cases hv : b ≤ y ∧ y < b + vs.length
  · have hu : ¬ (a ≤ y ∧ y < a + us.length) := by omega
    rw [Mem.get_setMany, dif_pos hv, Mem.get_setMany, dif_neg hu, Mem.get_setMany, dif_pos hv]
  · rw [Mem.get_setMany, dif_neg hv, Mem.get_setMany, Mem.get_setMany d _ a, Mem.get_setMany d _ b, dif_neg hv]

/-- Settles O55: a local write is one of the window's memory alone, so both clauses are facts about that memory. -/
theorem windowBytes : Obligations.WindowBytes :=
  ⟨fun a y bs s => ⟨Mem.get_setMany 0 s.window a y bs, rfl⟩,
    fun _ _ _ _ s h y => Mem.get_setMany_comm 0 s.window h y⟩

/-! ### The completion record (R347) -/

/-- A number between other bytes reads back at its place. -/
theorem bytesAt_leBytes (pre post : List Byte) (n x : Nat) {i : Nat} (hi : pre.length = i) :
    bytesAt (pre ++ (leBytes n x ++ post)) i n = x % 256 ^ n := by
  rw [bytesAt, ← hi, List.drop_left, List.take_left' (leBytes_length n x), leNat_leBytes]

theorem statusCode_lt (st : Status) : statusCode st < 12 := by
  cases st <;> decide

/-- The flags of a record leave bits 7 to 3 zero. -/
theorem flagBits_lt (late slipped chained : Bool) : late.toNat + 2 * slipped.toNat + 4 * chained.toNat < 8 := by
  have hlate := late.toNat_lt
  have hslipped := slipped.toNat_lt
  have hchained := chained.toNat_lt
  omega

theorem cplBytes_length (tag num : Nat) (c : Completion) : (cplBytes tag num c).length = 16 := by
  simp only [cplBytes, List.length_append, leBytes_length]

/-- Each number of a record stands at its place; the status and the flags fit theirs whole. -/
theorem cplBytes_fields (tag num : Nat) (c : Completion) :
    bytesAt (cplBytes tag num c) 0 2 = tag % 65536 ∧ bytesAt (cplBytes tag num c) 2 1 = statusCode c.status ∧
      bytesAt (cplBytes tag num c) 3 1 = c.late.toNat + 2 * c.slipped.toNat + 4 * c.chained.toNat ∧
      bytesAt (cplBytes tag num c) 4 4 = num % 2 ^ 32 ∧ bytesAt (cplBytes tag num c) 8 8 = c.eff % 2 ^ 64 := by
  have hstatus := statusCode_lt c.status
  have hflags := flagBits_lt c.late c.slipped c.chained
  simp only [cplBytes, List.append_assoc]
  generalize statusCode c.status = st at *
  generalize c.late.toNat + 2 * c.slipped.toNat + 4 * c.chained.toNat = fl at *
  refine ⟨bytesAt_leBytes [] _ 2 tag rfl, ?_, ?_, ?_, ?_⟩
  · exact (bytesAt_leBytes (leBytes 2 tag) _ 1 st rfl).trans (Nat.mod_eq_of_lt (by omega))
  · rw [← List.append_assoc]
    exact (bytesAt_leBytes _ _ 1 fl rfl).trans (Nat.mod_eq_of_lt (by omega))
  · rw [← List.append_assoc, ← List.append_assoc]
    exact bytesAt_leBytes _ _ 4 num rfl
  · rw [← List.append_assoc, ← List.append_assoc, ← List.append_assoc, ← List.append_nil (leBytes 8 c.eff)]
    exact bytesAt_leBytes _ [] 8 c.eff rfl

/-! ### What is posted (R347, R362) -/

theorem silent_of_done {f : InFlight} {c : Completion} (hn : f.noCpl = true) (hd : c.status = .done) :
    silent f c = true := by
  rw [silent, hn, hd]
  rfl

theorem silent_eq_false {f : InFlight} {c : Completion} (h : f.noCpl = false ∨ c.status ≠ .done) :
    silent f c = false := by
  rcases h with h | h <;> simp [silent, h]

theorem State.postRing_of_silent {s : State} {o : Origin} {f : InFlight} {c : Completion} (r cr : Nat)
    (hp : s.postable o = some (f, c)) (hsil : silent f c = true) : s.postRing r cr o = s.dropFlight o := by
  rw [State.postRing, hp]
  exact if_pos hsil

theorem State.postRing_of_room {s : State} {o : Origin} {f : InFlight} {c : Completion} (r : Nat) {cr : Nat}
    (hp : s.postable o = some (f, c)) (hsil : silent f c = false) (hroom : s.ringRoom cr = true) :
    s.postRing r cr o =
      ((s.dropFlight o).ringPost cr (f.record c)).setF (R.HIF_RING_STS r) F.HIF_RING_STS_HELD 0 := by
  rw [State.postRing, hp]
  exact (if_neg (Bool.eq_false_iff.mp hsil)).trans (if_pos hroom)

theorem State.queue_modQueue_same {s : State} {o : Origin} (h : originIdx o < s.host.queues.length)
    (g : CmdQueue → CmdQueue) : (s.modQueue o g).queue o = g (s.queue o) := by
  have hlen : originIdx o < (s.host.queues.modify (originIdx o) g).length := by rwa [List.length_modify]
  change (s.host.queues.modify (originIdx o) g).getD _ _ = g (s.host.queues.getD _ _)
  rw [List.getD_eq_getElem _ _ hlen, List.getD_eq_getElem _ _ h, List.getElem_modify_eq]

/-- A descriptor in flight whose completion is fixed: what is known of the descriptor sets the flags (R347). -/
def InFlight.fixed (f : InFlight) (c : Completion) : InFlight :=
  { f with cpl := some { c with
      chained := c.chained || f.chained
      slipped := c.slipped || f.slip
      late := (match f.want with
        | some w => decide (c.status = .done ∧ w < c.eff)
        | none => false) } }

/-- A completion reaches the flight of its descriptor where that has none yet, and no other flight. -/
theorem State.finish_flight {s : State} (id : DescId) (c : Completion) (h : originIdx id.org < s.host.queues.length) :
    ((s.finish id c).queue id.org).flight =
      (s.queue id.org).flight.map (fun f => if f.ord = id.ord ∧ f.cpl.isNone then f.fixed c else f) := by
  have hq : (s.finish id c).queue id.org = (s.modQueue id.org (fun q => { q with
      flight := q.flight.map (fun f => if f.ord = id.ord ∧ f.cpl.isNone then f.fixed c else f) })).queue id.org := by
    dsimp only [State.finish]
    split <;> rfl
  rw [hq, State.queue_modQueue_same h]

/-- Settles O57: the bytes of the record, the two rings with and without a record, and LATE as the completion is fixed. -/
theorem completionRecord : Obligations.CompletionRecord := by
  refine ⟨fun f c => ⟨cplBytes_length _ _ c, cplBytes_fields _ _ c⟩,
    fun s f c hp hn hd => congrArg Host.Outcome.next (State.postRing_of_silent 0 1 hp (silent_of_done hn hd)),
    fun s f c hp hs hr => congrArg Host.Outcome.next (State.postRing_of_room 0 hp (silent_eq_false hs) hr),
    fun s f c hp hs hr => congrArg Host.Outcome.next (State.postRing_of_room 3 hp (silent_eq_false hs) hr),
    fun s f c hp hn hd => congrArg Host.Outcome.next (State.postRing_of_silent 3 4 hp (silent_of_done hn hd)),
    fun s o i w f k hidx hflight hord hcpl hwant => ⟨f.fixed (doneAt k), ?_, ?_⟩⟩
  · refine (State.finish_flight ⟨o, i⟩ (doneAt k) hidx).trans ?_
    simp [hflight, hord, hcpl]
  · simp [InFlight.fixed, hwant, doneAt]

end Sys2Proof.Machine
end

section
/-!
PROOFS. The serial ports of the host interface: SPI, SMBus and the mirror (R333, R334, R439, R440).
-/
namespace Sys2Proof.Machine

/-! ### SPI (R333) -/

theorem execSpiTransaction_read {s : State} (h : s.served = true) (addr n : Nat) (cut : Bool) :
    execSpiTransaction addr (.read n cut) s =
      .next (((State.spiReads addr n s).2.emit (.spi (State.spiReads addr n s).1)).spiCut cut) :=
  congrArg Host.Outcome.next (if_neg (by rw [h]; decide))

theorem execSpiTransaction_write {s : State} (h : s.served = true) (addr : Nat) (ws : List Word) (cut : Bool) :
    execSpiTransaction addr (.write ws cut) s = .next ((State.spiWrites addr ws s).spiCut cut) :=
  congrArg Host.Outcome.next (if_neg (by rw [h]; decide))

/-! ### SMBus (R334) -/

/-- A transfer whose PEC is asked for and wrong is dropped, and PEC_ERR says so. -/
theorem State.smbPec_of_bad {s : State} (hup : s.smbUp = true) (hpec : s.on R.HIF_SMB_CFG F.HIF_SMB_CFG_PEC_EN = true)
    (f : State → State) : s.smbPec false f = s.setF R.HIF_SMB_STS F.HIF_SMB_STS_PEC_ERR 1 := by
  rw [State.smbPec, hup, hpec]
  rfl

/-- A descriptor of the SMBus port that completes with a record: the record is kept, and the alert driven. -/
theorem execSmbDescriptorDone_of_posted {s : State} {f : InFlight} {c : Completion}
    (hp : s.postable .smbus = some (f, c)) (hsil : silent f c = false) :
    execSmbDescriptorDone s = .next (((s.dropFlight .smbus).setF R.HIF_SMB_STS F.HIF_SMB_STS_BUSY 0).modHost
      (fun h => { h with smbLast := f.record c, smbAlert := true })) := by
  simp only [execSmbDescriptorDone, hp, hsil, Bool.false_eq_true, if_false]

/-! ### The mirror (R439, R440) -/

/-- The mirror holds what F captured, and shows the block of the capture. -/
def State.refreshed (s : State) (b : Nat) (rf : RegFile) : State :=
  (((s.modMirror (fun _ => rf)).modSnap (fun _ => none)).wr R.GLB_MIRROR_BLK (BitVec.ofNat 32 b)).setF R.GLB_MIRROR_STS
    F.GLB_MIRROR_STS_REFRESHING 0

theorem State.refreshed_refreshing (s : State) (b : Nat) (rf : RegFile) :
    (s.refreshed b rf).fld R.GLB_MIRROR_STS F.GLB_MIRROR_STS_REFRESHING = 0 :=
  (State.fld_setF_same _ _ _ _ (by decide)).trans rfl

theorem State.refreshed_blk (s : State) (b : Nat) (rf : RegFile) :
    (s.refreshed b rf).rd R.GLB_MIRROR_BLK = BitVec.ofNat 32 b := by
  rw [State.refreshed, State.rd_setF_ne _ _ _ _ _ (by decide), State.rd_wr_same]

/-- A refresh arrives whose registers were not captured before (R439). -/
theorem execMirrorRefreshArrive_of_no_snap {s : State} (hlink : s.linkUp = true) (hhub : s.power.hubUp = true)
    (hsnap : s.snap = none) : execMirrorRefreshArrive s = .next (s.refreshed s.clk.blk s.capture) := by
  rw [execMirrorRefreshArrive, hlink, hhub, hsnap]
  rfl

/-- The oldest write on its way to F is applied, and leaves the way (R440). -/
theorem State.applyF_of_cons {s : State} {a : Nat} {m v : Word} {rest : List (Nat × Word × Word)}
    (h : s.stage.toF = (a, m, v) :: rest) :
    s.applyF = (s.modStage (fun y => { y with toF := rest })).applyNow a m v := by
  simp only [State.applyF, h]

/-- Settles O25: SPI by the kind of transfer, each transfer of the SMBus port that is up, and the two ways of the mirror. -/
theorem serialManagement : Obligations.SerialManagement := by
  refine ⟨fun addr n cut s h => execSpiTransaction_read h addr n cut,
    fun addr ws cut s h => execSpiTransaction_write h addr ws cut, fun p s hup => ?_, fun p s hup hpec => ?_,
    fun s hup => ?_, fun s hup => ?_, fun s hup => ?_, fun s hup halert => ?_,
    fun f c s hp hsil => execSmbDescriptorDone_of_posted hp hsil, fun s hlink hhub hsnap => ?_,
    fun a m v rest s h => congrArg Host.Outcome.next (State.applyF_of_cons h)⟩
  · exact congrArg Host.Outcome.next (State.smbPec_of_ok hup (.inl rfl) _)
  · exact congrArg Host.Outcome.next (State.smbPec_of_bad hup hpec _)
  · exact congrArg Host.Outcome.next (if_pos hup)
  · exact congrArg Host.Outcome.next (if_pos hup)
  · exact congrArg Host.Outcome.next (if_pos hup)
  · exact congrArg Host.Outcome.next (if_pos (by rw [hup, halert]; rfl))
  · exact ⟨_, execMirrorRefreshArrive_of_no_snap hlink hhub hsnap, rfl, rfl, rfl, State.refreshed_refreshing _ _ _,
      State.refreshed_blk _ _ _, rfl, rfl⟩

end Sys2Proof.Machine
end

section
/-!
PROOFS. LOCK_ACQUIRE and the leases of locks (R356, R357, R361).
-/
namespace Sys2Proof.Machine

/-! ### The locks beside their registers -/

theorem State.lock_modLock_same {s : State} {k : Nat} (hk : k < s.locks.length) (f : Lock → Lock) :
    (s.modLock k f).lock k = f (s.lock k) := by
  have hlen : k < (s.locks.modify k f).length := by rwa [List.length_modify]
  change (s.locks.modify k f).getD k _ = f (s.locks.getD k _)
  rw [List.getD_eq_getElem _ _ hlen, List.getD_eq_getElem _ _ hk, List.getElem_modify_eq]

theorem State.lock_modLock_ne {s : State} {k j : Nat} (h : k ≠ j) (f : Lock → Lock) :
    (s.modLock k f).lock j = s.lock j := by
  change (s.locks.modify k f).getD j _ = s.locks.getD j _
  rw [List.getD_eq_getElem?_getD, List.getD_eq_getElem?_getD, List.getElem?_modify_ne f _ h]

theorem State.abortAll_locks : ∀ (ids : List DescId) (s : State), (State.abortAll ids s).locks = s.locks
  | [], _ => rfl
  | i :: ids, s => (State.abortAll_locks ids (s.finishBad i .aborted)).trans (s.finishBad_locks i .aborted)

theorem State.locks_length_lockFree (s : State) (k : Nat) : (s.lockFree k).locks.length = s.locks.length :=
  List.length_modify _ s.locks k

theorem State.locks_length_abandon (s : State) (k cause : Nat) : (s.abandon k cause).locks.length = s.locks.length := by
  dsimp only [State.abandon]
  simp only [State.raise_locks, State.setF_locks, State.setPair_locks, State.incSat_locks, State.setBit_locks,
    State.lockDrop, State.locks_length_lockFree, State.abortAll_locks]

theorem State.locks_length_leases : ∀ (ks : List Nat) (s : State), (State.leases ks s).locks.length = s.locks.length
  | [], _ => rfl
  | k :: ks, s => by
    rw [State.leases, State.locks_length_leases ks]
    split
    · exact s.locks_length_abandon k 1
    · rfl

theorem State.locks_length_of_shaped {s : State} (h : s.shaped = true) : s.locks.length = 32 := by
  simp only [State.shaped, Bool.and_eq_true, beq_iff_eq] at h
  tauto

/-- LOCK_ACQUIRE does not wake the part from QUIET (R137), so it begins once it is read. -/
theorem State.begun_lockAcquire (s : State) (o : Origin) (d : Desc) : s.begun o 0xA0 d = s.justRead o 0xA0 d := rfl

theorem State.newFlight_locks (s : State) (o : Origin) (op tag : Nat) (noCpl : Bool) :
    (s.newFlight o op tag noCpl).2.locks = s.locks := rfl

theorem State.locks_length_begun (s : State) (o : Origin) (d : Desc) :
    (s.begun o 0xA0 d).locks.length = s.locks.length := by
  rw [State.begun_lockAcquire, State.justRead, State.newFlight_locks, State.locks_length_leases]

/-! ### The four cases of LOCK_ACQUIRE (R357) -/

/-- An origin of descriptors is never the part, which alone owns the IDs 0x10 and 0x20 to 0x2F (R356). -/
theorem originOwner_ne_part {o : Origin} {w : Nat} (h : originOwner o = some w) :
    w ≠ 0x10 ∧ ¬(0x20 ≤ w ∧ w < 0x30) := by
  cases o <;> simp only [originOwner, Option.some.injEq, reduceCtorEq] at h <;> omega

theorem State.lockAcquire_of_reserved {s : State} {w k : Nat} (hw : w ≠ 0x10 ∧ ¬(0x20 ≤ w ∧ w < 0x30)) (hk : 28 ≤ k)
    (lease : Nat) : s.lockAcquire w k lease = (.denied, s) := if_pos ⟨hk, hw⟩

theorem State.lockAcquire_of_holder {s : State} {w k : Nat} (hk : k < 28) (h : s.lockOf w ≠ none) (lease : Nat) :
    s.lockAcquire w k lease = (.denied, s) :=
  (if_neg (by omega)).trans (if_pos (Option.isSome_iff_ne_none.mpr h))

theorem State.lockAcquire_of_held {s : State} {w k : Nat} (hk : k < 28) (hw : s.lockOf w = none)
    (h : s.lockHeld k = true) (lease : Nat) :
    s.lockAcquire w k lease = (.refusedBusy, s.incWrap R.LCK_REFUSED F.LCK_REFUSED_COUNT) :=
  (if_neg (by omega)).trans ((if_neg (by rw [hw]; decide)).trans (if_pos h))

/-- An owner has taken a free lock, with an empty open sequence. -/
def State.taken (s : State) (w k lease : Nat) : State :=
  (((((((((s.setF (R.LCK_STS k) F.LCK_STS_HELD 1).setF (R.LCK_STS k) F.LCK_STS_OWNER w).setF (R.LCK_STS k) F.LCK_STS_STATE
    lockOpen).setF (R.LCK_STS k) F.LCK_STS_ABANDONED 0).setBit R.LCK_ABANDONED k false).setBit R.LCK_HELD k true).setF
    (R.LCK_LEASE k) F.LCK_LEASE_LEASE lease).setPair (R.LCK_ACQ_BLK_LO k) (R.LCK_ACQ_BLK_HI k) s.clk.blk)).modLock k
    (fun _ => ⟨[], false, 0, leaseEnd s.clk.now3 lease⟩)

theorem State.lockAcquire_of_free {s : State} {w k : Nat} (hk : k < 28) (hw : s.lockOf w = none)
    (h : s.lockHeld k = false) (lease : Nat) :
    s.lockAcquire w k lease =
      (if s.on (R.LCK_STS k) F.LCK_STS_ABANDONED then .lockAbandoned else .done, s.taken w k lease) :=
  (if_neg (by omega)).trans ((if_neg (by rw [hw]; decide)).trans (if_neg (Bool.eq_false_iff.mp h)))

/-- A LOCK_ACQUIRE that the part takes ends with what the four cases give. -/
theorem execLockAcquire_of_takes {s : State} {o : Origin} {d : Desc} {w : Nat} (ht : s.takes o 0xA0 d = true)
    (hp : d.payLen = 0) (hl : d.inl ≤ leaseMax) (hw : originOwner o = some w) (hk : d.target < 32) :
    execLockAcquire o d s = .next (endsWith (s.readId o) ((s.begun o 0xA0 d).lockAcquire w d.target d.inl)) := by
  have horg : originOwner (s.readId o).org = some w := hw
  refine State.next_oper ht ((if_pos (by simp [hp, hl, hk])).trans ?_)
  simp only [horg]

/-! ### The registers of a lock that is taken -/

/-- LCK_STS of the lock that an owner takes. -/
def takenSts (v : Word) (w : Nat) : Word :=
  (((v.setFld F.LCK_STS_HELD 1).setFld F.LCK_STS_OWNER w).setFld F.LCK_STS_STATE lockOpen).setFld F.LCK_STS_ABANDONED 0

theorem takenSts_fields (v : Word) (w : Nat) :
    (takenSts v w).fld F.LCK_STS_HELD = 1 ∧ (takenSts v w).fld F.LCK_STS_OWNER = w % 64 ∧
      (takenSts v w).fld F.LCK_STS_STATE = lockOpen ∧ (takenSts v w).fld F.LCK_STS_ABANDONED = 0 := by
  refine ⟨?_, ?_, ?_, Word.fld_setFld _ _ _ (by decide)⟩
  · rw [takenSts, Word.fld_setFld_ne _ _ _ _ (by decide) (by decide), Word.fld_setFld_ne _ _ _ _ (by decide) (by decide),
      Word.fld_setFld_ne _ _ _ _ (by decide) (by decide), Word.fld_setFld _ _ _ (by decide)]
    rfl
  · rw [takenSts, Word.fld_setFld_ne _ _ _ _ (by decide) (by decide), Word.fld_setFld_ne _ _ _ _ (by decide) (by decide),
      Word.fld_setFld _ _ _ (by decide)]
    rfl
  · rw [takenSts, Word.fld_setFld_ne _ _ _ _ (by decide) (by decide), Word.fld_setFld _ _ _ (by decide)]
    rfl

/-- The other registers that the acquire writes lie apart from every LCK_STS. -/
theorem State.taken_rd_sts (s : State) (w k lease j : Nat) :
    (s.taken w k lease).rd (R.LCK_STS j) = (((((s.setF (R.LCK_STS k) F.LCK_STS_HELD 1).setF (R.LCK_STS k) F.LCK_STS_OWNER
      w).setF (R.LCK_STS k) F.LCK_STS_STATE lockOpen).setF (R.LCK_STS k) F.LCK_STS_ABANDONED 0)).rd (R.LCK_STS j) := by
  unfold State.taken State.modLock State.setPair State.setBit
  rw [State.modLocks_rd, State.rd_wr_ne, State.rd_wr_ne, State.rd_setF_ne, State.rd_setF_ne, State.rd_setF_ne] <;>
    simp only [R.LCK_STS, R.LCK_ACQ_BLK_LO, R.LCK_ACQ_BLK_HI, R.LCK_LEASE, R.LCK_HELD, R.LCK_ABANDONED] <;> omega

theorem State.taken_rd_sts_same (s : State) (w k lease : Nat) :
    (s.taken w k lease).rd (R.LCK_STS k) = takenSts (s.rd (R.LCK_STS k)) w := by
  simp only [State.taken_rd_sts, State.rd_setF_same, takenSts]

theorem State.taken_rd_sts_ne (s : State) (w lease : Nat) {k j : Nat} (h : j ≠ k) :
    (s.taken w k lease).rd (R.LCK_STS j) = s.rd (R.LCK_STS j) := by
  have hne : R.LCK_STS k ≠ R.LCK_STS j := by simp only [R.LCK_STS]; omega
  simp only [State.taken_rd_sts, State.rd_setF_ne _ _ _ _ _ hne]

/-! ### Who holds a lock -/

/-- The owner holds the lock: it is held, its sequence is open, and OWNER names the owner. -/
def State.holds (s : State) (w k : Nat) : Bool :=
  s.lockHeld k && s.lockState k == lockOpen && s.fld (R.LCK_STS k) F.LCK_STS_OWNER == w

theorem State.lockOf_eq_none_iff {s : State} {w : Nat} : s.lockOf w = none ↔ ∀ k < 32, s.holds w k = false := by
  simp only [State.lockOf, State.holds, List.find?_range_eq_none, Bool.not_eq_true']

theorem State.lockOf_eq_some {s : State} {w k : Nat} (hk : k < 32) (h : s.holds w k = true)
    (hlow : ∀ j < k, s.holds w j = false) : s.lockOf w = some k := by
  refine List.find?_range_eq_some.mpr ⟨h, List.mem_range.mpr hk, fun j hj => ?_⟩
  exact (Bool.not_eq_true' _).mpr (hlow j hj)

theorem State.taken_holds_same (s : State) {w : Nat} (hw : w < 64) (k lease : Nat) :
    (s.taken w k lease).holds w k = true := by
  obtain ⟨hheld, howner, hopen, -⟩ := takenSts_fields (s.rd (R.LCK_STS k)) w
  rw [State.holds, State.lockHeld, State.lockState, State.on_eq, State.fld_eq, State.fld_eq, State.fld_eq,
    State.taken_rd_sts_same, hheld, howner, hopen, Nat.mod_eq_of_lt hw]
  simp

theorem State.taken_holds_ne (s : State) (w lease : Nat) {k j : Nat} (h : j ≠ k) :
    (s.taken w k lease).holds w j = s.holds w j := by
  simp only [State.holds, State.lockHeld, State.lockState, State.on_eq, State.fld_eq, State.taken_rd_sts_ne s w lease h]

/-- The owner held no lock before, so the one it takes is the one it holds. -/
theorem State.taken_lockOf {s : State} {w k : Nat} (hw : w < 64) (hk : k < 32) (h : s.lockOf w = none) (lease : Nat) :
    (s.taken w k lease).lockOf w = some k := by
  refine State.lockOf_eq_some hk (s.taken_holds_same hw k lease) fun j hj => ?_
  rw [State.taken_holds_ne s w lease (by omega)]
  exact State.lockOf_eq_none_iff.mp h j (by omega)

theorem leaseEnd_eq (now3 lease : Nat) :
    leaseEnd now3 lease = if lease = 0 then none else some (now3 + 3000000 * lease) := by
  rw [leaseEnd, Nat.mul_comm lease]

/-- The lock that is taken: its sequence is empty, and its lease runs from now. -/
theorem State.taken_lock_same {s : State} {k : Nat} (hk : k < s.locks.length) (w lease : Nat) :
    (s.taken w k lease).lock k = ⟨[], false, 0, leaseEnd s.clk.now3 lease⟩ :=
  State.lock_modLock_same hk _

theorem State.taken_lock_ne (s : State) (w lease : Nat) {k j : Nat} (h : j ≠ k) :
    (s.taken w k lease).lock j = s.lock j :=
  State.lock_modLock_ne h.symm _

/-! ### Leases (R361) -/

theorem State.lockRenew_expires {s : State} {k : Nat} (hk : k < s.locks.length) (lease : Nat) :
    ((s.lockRenew k lease).lock k).expires = leaseEnd s.clk.now3 lease :=
  congrArg Lock.expires (State.lock_modLock_same (s := s.setF (R.LCK_LEASE k) F.LCK_LEASE_LEASE lease) hk _)

theorem State.leaseOver_iff {s : State} {k e : Nat} (h : (s.lock k).expires = some e) :
    s.leaseOver k = true ↔ s.lockHeld k = true ∧ s.lockState k = lockOpen ∧ e ≤ s.clk.now3 := by
  simp only [State.leaseOver, h, Bool.and_eq_true, beq_iff_eq, decide_eq_true_eq, and_assoc]

/-- Settles O56: the four cases in order, and the instant at which a lease ends. -/
theorem lockAcquireOrder : Obligations.LockAcquireOrder := by
  refine ⟨fun o d w s ht hp hl hw hlo hhi => ?_, fun o d w s ht hp hl hw hk hof => ?_,
    fun o d w s ht hp hl hw hk hof hheld => ?_, fun o d w s hs hw64 ht hp hl hw hk hof hheld => ?_,
    fun k lease s hs hk => ?_, fun k e s => State.leaseOver_iff⟩
  · refine (execLockAcquire_of_takes ht hp hl hw hhi).trans ?_
    rw [State.lockAcquire_of_reserved (originOwner_ne_part hw) hlo]
    rfl
  · refine (execLockAcquire_of_takes ht hp hl hw (by omega)).trans ?_
    rw [State.lockAcquire_of_holder hk hof]
    rfl
  · refine (execLockAcquire_of_takes ht hp hl hw (by omega)).trans ?_
    rw [State.lockAcquire_of_held hk hof hheld]
    rfl
  · have hlen : (s.begun o 0xA0 d).locks.length = 32 :=
      (s.locks_length_begun o d).trans (State.locks_length_of_shaped hs)
    have hlock := State.taken_lock_same (s := s.begun o 0xA0 d) (k := d.target) (by omega) w d.inl
    refine ⟨(s.begun o 0xA0 d).taken w d.target d.inl, ?_, State.taken_lockOf hw64 (by omega) hof _, ?_, ?_, ?_, ?_,
      fun j _ hj => ⟨State.taken_rd_sts_ne _ w _ hj, State.taken_lock_ne _ w _ hj⟩⟩
    · refine (execLockAcquire_of_takes ht hp hl hw (by omega)).trans ?_
      rw [State.lockAcquire_of_free hk hof hheld]
      rfl
    · obtain ⟨-, -, -, habandoned⟩ := takenSts_fields ((s.begun o 0xA0 d).rd (R.LCK_STS d.target)) w
      rw [State.fld_eq, State.taken_rd_sts_same, habandoned]
    · rw [hlock]
    · rw [hlock]
    · rw [hlock, leaseEnd_eq]
  · rw [State.lockRenew_expires (by rw [State.locks_length_of_shaped hs]; exact hk), leaseEnd_eq]

end Sys2Proof.Machine
end

section
/-!
PROOFS. Window writes of the rings, the locks, the errors, the journal and the window itself (R336, R354, R356, R375, R414,
R417, R430, R437, R439, R443, R461).
-/
namespace Sys2Proof.Machine

/-! ### What an owner reset leaves of the staged actions (R356, R360) -/

theorem State.abortAll_stage : ∀ (ids : List DescId) (s : State), (State.abortAll ids s).stage = s.stage
  | [], _ => rfl
  | i :: ids, s => (State.abortAll_stage ids (s.finishBad i .aborted)).trans (s.finishBad_stage i .aborted)

theorem State.lockFree_stage (s : State) (k : Nat) : (s.lockFree k).stage = s.stage := rfl

theorem State.abandon_stage (s : State) (k cause : Nat) : (s.abandon k cause).stage = s.stage := by
  dsimp only [State.abandon]
  simp only [State.raise_stage, State.setF_stage, State.setPair_stage, State.incSat_stage, State.setBit_stage,
    State.lockDrop, State.lockFree_stage, State.abortAll_stage]

theorem State.ownerReset_stage (s : State) (owner cause : Nat) : (s.ownerReset owner cause).stage = s.stage := by
  unfold State.ownerReset
  split
  · exact s.abandon_stage _ cause
  · rfl

/-! ### What the disable of a ring leaves on its way to F (R354) -/

theorem State.ringOff_stage (s : State) (r : Nat) : (s.ringOff r).stage = s.stage := rfl

theorem State.drainDone_stage (s : State) (r : Nat) (o : Origin) : (s.drainDone r o).stage = s.stage := by
  unfold State.drainDone
  rw [State.ringOff_stage]
  split
  · exact s.ownerReset_stage _ 0
  · rfl

theorem State.abortUnread_stage (o : Origin) (r : Nat) : ∀ (n : Nat) (tags : List Nat) (s : State),
    (State.abortUnread o r n tags s).stage = s.stage
  | 0, _, _ => rfl
  | n + 1, tags, s => by
    dsimp only [State.abortUnread]
    rw [State.abortUnread_stage o r n, State.finishBad_stage]
    split
    · rfl
    · split <;> rfl

/-- The changes that are taken back leave the list; the writes on their way stay. -/
theorem State.cancelStaged_toF (s : State) (o : Origin) : (s.cancelStaged o).stage.toF = s.stage.toF := by
  dsimp only [State.cancelStaged]
  rw [State.foldl_stage, State.abortAll_stage, State.modStage_stage]
  intro t c
  split
  · exact t.lockFree_stage _
  · rfl

theorem State.cancelSwaps_stage (o : Origin) : ∀ (cs : List Nat) (s : State), (State.cancelSwaps o cs s).stage = s.stage
  | [], _ => rfl
  | c :: cs, s => by
    rw [State.cancelSwaps, State.cancelSwaps_stage o cs]
    split
    · split
      · exact State.abortAll_stage _ s
      · rfl
    · rfl

theorem State.routeShow_stage (s : State) (m : Mux) : (s.routeShow m).stage = s.stage := by
  cases m <;> rfl

theorem State.cancelRoutes_stage (s : State) (o : Origin) : (s.cancelRoutes o).stage = s.stage := by
  dsimp only [State.cancelRoutes]
  rw [State.foldl_stage _ State.routeShow_stage, State.modMp_stage, State.abortAll_stage]

theorem State.abortOrigin_toF (s : State) (o : Origin) : (s.abortOrigin o).stage.toF = s.stage.toF := by
  dsimp only [State.abortOrigin]
  split
  · rw [State.ownerReset_stage, State.cancelRoutes_stage, State.cancelSwaps_stage, State.cancelStaged_toF]
  · rw [State.cancelRoutes_stage, State.cancelSwaps_stage, State.cancelStaged_toF]

theorem State.ringDisable_toF (s : State) (r : Nat) (abort : Bool) (tags : List Nat) :
    (s.ringDisable r abort tags).stage.toF = s.stage.toF := by
  have habort : ∀ o, ((State.abortUnread o r (s.ringHolds r) tags s).abortOrigin o).stage.toF = s.stage.toF := fun o => by
    rw [State.abortOrigin_toF, State.abortUnread_stage]
  dsimp only [State.ringDisable]
  split
  · rfl
  split
  · rfl
  split
  · split <;> rfl
  split
  · split <;> exact habort _
  · split
    · rw [State.drainDone_stage, State.modRing_stage, State.ringTo_stage]
    · rfl

theorem State.ringCtlWritten_toF (s : State) (r : Nat) (old : Word) (tags : List Nat) :
    (s.ringCtlWritten r old tags).stage.toF = s.stage.toF := by
  dsimp only [State.ringCtlWritten]
  split
  · rw [State.ringEnable_stage]
  · split
    · exact s.ringDisable_toF r _ tags
    · rfl

/-! ### What the release of a hold leaves on its way to F (R443) -/

theorem State.foldl_toF {α : Type} (f : State → α → State) (h : ∀ s a, (f s a).stage.toF = s.stage.toF) :
    ∀ (l : List α) (s : State), (l.foldl f s).stage.toF = s.stage.toF
  | [], _ => rfl
  | a :: l, s => (State.foldl_toF f h l (f s a)).trans (h s a)

theorem State.holdRelease_toF (s : State) : s.holdRelease.stage.toF = s.stage.toF := by
  unfold State.holdRelease
  split
  · rfl
  · rw [State.setPair_stage, State.foldl_toF _ (fun t act => t.stageAct_toF _), State.modStage_stage]

/-! ### The hooks of the pages GLB_, CLK_, HIF_, LCK_, MEM_, JNL_ and TST_ -/

theorem State.hook_clk {s : State} {x : Nat} {old wo w1 v : Word} (hhi : x < 0x2000) :
    s.hook x old wo w1 v = s.hookClk x old wo := if_pos hhi

theorem State.hook_hif {s : State} {x : Nat} {old wo w1 v : Word} (hlo : 0x2000 ≤ x) (hhi : x < 0x3000) :
    s.hook x old wo w1 v = s.hookHif x old wo := by
  unfold State.hook
  rw [if_neg (by omega), if_pos hhi]

theorem State.hook_mem {s : State} {x : Nat} {old wo w1 v : Word} (hlo : 0xF000 ≤ x) (hhi : x < 0x10000) :
    s.hook x old wo w1 v = s.hookMem x wo := by
  unfold State.hook
  rw [if_neg (by omega), if_neg (by omega), if_neg (by omega), if_neg (by omega), if_neg (by omega), if_neg (by omega),
    if_neg (by omega), if_neg (by omega), if_neg (by omega), if_neg (by omega), if_neg (by omega), if_neg (by omega),
    if_pos hhi]

theorem State.hook_tst {s : State} {x : Nat} {old wo w1 v : Word} (hlo : 0x10000 ≤ x) :
    s.hook x old wo w1 v = s.hookTst x wo := by
  unfold State.hook
  rw [if_neg (by omega), if_neg (by omega), if_neg (by omega), if_neg (by omega), if_neg (by omega), if_neg (by omega),
    if_neg (by omega), if_neg (by omega), if_neg (by omega), if_neg (by omega), if_neg (by omega), if_neg (by omega),
    if_neg (by omega)]

theorem hifRingCtl_injective : Function.Injective R.HIF_RING_CTL := fun i j h => by
  simp only [R.HIF_RING_CTL] at h
  omega

theorem tstSel_injective : Function.Injective R.TST_SEL := fun i j h => by
  simp only [R.TST_SEL] at h
  omega

/-- The EN of a ring (R336, R354). -/
theorem State.hook_hifRingCtl (s : State) (r : Fin 16) (old wo w1 v : Word) :
    s.hook (R.HIF_RING_CTL r) old wo w1 v = s.ringCtlWritten r old [] := by
  have hx : R.HIF_RING_CTL r = 0x200C + 0x20 * r := rfl
  rw [State.hook_hif (by omega) (by omega), State.hookHif, regIdx_self hifRingCtl_injective r.isLt]

/-- The trigger of an owner reset (R356). -/
theorem State.hook_lckOwnerRst (s : State) (old wo w1 v : Word) (hgo : hit wo F.LCK_OWNER_RST_GO = true) :
    s.hook R.LCK_OWNER_RST old wo w1 v = s.ownerReset (s.fld R.LCK_OWNER_RST F.LCK_OWNER_RST_OWNER) 2 := by
  rw [State.hook_eng (by decide) (by decide), State.hookEng, if_neg (by decide), if_neg (by decide), if_neg (by decide),
    if_pos rfl, if_pos hgo]

/-- The selection of a detail record runs nothing (R375). -/
theorem State.hook_memEvtDetSel (s : State) (old wo w1 v : Word) : s.hook R.MEM_EVT_DET_SEL old wo w1 v = s := by
  rw [State.hook_mem (by decide) (by decide), State.hookMem, if_neg (by decide), if_neg (by decide), if_neg (by decide),
    if_neg (by decide)]

/-- The trigger of an injected error (R417). -/
theorem State.hook_memInj (s : State) (old wo w1 v : Word) (hgo : hit wo F.MEM_INJ_GO = true) :
    s.hook R.MEM_INJ old wo w1 v = s.modErr (fun y =>
      { y with inject := some (s.fld R.MEM_INJ F.MEM_INJ_STORE, s.on R.MEM_INJ F.MEM_INJ_DOUBLE) }) := by
  rw [State.hook_mem (by decide) (by decide), State.hookMem, if_neg (by decide), if_neg (by decide), if_pos rfl, if_pos hgo]

/-- A compaction begins before the counters clear, where one word asks for both (R430). -/
theorem State.hook_jnlCtl (s : State) (old wo w1 v : Word) (hgo : hit wo F.JNL_CTL_COMPACT = true) :
    s.hook R.JNL_CTL old wo w1 v = if hit wo F.JNL_CTL_CNT_CLR then s.compactGo.jnlCntClr else s.compactGo := by
  rw [State.hook_mem (by decide) (by decide), State.hookMem, if_neg (by decide), if_neg (by decide), if_neg (by decide),
    if_pos rfl, if_pos hgo]

/-- The trigger of a recovery (R414). -/
theorem State.hook_clkRecovery (s : State) (old wo w1 v : Word) (hgo : hit wo F.CLK_RECOVERY_GO = true) :
    s.hook R.CLK_RECOVERY old wo w1 v = s.recoveryStart := by
  rw [State.hook_clk (by decide), State.hookClk, if_neg (by decide), if_neg (by decide), if_neg (by decide), if_pos rfl,
    if_pos hgo]

/-- HOLD going from 1 to 0 releases the batch (R443). -/
theorem State.hook_glbCommitCtl (s : State) (old wo w1 v : Word) :
    s.hook R.GLB_COMMIT_CTL old wo w1 v =
      if old.fld F.GLB_COMMIT_CTL_HOLD = 1 ∧ s.fld R.GLB_COMMIT_CTL F.GLB_COMMIT_CTL_HOLD = 0 then s.holdRelease
      else s := by
  rw [State.hook_clk (by decide), State.hookClk, if_neg (by decide), if_pos rfl]

/-- The error count clears before a refresh of the mirror begins, where one word asks for both (R439). -/
theorem State.hook_glbCtl (s : State) (old wo w1 v : Word) (hgo : hit wo F.GLB_CTL_REFRESH = true) :
    s.hook R.GLB_CTL old wo w1 v =
      (if hit wo F.GLB_CTL_CNT_CLR then s.setF R.GLB_ACC_ERR F.GLB_ACC_ERR_COUNT 0 else s).setF R.GLB_MIRROR_STS
        F.GLB_MIRROR_STS_REFRESHING 1 := by
  rw [State.hook_clk (by decide), State.hookClk, if_pos rfl, if_pos hgo]

/-- The signal of a test multiplexer (R461). -/
theorem State.hook_tstSel (s : State) (k : Fin 3) (old wo w1 v : Word) :
    s.hook (R.TST_SEL k) old wo w1 v = s.tstWritten k := by
  have hx : R.TST_SEL k = 0x10000 + 0x4 * k := rfl
  rw [State.hook_tst (by omega), State.hookTst, if_neg (by rw [hx, R.TST_CTL]; omega),
    if_neg (by rw [hx, R.MLK_LIM_CFG]; omega), regIdx_self tstSel_injective k.isLt]

/-! ### The registers' fields -/

theorem hifRingCtl_hub : ∀ r : Fin 16, rwsMask (R.HIF_RING_CTL r) = 0 ∧ nowMask (R.HIF_RING_CTL r) ≠ 0 := by
  decide

theorem tstSel_hub : ∀ k : Fin 3, rwsMask (R.TST_SEL k) = 0 ∧ nowMask (R.TST_SEL k) ≠ 0 := by
  decide

/-- A register that an accepted write has written reads the new word. -/
theorem State.written_fld (s : State) (x : Nat) (v : Word) (f : Fld) : (s.written x v).fld x f = (s.newWord x v).fld f :=
  State.fld_wr_same _ _ _ _

/-- HOLD is the only bit of GLB_COMMIT_CTL: the word written is the word held. -/
theorem State.written_hold (s : State) (v : Word) :
    (s.written R.GLB_COMMIT_CTL v).fld R.GLB_COMMIT_CTL F.GLB_COMMIT_CTL_HOLD = v.fld F.GLB_COMMIT_CTL_HOLD := by
  have hrw : rwMask R.GLB_COMMIT_CTL ||| rwbMask R.GLB_COMMIT_CTL = F.GLB_COMMIT_CTL_HOLD.mask := by decide
  have hw1c : w1cMask R.GLB_COMMIT_CTL = 0 := by decide
  have hbit : F.GLB_COMMIT_CTL_HOLD.mask.getLsbD F.GLB_COMMIT_CTL_HOLD.lo = true := by decide
  rw [State.written_fld, State.newWord, hrw, hw1c, show (0 : Word) &&& v = 0 from BitVec.zero_and, not_zero, mix,
    fld_one _ _ rfl, fld_one _ _ rfl]
  simp [hbit]

/-- Settles O31: each register of H runs its hook, and nothing joins the writes on their way to F. -/
theorem hostLockAndSystemWrites : Obligations.HostLockAndSystemWrites := by
  refine ⟨fun a r s h => ?_, fun a r s h => ?_, fun a r tags s hok hbits => ?_, fun a o s h => ?_, fun a v s h => ?_,
    fun a v s h => ?_, fun a v s h => ?_, fun a v s h => ?_, fun a s h => ?_, fun a s h hhold => ?_, fun a v s h => ?_,
    fun a k v s h => ?_⟩
  · exact State.next_hubHook h (hifRingCtl_hub r) (regIdx_fltCoefWin_eq_none (by rw [R.HIF_RING_CTL]; omega))
      (State.hook_hifRingCtl _ r _ _ _ _) (State.ringCtlWritten_toF _ _ _ _)
  · exact State.next_hubHook h (hifRingCtl_hub r) (regIdx_fltCoefWin_eq_none (by rw [R.HIF_RING_CTL]; omega))
      (State.hook_hifRingCtl _ r _ _ _ _) (State.ringCtlWritten_toF _ _ _ _)
  · exact congrArg Host.Outcome.next (if_pos (by rw [hok, hbits]; rfl))
  · exact State.next_hubHook h (by decide) (regIdx_fltCoefWin_eq_none (by decide))
      (State.hook_lckOwnerRst _ _ _ _ _ (hit_trigger (by decide) _)) (by rw [State.ownerReset_stage])
  · exact State.next_hubHook h (by decide) (regIdx_fltCoefWin_eq_none (by decide)) (State.hook_memEvtDetSel _ _ _ _ _) rfl
  · exact State.next_hubHook h (by decide) (regIdx_fltCoefWin_eq_none (by decide))
      (State.hook_memInj _ _ _ _ _ (hit_trigger (by decide) v)) rfl
  · refine State.next_hubHook h (by decide) (regIdx_fltCoefWin_eq_none (by decide))
      (State.hook_jnlCtl _ _ _ _ _ (hit_trigger (by decide) v)) ?_
    split
    · rw [State.jnlCntClr_stage, State.compactGo_stage]
    · rw [State.compactGo_stage]
  · exact State.next_hubHook h (by decide) (regIdx_fltCoefWin_eq_none (by decide))
      (State.hook_clkRecovery _ _ _ _ _ (hit_trigger (by decide) v)) (by rw [State.recoveryStart_stage])
  · refine State.next_hubHook h (by decide) (regIdx_fltCoefWin_eq_none (by decide))
      ((State.hook_glbCommitCtl _ _ _ _ _).trans (if_neg ?_)) rfl
    rw [State.written_hold]
    exact fun ⟨_, hzero⟩ => absurd hzero (by decide)
  · refine State.next_hubHook h (by decide) (regIdx_fltCoefWin_eq_none (by decide))
      ((State.hook_glbCommitCtl _ _ _ _ _).trans (if_pos ?_)) (State.holdRelease_toF _)
    rw [State.written_hold]
    exact ⟨beq_iff_eq.mp hhold, rfl⟩
  · refine State.next_hubHook h (by decide) (regIdx_fltCoefWin_eq_none (by decide))
      (State.hook_glbCtl _ _ _ _ _ (hit_trigger (by decide) v)) ?_
    split <;> rfl
  · exact State.next_hubHook h (tstSel_hub k) (regIdx_fltCoefWin_eq_none (by rw [R.TST_SEL]; omega))
      (State.hook_tstSel _ k _ _ _ _) (by rw [State.tstWritten_stage])

end Sys2Proof.Machine
end

section
/-!
PROOFS. The boot ROM, the seal, the restore of the journal and recovery (R372, R411, R413, R414, R416, R417, R435, R437).
-/
namespace Sys2Proof.Machine

/-! ### The boot (R372, R411, R413) -/

/-- The hub comes up with its clock, the mode and the rails show, and CLK_WAKE_CFG is as after reset. -/
def State.hubStarted (s : State) : State :=
  State.railsShow (List.range 16)
    (((((((s.modPower (fun y => { y with hubUp := true, reading := false, released := s.clk.now3 - 1500000 })).setF
      R.CLK_SYSPLL_STS F.CLK_SYSPLL_STS_XTAL_OK 1).setF R.CLK_SYSPLL_STS F.CLK_SYSPLL_STS_LOCK 1).setF R.CLK_MODE_STS
      F.CLK_MODE_STS_TRANS s.power.trans.isSome.toNat).setF R.CLK_MODE_STS F.CLK_MODE_STS_MODE
      (if s.power.mode = .quiet then 1 else 0)).wr R.CLK_WAKE_CFG (resetWord R.CLK_WAKE_CFG)).setF R.TTH_TKO_CAUSE
      F.TTH_TKO_CAUSE_HUB_PWR_OK 1)

theorem execBootRomStart_of_mayBoot {errA errB : Bool} {s : State} (hboot : s.mayBoot = true) :
    execBootRomStart errA errB s = .next ((s.hubStarted.raiseAt 0x0108 0x0E00 s.power.rstAt
      ([s.power.rstCause, 0, 0, 0, 0, 0, 0, 0] ++ (leBytes 8 s.power.rstBlk).map (·.toNat))).jnlScan.chooseImage
      errA errB) :=
  congrArg Host.Outcome.next (if_pos hboot)

/-! ### The seal (R416, R417) -/

theorem State.isSealed_eq_false_iff {s : State} :
    s.isSealed = false ↔ (s.rd R.CLK_BOOTSEAL).fld F.CLK_BOOTSEAL_SEAL = 0 := by
  rw [State.isSealed, State.on_eq, State.fld_eq, fld_one _ _ rfl]
  cases (s.rd R.CLK_BOOTSEAL).getLsbD F.CLK_BOOTSEAL_SEAL.lo <;> decide

/-- SEAL is an RWB field: a word that carries it sets it. -/
theorem State.written_isSealed (s : State) : (s.written R.CLK_BOOTSEAL 1).isSealed = true := by
  have hrw : rwMask R.CLK_BOOTSEAL ||| rwbMask R.CLK_BOOTSEAL = 1 := by decide
  have hw1c : w1cMask R.CLK_BOOTSEAL &&& 1 = 0 := by decide
  rw [State.isSealed, State.on_eq, State.written_fld, State.newWord, hrw, hw1c, not_zero, mix,
    fld_one _ _ rfl]
  simp [F.CLK_BOOTSEAL_SEAL]

/-- A write to a register of H is one of its own die alone. -/
theorem State.written_of_hub {s : State} {x : Nat} (v : Word) (hx : onFront x = false) :
    s.written x v = s.wr x (s.newWord x v) := by
  rw [State.written, if_neg (Bool.eq_false_iff.mp hx)]

/-- The seal leaves the times from which the boot is measured alone. -/
theorem State.written_bootMs (s : State) (v : Word) : (s.written R.CLK_BOOTSEAL v).bootMs = s.bootMs := by
  rw [State.written_of_hub v (by decide)]
  rfl

/-- SEAL going from 0 to 1 measures the boot. -/
theorem State.hook_clkBootseal {s : State} {old : Word} (wo w1 v : Word) (hold : old.fld F.CLK_BOOTSEAL_SEAL = 0)
    (hseal : s.isSealed = true) :
    s.hook R.CLK_BOOTSEAL old wo w1 v = s.setF R.CLK_BOOT_STS F.CLK_BOOT_STS_BOOT_MS s.bootMs := by
  rw [State.hook_clk (by decide), State.hookClk, if_neg (by decide), if_neg (by decide), if_pos rfl, if_pos ⟨hold, hseal⟩,
    State.bootMs]

theorem State.writeThrough_bootseal {s : State} {ag : Nat} (h : s.accepts ag R.CLK_BOOTSEAL 1 = true)
    (hopen : s.isSealed = false) :
    s.writeThrough ag R.CLK_BOOTSEAL 1 =
      (s.written R.CLK_BOOTSEAL 1).setF R.CLK_BOOT_STS F.CLK_BOOT_STS_BOOT_MS s.bootMs := by
  refine Host.Outcome.next.inj (State.next_hubHook h (by decide) (regIdx_fltCoefWin_eq_none (by decide)) ?_ rfl)
  rw [State.hook_clkBootseal _ _ _ (State.isSealed_eq_false_iff.mp hopen) s.written_isSealed, State.written_bootMs]

/-! ### A register write (R437) -/

/-- An accepted write passes every check that comes before its fields. -/
theorem State.windowWrite_of_accepts {s : State} {ag x : Nat} {v : Word} (h : s.accepts ag x v = true) :
    s.windowWrite ag x v 15 = s.writeFields ag x v := by
  simp only [State.accepts, State.windowOk, Bool.and_eq_true, Bool.not_eq_true'] at h
  obtain ⟨⟨⟨⟨⟨⟨⟨⟨⟨hmay, hagent⟩, hbit⟩, hpresent⟩, hrecovery⟩, hmetro⟩, hrwb⟩, hlink⟩, -⟩, -⟩ := h
  simp only [State.windowWrite, hmay, hagent, hbit, hpresent, hrecovery, hmetro, hrwb, hlink, Bool.and_self,
    Bool.not_true, Bool.or_self, Bool.false_and, Bool.false_eq_true, ne_eq, not_true_eq_false, if_false]

/-! ### The end of the restore, and of a recovery (R414, R435) -/

/-- The restore ends once none of its writes is staged or on its way to F. -/
theorem execJournalRestoreDone_of_settled {s : State} (hup : s.power.hubUp = true) (hseal : s.isSealed = true)
    (hopen : s.on R.CLK_BOOT_STS F.CLK_BOOT_STS_JNL_DONE = false) (himg : s.fld R.CLK_BOOT_STS F.CLK_BOOT_STS_IMG ≠ 2)
    (hfront : s.stage.toF = []) (hstaged : s.stage.changes.all (fun c => c.rank != rankRestore) = true) :
    execJournalRestoreDone s = .next (((s.setF R.CLK_BOOT_STS F.CLK_BOOT_STS_JNL_DONE 1).modPower
      (fun y => { y with reading := true })).bootEnds) := by
  refine congrArg Host.Outcome.next (if_pos ?_)
  rw [hup, hseal, hopen, bne_iff_ne.mpr himg, hfront, hstaged]
  rfl

/-- The operation leaves the queue and BUSY clears; then image A holds the bytes, or ERR shows. -/
theorem execRecoveryDone_of_recovery {ok : Bool} {off : Nat} {bs : List Byte} {o : FlashOp} {rest : List FlashOp}
    {s : State} (hops : s.flash.ops = o :: rest) (hjob : o.job = .recovery off bs) :
    execRecoveryDone ok s = .next (
      if ok then ((((s.modFlash (fun f => { f with ops := rest })).setF R.CLK_RECOVERY F.CLK_RECOVERY_BUSY
        0).flashApply (.recovery off bs)).jnlShow)
      else ((((s.modFlash (fun f => { f with ops := rest })).setF R.CLK_RECOVERY F.CLK_RECOVERY_BUSY 0).setF
        R.CLK_RECOVERY F.CLK_RECOVERY_ERR 1).jnlShow)) := by
  obtain ⟨id, job, began⟩ := o
  obtain rfl : job = .recovery off bs := hjob
  rw [execRecoveryDone, hops]

/-- Settles O41: the boot where the hub may boot, the seal and a register write by the checks that an accepted write
passes, and the ends of the restore and of a recovery where they are due. -/
theorem bootAndSeal : Obligations.BootAndSeal := by
  refine ⟨fun _ _ _ hboot => ⟨_, execBootRomStart_of_mayBoot hboot, rfl⟩, fun a s h hopen => ?_, fun a x v s h => ?_,
    fun _ => execJournalRestoreDone_of_settled, fun _ _ _ _ _ => execRecoveryDone_of_recovery,
    fun _ _ _ _ _ => execRecoveryDone_of_recovery⟩
  · refine congrArg Host.Outcome.next ?_
    rw [State.writeThrough_bootseal h hopen, hopen, State.bootMs]
  · exact congrArg (fun t : State => Host.Outcome.next (t.afterSeal s.isSealed)) (State.windowWrite_of_accepts h)

end Sys2Proof.Machine
end

section
/-!
PROOFS. The step: it takes the front command, keeps the forms of the data, and goes on (R437, R351; log entries 7, 9 and 10).
-/
namespace Sys2Proof.Machine

/-! ### A step (log entries 7 and 10) -/

/-- Settles O45: the queue of the state is the command and the rest. -/
theorem stepTakesTheFront : Obligations.StepTakesTheFront :=
  fun _ _ _ => step_of_pending_cons rfl

/-- Settles O49: a tick, or a command on the state with the rest of the queue; either keeps the forms of the data. -/
theorem stepKeepsTheInvariant : Obligations.StepKeepsTheInvariant := by
  intro s t hs hstep
  have hk : s.Keeps s.pending := State.Keeps.of_inv hs
  cases hq : s.pending with
  | nil =>
    rw [step_of_pending_nil hq] at hstep
    exact Host.Outcome.next.inj hstep ▸ (State.tick_keeps s hk).inv
  | cons c rest =>
    rw [step_of_pending_cons hq] at hstep
    exact (exec_keeps c _ (State.withRest_keeps hk rest) t hstep).inv

/-- Settles O50: the meaning of every command keeps the queue that it finds. -/
theorem execLeavesTheQueue : Obligations.ExecLeavesTheQueue :=
  fun c s t hs hexec => (exec_keeps c s (State.Keeps.of_inv hs) t hexec).pending_eq

/-! ### No stop (log entry 9) -/

/-- Settles O47: every meaning is a next state. -/
theorem noCommandStops : Obligations.NoCommandStops := exec_answers

/-- A tick and a command both answer a next state. -/
theorem step_answers (s : State) : ∃ t, step s = .next t := by
  cases hq : s.pending with
  | nil => exact ⟨s.tick, step_of_pending_nil hq⟩
  | cons c rest =>
    rw [step_of_pending_cons hq]
    exact exec_answers c _

/-- Settles O52, by induction on the number of steps. -/
theorem everyRunGoesOn : Obligations.EveryRunGoesOn := by
  intro s n
  induction n generalizing s with
  | zero => exact ⟨s, rfl⟩
  | succ n ih =>
    obtain ⟨t, hstep⟩ := step_answers s
    obtain ⟨u, hrun⟩ := ih t
    exact ⟨u, runsTo_succ hstep hrun⟩

end Sys2Proof.Machine
end

section
/-!
PROOFS. Calibration and the seal of M over MUART (R389, R390, R393; log entry 29).
-/
namespace Sys2Proof.Machine

/-! ### What M does with a request (R389, R390) -/

/-- M notes VER_EN with every request that reaches it whole. -/
def State.verSeen (s : State) (ver : Bool) : State := s.modMetro (fun m => { m with verEn := ver })

/-- A request reaches M whole: M is on and the CRC holds. -/
theorem State.muartTake_of_received {s : State} {r : MuartReq} (hon : s.mOn = true) (hcrc : r.crcOk = true) (cmd len : Nat)
    (v legal : Bool) (f : State → State) :
    s.muartTake r cmd len v legal f =
      if v && !r.ver then (s.verSeen r.ver).muart cmd 2 []
      else if legal && s.metro.sealed then (s.verSeen r.ver).muartSealed cmd
      else if s.metro.run.isSome then (s.verSeen r.ver).muart cmd 4 []
      else if r.payload.length ≠ len then (s.verSeen r.ver).muart cmd 1 []
      else f (s.verSeen r.ver) := by
  rw [State.muartTake, hon, hcrc]
  rfl

/-- A command marked V without VER_EN is answered NEEDS_VER, whatever else holds. -/
theorem State.muartTake_of_ver_low {s : State} {r : MuartReq} (hon : s.mOn = true) (hcrc : r.crcOk = true)
    (hver : r.ver = false) (cmd len : Nat) (legal : Bool) (f : State → State) :
    s.muartTake r cmd len true legal f = (s.verSeen r.ver).muart cmd 2 [] := by
  rw [State.muartTake_of_received hon hcrc, if_pos (by rw [hver]; rfl)]

/-- A sealed part refuses a change of a legal parameter, with a record and a count. -/
theorem State.muartTake_of_sealed {s : State} {r : MuartReq} (hon : s.mOn = true) (hcrc : r.crcOk = true)
    (hver : r.ver = true) (hsealed : s.metro.sealed = true) (cmd len : Nat) (v : Bool) (f : State → State) :
    s.muartTake r cmd len v true f = (s.verSeen true).muartSealed cmd := by
  rw [State.muartTake_of_received hon hcrc, hver, if_neg (by simp), if_pos (by rw [hsealed]; rfl)]

/-- M carries out a V request of the right length while no measurement runs, a legal one only before the seal. -/
theorem State.muartTake_of_ready {s : State} {r : MuartReq} {len : Nat} {legal : Bool} (hon : s.mOn = true)
    (hcrc : r.crcOk = true) (hidle : s.metro.run = none) (hlen : r.payload.length = len) (hver : r.ver = true)
    (hopen : (legal && s.metro.sealed) = false) (cmd : Nat) (v : Bool) (f : State → State) :
    s.muartTake r cmd len v legal f = f (s.verSeen true) := by
  rw [State.muartTake_of_received hon hcrc, hver, hopen, hidle, hlen, if_neg (by simp), if_neg Bool.false_ne_true,
    if_neg (by simp), if_neg (not_not.mpr rfl)]

/-! ### Staging a block (R390) -/

theorem execCalSet_of_legal_sens {r : MuartReq} {s : State} (hon : s.mOn = true) (hcrc : r.crcOk = true)
    (hidle : s.metro.run = none) (hlen : r.payload.length = 14) (hver : r.ver = true) (hopen : s.metro.sealed = false)
    (hlo : 1000 ≤ (calVals ([0, 0, 0, 0] ++ r.payload)).sens) (hhi : (calVals ([0, 0, 0, 0] ++ r.payload)).sens ≤ 200000) :
    execCalSet r s = .next (((s.verSeen true).modMetro
      (fun m => { m with staged := some (calVals ([0, 0, 0, 0] ++ r.payload)), settle := 10 })).muart 0x11 0 []) := by
  rw [execCalSet, State.muartTake_of_ready hon hcrc hidle hlen hver (by rw [hopen]; rfl)]
  exact congrArg Host.Outcome.next (if_pos ⟨hlo, hhi⟩)

/-! ### A measurement and a check (R390) -/

theorem execCalMeasureDone_of_run {vals : List Nat} {run : CalRun} {s : State} (hon : s.mOn = true)
    (hrun : s.metro.run = some run) (hmeas : run.check = false) (hvals : vals.isEmpty = false) :
    execCalMeasureDone vals s = .next (
      if 10 < maxOf 0 vals - minOf 0 vals ∨ 3000 < (((run.level : Int) - levelMean vals) * 10).natAbs then
        (s.modMetro (fun m => { m with run := none })).muart 0x12 1 []
      else
        ((s.modMetro (fun m => { m with run := none })).modMetro
          (fun m => { m with staged := some { m.cal0 with corr := ((run.level : Int) - levelMean vals) * 10 } })).muart 0x12 0
          (leBytes 2 (levelMean vals) ++ leInt 2 (((run.level : Int) - levelMean vals) * 10))) := by
  rw [execCalMeasureDone, hon, hrun]
  exact congrArg Host.Outcome.next (if_neg (by rw [hmeas, hvals]; exact Bool.false_ne_true))

theorem execCalCheckDone_of_run {vals : List Nat} {run : CalRun} {s : State} (hon : s.mOn = true)
    (hrun : s.metro.run = some run) (hcheck : run.check = true) (hvals : vals.isEmpty = false) :
    execCalCheckDone vals s = .next ((s.modMetro (fun m => ({ m with run := none }).note 8
      (leBytes 2 run.level ++ leBytes 2 (levelMean vals)))).muart 0x15 0 (leBytes 2 (levelMean vals))) := by
  rw [execCalCheckDone, hon, hrun]
  exact congrArg Host.Outcome.next (if_neg (by rw [hcheck, hvals]; exact Bool.false_ne_true))

/-! ### The slots and the seal (R390, R393) -/

theorem execCalCommit_of_staged {r : MuartReq} {v : CalVals} {i : Nat} {s : State} (hon : s.mOn = true)
    (hcrc : r.crcOk = true) (hidle : s.metro.run = none) (hlen : r.payload.length = 0) (hver : r.ver = true)
    (hopen : s.metro.sealed = false) (hstaged : s.metro.staged = some v) (hslot : s.metro.slot = some i) (hi : i < 3) :
    execCalCommit r s = .next (((s.verSeen true).modMetro (fun m =>
      ({ m with otp := m.otp.set (i + 1) (List.replicate 3 (v.block (s.verSeen true).metro.time48)), staged := none }).note 6
        (leBytes 1 (i + 1) ++ leBytes 4 v.sens ++ leInt 2 v.corr))).muart 0x13 0 (leBytes 1 (i + 1))) := by
  have hstaged' : (s.verSeen true).metro.staged = some v := hstaged
  have hslot' : (s.verSeen true).metro.slot = some i := hslot
  rw [execCalCommit, State.muartTake_of_ready hon hcrc hidle hlen hver (by rw [hopen]; rfl), hstaged', hslot']
  have hfree : ¬ 4 ≤ i + 1 := by omega
  simp only [hfree, if_false, List.replicate]

theorem execCalCommit_of_none {r : MuartReq} {s : State} (hon : s.mOn = true) (hcrc : r.crcOk = true)
    (hidle : s.metro.run = none) (hlen : r.payload.length = 0) (hver : r.ver = true) (hopen : s.metro.sealed = false)
    (hstaged : s.metro.staged = none) : execCalCommit r s = .next ((s.verSeen true).muart 0x13 1 []) := by
  have hstaged' : (s.verSeen true).metro.staged = none := hstaged
  rw [execCalCommit, State.muartTake_of_ready hon hcrc hidle hlen hver (by rw [hopen]; rfl), hstaged']

/-- The voted block is one of the slots alone. -/
theorem State.verSeen_voted (s : State) (ver : Bool) : (s.verSeen ver).metro.voted = s.metro.voted := by
  rw [MetroX.voted, MetroX.voted, MetroX.slot, MetroX.slot, State.verSeen, State.modMetro]

theorem execSeal_of_good_block {r : MuartReq} {i : Nat} {bs : List Byte} {s : State} (hon : s.mOn = true)
    (hcrc : r.crcOk = true) (hidle : s.metro.run = none) (hlen : r.payload.length = 0) (hver : r.ver = true)
    (hopen : s.metro.sealed = false) (hvoted : s.metro.voted = some (i, bs, true)) :
    execSeal r s = .next (((s.verSeen true).modMetro
      (fun m => (({ m with sealed := true }).legal).note 7 (leBytes 1 i))).muart 0x14 0 []) := by
  have hvoted' : (s.verSeen true).metro.voted = some (i, bs, true) := (s.verSeen_voted true).trans hvoted
  rw [execSeal, State.muartTake_of_ready hon hcrc hidle hlen hver (by rw [hopen]; rfl), hvoted']

/-- Settles O24: each command by what M does with its request, and the ends of a measurement and a check where one runs. That
NEEDS_VER and SEALED come before BUSY, and that nothing staged is BAD_PARAM, are log entry 29. -/
theorem muartCalibration : Obligations.MuartCalibration := by
  refine ⟨fun _ _ => execCalSet_of_legal_sens,
    fun _ _ hon hcrc hver => congrArg Host.Outcome.next (State.muartTake_of_ver_low hon hcrc hver _ _ _ _),
    fun _ _ hon hcrc hver hsealed => congrArg Host.Outcome.next (State.muartTake_of_sealed hon hcrc hver hsealed _ _ _ _),
    fun r s hon hcrc hidle hlen hver hopen => ?_, fun r s hon hcrc hidle hlen hver => ?_,
    fun vals run s hon hrun hmeas hvals hspread hcorr => ?_, fun vals run s hon hrun hmeas hvals hspread => ?_,
    fun _ _ _ => execCalCheckDone_of_run, fun _ _ _ _ => execCalCommit_of_staged,
    fun r s hon hcrc hidle hlen hver hopen hstaged => ?_, fun _ _ _ _ => execSeal_of_good_block⟩
  · rw [hver]
    exact congrArg Host.Outcome.next (State.muartTake_of_ready hon hcrc hidle hlen hver (by rw [hopen]; rfl) _ _ _)
  · rw [hver]
    exact congrArg Host.Outcome.next (State.muartTake_of_ready hon hcrc hidle hlen hver rfl _ _ _)
  · exact (execCalMeasureDone_of_run hon hrun hmeas hvals).trans (congrArg Host.Outcome.next (if_neg (by omega)))
  · exact (execCalMeasureDone_of_run hon hrun hmeas hvals).trans (congrArg Host.Outcome.next (if_pos (.inl hspread)))
  · rw [hver]
    exact execCalCommit_of_none hon hcrc hidle hlen hver hopen hstaged

end Sys2Proof.Machine
end

section
/-!
PROOFS. Reads that latch, and JTAG (R404, R441, R463, R464, R465; log entry 52).
-/
namespace Sys2Proof.Machine

/-! ### JTAG (R463, R464, R465) -/

/-- The instruction that the H TAP shows is the one set. -/
theorem State.fld_setF_jtagIr (s : State) {x : Nat} (hx : x < 2 ^ 8) :
    (s.setF R.TST_JTAG F.TST_JTAG_IR x).fld R.TST_JTAG F.TST_JTAG_IR = x :=
  (State.fld_setF_same s _ _ x (by decide)).trans (Nat.mod_eq_of_lt hx)

theorem execJtagRegwin_of_other_ir {s : State} (hir : s.fld R.TST_JTAG F.TST_JTAG_IR ≠ irRegwin) (w : BitVec 50) :
    execJtagRegwin w s = .next s :=
  congrArg Host.Outcome.next (if_neg hir)

theorem execJtagRegwin_of_regwin {s : State} (hir : s.fld R.TST_JTAG F.TST_JTAG_IR = irRegwin) (w : BitVec 50) :
    execJtagRegwin w s = .next (
      let x := (w.extractLsb' 32 17).toNat
      let s1 := s.incSat R.TST_JTAG F.TST_JTAG_REGWIN
      if w.getLsbD 49 then
        let ok := s1.mayWrite 14 x && s1.agentOk 14 && !(s1.isSealed && (s1.needsBit 14 x || rwbMask x != 0))
        ((s1.fresh 32).2.writeThrough 14 x (w.extractLsb' 0 32)).modTest
          (fun y => { y with data := (s1.fresh 32).1, done := ok, refused := !ok })
      else
        let ok := s1.mayRead 14 x && s1.agentOk 14
        (s1.windowRead 14 x).2.modTest (fun y => { y with data := (s1.windowRead 14 x).1, done := ok, refused := !ok })) :=
  congrArg Host.Outcome.next (if_pos hir)

/-- Settles O32: a read by the word and the state of the window read, JTAG by the instruction that the H TAP holds. That
REGWIN counts every Update-DR and that the data after a write is free are log entry 52. -/
theorem readsAndJtag : Obligations.ReadsAndJtag := by
  refine ⟨fun _ _ _ => rfl, fun _ _ => rfl, fun irH irF irM s => ⟨_, rfl, rfl, ?_, rfl, rfl, rfl⟩,
    fun s => ⟨_, rfl, rfl, ?_, rfl, rfl, rfl⟩, fun w s hir => execJtagRegwin_of_other_ir hir w,
    fun w s hir hread => ?_, fun w s hir hwrite => ?_⟩
  · exact State.fld_setF_jtagIr s irH.isLt
  · exact State.fld_setF_jtagIr s (by decide)
  · exact (execJtagRegwin_of_regwin hir w).trans
      (congrArg Host.Outcome.next (if_neg (by rw [hread]; exact Bool.false_ne_true)))
  · exact (execJtagRegwin_of_regwin hir w).trans (congrArg Host.Outcome.next (if_pos hwrite))

end Sys2Proof.Machine
end

section
/-!
PROOFS. After the seal a window write leaves every register with RWB fields alone (R416, R417, R437; log entry 41).
-/
namespace Sys2Proof.Machine

/-! ### Where RWB fields stand (R10, R417) -/

theorem findIn_mem {a : Nat} {p : RegDef × Nat × Nat} : ∀ {ds : List RegDef}, findIn ds a = some p → p.1 ∈ ds
  | [], h => nomatch h
  | d :: ds, h => by
    unfold findIn at h
    split at h
    case h_1 =>
      obtain rfl := Option.some.inj h
      exact List.mem_cons_self
    case h_2 => exact List.mem_cons_of_mem d (findIn_mem h)

/-- No field of a table has an access code. -/
def codeAbsent (c : Acc) (ds : List RegDef) : Bool := ds.all (fun d => d.fields.all (fun f => f.acc != c))

theorem foldl_mask_of_absent {c : Acc} {m : Word} : ∀ {fs : List FieldDef}, fs.all (fun f => f.acc != c) = true →
    fs.foldl (fun m f => if f.acc = c then m ||| f.fld.mask else m) m = m
  | [], _ => rfl
  | f :: fs, h => by
    obtain ⟨hf, hfs⟩ := Bool.and_eq_true_iff.mp (List.all_cons.symm.trans h)
    rw [List.foldl_cons, if_neg (bne_iff_ne.mp hf)]
    exact foldl_mask_of_absent hfs

/-- A register of a page whose table has no field of a code has no bit of that code. -/
theorem codeMask_of_codeAbsent {c : Acc} {a : Nat} (h : codeAbsent c (regTableAt a) = true) : codeMask a c = 0 := by
  rw [codeMask, fieldsAt]
  split
  case h_1 d i j hd => exact foldl_mask_of_absent (List.all_eq_true.mp h d (findIn_mem hd))
  case h_2 => rfl

theorem codeAbsent_ite {c : Acc} {p : Prop} [Decidable p] {ds es : List RegDef} (hds : p → codeAbsent c ds = true)
    (hes : ¬ p → codeAbsent c es = true) : codeAbsent c (if p then ds else es) = true := by
  split
  case isTrue h => exact hds h
  case isFalse h => exact hes h

/-- RWB fields stand in the CLK_ and PROT_ pages alone: the table of every other page, in the order of the addresses, has
none. -/
theorem rwb_absent_outside {a : Nat} (hclk : ¬ (0x1000 ≤ a ∧ a < 0x2000)) (hprot : ¬ (0x3000 ≤ a ∧ a < 0x4000)) :
    codeAbsent .rwb (regTableAt a) = true := by
  rw [regTableAt]
  refine codeAbsent_ite (fun _ => by decide) fun _ => ?_
  refine codeAbsent_ite (fun h => absurd ⟨by omega, h⟩ hclk) fun _ => ?_
  refine codeAbsent_ite (fun _ => by decide) fun _ => ?_
  refine codeAbsent_ite (fun h => absurd ⟨by omega, h⟩ hprot) fun _ => ?_
  iterate 11 refine codeAbsent_ite (fun _ => by decide) fun _ => ?_
  decide

theorem page_of_rwb {a : Nat} (h : rwbMask a ≠ 0) : 0x1000 ≤ a ∧ a < 0x2000 ∨ 0x3000 ≤ a ∧ a < 0x4000 := by
  by_contra hout
  obtain ⟨hclk, hprot⟩ := not_or.mp hout
  exact h (codeMask_of_codeAbsent (rwb_absent_outside hclk hprot))

/-! ### What a refused write changes (R416, R437) -/

/-- A refusal is recorded in two registers of the CLK_ page; its event goes to the host interface. -/
theorem State.protViolation_rd (s : State) (ag kind a : Nat) {x : Nat} (hviol : x ≠ R.CLK_PROT_VIOL)
    (haddr : x ≠ R.CLK_PROT_ADDR) (hhif : x < 0x2000 ∨ 0x3000 ≤ x) : (s.protViolation ag kind a).rd x = s.rd x := by
  rw [State.protViolation, (State.HostOnly.raiseLimited (State.HostOnly.refl _) _ _ _ _).rd x hhif,
    State.rd_wr_ne _ _ _ _ haddr.symm, State.rd_setF_ne _ _ _ _ _ hviol.symm, State.rd_setF_ne _ _ _ _ _ hviol.symm,
    State.rd_incSat_ne _ _ _ _ hviol.symm]

/-- An access to no register, or a partial write, is recorded in registers of the GLB_ page. -/
theorem State.accErr_rd (s : State) (ag kind a : Nat) {x : Nat} (hx : 0x1000 ≤ x) : (s.accErr ag kind a).rd x = s.rd x := by
  have hsts : R.GLB_STS ≠ x := by rw [R.GLB_STS]; omega
  have herr : R.GLB_ACC_ERR ≠ x := by rw [R.GLB_ACC_ERR]; omega
  have haddr : R.GLB_ACC_ERR_ADDR ≠ x := by rw [R.GLB_ACC_ERR_ADDR]; omega
  rw [State.accErr, State.rd_wr_ne _ _ _ _ haddr, State.rd_setF_ne _ _ _ _ _ herr, State.rd_setF_ne _ _ _ _ _ herr,
    State.rd_incSat_ne _ _ _ _ herr, State.rd_setF_ne _ _ _ _ _ hsts]

/-- After the seal a write to a register with RWB fields never reaches its fields: it is refused, counted as an error of the
access, or dropped. -/
theorem State.windowWrite_of_sealed_rwb {s : State} {x : Nat} (hseal : s.isSealed = true) (hrwb : rwbMask x ≠ 0)
    (ag : Nat) (v : Word) (be : Nat) :
    (∃ kind, s.windowWrite ag x v be = s.protViolation ag kind x) ∨
      (∃ kind, s.windowWrite ag x v be = s.accErr ag kind x) ∨ s.windowWrite ag x v be = s := by
  have hrefused : (s.isSealed && rwbMask x != 0) = true := by rw [hseal, bne_iff_ne.mpr hrwb]; rfl
  rw [State.windowWrite, if_pos hrefused]
  split_ifs
  · exact .inl ⟨1, rfl⟩
  · exact .inr (.inl ⟨2, rfl⟩)
  · exact .inr (.inl ⟨1, rfl⟩)
  · exact .inr (.inr rfl)
  · exact .inl ⟨2, rfl⟩

/-- Settles O53: RWB fields stand in the CLK_ and PROT_ pages, and not in the two registers that record a refusal. -/
theorem sealedFieldsStay : Obligations.SealedFieldsStay := by
  intro ag x be v s hseal hrwb
  have hpage := page_of_rwb hrwb
  have hviol : x ≠ R.CLK_PROT_VIOL := fun hx => hrwb (by rw [hx]; decide)
  have haddr : x ≠ R.CLK_PROT_ADDR := fun hx => hrwb (by rw [hx]; decide)
  obtain ⟨kind, hw⟩ | ⟨kind, hw⟩ | hw := State.windowWrite_of_sealed_rwb hseal hrwb ag v be
  · rw [hw]
    exact s.protViolation_rd ag kind x hviol haddr (by omega)
  · rw [hw]
    exact s.accErr_rd ag kind x (by omega)
  · rw [hw]

end Sys2Proof.Machine
end
